-- ==== Sys2Proof/Word.lean ====
section
/-! DEFINITION. The word types of the J1024 (R16, R20, R23) and sparse maps with a default element. -/

namespace Sys2Proof

abbrev Byte := BitVec 8
abbrev Half := BitVec 16
abbrev Word := BitVec 32
abbrev DWord := BitVec 64
/-- One aligned 16-byte memory word (R335, R336). -/
abbrev QWord := BitVec 128
/-- A 40-bit device physical address (Table 1.5). -/
abbrev PhysAddr := BitVec 40

/-- Device yoke number, 16 × span + yoke index (R20). -/
abbrev YokeId := Fin 1024
/-- Device span index; also the index of the fabric node and of the fold memory group there (R20, R24). -/
abbrev SpanId := Fin 64
/-- Device group number (R24, R325). -/
abbrev GroupId := Fin 64
/-- Fold number (R23). -/
abbrev FoldId := Fin 16
/-- Device DMA channel number (R369). -/
abbrev DmaId := Fin 64
/-- General register number (R132). -/
abbrev Gpr := Fin 16
/-- Float register number (R141). -/
abbrev Freg := Fin 16
/-- Ethernet port P0 to P3 (R506). -/
abbrev EthPort := Fin 4
/-- Port P0 to P4 (Table 14.11). -/
abbrev PortId := Fin 5

/-- A sparse map: keys not listed hold the default the reader names. The first entry of a key counts. -/
abbrev KMap (κ α : Type) := List (κ × α)

/-- The element of `k`, or the default `d`. -/
def kget {κ α : Type} [DecidableEq κ] (m : KMap κ α) (d : α) (k : κ) : α :=
  match m with
  | [] => d
  | e :: t => if e.1 = k then e.2 else kget t d k

/-- The map without any entry of `k`. -/
def kdel {κ α : Type} [DecidableEq κ] (m : KMap κ α) (k : κ) : KMap κ α :=
  match m with
  | [] => []
  | e :: t => if e.1 = k then kdel t k else e :: kdel t k

/-- The map with `k` holding `v`. -/
def kset {κ α : Type} [DecidableEq κ] (m : KMap κ α) (k : κ) (v : α) : KMap κ α :=
  (k, v) :: kdel m k

end Sys2Proof
end

