-- ==== Sys2Proof/Syntax/Operands.lean ====
section
/-! DEFINITION. The operand types of the commands: the operand forms of Dresel instructions (chapter 4) and the
things an event brings with it (a disturbance, an error the reading of a memory word meets). -/

namespace Sys2Proof.Machine

/-- The repeat prefixes of Table 4.7. -/
inductive Rep
  | once
  | rep
  | repi
deriving DecidableEq, Repr

/-- Second operand of an ALU operation (Table 4.10): register, 16-bit immediate (sign-extended), 32-bit immediate. -/
inductive AluArg
  | reg (s : Gpr)
  | imm16 (i : Half)
  | imm32 (i : Word)
deriving DecidableEq, Repr

/-- The memory forms of R153. The base field 0b1111 is the short absolute form, so a base register is g0 to g14. -/
inductive MemAddr
  | base (b : Fin 15) (disp : Half)
  | short (bank : Option Byte) (off : BitVec 24)
  | long (a : Word)
deriving DecidableEq, Repr

/-- Branch targets of R154. -/
inductive BrTarget
  | rel (disp : Half)
  | long (a : Word)
deriving DecidableEq, Repr

/-- Rounding selection of the format byte (Table 4.6, bits S and RMS). -/
inductive Rnd
  | fcsr
  | static (rm : BitVec 2)
deriving DecidableEq, Repr

/-- The addend of FADD (Table 4.12). -/
inductive Addend
  | reg (r : Gpr)
  | imm (i : Word)
deriving DecidableEq, Repr

/-- The compared fields of a compare queue entry (Table 2.2), in the order of the kinds of Table 2.7. -/
inductive BusField
  | fetch
  | load
  | storeAddr
  | storeBe
  | storeData
  | float
  | sysreg
deriving DecidableEq, Repr

/-- What a fault does to a checkpoint's confirmation: a register of the trailing core that differs (numbered as in
Table 2.14), bits of the data of the `n`-th held entry of the interval that differ (R65), or one of these with a parity
error of the checkpoint shadow met by the restore (R75). -/
inductive CkDisturb
  | none
  | state (reg : Byte) (mask : Word)
  | held (n : Nat) (mask : BitVec 128)
  | shadow (d : CkDisturb)
deriving DecidableEq, Repr

/-- What a fault in the yoke does to one comparison. `none` is the fault-free case. `field` names the bits in which the
trailing side's output differs; the others are the checks of Table 2.7 that are not comparisons of a bus output, with
the number of differing bits and the lowest position the check itself reports. `checkpoint` disturbs the checkpoint that is confirmed
at the same slip-collapsing instruction. `shadow` is a disturbance whose restore
then meets a parity error of the checkpoint shadow (R75). -/
inductive Disturb
  | none
  | field (f : BusField) (mask : BitVec 128)
  | regParity (trailing : Bool) (first ndiff : Byte)
  | queueParity (first ndiff : Byte)
  | floatResidue (first ndiff : Byte)
  | codeError (first ndiff : Byte)
  | slipFloor
  | checkpoint (d : CkDisturb)
  | shadow (d : Disturb)
deriving DecidableEq, Repr

/-- A disturbance of one codeword of memory (R342, R343): the bits inverted in its data and in its check bits, and the codeword
(physical address bits 39:3) whose contents the access read in its place. -/
structure CwFlip where
  data : DWord
  check : Byte
  other : Option (BitVec 37)
deriving DecidableEq, Repr

/-- No disturbance. -/
def CwFlip.none : CwFlip := ⟨0, 0, Option.none⟩

/-- What reading one codeword meets (Table 9.7). -/
inductive Ecc
  | clean
  | dataBit
  | checkBit
  | uncorrectable
deriving DecidableEq, Repr

/-- What the fabric's CRC check of one transaction meets (R346). -/
inductive FabricOutcome
  | linkEvent
  | linkDataError
  | retryFails
deriving DecidableEq, Repr

/-- The endpoints of the fabric (R24, R26, Table 1.1). -/
inductive FabricEnd
  | span (s : SpanId)
  | group (g : GroupId)
  | port (p : Fin 5)
  | pairInput
  | safeOutput
  | flash
  | twinTransmit
  | twinReceive
  | dmaPoint (c : Fin 8)
  | drover (second : Bool)
  | vault
  | epochController
  | faultManager
  | tally
  | bistController
  | powerManager
deriving DecidableEq, Repr

/-- What a DMA channel's own checks meet (R389, R395). -/
inductive DmaFault
  | none
  | parity
  | sequencer
  | readBack
deriving DecidableEq, Repr

/-- Which memory a span-indexed memory command names: the span's scratchpad, or the fold memory group of its node. -/
inductive MemKind
  | scratch
  | group
deriving DecidableEq, Repr

/-- Host configuration requests that change what P4 does (R518, R520, R525): VF Enable, and of a virtual function Bus Master
Enable, the start and the end of Function Level Reset, its BAR; Max_Payload_Size and Max_Read_Request_Size in bytes, the completion
timeout range of Device Control 2; MSI-X Enable and Function Mask, and a vector's address, data and mask. -/
inductive PcieConfig
  | vfEnable (on : Bool)
  | busMaster (f : FoldId) (on : Bool)
  | functionReset (f : FoldId)
  | functionReady (f : FoldId)
  | bar (f : FoldId) (base : DWord)
  | maxPayload (n : Nat)
  | maxRead (n : Nat)
  | timeoutRange (code : Nat)
  | msixControl (f : FoldId) (on masked : Bool)
  | msixVector (f : FoldId) (v : Fin 16) (addr : DWord) (data : Word) (masked : Bool)
deriving DecidableEq, Repr

/-- Resources with an ownership register of Table 11.4. -/
inductive Resource
  | span (i : SpanId)
  | group (g : GroupId)
  | dma (c : DmaId)
  | queue (p : EthPort) (q : Fin 64)
deriving DecidableEq, Repr

end Sys2Proof.Machine
end

