-- ==== Sys2Proof/Machine/Parts/Yoke.lean ====
section
/-! DEFINITION. The state of one yoke: the two cores, the float unit, the compare and load-value queues, the
write-hold buffer, the checkpoint slots and the deque (chapters 2, 4 to 8). Every After-reset value is the value the
spec gives at task start or reset; where it gives none the log entry named in the comment says so. -/

namespace Sys2Proof.Machine

/-- Region kinds of Table 12.1. -/
inductive RegionKind
  | device | span | group | node | fold | dma | port
deriving DecidableEq, Repr

/-- A detector's report to the fault manager (R429): source code of Table 12.2, region, unit, detail word, the class when
the report names one itself (FM.REQ), and the device time of detection in ns. -/
structure Report where
  src : Byte
  kind : RegionKind
  region : Nat
  unit : Nat
  detail : Word
  cls : Option (BitVec 3)
  time : Nat
deriving DecidableEq, Repr

/-- The ALU operations of Table 4.10. -/
inductive AluOp
  | add | adc | sub | sbc | and | or | xor | andn | shl | shr | sar | cmp | tst | mov
deriving DecidableEq, Repr

/-- The multiplies of Table 4.11. -/
inductive MulOp
  | muls | mulu | mulws | mulwu
deriving DecidableEq, Repr

/-- The unary operations of Table 4.11. -/
inductive UnOp
  | neg | not | extb | exth | clz
deriving DecidableEq, Repr

/-- The loads of Table 5.3. -/
inductive LoadOp
  | b | bu | h | hu | w | d | q
deriving DecidableEq, Repr

/-- The stores of Table 5.3. -/
inductive StoreOp
  | b | h | w | d | q
deriving DecidableEq, Repr

/-- The block operations of Table 5.7. -/
inductive BlockOp
  | movm | fillm | cmpm
deriving DecidableEq, Repr

/-- The control transfers of Table 5.8 that stay in the ring. -/
inductive BranchOp
  | br (t : BrTarget)
  | bcc (cond : BitVec 4) (t : BrTarget)
  | brl (t : BrTarget)
  | jr (s : Gpr)
  | jrl (s : Gpr)
  | ret
  | loop (t : BrTarget)
deriving DecidableEq, Repr

/-- Two-operand float arithmetic of Table 4.15. -/
inductive FBin
  | add | sub | mul | div
deriving DecidableEq, Repr

/-- The fused operations of Table 4.15. -/
inductive FFused
  | fma | fms | fnma | fnms
deriving DecidableEq, Repr

/-- A float instruction as handed to the float unit (Table 4.15). `sgl` is the binary32 form on both lanes. -/
inductive FloatIns
  | bin (op : FBin) (sgl : Bool) (rnd : Rnd) (d s b : Freg)
  | sqrt (sgl : Bool) (rnd : Rnd) (d s : Freg)
  | fused (op : FFused) (sgl : Bool) (rnd : Rnd) (d s b : Freg)
  | minmax (isMax sgl x : Bool) (d s b : Freg)
  | cmp (sgl x : Bool) (s b : Freg)
  | cls (sgl : Bool) (d : Gpr) (s : Freg)
  | neg (sgl : Bool) (d s : Freg)
  | abs (sgl : Bool) (d s : Freg)
  | rint (sgl : Bool) (rnd : Rnd) (x : Bool) (d s : Freg)
  | fmov (d s : Freg)
  | fmvg (x : Bool) (d : Gpr) (s : Freg)
  | fmvf (x : Bool) (d : Freg) (s : Gpr)
  | cvtif (rnd : Rnd) (u x : Bool) (d : Freg) (s : Gpr)
  | cvtfi (rnd : Rnd) (u x : Bool) (d : Gpr) (s : Freg)
  | cvtff (rnd : Rnd) (x : Bool) (d s : Freg)
  | fld (x : Bool) (d : Freg)
deriving DecidableEq, Repr

/-- What a handler entry is made from (Table 7.4): the vector, the descriptor's fields and the frame's CAUSE, INFO and
SYN words. `skip` is the number of bytes by which the saved PC lies past the instruction's first byte; `esc` is the
escalation frame's address of R278; `floor` is the ring number that an event's descriptor asks the accepting task for (R272),
0 where it asks for none; `bare` says that the leading core is in no load shadow (R158, R268). -/
structure EntryInfo where
  vec : Byte
  sec : Byte
  inEntry : Bool
  masked : Bool
  next : Bool
  skip : Nat
  handler : Word
  tr : BitVec 2
  em : Bool
  ss : Bool
  k : Nat
  info : Word
  syn : Word
  oinfo : Word
  osyn : Word
  esc : Option Word
  event : Bool
  floor : BitVec 2
  bare : Bool
deriving DecidableEq, Repr

/-- The hardware part of a trap frame, bytes 0x00 to 0x3F as sixteen words (Table 7.5). -/
abbrev Frame := Vector Word 16

/-- Access kinds of the OPK field (Table 2.2, R49, R211). -/
inductive AccKind
  | plain | xchg | cas | fadd | tlock | tunlock | aliased | sample | sysread | taskop | emitLocal | emit
deriving DecidableEq, Repr

/-- The bus outputs of a slip-collapsing instruction (Table 2.1, R49, R60), which each core drives from its own registers:
the address of an atomic, a tether or a window load; an aliased store; the operand register of SPAWN, JOIN, WAIT and
CHGET; CHPUT's handle and data; the register and value of a SYSWR; the pair index of SAMPLE. -/
inductive CollapseOut
  | none
  | access (kind : AccKind) (size : Nat) (m : MemAddr)
  | aliasStore (op : StoreOp) (d : Gpr) (m : MemAddr)
  | operand (s : Gpr)
  | chput (handle data : Gpr)
  | syswr (num : BitVec 12) (s : Gpr)
  | sample (pair : Byte)
deriving DecidableEq, Repr

/-- What one core executes in one active cycle. The leading core executes it when it issues, the trailing core when it
takes the compare queue entry (R47). `frameStore`, `enter` and `frameRead` are parts of a handler entry and of IRET;
`blockRead` is the read of a block operation that failed (R58); `collapse` is a slip-collapsing instruction, whose effect
comes after the comparison of what it drives (R60); `epochCheck` is a SYSWR to OEPOCH that the range check refuses (R55, R111). -/
inductive CoreIns
  | alu (op : AluOp) (wide : Bool) (rep : Rep) (d : Gpr) (a : AluArg)
  | mul (op : MulOp) (d s : Gpr)
  | dstep (signed : Bool) (rep : Rep) (d s : Gpr)
  | dfix (d s : Gpr)
  | un (op : UnOp) (d s : Gpr)
  | nop
  | load (op : LoadOp) (d : Gpr) (m : MemAddr)
  | store (op : StoreOp) (d : Gpr) (m : MemAddr)
  | emit (loc : Bool) (size : BitVec 3) (d : Gpr) (m : MemAddr)
  | block (op : BlockOp) (rep : Rep) (d s : Gpr)
  | branch (b : BranchOp)
  | float (fi : FloatIns)
  | fld (x : Bool) (d : Freg) (m : MemAddr)
  | fst (x : Bool) (d : Freg) (m : MemAddr)
  | sysrd (d : Gpr) (num : BitVec 12)
  | syswr (num : BitVec 12) (s : Gpr)
  | epochCheck (s : Gpr) (k : Nat)
  | ckpt
  | setM (m : Bool)
  | bkld (b : Byte)
  | tid (d : Gpr)
  | sysc (n : Byte)
  | frameStore (e : EntryInfo) (i : Fin 4)
  | enter (e : EntryInfo)
  | frameRead (i : Nat)
  | iret
  | blockRead (a : Gpr)
  | collapse (o : CollapseOut)
deriving DecidableEq, Repr

/-- The shadow latch of R156 and R268: the old values of the destination registers of the load before. -/
structure Shadow where
  d : Gpr
  old : List Word
deriving DecidableEq, Repr

/-- A task that an error under debug has ended is aborted once its handler returns (R285): no such error, the handler's frame
at this address of its ring's stack, or the handler has returned. -/
inductive AbortMark
  | none
  | frame (a : Word)
  | due
deriving DecidableEq, Repr

/-- The task's own registers, held in the core (Table 5.9, Table 8.14, R111, R291). `dbg` is s.0x070 to s.0x07F, `ordCount` counts
the task's ordered actions, and `ordSeen` is the count after the last one performed, which a replay leaves (R319); `abort`
marks a task that is to be aborted (R285). -/
structure TaskRegs where
  ident : Word
  tattr : Word
  tjoin : Word
  tparent : Word
  tspn : Word
  tlist : List Word
  oepoch : Word
  ordCount : Word
  ordSeen : Word
  dbg : Vector Word 16
  abort : AbortMark
deriving DecidableEq, Repr

/-- Architectural state of one core (R68, R132 to R140). ST is held without LS, which is `shadow.isSome`. `rep` tells
that the repeat in progress carries REP, which defers interrupts (R171). -/
structure Core where
  g : Vector Word 16
  pc : Word
  st : Word
  bk : Byte
  ct : Word
  sp : Vector Word 4
  shadow : Option Shadow
  rep : Bool
  task : TaskRegs
deriving DecidableEq, Repr

/-- The bus outputs captured in one active cycle (Tables 2.1 and 2.2). A field that is `none` is not valid and is not
compared. -/
structure BusOut where
  faddr : Option Word
  load : Option (Word × Nat × AccKind)
  store : Option (Word × BitVec 16 × QWord × AccKind)
  fl : Option (BitVec 24 × DWord)
  sys : Option (BitVec 12 × Word)
deriving DecidableEq, Repr

/-- One entry of the compare queue (R49, R50), with the instruction the trailing core executes for it. `whb` names the
write-hold buffer entry its store went to; `data` is the float store's data of R50's note. -/
structure CqEntry where
  seq : Nat
  op : CoreIns
  out : BusOut
  fetchOff : Option Nat
  squashed : Bool
  lvqUse : Nat
  whb : Option Nat
  data : QWord
deriving DecidableEq, Repr

/-- The status a load carries (R55). -/
inductive LoadStatus
  | completed
  | corrected
  | busError (bkind : BitVec 3)
  | accessViolation
deriving DecidableEq, Repr

/-- The kinds of value the data lane carries (R55): load data, a value of the float unit, a SYSRD of a register outside the
core, the epoch number of a SYSWR to OEPOCH, and the acceptance of an event. The result of an atomic and the data of a window load
enter both cores in the fc in which they are formed (R60): their entries are written and consumed within one command, and no
state shows them (log entry 78). -/
inductive LvqKind
  | load
  | float
  | sysread
  | epoch
  | event
deriving DecidableEq, Repr

/-- An entry of the load-value queue's data lane (R54, R55), with a parity bit per 32 bits. -/
structure LvqEntry where
  seq : Nat
  kind : LvqKind
  value : QWord
  status : LoadStatus
  parity : BitVec 4
deriving DecidableEq, Repr

/-- An entry of the fetch lane: a 16-byte fetch block with a parity bit per 32 bits (R54). -/
structure LaneBlock where
  bytes : QWord
  parity : BitVec 4
deriving DecidableEq, Repr

/-- Where a load's value goes. -/
inductive LoadDest
  | gpr (op : LoadOp) (d : Gpr)
  | freg (x : Bool) (d : Freg)
deriving DecidableEq, Repr

/-- What a load's bank or the fabric gave: the data, the status, and the reports of a failed read. -/
structure LoadGot where
  value : QWord
  status : LoadStatus
  reports : List Report
deriving DecidableEq, Repr

/-- A load issued by the leading core and not yet returned. `live` lists the destination registers no later
instruction has written; `before` is the core at the load's issue, for a fault of the load itself (R270); `got` is what it
was given when it was performed before an older load (R356). -/
structure PendLoad where
  seq : Nat
  addr : Word
  size : Nat
  phys : Nat
  dest : LoadDest
  live : List Gpr
  before : Core
  got : Option LoadGot
deriving DecidableEq, Repr

/-- A predicted branch not yet resolved (R177): the core the branch leads to. -/
structure BranchPend where
  seq : Nat
  mispredicted : Bool
  resume : Core
  retired : Nat
deriving DecidableEq, Repr

/-- Where a float result goes. -/
inductive FDest
  | freg (d : Freg)
  | gpr (d : Gpr)
  | st
deriving DecidableEq, Repr

/-- An entry of the float issue queue (R224): the instruction, its integer operand, the core before it (for a
precise trap, R242) and, for FLD, the data once it has arrived. -/
structure FpuEntry where
  seq : Nat
  ins : FloatIns
  operand : DWord
  before : Core
  data : Option DWord
deriving DecidableEq, Repr

/-- A float instruction that has begun: its result and the exceptions of each lane (R240). -/
structure FpuBusy where
  seq : Nat
  ins : FloatIns
  before : Core
  result : DWord
  exc0 : BitVec 5
  exc1 : BitVec 5
deriving DecidableEq, Repr

/-- The float unit (R224, R225): f0 to f15, FCSR, the issue queue and the instructions in progress, in program order. -/
structure Fpu where
  f : Vector DWord 16
  fcsr : Word
  queue : List FpuEntry
  busy : List FpuBusy
deriving DecidableEq, Repr

/-- Where a write-hold buffer entry stands (R62, R69, R358). -/
inductive WhbPhase
  | open
  | released
  | accepted (stamp : Nat)
  | failed
deriving DecidableEq, Repr

/-- One write-hold buffer entry (R62 to R65): one aligned 16-byte word. `unconf` counts its stores the trailing core has
not yet matched; `chk` is the data as the trailing core's side saw it, from which the check bits are computed. -/
structure WhbEntry where
  id : Nat
  addr : Word
  phys : Nat
  be : BitVec 16
  data : QWord
  chk : QWord
  unconf : Nat
  interval : Nat
  io : Bool
  loc : Bool
  sysc : Bool
  pc : Word
  oepoch : Word
  ring : BitVec 2
  phase : WhbPhase
deriving DecidableEq, Repr

/-- The state one checkpoint slot holds (R68). -/
structure Ckpt where
  core : Core
  f : Vector DWord 16
  fcsr : Word
deriving DecidableEq, Repr

/-- The pending slot: its float part is captured once the float instructions before the point have completed. `reached` is
the trailing core, in its complemented form, as it stood when it reached the point (R69). -/
structure PendCk where
  seq : Nat
  interval : Nat
  core : Core
  fl : Option (Vector DWord 16 × Word)
  event : Option Byte
  reached : Option Core
deriving DecidableEq, Repr

/-- Something the leading core has done to its fold in the interval named, which takes effect outside the yoke when the
checkpoint that closes the interval is confirmed (R78): an escalation slot taken, counted as a fault in an entry or not (R277,
R278), an escalation slot freed (R266), or the latch of NOWHI (Table 3.12). -/
inductive YokeEffect
  | takeSlot (n : Nat) (inEntry : Bool) (interval : Nat)
  | freeSlot (n : Nat) (interval : Nat)
  | nowHi (v : Word) (interval : Nat)
deriving DecidableEq, Repr

/-- The checker's own record of the previous mismatch (R75, R92). -/
structure PrevMismatch where
  kind : BitVec 4
  first : Byte
  ndiff : Byte
  time : Nat
deriving DecidableEq, Repr

/-- Why the leading core does not advance (R47). -/
inductive LeadWait
  | none
  | pipeline
  | ckpt
deriving DecidableEq, Repr

/-- The values of an input pair frozen at one instant (R106). -/
structure FrozenPair where
  a : Bool
  b : Bool
  dfault : Bool
deriving DecidableEq, Repr

/-- The frozen values SAMPLE of a pair reads throughout an epoch: this device's, and in a twin pair the partner's, with
which they are joined (R485). -/
structure SampleVal where
  own : FrozenPair
  theirs : Option FrozenPair
deriving DecidableEq, Repr

/-- The safe value 0, before a pair's first freeze (R535). -/
def SampleVal.safe : SampleVal := ⟨⟨false, false, false⟩, none⟩

/-- A slip-collapsing instruction at which the leading core waits (R60, Table 2.3), with its operands read at arrival; for
SAMPLE the frozen values of which the leading core has read channel A (R61, R106). `fenced` is FENCE once its checkpoint is taken (R206). -/
inductive CollapseOp
  | xchg (wide ord : Bool) (d : Gpr) (addr : Word) (phys : Nat) (v : DWord)
  | cas (wide ord : Bool) (d : Gpr) (addr : Word) (phys : Nat) (cmp new : DWord)
  | fadd (wide ord : Bool) (d : Gpr) (addr : Word) (phys : Nat) (addend : DWord)
  | tlock (d : Gpr) (addr : Word) (phys : Nat)
  | tunlock (addr : Word) (phys : Nat)
  | aliasStore (clear : Bool) (size : Nat) (addr : Word) (phys : Nat) (v : QWord)
  | ioLoad (dest : LoadDest) (addr : Word) (size : Nat) (phys : Nat)
  | spawn (addr : Word)
  | join (addr : Word) (phys : Nat)
  | yield
  | tend (abort : Bool)
  | chput (handle data : Word)
  | chget (d : Gpr) (handle : Word)
  | wait (d : Gpr) (set : Word)
  | fence (code : Bool)
  | fenced (code : Bool)
  | syswr (num : BitVec 12) (v : Word)
  | sample (d : Gpr) (pair : Byte) (v : SampleVal)
deriving DecidableEq, Repr

/-- The collapse in progress: the operation, and the instruction's length for the PC after it. -/
structure Collapse where
  op : CollapseOp
  len : Nat
deriving DecidableEq, Repr

/-- A WAIT in progress (R207, R208): the event set, the device time and the fc at which it began, the destination register. -/
structure WaitInfo where
  set : Word
  begin : Nat
  fc : Nat
  d : Gpr
deriving DecidableEq, Repr

/-- What the yoke is doing with a task. `stopped` is a task that does not continue (R279). -/
inductive YokeRun
  | idle
  | task
  | waiting (w : WaitInfo)
  | stopped
deriving DecidableEq, Repr

/-- Debug state of a yoke (R85, R87, R618): `stepping` runs one instruction and halts again. -/
inductive YokeDebug
  | off
  | halted
  | resumed
  | stepping
deriving DecidableEq, Repr

/-- Logic BIST state of a yoke (R581): none; a start that waits, with the number of the interval that is open once the next
checkpoint is confirmed; or under test since the given fc. -/
inductive YokeBist
  | none
  | requested (since : Nat)
  | testing (since : Nat)
deriving DecidableEq, Repr

/-- A task descriptor as the scheduler holds it (Table 8.1). -/
structure TaskDesc where
  entry : Word
  g1 : Word
  g2 : Word
  g3 : Word
  g4 : Word
  joinref : Word
  oepoch : Word
  attr : Word
  sp : Vector Word 4
  ident : Word
  parent : Word
deriving DecidableEq, Repr

/-- A core of an idle yoke: every register zero, ST and BK at their task-start values (R136, R138). -/
def Core.reset : Core where
  g := Vector.replicate 16 0
  pc := 0
  st := 0
  bk := 0x80
  ct := 0
  sp := Vector.replicate 4 0
  shadow := none
  rep := false
  task := ⟨0, 0, 0, 0, 0, [], 0, 0, 0, Vector.replicate 16 0, .none⟩

/-- The complemented form of a shadow latch: the old values are complemented. -/
def Shadow.inv (h : Shadow) : Shadow := { h with old := h.old.map (~~~ ·) }

/-- The complemented form of the task's registers. -/
def TaskRegs.inv (t : TaskRegs) : TaskRegs where
  ident := ~~~t.ident
  tattr := ~~~t.tattr
  tjoin := ~~~t.tjoin
  tparent := ~~~t.tparent
  tspn := ~~~t.tspn
  tlist := t.tlist.map (~~~ ·)
  oepoch := ~~~t.oepoch
  ordCount := ~~~t.ordCount
  ordSeen := ~~~t.ordSeen
  dbg := t.dbg.map (~~~ ·)
  abort := t.abort

/-- The complemented form of a core, in which the trailing core holds every register (R52). -/
def Core.inv (c : Core) : Core where
  g := c.g.map (~~~ ·)
  pc := ~~~c.pc
  st := ~~~c.st
  bk := ~~~c.bk
  ct := ~~~c.ct
  sp := c.sp.map (~~~ ·)
  shadow := c.shadow.map Shadow.inv
  rep := !c.rep
  task := c.task.inv

/-- The float unit with every register zero (R291). -/
def Fpu.reset : Fpu := ⟨Vector.replicate 16 0, 0, [], []⟩

/-- No bus output driven. -/
def BusOut.none : BusOut := ⟨.none, .none, .none, .none, .none⟩

/-- One yoke. `idleFc` counts the fc of its idle time (R297); `trailFc` is the fc of the trailing core's last progress
(Table 2.7, kind 0b1101), or of the entry that ended an empty compare queue; `ckFc` is the fc of the last checkpoint
(Table 2.5); `effects` lists, oldest first, what waits for a checkpoint to take effect on the fold (R78); `heldReports`
lists reports sent once the compare queue entry they came with has compared equal (R58, R78); `trailC` is the trailing
core in the complemented form that R52 gives it, `spec` the same core on a mispredicted path; `bpSkip` lets a resumed core pass the
breakpoint it stands at. -/
structure Yoke where
  run : YokeRun
  stalled : Bool
  bist : YokeBist
  debug : YokeDebug
  bpSkip : Bool
  replaying : Bool
  lead : Core
  trailC : Core
  spec : Option Core
  fpu : Fpu
  cq : List CqEntry
  lvq : List LvqEntry
  fetchLane : List LaneBlock
  fetchBuf : List Word
  fetchReq : Option Nat
  loads : List PendLoad
  branch : Option BranchPend
  wait : LeadWait
  whb : List WhbEntry
  interval : Nat
  committed : Ckpt
  pend : Option PendCk
  ckptDue : Bool
  entryEvent : Option Byte
  retired : Nat
  ckFc : Nat
  trailFc : Nat
  seq : Nat
  prev : Option PrevMismatch
  mcount : Half
  inj : Bool
  collapse : Option Collapse
  deque : List TaskDesc
  idleFc : Nat
  effects : List YokeEffect
  heldReports : List (Nat × Report)
deriving DecidableEq, Repr

/-- A yoke after reset: idle, every queue empty. -/
def Yoke.reset : Yoke where
  run := .idle
  stalled := false
  bist := .none
  debug := .off
  bpSkip := false
  replaying := false
  lead := Core.reset
  trailC := Core.reset.inv
  spec := none
  fpu := Fpu.reset
  cq := []
  lvq := []
  fetchLane := []
  fetchBuf := []
  fetchReq := none
  loads := []
  branch := none
  wait := .none
  whb := []
  interval := 0
  committed := ⟨Core.reset, Vector.replicate 16 0, 0⟩
  pend := none
  ckptDue := false
  entryEvent := none
  retired := 0
  ckFc := 0
  trailFc := 0
  seq := 0
  prev := none
  mcount := 0
  inj := false
  collapse := none
  deque := []
  idleFc := 0
  effects := []
  heldReports := []

/-- The registers of the trailing core, out of their complemented form. -/
def Yoke.trail (k : Yoke) : Core := k.trailC.inv

end Sys2Proof.Machine
end

