-- ==== Sys2Proof/Machine/Parts/Span.lean ====
section
/-! DEFINITION. The state of one span: scheduler, power state, schedule-following logs (chapters 8, 9, 15), and of one
fold's task channels and join registry. -/

namespace Sys2Proof.Machine

/-- Why a task stands in a save slot (R306, R308, R311, R80, R581). -/
inductive ParkKind
  | resume
  | join (phys : Nat)
  | chput (ch : Nat) (data : Word)
  | chget (ch : Nat) (d : Gpr)
deriving DecidableEq, Repr

/-- A save slot in use (Table 8.8), held as structured state. -/
structure SavedTask where
  ck : Ckpt
  why : ParkKind
deriving DecidableEq, Repr

/-- Where an entry of the overflow queue gets its task from. -/
inductive OvfBody
  | fresh (d : TaskDesc)
  | resume (slot : Nat)
deriving DecidableEq, Repr

/-- An overflow queue entry (R295): its class, priority and whether it is portable. -/
structure OvfEntry where
  resumeClass : Bool
  prio : BitVec 2
  portable : Bool
  body : OvfBody
deriving DecidableEq, Repr

/-- Span power states and the transitions between them (Table 15.2, R33, R34). Times are device-independent fc counts. -/
inductive SpanPower
  | run
  | entering (nap : Bool) (since : Nat)
  | rest (nap : Bool)
  | waking (nap : Bool) (since : Nat)
deriving DecidableEq, Repr

/-- Schedule-following log records (Table 8.13). -/
inductive LogRec
  | start (span : Nat) (ident : Word)
  | serial (parent tspn child : Word)
  | atom (addr : Word) (ident : Word) (count : Word)
deriving DecidableEq, Repr

/-- One span. `log` is the Lead's log buffer, each record with the stamp that orders the decisions of all spans, `follow` the
records a Follow span still has to reproduce, by number of arrival; `quietFc` is the fc since which R33's condition has held,
`runFc` the fc at which the span last entered Run, from which idle counts start anew (R297). -/
structure Span where
  overflow : List OvfEntry
  waitPush : List OvfEntry
  slots : KMap Nat SavedTask
  stealLocal : Half
  stealRemote : Half
  power : SpanPower
  quietFc : Nat
  runFc : Nat
  log : List (Nat × LogRec)
  follow : KMap Nat LogRec
deriving DecidableEq, Repr

/-- A span after reset: in Run, nothing queued. -/
def Span.reset : Span where
  overflow := []
  waitPush := []
  slots := []
  stealLocal := 0
  stealRemote := 0
  power := .run
  quietFc := 0
  runFc := 0
  log := []
  follow := []

/-- A parked task's place: device span and save slot. -/
structure ParkRef where
  span : SpanId
  slot : Nat
deriving DecidableEq, Repr

/-- A task channel (R310, R313): ring buffer in memory from `base`, `head` the index of the oldest entry. -/
structure Channel where
  base : Word
  isOpen : Bool
  dpow : BitVec 4
  head : Nat
  count : Nat
  pput : Option ParkRef
  pget : Option ParkRef
deriving DecidableEq, Repr

/-- A channel at fold admission (R313). -/
def Channel.reset : Channel := ⟨0, false, 2, 0, 0, none, none⟩

/-- An entry of the fold's join registry (R306): the counter's physical address (R653) and the parked task. -/
structure JoinEntry where
  phys : Nat
  ref : ParkRef
deriving DecidableEq, Repr

end Sys2Proof.Machine
end

