-- ==== Sys2Proof/Machine/Parts/Fold.lean ====
section
/-! DEFINITION. The state of one fold (chapters 3, 7, 8, 9, 11): windows, exception registers, pending events, task
channels, join registry, epochs and output holding. -/

namespace Sys2Proof.Machine

/-- A committed fold window (Table 9.5); `size` 0 is off. -/
structure Window where
  bhi : Byte
  blo : Byte
  size : Nat
  obase : BitVec 12
  perm : BitVec 12
deriving DecidableEq, Repr

/-- A pending event of a vector (R272): INFO and SYN of its first occurrence, and the yoke it is reserved to (R259). -/
structure PendEvent where
  vec : Byte
  info : Word
  syn : Word
  reserved : Option YokeId
deriving DecidableEq, Repr

/-- Where an output came from: the PC of the yoke's store, or the DMA channel and burst number (R398, R525). -/
structure Origin where
  pc : Word
  dma : Option (DmaId × Half)
deriving DecidableEq, Repr

/-- An output in output holding (R109 to R116): destination code, payload, local mark, output epoch tag, origin. The list
of held outputs is in the order in which they entered. -/
structure HeldOutput where
  dest : Half
  data : List Byte
  loc : Bool
  tag : Word
  origin : Origin
deriving DecidableEq, Repr

/-- What the controller knows of one epoch of the fold: late (R122) and whether an unchecked yoke took part (R86). -/
structure EpochMark where
  tag : Word
  late : Bool
  unchecked : Bool
deriving DecidableEq, Repr

/-- A signature record (Table 3.4). -/
structure SigRecord where
  epoch : DWord
  sig : DWord
  fold : Byte
  flags : Byte
  nsigned : Word
  nlocal : Word
deriving DecidableEq, Repr

/-- Fold states (Table 11.1). -/
inductive FoldPhase
  | empty
  | build
  | running
  | safe
deriving DecidableEq, Repr

/-- One fold. `frozen` holds what SAMPLE returns in the current epoch, `freeze` the epoch whose freeze instant was taken last with
its values; `heldPeak` is the highest holding occupancy in bytes. The fold watchdog's remaining count is `wdVal` less the µs of
device time since `wdFrom`, or `wdVal` while it is held (R449, R450); `wdKeyed` is the first half of the disable sequence (R453).
The exception registers' After reset values are those at fold admission (R284). -/
structure Fold where
  phase : FoldPhase
  windows : KMap Nat Window
  dtb : Word
  escv : Word
  esp : Word
  sksz : Word
  ien : Word
  eslot : Word
  entryf : Half
  etotal : Half
  events : List PendEvent
  serial : BitVec 28
  chsel : Word
  chans : KMap Nat Channel
  joins : List JoinEntry
  winchg : Word
  memCorr : Half
  memUncor : Half
  fstart : DWord
  epoch : DWord
  rootIdent : Option Word
  held : List HeldOutput
  heldPeak : Nat
  marks : List EpochMark
  unchecked : Bool
  nowHi : Word
  frozen : KMap Nat SampleVal
  freeze : Option (Nat × KMap Nat FrozenPair)
  sigs : List SigRecord
  mbReq : QWord
  mbPend : Bool
  mbRdy : Bool
  mbBytes : List (Nat × Byte)
  fninc : Word
  fncnt : Word
  wdRun : Bool
  wdVal : Nat
  wdFrom : Nat
  wdPaused : Bool
  wdWrn : Bool
  wdKeyed : Bool
deriving DecidableEq, Repr

/-- A fold number that names no fold, with the registers at their values for the next admission. -/
def Fold.reset : Fold where
  phase := .empty
  windows := []
  dtb := 0
  escv := 0
  esp := 0
  sksz := 0x0C0C0C0C
  ien := 0
  eslot := 0
  entryf := 0
  etotal := 0
  events := []
  serial := 1
  chsel := 0
  chans := []
  joins := []
  winchg := 0
  memCorr := 0
  memUncor := 0
  fstart := 0
  epoch := 0
  rootIdent := none
  held := []
  heldPeak := 0
  marks := []
  unchecked := false
  nowHi := 0
  frozen := []
  freeze := none
  sigs := []
  mbReq := 0
  mbPend := false
  mbRdy := false
  mbBytes := []
  fninc := 0
  fncnt := 0
  wdRun := false
  wdVal := 0
  wdFrom := 0
  wdPaused := false
  wdWrn := false
  wdKeyed := false

end Sys2Proof.Machine
end

