-- ==== Sys2Proof/Machine/Parts/Dma.lean ====
section
/-! DEFINITION. The state of one DMA channel (chapter 10). -/

namespace Sys2Proof.Machine

/-- Channel states (Table 10.5). -/
inductive DmaState
  | idle | running | waiting | stopping | done | stopped | error
deriving DecidableEq, Repr

/-- A MOVE, GATHER or SCATTER in progress: its kind, the list (entry address and count; none for MOVE), the bytes left of
the current entry, the address the entry names, DF, and the index of the entry after the current one. -/
structure DmaXfer where
  op : Nat
  list : Word
  entries : Nat
  next : Nat
  left : Nat
  addr : Word
  df : Bool
deriving DecidableEq, Repr

/-- A wait in progress (R377): kind, device time of its beginning, timeout in µs, the word's address for kind 0x04, whether
its event has arrived in time, and the fc of the word's next reading. -/
structure DmaWait where
  kind : Nat
  begin : Nat
  tmo : Nat
  addr : Word
  seen : Bool
  nextRead : Nat
deriving DecidableEq, Repr

/-- One channel: the registers of Table 10.8, the values recorded at start (R380), the engine's own progress, and `lastWrite`, the
last 16-byte word it wrote with the bytes written there, until it is read back (R389). `wdFrom` is the device time of the channel
watchdog's last restart (R388), `stopAt` the fabric cycle of the latest stop (R384), `served` orders the channels by their
last burst and `slotAt` is the slot that took it (R386). `crc` is the running register before the final XOR. -/
structure Dma where
  state : DmaState
  serr : Bool
  err : Byte
  ring : BitVec 2
  oepoch : Word
  wdt : Nat
  prio : BitVec 3
  cpc : Word
  csrc : Word
  cdst : Word
  crc : Word
  loopAct : Bool
  lcnt : Half
  lpc : Word
  entry : BitVec 12
  ev : Bool
  seq : Half
  defValid : Bool
  defOvr : Bool
  defSeq : Half
  xfer : Option DmaXfer
  wait : Option DmaWait
  wdFrom : Nat
  stopAt : Nat
  served : Nat
  slotAt : Option Nat
  lastWrite : Option (Nat × List (Nat × Byte))
deriving DecidableEq, Repr

/-- A channel at its After reset values (R370, R400). -/
def Dma.reset : Dma where
  state := .idle
  serr := false
  err := 0
  ring := 0
  oepoch := 0
  wdt := 0
  prio := 0
  cpc := 0
  csrc := 0
  cdst := 0
  crc := 0xFFFFFFFF
  loopAct := false
  lcnt := 0
  lpc := 0
  entry := 0
  ev := false
  seq := 0
  defValid := false
  defOvr := false
  defSeq := 0
  xfer := none
  wait := none
  wdFrom := 0
  stopAt := 0
  served := 0
  slotAt := none
  lastWrite := none

end Sys2Proof.Machine
end

