-- ==== Sys2Proof/Machine/Parts/Faults.lean ====
section
/-! DEFINITION. The state of the fault manager, the fault recorder and the AON watchdog (chapter 12), and of a cross-fold
channel's receive queue (chapter 11). -/

namespace Sys2Proof.Machine

/-- A fault recorder record as eight words (Table 12.5). -/
abbrev Record := List Word

/-- An incident (R430 to R438), with its opening record. `begun`: its reaction has begun and the actions of its first steps are
done; `ord` is its place in the order of opening, a new one when a merge raises its class (R438); `safed`: its reaction has put
its fold in SAFE. -/
structure Incident where
  num : Half
  cls : BitVec 3
  kind : RegionKind
  region : Nat
  fold : Option FoldId
  src : Byte
  detail : Word
  count : Nat
  map : DWord
  openFc : Nat
  openTime : Nat
  opening : Record
  begun : Bool
  done : Bool
  ord : Nat
  safed : Bool
deriving DecidableEq, Repr

/-- The fault manager. `cur` is the place in the opening order of the incident whose reaction is in progress; `extra` is
the reaction of R439 outside the queue; `nsafe` tells that the nSAFE pin is asserted. -/
structure FaultMgr where
  queue : List Incident
  next : Half
  cur : Option Nat
  extra : Option Incident
  ord : Nat
  dsafe : Bool
  ovf : Bool
  nsafe : Bool
deriving DecidableEq, Repr

/-- Recorder states (R462). -/
inductive RecState
  | arming | armed | capturing | captured
deriving DecidableEq, Repr

/-- The fault recorder: its SRAM by index, the bits in which its codewords, four to a record, differ from clean ones (R461),
state, header and missed-trigger latch (R461 to R466). `written` counts records since ARMED; `armFc` is the fc at which ARMING
began. -/
structure Recorder where
  sram : KMap Nat Record
  err : KMap Nat (DWord × Byte)
  state : RecState
  wptr : Nat
  written : Nat
  trigIdx : Nat
  precnt : Nat
  postcnt : Nat
  ttime : Nat
  missedValid : Bool
  missed : Half
  mtime : Nat
  drop : Word
  rue : Bool
  armFc : Nat
deriving DecidableEq, Repr

/-- The AON watchdog (R454 to R460): remaining count `val` less the bt since `since` while running. -/
structure AonWd where
  hwstart : Bool
  en : Bool
  lock : Bool
  period : Nat
  exp : Bool
  val : Nat
  since : Nat
  keyed : Bool
  count : Half
deriving DecidableEq, Repr

/-- The receive queue of a cross-fold channel (R420, Table 11.8): visible entries, then entries received and not yet
visible with the receiver's epoch of reception, and the epochs of reception of entries that found no room and are not yet counted. -/
structure XchQueue where
  items : List QWord
  wait : List (Nat × QWord)
  missing : List Nat
  under : Bool
  lost : Half
deriving DecidableEq, Repr

/-- The fault manager after reset; nSAFE is asserted (R448). -/
def FaultMgr.reset : FaultMgr := ⟨[], 0, none, none, 0, false, false, true⟩

/-- The recorder at power-on: ARMING (R462). -/
def Recorder.reset : Recorder := ⟨[], [], .arming, 0, 0, 0, 0, 0, 0, false, 0, 0, 0, false, 0⟩

/-- The AON watchdog at VAON power-on with software start (Tables 12.19, 12.20). -/
def AonWd.reset : AonWd := ⟨false, false, false, 0x8000, false, 0x8000, 0, false, 0⟩

/-- An empty receive queue. -/
def XchQueue.reset : XchQueue := ⟨[], [], [], false, 0⟩

end Sys2Proof.Machine
end

