-- ==== Sys2Proof/Machine/Parts/Ports.lean ====
section
/-! DEFINITION. The state of the port queues, the safety connections, P4 and the service interfaces (chapter 14), and what
leaves the device. -/

namespace Sys2Proof.Machine

/-- A received entry (R516): its bytes as RXDATA still gives them, its content, and the epoch in whose input window it was
received (R103). -/
structure RxEntry where
  epoch : Nat
  bytes : List Byte
  content : List Byte
deriving DecidableEq, Repr

/-- A transmit record in its queue's buffer (R509, R512): KIND of Table 14.7, or 0 on P0 to P3. `time` is the nominal
device time of its release boundary (Table 14.8). -/
structure TxRec where
  kind : Nat
  hdr : List Byte
  data : List Byte
  time : Nat
  tseq : Half
  origin : Origin
deriving DecidableEq, Repr

/-- A queue pair of a port, or a function queue of P4: visible entries, entries received and not yet visible, transmit
buffer, counts, and the vector recovery state of R515 (latest sequence number and history). -/
structure PortQueue where
  rx : List RxEntry
  wait : List RxEntry
  under : Bool
  lost : Half
  tx : List TxRec
  txerr : Byte
  txdrop : Byte
  tseq : Half
  frer : Option (Half × Word)
deriving DecidableEq, Repr

/-- An empty queue pair. -/
def PortQueue.reset : PortQueue := ⟨[], [], false, 0, [], 0, 0, 0, none⟩

/-- A safety connection (Table 14.16), the last accepted payload, the device time of the last acceptance or of the commit,
and whether STALE has been raised since (R530). -/
structure Conn where
  w0 : Word
  w1 : Word
  w2 : Word
  w3 : Word
  last : Word
  payload : List Byte
  heard : Bool
  since : Nat
  stale : Bool
deriving DecidableEq, Repr

/-- An unconfigured connection. -/
def Conn.reset : Conn := ⟨0, 0, 0, 0, 0, [], false, 0, false⟩

/-- One TLP of a read request: its tag, its bytes, and those its completions have brought. -/
structure ReadPart where
  tag : Nat
  len : Nat
  got : List Byte
deriving DecidableEq, Repr

/-- A read request that waits for its completions (R523), in TLPs of at most Max_Read_Request_Size, with the device time it was sent. -/
structure HostRead where
  fold : FoldId
  queue : Nat
  addr : Nat
  since : Nat
  parts : List ReadPart
deriving DecidableEq, Repr

/-- An error reported through AER (R518): the function, 1 ECRC, 2 unsupported request, 3 completion timeout, and the header log. -/
structure AerError where
  fn : Option FoldId
  kind : Nat
  header : QWord
deriving DecidableEq, Repr

/-- An MSI-X vector of a function: message address and data, its mask bit and its pending bit (R518). -/
structure MsixVec where
  addr : DWord
  data : Word
  masked : Bool
  pending : Bool
deriving DecidableEq, Repr

/-- An MSI-X vector after reset: masked, nothing pending. -/
def MsixVec.reset : MsixVec := ⟨0, 0, true, false⟩

/-- P4 (R518 to R525): PERSTn low, PECLK present, SR-IOV VF Enable, Bus Master Enable and Function Level Reset by function,
posted writes not yet acknowledged, those found not delivered whose error is due, read requests in progress, the next tag,
errors reported through AER; of Table 14.6 the BARs, Max_Payload_Size and Max_Read_Request_Size in bytes, the completion timeout range,
MSI-X Enable and Function Mask by function and the vectors by 16 × function + vector, the link's speed and width in use as their places in
R518's lists; the next free share of 128 ns, the frame of 64 shares in progress and the shares of each function used in it (R524). -/
structure Pcie where
  perst : Bool
  peclk : Bool
  vfEnable : Bool
  bme : List Nat
  flr : List Nat
  unacked : List (FoldId × Nat × TxRec)
  undelivered : List (FoldId × Nat × TxRec)
  reads : List HostRead
  tag : Nat
  aer : List AerError
  bars : KMap FoldId DWord
  mps : Nat
  mrrs : Nat
  range : Nat
  msixOn : List Nat
  msixHeld : List Nat
  msix : KMap Nat MsixVec
  speed : Nat
  width : Nat
  shareAt : Nat
  frame : Nat
  used : KMap FoldId Nat
deriving DecidableEq, Repr

/-- P4 after reset: the configuration registers at the defaults of PCI Express (PRESUMED, log entry 82). -/
def Pcie.reset : Pcie := ⟨false, true, false, [], [], [], [], [], 0, [], [], 128, 512, 0, [], [], [], 0, 0, 0, 0, []⟩

/-- Instructions of the test access port (R543, R618). -/
inductive TapIns
  | bypass | idcode | sample | extest | extestPulse | extestTrain | dbgacc
deriving DecidableEq, Repr

/-- SMBus and test access port state (R543 to R546): the ALERT byte, the mailbox as Drover wrote it, and as the board
wrote it, the selected instruction, and the boundary register's update stage. -/
structure Service where
  alert : Byte
  toBoard : List Byte
  toDrover : List Byte
  tap : TapIns
  boundary : List Bool
deriving DecidableEq, Repr

/-- The service interfaces at power-on. -/
def Service.reset : Service := ⟨0, [], [], .idcode, []⟩

/-- What has left the device, in order: the model's own record of the effects outside. -/
inductive WireMsg
  | eth (port : Nat) (frame : List Byte)
  | posted (f : FoldId) (addr : Nat) (data : List Byte)
  | hostRead (f : FoldId) (tag addr len : Nat)
  | msix (f : FoldId) (vector : Nat) (addr : DWord) (data : Word)
  | unsupported (f : FoldId)
  | smbus (data : List Byte)
  | smbusNak
  | tap (ins : TapIns) (value : Word)
  | scan (captured : List Bool)
  | drive (ins : TapIns) (pins : List Bool)
  | flit (bytes : List Byte)
  | reply (f : FoldId) (data : List Byte)
  | regRead (addr : Nat) (value : Word)
deriving DecidableEq, Repr

end Sys2Proof.Machine
end

