-- ==== Sys2Proof/Machine/Parts/SafeIo.lean ====
section
/-! DEFINITION. The state of the safe input and output pairs (R531 to R540). -/

namespace Sys2Proof.Machine

/-- One channel of an input pair: the latest sample, the run of equal samples, the filtered value (R532). -/
structure InChan where
  sample : Bool
  run : Nat
  value : Bool
deriving DecidableEq, Repr

/-- An input pair: its channels, the discrepancy timer and DFAULT (R534). -/
structure InPair where
  a : InChan
  b : InChan
  timer : Nat
  dfault : Bool
deriving DecidableEq, Repr

/-- An input pair after reset. -/
def InPair.reset : InPair := ⟨⟨false, 0, false⟩, ⟨false, 0, false⟩, 0, false⟩

/-- The pair-input unit: the µs of the latest sample and tick, and of the latest pulses on TPA and TPB (R533). -/
structure InUnit where
  sampled : Nat
  ticked : Nat
  tpa : Option Nat
  tpb : Option Nat
deriving DecidableEq, Repr

/-- A switch test in progress (R540): channel B, and the µs at which it began. -/
structure OutTest where
  onB : Bool
  since : Nat
deriving DecidableEq, Repr

/-- An output pair: energised as commanded, DRA, DRB, the µs at which SOAk turns on while energising, the µs of the latest
commanded change, the latest read-back, OPSTAT's latches and counts, the test in progress and the half-period count of tests (R537
to R540). -/
structure OutPair where
  on : Bool
  dra : Bool
  drb : Bool
  soaAt : Option Nat
  changed : Nat
  fba : Bool
  fbb : Bool
  ofault : Bool
  req : Bool
  refused : Byte
  badval : Byte
  test : Option OutTest
  tests : Nat
deriving DecidableEq, Repr

/-- An output pair at power-on: both switches off (R540). -/
def OutPair.reset : OutPair := ⟨false, false, false, none, 0, false, false, false, false, 0, 0, none, 0⟩

end Sys2Proof.Machine
end

