-- ==== Sys2Proof/Machine/Parts/Twin.lean ====
section
/-! DEFINITION. The state of the twin link and of the twin modes (chapter 13). -/

namespace Sys2Proof.Machine

/-- An input digest entry (R484). -/
structure Digest where
  dest : Half
  len : Nat
  crc : Word
deriving DecidableEq, Repr

/-- The fold register image of Table 13.6: epoch, exceptions, channels and joins, DMA, queues, watchdog. -/
structure FoldImage where
  fstart : DWord
  fstat : Word
  serial : BitVec 28
  dtb : Word
  escv : Word
  esp : Word
  sksz : Word
  ien : Word
  entryf : Half
  etotal : Half
  chans : KMap Nat Channel
  joins : List JoinEntry
  dma : List (DmaId × Dma)
  queues : List (Nat × List RxEntry)
  xch : List (Nat × List QWord)
  fwdcfg : Word
  wdLeft : Nat
deriving DecidableEq, Repr

/-- Phases of a state transfer (R494): pages of a bulk or delta round still to send, the cut, or the register image last sent. -/
inductive XferPhase
  | none
  | bulk (todo : List Nat)
  | delta (todo : List Nat)
  | cut (todo : List Nat)
  | image (sent : FoldImage)
deriving DecidableEq, Repr

/-- What arrives in a STATE slot (R494, R495, Table 13.6): a page of a span's scratchpad or of a group, or the register image. -/
inductive StatePart
  | page (kind : MemKind) (index page : Nat) (data : List Byte)
  | image (m : FoldImage)
deriving DecidableEq, Repr

/-- The twin part of one fold: mode, mode awaiting FHEP, partner digests and seal for the current input window, forwarded entries
received, signature records of both devices not yet compared, whether the latest comparison disagreed, the transfer, whether its
cut is complete, whether a part of one has arrived, and the tags it releases: from `authFrom`, below `authTo` (R495, R499), the
first tag whose records are compared, and the register image received. -/
structure TwinFold where
  mode : BitVec 3
  next : Option (BitVec 3)
  theirs : List (Nat × Digest)
  sealed : Option (Nat × KMap Nat FrozenPair)
  fwd : List (Half × RxEntry)
  own : List SigRecord
  partner : List SigRecord
  disagreed : Bool
  phase : XferPhase
  sent : List Nat
  dirty : List Nat
  cutDone : Bool
  recv : Bool
  authFrom : Nat
  authTo : Option Nat
  crossFrom : Nat
  image : Option FoldImage
deriving DecidableEq, Repr

/-- A fold in mode ALONE (Table 13.4). -/
def TwinFold.reset : TwinFold := ⟨0, .none, [], .none, [], [], [], false, .none, [], [], false, false, 0, .none, 0, .none⟩

/-- A twin link flit without its redundancy (Table 13.1). -/
structure Flit where
  mark : Byte
  vc : Fin 4
  creditVc : Fin 4
  credits : BitVec 4
  seq : Byte
  ack : Byte
  payload : List Byte
  crc : Word
deriving DecidableEq, Repr

/-- What a heartbeat carries (R480, R481). The time message is the sender's device time, and an echo: the time message it received
last and the ns it has held it. `fstart` is EPOCH.FSTART of every fold (R102). -/
structure Heartbeat where
  role : BitVec 2
  claim : Bool
  hscore : Word
  dsafe : Bool
  sideB : Bool
  uid : DWord
  modes : List (BitVec 3)
  time : Nat
  echo : Option (Nat × Nat)
  fstart : List DWord
deriving DecidableEq, Repr

/-- A flit sent and not yet acknowledged, with the credits it returns (R475). -/
structure SentFlit where
  seq : Byte
  vc : Fin 4
  creditVc : Fin 4
  credits : Nat
  time : Nat
  payload : List Byte
deriving DecidableEq, Repr

/-- A flit that waits for its position and its credit: VC, kind of traffic, fold, payload (R476, R477). -/
structure OutFlit where
  vc : Fin 4
  kind : Nat
  fold : Option FoldId
  payload : List Byte
deriving DecidableEq, Repr

/-- The twin link: LINK, ROLE and the other bits of TWIN.STAT, partner health and number, measured offset, sequence
numbers, flits not yet acknowledged, flits that wait, credits held and credits to return by VC, partner modes, the REQ and RSP
receive buffers, the messages Drover firmware has taken from them, device time of the latest intact flit and of the beginning of
the slot cycle, the next free even position counted from there, the partner's time message received last with the device time of its
receipt, and whether the link goes down once the detach notice has left. -/
structure Twin where
  link : BitVec 2
  role : BitVec 2
  tlock : Bool
  sideErr : Bool
  pdsafe : Bool
  phealth : Word
  tofs : BitVec 24
  puid : DWord
  sendSeq : Byte
  unacked : List SentFlit
  waiting : List OutFlit
  recvSeq : Byte
  credits : Vector Nat 4
  owed : Vector Nat 4
  partner : Option Heartbeat
  inbox : List (Fin 4 × List Byte)
  firm : List (Fin 4 × List Byte)
  lastFlit : Nat
  beatAt : Nat
  evenAt : Nat
  beatFrom : Option (Nat × Nat)
  detach : Bool
deriving DecidableEq, Repr

/-- The receive buffers of R477, by VC. -/
def twinBuffers : Vector Nat 4 := #v[32, 32, 64, 64]

/-- The twin link after reset: down, role NONE. -/
def Twin.reset : Twin where
  link := 0
  role := 0
  tlock := false
  sideErr := false
  pdsafe := false
  phealth := 0
  tofs := 0
  puid := 0
  sendSeq := 0
  unacked := []
  waiting := []
  recvSeq := 0xFF
  credits := twinBuffers
  owed := #v[0, 0, 0, 0]
  partner := none
  inbox := []
  firm := []
  lastFlit := 0
  beatAt := 0
  evenAt := 0
  beatFrom := none
  detach := false

end Sys2Proof.Machine
end

