-- ==== Sys2Proof/Machine/Parts/Chip.lean ====
section
/-! DEFINITION. The state of the always-on domain and the resets, the power and clock manager, Tally and the BIST controller
(chapters 15, 17), and of boot, life cycle and security (chapter 16). -/

namespace Sys2Proof.Machine

/-- Power and reset: VAON good, crystal running, MAINEN, main rails good, nRESET asserted, main domain out of reset, bt at which
deep standby was requested, a wake source since (R573), a C6 of the AON watchdog that awaits the return of the rails (R457),
startup BIST running, the crystal has not started in time, the bt of the latest Bell tick and alarm (R640 to R646, R572, R585,
R558, R559), VDDIO good (R545). -/
structure Power where
  vaon : Bool
  crystal : Bool
  mainen : Bool
  rails : Bool
  nreset : Bool
  main : Bool
  standby : Option Nat
  woken : Bool
  c6 : Bool
  bist : Bool
  dead : Bool
  tickBt : Nat
  alarmBt : Nat
  vddio : Bool
deriving DecidableEq, Repr

/-- Clocks that the monitors count (R556). -/
inductive ClockBranch
  | span (s : SpanId)
  | fabric
  | refA
  | pllB
  | refB
  | aon
deriving DecidableEq, Repr

/-- The power and clock manager and Tally. Estimator sums of the window in units of 0.25 mW by fold, the same with every span
one clock step higher, the device's own share, and their number (R565, R566); clock steps decided and not yet in effect
(R564), by yoke the interval whose confirmation a decision waits for, the steps of a span that its temperature took (R569); the 10 µs of the
latest temperature reading; over-limit readings by sensor (R568); windows out of tolerance by clock
(R556); below-floor measurements, of monitor m at 8s + m and the scratchpad at 8s + 4 (R578); failed group banks and spans
held for a failed scratchpad bank (R583); spans not below TTHR − 5 °C throughout the window (R569). -/
structure PwrMgr where
  acc : KMap FoldId Nat
  accUp : KMap FoldId Nat
  dev : Nat
  samples : Nat
  want : KMap SpanId Nat
  wantAt : KMap YokeId Nat
  heat : KMap SpanId Nat
  tempAt : Nat
  hot : KMap Nat Nat
  mon : KMap ClockBranch Nat
  floor : KMap Nat Nat
  failed : List (Nat × Nat)
  held : List SpanId
  warm : List SpanId
deriving DecidableEq, Repr

/-- The power manager after reset. -/
def PwrMgr.reset : PwrMgr := ⟨[], [], 0, 0, [], [], [], 0, [], [], [], [], [], []⟩

/-- A memory BIST test or a start that waits (R582, R583): unit as written to BIST.MSTART, the fc of the write (R590). -/
structure MemTest where
  unit : Word
  written : Nat
  since : Option Nat
deriving DecidableEq, Repr

/-- The BIST controller: memory tests and waiting starts in order; Drover's core under test and since when; Drover's core
out of voting for a fault. -/
structure Bist where
  mem : List MemTest
  drover : Option (Fin 3 × Nat)
  outvoted : Option (Fin 3)
deriving DecidableEq, Repr

/-- The BIST controller after reset. -/
def Bist.reset : Bist := ⟨[], none, none⟩

/-- What the Drover ROM can boot from (R597): the two sets of the boot flash, and the image delivered through the test access
port, each from its header on; none where nothing answers. -/
structure Flash where
  setA : Option (List Byte)
  setB : Option (List Byte)
  tap : Option (List Byte)
deriving DecidableEq, Repr

/-- Boot, life cycle and security: OTP bytes that are not 0 by offset, life-cycle state in effect (R593), PEND, failed
openings, key slots and the always-on key area, SEC.BOOTSTAT and FWSVN of the running firmware, manifest verification,
OTP failure, challenge with the bt of its generation, bt until which CHALGEN is refused, random words, entropy failure,
SEC.RESP, identity proof, crypto queue head, tamper record. -/
structure Sec where
  otp : KMap Nat Byte
  lc : BitVec 3
  pend : Bool
  openFail : Byte
  keys : KMap Nat (List Byte)
  aonKeys : KMap Nat (List Byte)
  bootstat : Word
  fwsvn : Nat
  mok : Bool
  mbusy : Bool
  mver : Nat
  merr : Byte
  mnsvn : Nat
  otpFail : Bool
  chal : List Byte
  chalAt : Option Nat
  lockBt : Nat
  rng : List Word
  rngFail : Bool
  resp : KMap Nat Word
  twinOk : Bool
  cqHead : Nat
  tstat : Word
deriving DecidableEq, Repr

/-- A life-cycle bit as the majority of its three copies (R594). -/
def lcBit (otp : KMap Nat Byte) (i : Nat) : Bool :=
  decide (2 ≤ ((List.range 3).filter fun c => (kget otp 0 c).getLsbD i).length)

/-- The life-cycle state the OTP names (R594). -/
def lcState (otp : KMap Nat Byte) : BitVec 3 :=
  if lcBit otp 4 then 5 else if lcBit otp 3 then 4 else if lcBit otp 2 then 3 else if lcBit otp 1 then 2
  else if lcBit otp 0 then 1 else 0

/-- Security state as a reset leaves it, with what OTP and the always-on domain keep. -/
def Sec.boot (otp : KMap Nat Byte) (aonKeys : KMap Nat (List Byte)) (lockBt : Nat) (tstat : Word) : Sec where
  otp := otp
  lc := lcState otp
  pend := false
  openFail := 0
  keys := aonKeys
  aonKeys := aonKeys
  bootstat := 0
  fwsvn := 0
  mok := false
  mbusy := false
  mver := 0
  merr := 0
  mnsvn := 0
  otpFail := false
  chal := []
  chalAt := none
  lockBt := lockBt
  rng := []
  rngFail := false
  resp := []
  twinOk := false
  cqHead := 0
  tstat := tstat

end Sys2Proof.Machine
end

