-- ==== Sys2Proof/Syntax.lean ====
section
/-! DEFINITION. The commands of the J1024: one constructor for each row of the spec's table, with the operands the spec gives
the command or event. -/

namespace Sys2Proof

open Sys2Proof.Machine

/-- A command or event of the J1024. -/
inductive Instr
  /-- EPOCH_BOUNDARY (R114): device time reaches a boundary of a fold's epoch grid; outputs tagged two epochs back are
  released and the inputs of the epoch just ended become visible. -/
  | epochBoundary (f : FoldId)
  /-- INPUT_FREEZE (R106): at the freeze instant the pair-input unit freezes channel values and discrepancy state for
  the next epoch. -/
  | inputFreeze (f : FoldId)
  /-- SPAN_REST_ENTRY (R33): after 1,024 fc with every yoke idle or waiting and the overflow queue empty, the span
  begins to enter Doze or Nap. -/
  | spanRestEntry (sp : SpanId)
  /-- SPAN_REST_REACHED (R563): the span completes entry into Doze in 16 fc or Nap in 2 µs. -/
  | spanRestReached (sp : SpanId)
  /-- SPAN_WAKE_DONE (R560): A waking span reaches Run within the wake time of its rest state. -/
  | spanWakeDone (sp : SpanId)
  /-- SPAN_WAKE_COMMAND (R562): A write of SPAN.PWRCTL.WAKE wakes the span. -/
  | spanWakeCommand (sp : SpanId) (v : Word)
  /-- TRAILING_COMPARE (R49): the trailing core executes a compare-queue entry and the checker compares its bus
  outputs with the leading core's. -/
  | trailingCompare (y : YokeId) (dist : Disturb)
  /-- CHECKPOINT_COUNT_TRIGGER (R66): the 4,096th retired instruction since the last checkpoint triggers a checkpoint.
  -/
  | checkpointCountTrigger (y : YokeId)
  /-- CHECKPOINT_TIME_TRIGGER (R66): 4,608 fc of leading-core time since the last checkpoint trigger a checkpoint at
  the next boundary. -/
  | checkpointTimeTrigger (y : YokeId)
  /-- CHECKPOINT_CONFIRM (R69): the trailing core reaches the checkpoint point, state and held entries check, and the
  pending slot becomes committed. -/
  | checkpointConfirm (y : YokeId) (dist : CkDisturb)
  /-- WHB_DRAIN (R341): A held write-hold buffer entry of a confirmed group is delivered to its bank. -/
  | whbDrain (y : YokeId) (ecc : Ecc)
  /-- GROUP_VISIBLE (R358): once every bank has accepted a group's entries they become visible together. -/
  | groupVisible (y : YokeId)
  /-- SLIP_COLLAPSE_COMPLETE (R60): the trailing core reaches a slip-collapsing instruction; after comparison its
  effect is performed once and its result enters both cores. -/
  | slipCollapseComplete (y : YokeId) (dist : Disturb)
  /-- LOAD_COMPLETE (R184): load data returns from a bank or the fabric with its status. -/
  | loadComplete (y : YokeId) (n : Nat) (flip : CwFlip)
  /-- FETCH_COMPLETE (R168): an instruction fetch block returns, or its failure raises a vector when decoding needs
  the byte. -/
  | fetchComplete (y : YokeId) (block : Nat) (needed : BitVec 16) (flip : CwFlip)
  /-- BRANCH_RESOLVE (R177): A predicted branch resolves 1 fc after issue and a misprediction squashes the wrong path.
  -/
  | branchResolve (y : YokeId)
  /-- FLOAT_BEGIN (R225): A queued float instruction begins once its sources hold their values. -/
  | floatBegin (y : YokeId)
  /-- FLOAT_RETIRE (R240): A float instruction retires in order, writes its register and accrues its flags. -/
  | floatRetire (y : YokeId)
  /-- EVENT_ACCEPT (R272): an eligible yoke reaching a boundary accepts the lowest pending deferrable event. -/
  | eventAccept (y : YokeId)
  /-- ILLEGAL_OPCODE (R167): decoding meets an illegal byte, prefix combination, length or field and raises vector
  0x00. -/
  | illegalOpcode (y : YokeId) (bytes : List Byte)
  /-- RESERVED_OPCODE (R167): decoding meets a reserved opcode or prefix and raises vector 0x01 for emulation. -/
  | reservedOpcode (y : YokeId) (bytes : List Byte)
  /-- ADD (R214): adds the operand to D and sets Z, N, C and V. -/
  | add (y : YokeId) (wide : Bool) (rep : Rep) (d : Gpr) (a : AluArg)
  /-- ADC (R214): adds the operand and carry to D and sets the flags. -/
  | adc (y : YokeId) (wide : Bool) (rep : Rep) (d : Gpr) (a : AluArg)
  /-- SUB (R214): subtracts the operand from D, C a borrow. -/
  | sub (y : YokeId) (wide : Bool) (rep : Rep) (d : Gpr) (a : AluArg)
  /-- SBC (R214): subtracts the operand and borrow from D. -/
  | sbc (y : YokeId) (wide : Bool) (rep : Rep) (d : Gpr) (a : AluArg)
  /-- AND (R161): bitwise AND into D, setting Z and N. -/
  | and (y : YokeId) (wide : Bool) (rep : Rep) (d : Gpr) (a : AluArg)
  /-- OR (R161): bitwise OR into D, setting Z and N. -/
  | or (y : YokeId) (wide : Bool) (rep : Rep) (d : Gpr) (a : AluArg)
  /-- XOR (R161): bitwise XOR into D, setting Z and N. -/
  | xor (y : YokeId) (wide : Bool) (rep : Rep) (d : Gpr) (a : AluArg)
  /-- ANDN (R161): D AND NOT operand into D, setting Z and N. -/
  | andn (y : YokeId) (wide : Bool) (rep : Rep) (d : Gpr) (a : AluArg)
  /-- SHL (R181): shifts D left, C the last bit out. -/
  | shl (y : YokeId) (wide : Bool) (rep : Rep) (d : Gpr) (a : AluArg)
  /-- SHR (R181): shifts D right with zero fill. -/
  | shr (y : YokeId) (wide : Bool) (rep : Rep) (d : Gpr) (a : AluArg)
  /-- SAR (R181): shifts D right with sign fill. -/
  | sar (y : YokeId) (wide : Bool) (rep : Rep) (d : Gpr) (a : AluArg)
  /-- CMP (R214): sets the flags of D minus the operand. -/
  | cmp (y : YokeId) (wide : Bool) (rep : Rep) (d : Gpr) (a : AluArg)
  /-- TST (R161): sets Z and N of D AND operand. -/
  | tst (y : YokeId) (wide : Bool) (rep : Rep) (d : Gpr) (a : AluArg)
  /-- MOV (R161): writes the operand to D. -/
  | mov (y : YokeId) (wide : Bool) (rep : Rep) (d : Gpr) (a : AluArg)
  /-- NOP (R204): does nothing for 1 fc. -/
  | nop (y : YokeId)
  /-- MULS (R182): signed multiply, low 32 bits, V on overflow, early-ending latency. -/
  | muls (y : YokeId) (d : Gpr) (src : Gpr)
  /-- MULU (R182): unsigned multiply, low 32 bits, V on overflow. -/
  | mulu (y : YokeId) (d : Gpr) (src : Gpr)
  /-- MULWS (R182): signed 64-bit product into a register pair. -/
  | mulws (y : YokeId) (d : Gpr) (src : Gpr)
  /-- MULWU (R182): unsigned 64-bit product into a register pair. -/
  | mulwu (y : YokeId) (d : Gpr) (src : Gpr)
  /-- DSTEP (R219): one unsigned division step on a register pair. -/
  | dstep (y : YokeId) (rep : Rep) (d : Gpr) (src : Gpr)
  /-- DSTEPS (R220): one signed division step on a register pair. -/
  | dsteps (y : YokeId) (rep : Rep) (d : Gpr) (src : Gpr)
  /-- DFIX (R221): sign correction of quotient and remainder after the division steps. -/
  | dfix (y : YokeId) (d : Gpr) (src : Gpr)
  /-- NEG (R214): D := 0 − S with flags as SUB. -/
  | neg (y : YokeId) (d : Gpr) (src : Gpr)
  /-- NOT (R162): D := NOT S. -/
  | not (y : YokeId) (d : Gpr) (src : Gpr)
  /-- EXTB (R162): sign-extends byte S into D. -/
  | extb (y : YokeId) (d : Gpr) (src : Gpr)
  /-- EXTH (R162): sign-extends halfword S into D. -/
  | exth (y : YokeId) (d : Gpr) (src : Gpr)
  /-- CLZ (R162): counts leading zero bits of S into D. -/
  | clz (y : YokeId) (d : Gpr) (src : Gpr)
  /-- LDB (R156): loads a sign-extended byte with a one-instruction load delay. -/
  | ldb (y : YokeId) (d : Gpr) (m : MemAddr)
  /-- LDBU (R156): loads a zero-extended byte. -/
  | ldbu (y : YokeId) (d : Gpr) (m : MemAddr)
  /-- LDH (R156): loads a sign-extended halfword. -/
  | ldh (y : YokeId) (d : Gpr) (m : MemAddr)
  /-- LDHU (R156): loads a zero-extended halfword. -/
  | ldhu (y : YokeId) (d : Gpr) (m : MemAddr)
  /-- LDW (R156): loads a word; from banks 0xF0 to 0xFF it is slip-collapsing. -/
  | ldw (y : YokeId) (d : Gpr) (m : MemAddr)
  /-- LDD (R156): loads a doubleword into a register pair. -/
  | ldd (y : YokeId) (d : Gpr) (m : MemAddr)
  /-- LDQ (R156): loads 16 bytes into four registers. -/
  | ldq (y : YokeId) (d : Gpr) (m : MemAddr)
  /-- STB (R185): stores a byte into the write-hold buffer, or performs an alias store. -/
  | stb (y : YokeId) (d : Gpr) (m : MemAddr)
  /-- STH (R185): stores a halfword. -/
  | sth (y : YokeId) (d : Gpr) (m : MemAddr)
  /-- STW (R185): stores a word. -/
  | stw (y : YokeId) (d : Gpr) (m : MemAddr)
  /-- STD (R185): stores a doubleword from a pair. -/
  | std (y : YokeId) (d : Gpr) (m : MemAddr)
  /-- STQ (R185): stores 16 bytes from four registers. -/
  | stq (y : YokeId) (d : Gpr) (m : MemAddr)
  /-- XCHG (R188): atomically exchanges D with the word at the bank. -/
  | xchg (y : YokeId) (wide : Bool) (ord : Bool) (d : Gpr) (m : MemAddr)
  /-- CAS (R188): atomic compare-and-swap, Z set when written. -/
  | cas (y : YokeId) (wide : Bool) (ord : Bool) (d : Gpr) (new : Gpr) (m : MemAddr)
  /-- FADD (R188): atomic fetch-and-add of a register or immediate. -/
  | fadd (y : YokeId) (wide : Bool) (ord : Bool) (d : Gpr) (ad : Addend) (m : MemAddr)
  /-- TLOCK (R191): acquires a tether lock word once at the bank, or reports it held. -/
  | tlock (y : YokeId) (d : Gpr) (m : MemAddr)
  /-- TUNLOCK (R192): releases a tether held by the executing task. -/
  | tunlock (y : YokeId) (m : MemAddr)
  /-- MOVM (R194): copies one aligned 16-byte word per iteration. -/
  | movm (y : YokeId) (rep : Rep) (d : Gpr) (src : Gpr)
  /-- FILLM (R194): fills 16-byte words from a pattern. -/
  | fillm (y : YokeId) (rep : Rep) (d : Gpr) (src : Gpr)
  /-- CMPM (R197): compares 16-byte words and ends at the first difference. -/
  | cmpm (y : YokeId) (rep : Rep) (d : Gpr) (src : Gpr)
  /-- BR (R154): branches to the target. -/
  | br (y : YokeId) (t : BrTarget)
  /-- BCC (R155): conditional branch on the flags, statically predicted. -/
  | bcc (y : YokeId) (cond : BitVec 4) (t : BrTarget)
  /-- BRL (R164): writes the return address to g15 and branches. -/
  | brl (y : YokeId) (t : BrTarget)
  /-- JR (R199): jumps to g[S]. -/
  | jr (y : YokeId) (src : Gpr)
  /-- JRL (R199): jumps to g[S] and links in g15. -/
  | jrl (y : YokeId) (src : Gpr)
  /-- RET (R199): jumps to g15. -/
  | ret (y : YokeId)
  /-- GATE (R264): enters a handler through gate descriptor n after the ordered checks. -/
  | gate (y : YokeId) (n : Byte)
  /-- TRAP (R264): raises vector n through a trap descriptor. -/
  | trap (y : YokeId) (n : Byte)
  /-- IRET (R266): restores PC, ST, stack pointer, g14 and shadow from the frame as one step. -/
  | iret (y : YokeId)
  /-- SYSC (R200): writes a 16-byte service request record to the fold's mailbox through the write-hold buffer. -/
  | sysc (y : YokeId) (n : Byte)
  /-- LOOP (R199): decrements CT and branches while it is not zero. -/
  | loop (y : YokeId) (disp : Half)
  /-- SYSRD (R144): reads a system register, subject to ring and range checks. -/
  | sysrd (y : YokeId) (d : Gpr) (num : BitVec 12)
  /-- SYSWR (R201): writes a system register; slip-collapsing where it acts outside the yoke. -/
  | syswr (y : YokeId) (num : BitVec 12) (src : Gpr)
  /-- FENCE (R206): checkpoints and waits for visibility; with C = 1 also refetches code. -/
  | fence (y : YokeId) (code : Bool)
  /-- CKPT (R205): takes a checkpoint without collapsing the slip. -/
  | ckpt (y : YokeId)
  /-- WAIT (R207): suspends the task until an event of the set or the timeout. -/
  | wait (y : YokeId) (d : Gpr) (src : Gpr)
  /-- WAIT_TIMEOUT (R208): A WAIT's timeout expires and D receives 0xFFFF_FFFF. -/
  | waitTimeout (y : YokeId)
  /-- SAMPLE (R209): returns the agreed value of an input pair from the two cores' sampler readings. -/
  | sample (y : YokeId) (d : Gpr) (pair : Byte)
  /-- EMIT (R211): writes 1 to 16 bytes to an output window, optionally local. -/
  | emit (y : YokeId) (loc : Bool) (size : BitVec 3) (d : Gpr) (m : MemAddr)
  /-- MASK (R203): sets ST.M. -/
  | mask (y : YokeId)
  /-- UNMASK (R203): clears ST.M; a pending event is taken at the next boundary. -/
  | unmask (y : YokeId)
  /-- BKLD (R204): loads BK from the immediate. -/
  | bkld (y : YokeId) (b : Byte)
  /-- BRK (R199): raises vector 0x0A. -/
  | brk (y : YokeId)
  /-- SPAWN (R288): copies a checked task descriptor into the scheduler and pushes it on the yoke's deque. -/
  | spawn (y : YokeId) (src : Gpr)
  /-- JOIN (R306): completes when the join counter is zero, else parks the task in a save slot. -/
  | join (y : YokeId) (src : Gpr)
  /-- YIELD (R308): offers the yoke to another available task. -/
  | yield (y : YokeId)
  /-- TEND (R305): ends the task normally or by abort after its final checkpoint. -/
  | tend (y : YokeId) (op : Byte)
  /-- CHPUT (R311): writes an entry to a task channel, or parks when full. -/
  | chput (y : YokeId) (d : Gpr) (src : Gpr)
  /-- CHGET (R311): removes an entry from a task channel, or parks when empty. -/
  | chget (y : YokeId) (d : Gpr) (src : Gpr)
  /-- TID (R213): returns the task identifier. -/
  | tid (y : YokeId) (d : Gpr)
  /-- ADD_D (R229): binary64 addition, correctly rounded. -/
  | addD (y : YokeId) (rnd : Rnd) (d : Freg) (src : Freg) (b : Freg)
  /-- ADD_S (R230): binary32 addition on both lanes. -/
  | addS (y : YokeId) (rnd : Rnd) (d : Freg) (src : Freg) (b : Freg)
  /-- SUB_D (R229): binary64 subtraction. -/
  | subD (y : YokeId) (rnd : Rnd) (d : Freg) (src : Freg) (b : Freg)
  /-- SUB_S (R230): binary32 subtraction on both lanes. -/
  | subS (y : YokeId) (rnd : Rnd) (d : Freg) (src : Freg) (b : Freg)
  /-- MUL_D (R229): binary64 multiplication. -/
  | mulD (y : YokeId) (rnd : Rnd) (d : Freg) (src : Freg) (b : Freg)
  /-- MUL_S (R230): binary32 multiplication on both lanes. -/
  | mulS (y : YokeId) (rnd : Rnd) (d : Freg) (src : Freg) (b : Freg)
  /-- DIV_D (R225): binary64 division in the iterative divider. -/
  | divD (y : YokeId) (rnd : Rnd) (d : Freg) (src : Freg) (b : Freg)
  /-- DIV_S (R225): binary32 division on both lanes. -/
  | divS (y : YokeId) (rnd : Rnd) (d : Freg) (src : Freg) (b : Freg)
  /-- SQRT_D (R225): binary64 square root in the divider. -/
  | sqrtD (y : YokeId) (rnd : Rnd) (d : Freg) (src : Freg)
  /-- SQRT_S (R225): binary32 square root on both lanes. -/
  | sqrtS (y : YokeId) (rnd : Rnd) (d : Freg) (src : Freg)
  /-- FMA_D (R229): binary64 fused multiply-add, one rounding. -/
  | fmaD (y : YokeId) (rnd : Rnd) (d : Freg) (src : Freg) (b : Freg)
  /-- FMA_S (R229): binary32 fused multiply-add. -/
  | fmaS (y : YokeId) (rnd : Rnd) (d : Freg) (src : Freg) (b : Freg)
  /-- FMS_D (R229): binary64 fused multiply-subtract. -/
  | fmsD (y : YokeId) (rnd : Rnd) (d : Freg) (src : Freg) (b : Freg)
  /-- FMS_S (R229): binary32 fused multiply-subtract. -/
  | fmsS (y : YokeId) (rnd : Rnd) (d : Freg) (src : Freg) (b : Freg)
  /-- FNMA_D (R229): binary64 negated fused multiply-add. -/
  | fnmaD (y : YokeId) (rnd : Rnd) (d : Freg) (src : Freg) (b : Freg)
  /-- FNMA_S (R229): binary32 negated fused multiply-add. -/
  | fnmaS (y : YokeId) (rnd : Rnd) (d : Freg) (src : Freg) (b : Freg)
  /-- FNMS_D (R229): binary64 negated fused multiply-subtract. -/
  | fnmsD (y : YokeId) (rnd : Rnd) (d : Freg) (src : Freg) (b : Freg)
  /-- FNMS_S (R229): binary32 negated fused multiply-subtract. -/
  | fnmsS (y : YokeId) (rnd : Rnd) (d : Freg) (src : Freg) (b : Freg)
  /-- MIN_D (R235): binary64 minimum or minimumNumber by X. -/
  | minD (y : YokeId) (x : Bool) (d : Freg) (src : Freg) (b : Freg)
  /-- MIN_S (R235): binary32 minimum on both lanes. -/
  | minS (y : YokeId) (x : Bool) (d : Freg) (src : Freg) (b : Freg)
  /-- MAX_D (R235): binary64 maximum or maximumNumber by X. -/
  | maxD (y : YokeId) (x : Bool) (d : Freg) (src : Freg) (b : Freg)
  /-- MAX_S (R235): binary32 maximum on both lanes. -/
  | maxS (y : YokeId) (x : Bool) (d : Freg) (src : Freg) (b : Freg)
  /-- CMP_D (R236): binary64 compare setting the ST flags. -/
  | cmpD (y : YokeId) (x : Bool) (src : Freg) (b : Freg)
  /-- CMP_S (R236): binary32 compare of lane 0. -/
  | cmpS (y : YokeId) (x : Bool) (src : Freg) (b : Freg)
  /-- CLASS_D (R237): one-hot class of a binary64 value into a general register. -/
  | classD (y : YokeId) (d : Gpr) (src : Freg)
  /-- CLASS_S (R237): one-hot classes of both binary32 lanes. -/
  | classS (y : YokeId) (d : Gpr) (src : Freg)
  /-- NEG_D (R228): inverts the binary64 sign bit. -/
  | negD (y : YokeId) (d : Freg) (src : Freg)
  /-- NEG_S (R228): inverts both binary32 sign bits. -/
  | negS (y : YokeId) (d : Freg) (src : Freg)
  /-- ABS_D (R228): clears the binary64 sign bit. -/
  | absD (y : YokeId) (d : Freg) (src : Freg)
  /-- ABS_S (R228): clears both binary32 sign bits. -/
  | absS (y : YokeId) (d : Freg) (src : Freg)
  /-- RINT_D (R238): rounds binary64 to an integral value. -/
  | rintD (y : YokeId) (rnd : Rnd) (x : Bool) (d : Freg) (src : Freg)
  /-- RINT_S (R238): rounds both binary32 lanes to integral values. -/
  | rintS (y : YokeId) (rnd : Rnd) (x : Bool) (d : Freg) (src : Freg)
  /-- FLD (R227): loads 8 or 4 bytes into a float register. -/
  | fld (y : YokeId) (x : Bool) (d : Freg) (m : MemAddr)
  /-- FST (R227): stores a float register after its producers complete. -/
  | fst (y : YokeId) (x : Bool) (d : Freg) (m : MemAddr)
  /-- FMOV (R228): copies one float register to another. -/
  | fmov (y : YokeId) (d : Freg) (src : Freg)
  /-- FMVG (R228): moves half a float register to a general register. -/
  | fmvg (y : YokeId) (x : Bool) (d : Gpr) (src : Freg)
  /-- FMVF (R228): moves a general register into half a float register. -/
  | fmvf (y : YokeId) (x : Bool) (d : Freg) (src : Gpr)
  /-- CVTIF (R239): converts an integer to binary64 or binary32. -/
  | cvtif (y : YokeId) (rnd : Rnd) (u : Bool) (x : Bool) (d : Freg) (src : Gpr)
  /-- CVTFI (R239): converts a float to a 32-bit integer, saturating on invalid. -/
  | cvtfi (y : YokeId) (rnd : Rnd) (u : Bool) (x : Bool) (d : Gpr) (src : Freg)
  /-- CVTFF (R239): narrows or widens between binary64 and binary32. -/
  | cvtff (y : YokeId) (rnd : Rnd) (x : Bool) (d : Freg) (src : Freg)
  /-- ST_WRITE (R137): SYSWR to ST writes the permitted fields, M only in rings 0 and 1. -/
  | stWrite (y : YokeId) (src : Gpr)
  /-- FCSR_WRITE (R243): SYSWR to FCSR waits for earlier float instructions then takes effect. -/
  | fcsrWrite (y : YokeId) (src : Gpr)
  /-- OEPOCH_WRITE (R111): SYSWR to OEPOCH accepts a value within the serial-number range, else raises vector 0x0C. -/
  | oepochWrite (y : YokeId) (src : Gpr)
  /-- ESP_WRITE (R282): SYSWR to ESP is refused while an escalation slot is in use. -/
  | espWrite (y : YokeId) (src : Gpr)
  /-- SKSZ_WRITE (R283): SYSWR to SKSZ is refused with a K field outside 8 to 20. -/
  | skszWrite (y : YokeId) (src : Gpr)
  /-- CHBASE_WRITE (R312): SYSWR to CHBASE of the selected channel, refused while open. -/
  | chbaseWrite (y : YokeId) (src : Gpr)
  /-- CHCFG_WRITE (R312): SYSWR to CHCFG opens or closes a channel or sets its depth, with checks. -/
  | chcfgWrite (y : YokeId) (src : Gpr)
  /-- OWNER_POP (R297): an idle yoke pops the newest entry of its own deque. -/
  | ownerPop (y : YokeId)
  /-- OVERFLOW_TAKE (R295): an idle yoke takes an eligible overflow entry, resume class first. -/
  | overflowTake (y : YokeId)
  /-- STEAL (R298): an idle yoke steals the oldest entry of the deepest sibling deque. -/
  | steal (y : YokeId)
  /-- CROSS_SPAN_STEAL (R299): A yoke idle for 256 fc steals a portable task from the next span every 64 fc. -/
  | crossSpanSteal (y : YokeId)
  /-- DEFERRED_OVERFLOW_PUSH (R295): A waiting retirement or BIST move or resume push enters the overflow queue when
  an entry frees. -/
  | deferredOverflowPush (sp : SpanId)
  /-- FOLLOW_TASK_START (R319): in a Follow span an idle yoke takes the task named by the next START record once
  present. -/
  | followTaskStart (y : YokeId)
  /-- DEBUG_HALT (R85): the debug port halts the yoke running a named task; its checker stops. -/
  | debugHalt (f : FoldId) (id : Word)
  /-- DEBUG_RESUME (R618): the debug port resumes a halted yoke. -/
  | debugResume (y : YokeId)
  /-- DEBUG_STEP (R618): the debug port single-steps one instruction. -/
  | debugStep (y : YokeId)
  /-- DEBUG_REGISTER_ACCESS (R618): the debug port reads or writes the halted leading core's registers. -/
  | debugRegisterAccess (y : YokeId) (n : Fin 41) (w : Option DWord)
  /-- DEBUG_MEMORY_ACCESS (R618): the debug port accesses a device physical address through service slot 47. -/
  | debugMemoryAccess (a : PhysAddr) (size : Fin 5) (w : Option QWord) (flip : CwFlip)
  /-- INJECT_TEST_MISMATCH (R90): A 1 written to SPAN.CKCTL.INJ injects a test mismatch into yoke INJY. -/
  | injectTestMismatch (sp : SpanId) (v : Word)
  /-- SLIP_TARGET_WRITE (R90): A write of SPAN.CKCTL.SLIP sets the slip target, or is ignored out of range with a C0
  incident. -/
  | slipTargetWrite (sp : SpanId) (v : Word)
  /-- TIME_SET (R98): EPOCH.CTL.SET loads device time while no fold is admitted. -/
  | timeSet (v : Word)
  /-- TIME_SOURCE_WRITE (R99): A write of EPOCH.CTL.TSRC selects the time source; free-running clears HOLD. -/
  | timeSourceWrite (v : Word)
  /-- PTP_MESSAGE_RECEIVE (R97): an IEEE 802.1AS message on TPORT yields a correction of the increment. -/
  | ptpMessageReceive (offset : Int)
  /-- HOLDOVER_ENTER (R99): after 1 s without a valid correction the controller enters holdover. -/
  | holdoverEnter
  /-- HOLDING_AREA_WRITE (R112): A write of EPOCH.FHBASE or FHSIZE is checked against the other and ownership, or
  refused. -/
  | holdingAreaWrite (f : FoldId) (isSize : Bool) (v : Word)
  /-- EPOCH_CONFIG_WRITE (R129): A write of EPOCH.FCFG sets EPOW and KM1, refused out of range or while active. -/
  | epochConfigWrite (f : FoldId) (v : Word)
  /-- WINDOW_COMMIT (R332): A write to WINC commits a fold window after the refusal checks. -/
  | windowCommit (f : FoldId) (w : Fin 64) (v : Word)
  /-- GROUP_WIPE_DONE (R349): the wipe of a released fold memory group ends. -/
  | groupWipeDone (g : GroupId)
  /-- SPAN_WIPE_DONE (R350): the 2.56 µs wipe of a span's scratchpad ends. -/
  | spanWipeDone (sp : SpanId)
  /-- PATROL_SCRUB (R345): the patrol scrubber reads a word and handles each codeword by Table 9.7. -/
  | patrolScrub (kind : MemKind) (n : SpanId) (off : Nat) (e0 : CwFlip) (e1 : CwFlip)
  /-- ECC_WRITEBACK (R344): A corrected codeword or check bits are written back at the bank's next idle cycle. -/
  | eccWriteback (kind : MemKind) (n : SpanId) (off : Nat)
  /-- FABRIC_CRC_RETRY (R346): A retried copy after a CRC failure arrives and the event is classified, or the
  transaction ends with a bus error. -/
  | fabricCrcRetry (src dst : FabricEnd) (hop : Nat) (o : FabricOutcome) (word : Nat)
  /-- MEMCTL_CLEAR (R368): A write of SPAN.MEMCTL.CLR clears the span's error counts. -/
  | memctlClear (sp : SpanId) (v : Word)
  /-- DMA_START (R382): A confirmed store of CCTL.START starts a channel, recording ring and OEPOCH. -/
  | dmaStart (c : DmaId) (v : Word) (ring : BitVec 2) (oepoch : Word)
  /-- DMA_STOP (R384): A store of CCTL.STOP requests a stop at the channel's next boundary. -/
  | dmaStop (c : DmaId)
  /-- DMA_STOP_EFFECT (R384): at its next boundary and after completion the channel enters stopped. -/
  | dmaStopEffect (c : DmaId) (flt : DmaFault)
  /-- DMA_BULK_STOP (R402): A Drover write of DMA.STOPLO or STOPHI stops each selected channel. -/
  | dmaBulkStop (hi : Bool) (v : Word)
  /-- DMA_MOVE (R374): channel instruction copying a length from CSRC to CDST. -/
  | dmaMove (c : DmaId) (flt : DmaFault)
  /-- DMA_GATHER (R374): channel instruction copying list entries to CDST. -/
  | dmaGather (c : DmaId) (flt : DmaFault)
  /-- DMA_SCATTER (R374): channel instruction copying from CSRC to list entries. -/
  | dmaScatter (c : DmaId) (flt : DmaFault)
  /-- DMA_LOOP (R376): channel instruction repeating the preceding B instructions N times. -/
  | dmaLoop (c : DmaId) (flt : DmaFault)
  /-- DMA_WAIT (R377): channel instruction waiting for an event kind or timeout. -/
  | dmaWait (c : DmaId) (flt : DmaFault)
  /-- DMA_WAIT_END (R377): the awaited event arrives and the channel wait ends. -/
  | dmaWaitEnd (c : DmaId) (flt : DmaFault)
  /-- DMA_WAIT_TIMEOUT (R377): A channel wait's timeout expires and stops the channel with error 0x07. -/
  | dmaWaitTimeout (c : DmaId)
  /-- DMA_SIGNAL (R374): channel instruction raising vector 0x12 or setting another channel's CEVT after completion.
  -/
  | dmaSignal (c : DmaId) (flt : DmaFault)
  /-- DMA_CHECK (R378): channel instruction comparing the running CRC-32C with an expected value. -/
  | dmaCheck (c : DmaId) (flt : DmaFault)
  /-- DMA_END (R374): channel instruction setting the channel done once its transfers are complete. -/
  | dmaEnd (c : DmaId) (flt : DmaFault)
  /-- DMA_BURST (R385): an access point issues a channel's next burst in one of the fold's slots. -/
  | dmaBurst (c : DmaId) (flt : DmaFault)
  /-- DMA_WATCHDOG_EXPIRY (R388): WDT µs pass without a restart and the channel stops with error 0x09. -/
  | dmaWatchdogExpiry (c : DmaId)
  /-- CEVT_SET (R401): A store to CEVT.EV sets the channel event flag. -/
  | cevtSet (c : DmaId)
  /-- FOLD_BUILD (R405): A write of BUILD to FSTATE takes a fold number from EMPTY. -/
  | foldBuild (f : FoldId)
  /-- FOLD_ADMIT (R406): A write of RUN to FSTATE admits the fold after the hardware checks. -/
  | foldAdmit (f : FoldId)
  /-- FOLD_SAFE_WRITE (R405): A Drover write of SAFE to FSTATE takes a running fold to SAFE. -/
  | foldSafeWrite (f : FoldId)
  /-- FOLD_EMPTY (R408): A write of EMPTY frees a fold number that owns nothing. -/
  | foldEmpty (f : FoldId)
  /-- RESOURCE_ASSIGN (R409): an ownership write with VALID = 1 assigns a span, group, channel or queue pair. -/
  | resourceAssign (r : Resource) (f : FoldId)
  /-- RESOURCE_RELEASE (R409): an ownership write with VALID = 0 releases a resource. -/
  | resourceRelease (r : Resource) (f : FoldId)
  /-- SLOT_WRITE (R414): A write of FOLDMGR.SLOT assigns a fabric slot from the next frame. -/
  | slotWrite (n : Fin 48) (v : Word)
  /-- FABRIC_FRAME_START (R414): A new 48-slot fabric frame begins and pending slot changes take effect. -/
  | fabricFrameStart
  /-- XCH_DECLARE (R419): an XCHOWN write declares a cross-fold channel, subject to refusals. -/
  | xchDeclare (x : Fin 256) (v : Word)
  /-- XCH_RELEASE (R419): an XCHOWN write releases a channel and empties its receive queue. -/
  | xchRelease (x : Fin 256) (v : Word)
  /-- XCH_RECV (R421): an LDQ of RECV pops the oldest visible cross-fold entry or sets UNDER. -/
  | xchRecv (y : YokeId) (d : Gpr) (x : Fin 256)
  /-- XCH_RXSTAT_READ (R421): an LDW of RXSTAT returns the status and clears UNDER and LOST. -/
  | xchRxstatRead (y : YokeId) (d : Gpr) (x : Fin 256)
  /-- POWER_BUDGET_WRITE (R423): A write of FPWR.BUDGET, refused above 165 W or at 0 for a running fold. -/
  | powerBudgetWrite (f : FoldId) (v : Word)
  /-- POWER_WINDOW_END (R422): A 1,024 µs estimator window ends; budgets and thermal thresholds are judged. -/
  | powerWindowEnd
  /-- CLOCK_STEP_APPLY (R564): A span clock step change takes effect at checkpoint confirmations within 2 µs. -/
  | clockStepApply (sp : SpanId)
  /-- SERVICE_TURN (R426): A 4 µs turn of the Drover service round begins for the next fold number. -/
  | serviceTurn (f : FoldId) (answer : Option (Word × List Byte × List Byte)) (mailbox : Option (List Byte))
  /-- FAULT_REPORT (R429): A detector's report reaches the fault manager. -/
  | faultReport (n : Nat) (ext : List Report)
  /-- INCIDENT_WINDOW_CLOSE (R431): an incident's 4,096 fc coalescing window closes. -/
  | incidentWindowClose (num : Half)
  /-- REACTION_BEGIN (R436): A waiting reaction begins or resumes when no higher reaction runs. -/
  | reactionBegin
  /-- REACTION_COMPLETE (R441): A reaction finishes its last step. -/
  | reactionComplete
  /-- FM_REQUEST (R468): A write of FM.REQ opens an incident of source 0x2C with the named class. -/
  | fmRequest (v : Word)
  /-- NSAFE_RELEASE (R448): A write of FM.SAFECTL.RELEASE deasserts nSAFE unless DSAFE is set. -/
  | nsafeRelease
  /-- SOURCE_CLASS_WRITE (R433): A write of FM.SRCCFG sets a source's class, refused below MIN. -/
  | sourceClassWrite (c : BitVec 6) (v : Word)
  /-- FWDCFG_WRITE (R468): A write of FM.FWDCFG configures a fold watchdog, refused for bad values. -/
  | fwdcfgWrite (f : FoldId) (v : Word)
  /-- FOLD_WATCHDOG_WARN (R451): the fold watchdog count reaches WARN and vector 0x0B becomes pending. -/
  | foldWatchdogWarn (f : FoldId)
  /-- FOLD_WATCHDOG_EXPIRY (R451): the fold watchdog reaches 0 and reports source 0x14. -/
  | foldWatchdogExpiry (f : FoldId)
  /-- FOLD_WATCHDOG_SERVICE (R452): A SYSWR to FWDSVC reloads the watchdog, or counts as expiry with a wrong value. -/
  | foldWatchdogService (y : YokeId) (src : Gpr)
  /-- FOLD_WATCHDOG_KEY (R453): A SYSWR to FWDKEY advances the disable sequence. -/
  | foldWatchdogKey (y : YokeId) (src : Gpr)
  /-- FOLD_WATCHDOG_LOCK (R453): A write of FWDCTL.LOCK locks the disable sequence. -/
  | foldWatchdogLock (y : YokeId) (src : Gpr)
  /-- AON_WATCHDOG_START (R455): A write of AON.WDCTL.EN starts the software-start watchdog. -/
  | aonWatchdogStart (v : Word)
  /-- AON_WATCHDOG_EXPIRY (R457): the AON watchdog reaches 0, setting EXP or forcing C6. -/
  | aonWatchdogExpiry
  /-- AON_WATCHDOG_SERVICE (R456): A write of AON.WDSVC reloads the watchdog, or counts as expiry. -/
  | aonWatchdogService (v : Word)
  /-- AON_WATCHDOG_KEY (R459): A write of AON.WDKEY advances the stop sequence. -/
  | aonWatchdogKey (v : Word)
  /-- AON_WDCOUNT_CLEAR (R460): A write of AON.WDCOUNT.CLR clears the reset count. -/
  | aonWdcountClear (v : Word)
  /-- RECORDER_ARM (R462): A write of FR.CTL.ARM puts the recorder in ARMING. -/
  | recorderArm (v : Word)
  /-- RECORDER_ARMED (R462): after 1,024 fc of ARMING the recorder becomes ARMED. -/
  | recorderArmed
  /-- RECORDER_TRIGGER (R463): A write of FR.CTL.TRIG triggers capture, or counts a missed trigger. -/
  | recorderTrigger (v : Word)
  /-- RECORDER_MARK (R461): A write of FR.MARK writes a record of kind 0x08. -/
  | recorderMark (v : Word)
  /-- TWIN_LINK_UP (R480): the twin link comes up and the claims are resolved into roles. -/
  | twinLinkUp (h : Heartbeat)
  /-- TWIN_LINK_LOSS (R489): no intact flit for 10 µs or lane misalignment loses the link; CROSS folds go SINGLE. -/
  | twinLinkLoss (lanes : Bool)
  /-- FLIT_RESEND (R475): an unacknowledged flit after 1 µs causes resending from it onward. -/
  | flitResend
  /-- TWIN_HEARTBEAT (R481): each slot cycle the device sends a heartbeat with role, health and a time message. -/
  | twinHeartbeat
  /-- TWIN_HEARTBEAT_RECEIVE (R481): A received heartbeat updates partner state and the Follow's time steering. -/
  | twinHeartbeatReceive (h : Heartbeat)
  /-- TWIN_DIGEST_RECEIVE (R484): A partner's input digest entry is received. -/
  | twinDigestReceive (f : FoldId) (d : Digest)
  /-- TWIN_SEAL_RECEIVE (R484): the partner's seal arrives and the agreed lists are formed and forwarding starts. -/
  | twinSealReceive (f : FoldId) (n : Nat) (v : KMap Nat FrozenPair)
  /-- TWIN_FORWARD_RECEIVE (R484): forwarded input content from the partner is received. -/
  | twinForwardReceive (f : FoldId) (dest : Half) (bytes : List Byte) (content : List Byte)
  /-- TWIN_SIGNATURE_RECEIVE (R487): the partner's signature record arrives and is compared. -/
  | twinSignatureReceive (f : FoldId) (r : SigRecord)
  /-- TWIN_STATE_RECEIVE (R494): A state-transfer page or register image arrives in a STATE slot. -/
  | twinStateReceive (f : FoldId) (part : StatePart)
  /-- TWIN_LOG_RECEIVE (R319): schedule-following log records from the Lead arrive at the Follow. -/
  | twinLogReceive (sp : SpanId) (rs : List LogRec)
  /-- TWIN_PAGE_SEND (R494): the sending device sends a bulk, delta or cut page in a fold's STATE slot. -/
  | twinPageSend (f : FoldId)
  /-- TWIN_DETACH (R493): A write of TWIN.CTL.DETACH sends a detach notice and takes the link down. -/
  | twinDetach (v : Word)
  /-- TWIN_DETACH_RECEIVE (R493): A detach notice from the partner raises DETACHED. -/
  | twinDetachReceive
  /-- TWIN_MODE_WRITE (R483): A write of TWIN.FCTL.MODE, refused unless permitted. -/
  | twinModeWrite (f : FoldId) (m : BitVec 3)
  /-- FWDMAX_WRITE (R486): A write of FWDMAX, refused if the total exceeds 8 KiB. -/
  | fwdmaxWrite (f : FoldId) (n : BitVec 10)
  /-- TWINOK_WRITE (R614): A write of SEC.TWINOK.OK marks the identity proof successful. -/
  | twinokWrite (v : Word)
  /-- ETH_FRAME_RECEIVE (R514): A frame received on P0 to P3 is filtered and queued or discarded. -/
  | ethFrameReceive (p : EthPort) (frame : List Byte)
  /-- ETH_FRAME_TRANSMIT (R513): the port starts the next frame of the highest open class that ends before its gate
  closes. -/
  | ethFrameTransmit (p : EthPort)
  /-- GATE_LIST_ADVANCE (R513): A gate control list interval ends and the next entry opens its classes. -/
  | gateListAdvance (p : EthPort)
  /-- ETH_LINK_UP (R656): training completes and LINKUP is raised. -/
  | ethLinkUp (p : EthPort) (mode : BitVec 3)
  /-- ETH_LINK_DOWN (R656): the link goes down, LINKDOWN is raised and buffered records are discarded. -/
  | ethLinkDown (p : EthPort)
  /-- PORT_MODE_WRITE (R656): A write of PORT.CTL.MODE turns the port off or changes its physical layer. -/
  | portModeWrite (p : EthPort) (v : Word)
  /-- CONNECTION_STALE (R530): A receive connection silent for MAXAGE raises STALE once. -/
  | connectionStale (n : Fin 4096)
  /-- QUEUE_RX_POP (R508): an LDQ of RXDATA pops 16 bytes of the head receive entry or sets UNDER. -/
  | queueRxPop (y : YokeId) (d : Gpr) (p : PortId) (q : Fin 64)
  /-- QUEUE_RXSTAT_READ (R550): an LDW of RXSTAT returns status and clears UNDER and LOST. -/
  | queueRxstatRead (y : YokeId) (d : Gpr) (p : PortId) (q : Fin 64)
  /-- PCIE_WRITE_RECEIVE (R522): A host posted write to a BAR window becomes a receive entry or is refused. -/
  | pcieWriteReceive (f : FoldId) (off : Nat) (data : List Byte) (ecrc : Bool)
  /-- PCIE_READ_RECEIVE (R522): A host read of the BAR completes as an unsupported request. -/
  | pcieReadReceive (f : FoldId) (ecrc : Bool)
  /-- PCIE_COMPLETION_RECEIVE (R523): completions for a fold's read request form a receive entry. -/
  | pcieCompletionReceive (tag : Nat) (status : Nat) (data : List Byte) (ecrc : Bool)
  /-- PCIE_COMPLETION_TIMEOUT (R523): A read request times out and an entry with STATUS 0x03 is formed. -/
  | pcieCompletionTimeout (tag : Nat)
  /-- PCIE_CONFIG_REQUEST (R520): A host configuration request changes SR-IOV, Bus Master Enable or FLR state. -/
  | pcieConfigRequest (c : PcieConfig) (ecrc : Bool)
  /-- PCIE_TLP_TRANSMIT (R524): P4 sends a function's transaction in its share of the transmit frame. -/
  | pcieTlpTransmit (owner : FoldId)
  /-- POSTED_WRITE_UNDELIVERED (R525): A released posted write is not delivered and a deferred write error is raised.
  -/
  | postedWriteUndelivered
  /-- PERST_ASSERT (R521): PERSTn falls: P4 is reset, LINKDOWN raised and pending writes undelivered. -/
  | perstAssert
  /-- PERST_RELEASE (R521): PERSTn rises and P4 begins training. -/
  | perstRelease
  /-- PCIE_LINK_UP (R521): P4 training completes and LINKUP is raised. -/
  | pcieLinkUp (speed : Fin 5) (width : Fin 4)
  /-- PECLK_LOSS (R649): loss of PECLK takes the P4 link down. -/
  | peclkLoss
  /-- PAIR_TICK (R534): every 10 µs each input pair's discrepancy timer is evaluated. -/
  | pairTick
  /-- DISCREPANCY_FAULT (R534): the timer reaches DTIME; DFAULT latches, vector 0x0F and source 0x18. -/
  | discrepancyFault (n : Fin 64)
  /-- TEST_PULSE (R533): A test pulse on TPA or TPB; a channel reading 1 late in it latches DFAULT. -/
  | testPulse (onB : Bool)
  /-- PAIR_WINDOW_LOAD (R536): an LDW of a pair-input window returns PVAL, PCFG or PCONN. -/
  | pairWindowLoad (y : YokeId) (d : Gpr) (n : Fin 64) (r : Fin 3)
  /-- SAFE_OUTPUT_SOA_ON (R538): 10 µs after SOBk, the stage turns SOAk on to complete energising. -/
  | safeOutputSoaOn (k : Fin 8)
  /-- READBACK_FAULT (R539): two disagreeing read-back samples latch OFAULT and report source 0x19. -/
  | readbackFault (k : Fin 8) (a0 : Bool) (b0 : Bool) (a1 : Bool) (b1 : Bool)
  /-- OUTPUT_TEST (R540): every OTP ms the stage tests one switch of a pair for OTW µs. -/
  | outputTest (k : Fin 8)
  /-- OUTPUT_TEST_END (R540): the OTW test width ends and the switch returns to its state. -/
  | outputTestEnd (k : Fin 8)
  /-- OUTPUT_CONFIG_WRITE (R554): A write of SIO.OPCFG assigns a pair, clears OFAULT, or is refused for bad OTW. -/
  | outputConfigWrite (k : Fin 8) (v : Word)
  /-- INPUT_CONFIG_WRITE (R553): A write of SIO.IPCFG assigns a pair, refused for bad DTIME. -/
  | inputConfigWrite (n : Fin 64) (v : Word)
  /-- IPNET_WRITE (R532): A write of SIO.IPNET, refused when both channels name one connection. -/
  | ipnetWrite (n : Fin 64) (v : Word)
  /-- CONNECTION_COMMIT (R552): A write of CONNW3 commits a safety connection entry, subject to R528. -/
  | connectionCommit (v : Word)
  /-- SMBUS_STATUS_READ (R545): SMBus command 0x01 returns the 32-byte status page. -/
  | smbusStatusRead
  /-- SMBUS_MAILBOX_READ (R545): SMBus command 0x02 reads the board mailbox and clears ALERT bit 1. -/
  | smbusMailboxRead
  /-- SMBUS_MAILBOX_WRITE (R545): SMBus command 0x03 writes the board mailbox to Drover firmware. -/
  | smbusMailboxWrite (bs : List Byte) (pec : Option Byte)
  /-- SMBUS_ALERT_READ (R545): SMBus command 0x04 returns the ALERT byte and clears bits 0 and 2. -/
  | smbusAlertRead
  /-- SMBUS_ALERT_RESPONSE (R546): the Alert Response Address is answered with the device's address while SMBALERTn is
  low. -/
  | smbusAlertResponse
  /-- SMBUS_UNKNOWN_COMMAND (R545): an unknown SMBus command is not acknowledged. -/
  | smbusUnknownCommand
  /-- JTAG_BYPASS (R543): TAP instruction BYPASS. -/
  | jtagBypass
  /-- JTAG_IDCODE (R543): TAP instruction IDCODE returns 0x1102_446F. -/
  | jtagIdcode
  /-- JTAG_SAMPLE_PRELOAD (R543): TAP instruction SAMPLE/PRELOAD, with the bits shifted into the boundary register. -/
  | jtagSamplePreload (shift : List Bool)
  /-- JTAG_EXTEST (R543): TAP instruction EXTEST outside FIELD. -/
  | jtagExtest (shift : List Bool)
  /-- JTAG_EXTEST_PULSE (R543): TAP instruction EXTEST_PULSE outside FIELD. -/
  | jtagExtestPulse (shift : List Bool)
  /-- JTAG_EXTEST_TRAIN (R543): TAP instruction EXTEST_TRAIN outside FIELD. -/
  | jtagExtestTrain (shift : List Bool)
  /-- JTAG_DBGACC (R618): TAP instruction DBGACC selects the debug access port where enabled. -/
  | jtagDbgacc
  /-- CLOCK_MONITOR_WINDOW (R556): A clock monitor window ends and counts out of tolerance report source 0x24. -/
  | clockMonitorWindow (b : ClockBranch) (count : Nat)
  /-- PLL_LOCK_LOSS (R556): A PLL loses lock or a reference is absent for 1 µs, reporting source 0x24. -/
  | pllLockLoss (n : Fin 4)
  /-- AON_CLOCK_LOSS (R556): loss of the 32.768 kHz clock reports source 0x28. -/
  | aonClockLoss
  /-- BELL_TICK (R558): BELL.CNT reaches a multiple of TICKP and a tick edge event is raised. -/
  | bellTick
  /-- BELL_ALARM (R559): BELL.CNT matches the alarm; Drover is interrupted or the device wakes. -/
  | bellAlarm
  /-- TEMP_READING (R567): every 10 µs the junction sensors are read into PWR.TEMP. -/
  | tempReading (vals : List Half)
  /-- DEEP_STANDBY_REQUEST (R572): A write of PWR.DSCTL holds the main domain in reset for deep standby. -/
  | deepStandbyRequest (v : Word)
  /-- MAINEN_LOW (R572): 2 bt after the request the always-on domain drives MAINEN low. -/
  | mainenLow
  /-- WAKEIN_RISE (R573): A rising edge on WAKEIN is a deep-standby wake source. -/
  | wakeinRise
  /-- SUPPLY_FAULT (R641): A main rail or VDDIO leaves its monitor range while MAINEN is high, reporting source 0x25.
  -/
  | supplyFault
  /-- TALLY_SLACK_MEASURE (R575): every 1 ms of Run time Tally measures the span's delay monitors. -/
  | tallySlackMeasure (sp : SpanId) (v : Word)
  /-- TALLY_SRAM_MEASURE (R576): hourly Tally measures scratchpad and group read margin. -/
  | tallySramMeasure (sp : SpanId) (scratch : BitVec 4) (group : BitVec 4)
  /-- TALLY_BAND_COUNT (R577): each second of Run time is counted in the span's temperature band. -/
  | tallyBandCount (sp : SpanId)
  /-- TALLY_RETIRE (R579): A write of TALLY.RET.RETIRE retires an unowned span early. -/
  | tallyRetire (sp : SpanId) (v : Word)
  /-- TALLY_SMIN_READ (R590): A read of TALLY.SMIN returns least slacks and resets them to 0xFF. -/
  | tallySminRead (sp : SpanId)
  /-- LOGIC_BIST_START (R581): A write of BIST.YSTART requests logic BIST of a yoke, refused over the limits. -/
  | logicBistStart (v : Word)
  /-- LOGIC_BIST_BEGIN (R581): once the yoke is free and a slot is available its task is saved and testing begins. -/
  | logicBistBegin (y : YokeId)
  /-- LOGIC_BIST_DONE (R581): after 1.4 ms the yoke returns to rotation or is stalled with source 0x1F. -/
  | logicBistDone (y : YokeId) (pass : Bool)
  /-- MEMORY_BIST_START (R582): A write of BIST.MSTART requests memory BIST of a bank or quarter. -/
  | memoryBistStart (v : Word)
  /-- MEMORY_BIST_DONE (R583): A memory test ends with restore, or failure and source 0x1E. -/
  | memoryBistDone (unit : Word) (pass : Bool)
  /-- VAON_POWER_ON (R646): VAON becomes good and the always-on domain starts the crystal. -/
  | vaonPowerOn
  /-- CRYSTAL_READY (R646): after 4,096 crystal cycles MAINEN rises and the Bell and AON watchdog start. -/
  | crystalReady
  /-- CRYSTAL_TIMEOUT (R646): the crystal fails to start within 2 s and MAINEN stays low. -/
  | crystalTimeout
  /-- NRESET_ASSERT (R642): ten low samples of nRESET assert reset. -/
  | nresetAssert
  /-- NRESET_RELEASE (R642): ten high samples release reset. -/
  | nresetRelease (straps : Word)
  /-- POWER_GOOD (R640): all main rails good, both references present and nRESET high; the main domain leaves reset.
  -/
  | powerGood (straps : Word) (flash : Flash)
  /-- STARTUP_BIST_DONE (R585): startup BIST ends with the wipe of every scratchpad and group. -/
  | startupBistDone (deferred : Bool) (yokes : List YokeId) (units : List Word)
  /-- OTP_PROGRAM (R592): SEC.OTPCMD.PROG programs and reads back one OTP byte. -/
  | otpProgram (v : Word) (bad : Byte)
  /-- LIFECYCLE_REQUEST (R596): A write of SEC.LCREQ wipes secrets and programs the target life-cycle state. -/
  | lifecycleRequest (v : Word)
  /-- MANIFEST_VERIFY (R604): A write of SEC.MVER starts verification of a manifest and clears OK. -/
  | manifestVerify (v : Word) (image : List Byte)
  /-- MANIFEST_VERIFY_DONE (R604): the crypto engine finishes the manifest checks and sets OK or an error. -/
  | manifestVerifyDone
  /-- FW_SVN_ADVANCE (R602): SEC.SVN.FWADV advances the firmware counter, refused beyond FWSVN. -/
  | fwSvnAdvance (n : BitVec 7)
  /-- MN_SVN_ADVANCE (R602): SEC.SVN.MNADV advances the manifest counter, refused beyond MNSVN. -/
  | mnSvnAdvance (n : BitVec 7)
  /-- CRYPTO_SUBMIT (R612): A write of SEC.CQTAIL submits crypto jobs. -/
  | cryptoSubmit (v : Word) (ws : List (Word × List Byte)) (flips : List (BitVec 18 × CwFlip))
  /-- CRYPTO_AES_GCM_ENCRYPT (R610): crypto job OP 0x01. -/
  | cryptoAesGcmEncrypt
  /-- CRYPTO_AES_GCM_DECRYPT (R610): crypto job OP 0x02. -/
  | cryptoAesGcmDecrypt
  /-- CRYPTO_GMAC (R610): crypto job OP 0x03. -/
  | cryptoGmac
  /-- CRYPTO_SHA384 (R610): crypto job OP 0x04. -/
  | cryptoSha384
  /-- CRYPTO_ECDSA_VERIFY (R610): crypto job OP 0x05. -/
  | cryptoEcdsaVerify
  /-- CRYPTO_KEY_UNWRAP (R606): crypto job OP 0x06 unwraps a key into a slot. -/
  | cryptoKeyUnwrap
  /-- CRYPTO_RANDOM_KEY (R610): crypto job OP 0x07 writes a random key into a slot. -/
  | cryptoRandomKey
  /-- RNG_OUTPUT (R613): every 64 µs the entropy source delivers 256 bits after health tests. -/
  | rngOutput (healthy : Bool)
  /-- CHALLENGE_GENERATE (R621): A write of SEC.CHALGEN fills a 48-byte debug challenge. -/
  | challengeGenerate
  /-- DEBUG_OPEN (R622): A write of SEC.OPEN checks the signed response and opens debug or counts a failure. -/
  | debugOpen (v : Word)
  /-- TAMPER (R616): A tamper sensor fires and the vault and keys are wiped. -/
  | tamper (kind : Fin 4)
  /-- MAILBOX_ACK (R608): A ring 0 write to ACK clears RDY. -/
  | mailboxAck (f : FoldId)
  /-- REGISTER_WRITE (R17): A write to any register without its own row acts by its access codes. -/
  | registerWrite (a : BitVec 24) (v : Word)
  /-- TWIN_FLIT_RECEIVE (R474): A twin link flit arrives; FEC corrects it, its CRC is checked, ACK and returned
  credits are taken, REQ or RSP messages are buffered, and a flit failing its CRC is discarded and counted in
  TWIN.LINKCNT. -/
  | twinFlitReceive (x : Flit) (errs : Nat)
  /-- TRAILING_PROGRESS_TIMEOUT (R83): the trailing core makes no progress for 4,096 fc while the compare queue is not
  empty, and the checker records a mismatch of kind 0b1101. -/
  | trailingProgressTimeout (y : YokeId)
  /-- INPUT_SAMPLE (R532): at every device time that is a multiple of 1 µs each pin input channel is sampled and its
  filtered value advances toward FILT + 1 equal samples. -/
  | inputSample (a : Half) (b : Half)
  /-- PCIE_LINK_DOWN (R525): the P4 link leaves DL_Active; LINKDOWN is raised and released posted writes not yet
  acknowledged count as not delivered. -/
  | pcieLinkDown
  /-- PCIE_TLP_ACK (R525): the data link layer acknowledges a transmitted TLP, so the posted write can no longer count
  as not delivered on a later link loss. -/
  | pcieTlpAck (n : Nat)
  /-- VAON_MONITOR_FAULT (R635): VAON leaves its monitor range and source 0x28 is reported. -/
  | vaonMonitorFault
  /-- VAON_POWER_LOSS (R460): VAON is removed; the Bell, the AON watchdog, WDCOUNT, the retained area and the Tally
  band counts are lost. -/
  | vaonPowerLoss
  /-- DROVER_CORE_TEST (R584): drover takes one of its three cores out of voting to test it while the other two run
  2-out-of-2. -/
  | droverCoreTest (c : Fin 3)
  /-- DROVER_CORE_TEST_DONE (R584): the test of a Drover core ends within 60 ms and the core returns to 2-out-of-3
  voting. -/
  | droverCoreTestDone
deriving DecidableEq, Repr

end Sys2Proof
end

