-- ==== Sys2Proof/Machine/Bits.lean ====
section
/-! DEFINITION. Bit fields, sign extension and little-endian byte lists (R16). -/

namespace Sys2Proof.Machine

/-- Bits `hi` down to `lo` of a word, as a number. -/
def fieldNat {w : Nat} (x : BitVec w) (hi lo : Nat) : Nat := (x.toNat >>> lo) % 2 ^ (hi + 1 - lo)

/-- Bit `i` of a word. -/
def bit {w : Nat} (x : BitVec w) (i : Nat) : Bool := x.getLsbD i

/-- The word with bits `hi` down to `lo` replaced by the low bits of `v`. -/
def setField {w : Nat} (x : BitVec w) (hi lo : Nat) (v : Nat) : BitVec w :=
  let m : BitVec w := BitVec.ofNat w ((2 ^ (hi + 1 - lo) - 1) <<< lo)
  (x &&& ~~~m) ||| (BitVec.ofNat w (v <<< lo) &&& m)

/-- The word with bit `i` set to `b`. -/
def setBit {w : Nat} (x : BitVec w) (i : Nat) (b : Bool) : BitVec w := setField x i i b.toNat

/-- Sign extension of the low `n` bits. -/
def sext (w : Nat) {n : Nat} (x : BitVec n) : BitVec w := x.signExtend w

/-- The number of bits of `x` that are 1, among the lowest `n`. -/
def popCount {w : Nat} (x : BitVec w) (n : Nat) : Nat :=
  match n with
  | 0 => 0
  | k + 1 => (x.getLsbD k).toNat + popCount x k

/-- The lowest position below `n` at which `x` has a 1; `n` when there is none. -/
def lowestBit {w : Nat} (x : BitVec w) (n : Nat) : Nat :=
  ((List.range n).find? fun i => x.getLsbD i).getD n

/-- `n` bytes of a value, lowest first. -/
def leBytes (v : Nat) (n : Nat) : List Byte :=
  match n with
  | 0 => []
  | k + 1 => BitVec.ofNat 8 v :: leBytes (v / 256) k

/-- The value of bytes listed lowest first. -/
def leValue (bs : List Byte) : Nat :=
  match bs with
  | [] => 0
  | b :: t => b.toNat + 256 * leValue t

/-- Saturating addition of 1 below `2 ^ w - 1`. -/
def satInc {w : Nat} (x : BitVec w) : BitVec w := if x = BitVec.allOnes w then x else x + 1

/-- A number cut to at most `m`. -/
def satNat (m n : Nat) : Nat := if n < m then n else m

/-- The 16-byte word's byte enables for an access of `size` bytes at `addr` (Table 2.2). -/
def byteEnables (addr : Nat) (size : Nat) : BitVec 16 := BitVec.ofNat 16 ((2 ^ size - 1) <<< (addr % 16))

/-- Data of `size` bytes placed within its 16-byte word (Table 2.2). -/
def placed (addr : Nat) (v : QWord) : QWord := v <<< (8 * (addr % 16))

/-- Byte `i` of a 16-byte word. -/
def byteOf (q : QWord) (i : Nat) : Byte := BitVec.ofNat 8 (q.toNat >>> (8 * i))

/-- The 16-byte word with the enabled bytes replaced. -/
def mergeBytes (old new : QWord) (be : BitVec 16) : QWord :=
  BitVec.ofNat 128 (leValue ((List.range 16).map fun i => if be.getLsbD i then byteOf new i else byteOf old i))

/-- Serial-number order of R111: `a` is not less than `b`. -/
def serialGe (a b : Word) : Bool := (a - b).toNat < 2 ^ 31

end Sys2Proof.Machine
end

