-- ==== Sys2Proof/Machine/FloatArith.lean ====
section
/-! DEFINITION. IEEE 754 arithmetic on binary64 and binary32 (R229 to R240): exact computation, one rounding, the
exceptions of R240 and the default NaN of R234. -/

namespace Sys2Proof.Machine

/-- A binary format: width of the exponent field and of the fraction field. -/
structure FFmt where
  eb : Nat
  mb : Nat
deriving DecidableEq, Repr

/-- binary64. -/
def FFmt.d : FFmt := ⟨11, 52⟩
/-- binary32. -/
def FFmt.s : FFmt := ⟨8, 23⟩

/-- Exponent bias. -/
def FFmt.bias (f : FFmt) : Int := 2 ^ (f.eb - 1) - 1
/-- Precision. -/
def FFmt.prec (f : FFmt) : Nat := f.mb + 1
/-- The exponent of the last place of subnormals. -/
def FFmt.qmin (f : FFmt) : Int := 1 - f.bias - f.mb
/-- Width in bits. -/
def FFmt.width (f : FFmt) : Nat := 1 + f.eb + f.mb

/-- A decoded operand: NaN (signalling or not), infinity, or the finite value (-1)^s * m * 2^e. -/
inductive FVal
  | nan (sig : Bool)
  | inf (s : Bool)
  | fin (s : Bool) (m : Nat) (e : Int)
deriving DecidableEq, Repr

/-- Decode an encoding. -/
def fdecode (f : FFmt) (x : Nat) : FVal :=
  let frac := x % 2 ^ f.mb
  let ex := (x / 2 ^ f.mb) % 2 ^ f.eb
  let s := decide ((x / 2 ^ (f.mb + f.eb)) % 2 = 1)
  if ex = 2 ^ f.eb - 1 then
    if frac = 0 then .inf s else .nan (decide (frac < 2 ^ (f.mb - 1)))
  else if ex = 0 then .fin s frac f.qmin
  else .fin s (frac + 2 ^ f.mb) (f.qmin + (ex - 1 : Nat))

/-- The default NaN (R234). -/
def fnan (f : FFmt) : Nat := (2 ^ f.eb - 1) * 2 ^ f.mb + 2 ^ (f.mb - 1)
/-- Infinity of a sign. -/
def finf (f : FFmt) (s : Bool) : Nat := s.toNat * 2 ^ (f.mb + f.eb) + (2 ^ f.eb - 1) * 2 ^ f.mb
/-- Zero of a sign. -/
def fzero (f : FFmt) (s : Bool) : Nat := s.toNat * 2 ^ (f.mb + f.eb)
/-- The largest finite value of a sign. -/
def fmax (f : FFmt) (s : Bool) : Nat := finf f s - 1

/-- A result with its exceptions: invalid, division by zero, overflow, underflow, inexact, in FCSR bit order. -/
structure FRes where
  bits : Nat
  exc : BitVec 5
deriving DecidableEq, Repr

/-- Invalid operation. -/
def excNV : BitVec 5 := 16
/-- Division by zero. -/
def excDZ : BitVec 5 := 8
/-- Overflow. -/
def excOF : BitVec 5 := 4
/-- Underflow. -/
def excUF : BitVec 5 := 2
/-- Inexact. -/
def excNX : BitVec 5 := 1

/-- Number of bits of a natural number. -/
def bitLen (m : Nat) : Nat := if m = 0 then 0 else Nat.log2 m + 1

/-- Round `m * 2^e` (plus a nonzero part below it when `sticky`) to a multiple of `2^q`, by mode `rm` of Table 4.3. -/
def roundAt (rm : BitVec 2) (s : Bool) (m : Nat) (e : Int) (sticky : Bool) (q : Int) : Nat × Bool :=
  if q ≤ e then (m * 2 ^ (e - q).toNat, sticky)
  else
    let k := (q - e).toNat
    let kept := m / 2 ^ k
    let rem := m % 2 ^ k
    let half := 2 ^ (k - 1)
    let inexact := decide (rem ≠ 0) || sticky
    let up := match rm.toNat with
      | 0 => decide (rem > half) || (decide (rem = half) && (sticky || decide (kept % 2 = 1)))
      | 1 => false
      | 2 => inexact && !s
      | _ => inexact && s
    (if up then kept + 1 else kept, inexact)

/-- Round a finite value into the format, tininess after rounding (R233). `uft` is the underflow trap enable. -/
def fround (f : FFmt) (rm : BitVec 2) (uft : Bool) (s : Bool) (m : Nat) (e : Int) (sticky : Bool) : FRes :=
  if m = 0 then ⟨fzero f s, 0⟩
  else
    let top : Int := e + bitLen m
    let qn : Int := top - f.prec
    let q : Int := if qn < f.qmin then f.qmin else qn
    let r := roundAt rm s m e sticky q
    let free := roundAt rm s m e sticky qn
    let tiny := decide (qn < f.qmin) && !(decide (free.1 = 2 ^ f.prec) && decide (qn + 1 = f.qmin))
    let carry := decide (r.1 = 2 ^ f.prec)
    let sig := if carry then 2 ^ f.mb else r.1
    let qq := if carry then q + 1 else q
    let nx : BitVec 5 := if r.2 then excNX else 0
    if sig ≥ 2 ^ f.mb ∧ qq > f.bias - f.mb then
      let toInf := match rm.toNat with
        | 0 => true
        | 1 => false
        | 2 => !s
        | _ => s
      ⟨if toInf then finf f s else fmax f s, excOF ||| excNX⟩
    else
      let ex : Nat := if sig < 2 ^ f.mb then 0 else (qq - f.qmin).toNat + 1
      let uf : BitVec 5 := if tiny && (r.2 || uft) then excUF else 0
      ⟨s.toNat * 2 ^ (f.mb + f.eb) + ex * 2 ^ f.mb + sig % 2 ^ f.mb, nx ||| uf⟩

/-- Invalid operation: the default NaN. -/
def finvalid (f : FFmt) : FRes := ⟨fnan f, excNV⟩

/-- The quiet-NaN result with no exception. -/
def fquiet (f : FFmt) : FRes := ⟨fnan f, 0⟩

/-- NaN operands of an arithmetic operation: signalling raises invalid, quiet gives the default NaN (R234). -/
def fnanResult (f : FFmt) (xs : List FVal) : Option FRes :=
  if xs.any (fun x => x == .nan true) then some (finvalid f)
  else if xs.any (fun x => x == .nan false) then some (fquiet f)
  else none

/-- The exact sum of two finite values, rounded; an exact zero of unlike signs is +0 except toward minus infinity. -/
def faddFin (f : FFmt) (rm : BitVec 2) (uft : Bool) (s1 : Bool) (m1 : Nat) (e1 : Int) (s2 : Bool) (m2 : Nat) (e2 : Int) :
    FRes :=
  let e := min e1 e2
  let a : Int := (if s1 then -1 else 1) * ((m1 * 2 ^ (e1 - e).toNat : Nat) : Int)
  let b : Int := (if s2 then -1 else 1) * ((m2 * 2 ^ (e2 - e).toNat : Nat) : Int)
  let t := a + b
  if t = 0 then
    let s := if s1 = s2 then s1 else decide (rm = 3)
    ⟨fzero f s, 0⟩
  else fround f rm uft (decide (t < 0)) t.natAbs e false

/-- Addition of two decoded operands. -/
def fadd (f : FFmt) (rm : BitVec 2) (uft : Bool) (x y : FVal) : FRes :=
  match fnanResult f [x, y] with
  | some r => r
  | none =>
    match x, y with
    | .inf s1, .inf s2 => if s1 = s2 then ⟨finf f s1, 0⟩ else finvalid f
    | .inf s, _ => ⟨finf f s, 0⟩
    | _, .inf s => ⟨finf f s, 0⟩
    | .fin s1 m1 e1, .fin s2 m2 e2 => faddFin f rm uft s1 m1 e1 s2 m2 e2
    | _, _ => fquiet f

/-- The operand with its sign inverted. -/
def FVal.negate (x : FVal) : FVal :=
  match x with
  | .nan g => .nan g
  | .inf s => .inf !s
  | .fin s m e => .fin (!s) m e

/-- Multiplication. -/
def fmul (f : FFmt) (rm : BitVec 2) (uft : Bool) (x y : FVal) : FRes :=
  match fnanResult f [x, y] with
  | some r => r
  | none =>
    match x, y with
    | .inf s1, .inf s2 => ⟨finf f (s1 ^^ s2), 0⟩
    | .inf s1, .fin s2 m _ => if m = 0 then finvalid f else ⟨finf f (s1 ^^ s2), 0⟩
    | .fin s1 m _, .inf s2 => if m = 0 then finvalid f else ⟨finf f (s1 ^^ s2), 0⟩
    | .fin s1 m1 e1, .fin s2 m2 e2 => fround f rm uft (s1 ^^ s2) (m1 * m2) (e1 + e2) false
    | _, _ => fquiet f

/-- Division. -/
def fdiv (f : FFmt) (rm : BitVec 2) (uft : Bool) (x y : FVal) : FRes :=
  match fnanResult f [x, y] with
  | some r => r
  | none =>
    match x, y with
    | .inf _, .inf _ => finvalid f
    | .inf s1, .fin s2 _ _ => ⟨finf f (s1 ^^ s2), 0⟩
    | .fin s1 _ _, .inf s2 => ⟨fzero f (s1 ^^ s2), 0⟩
    | .fin s1 m1 e1, .fin s2 m2 e2 =>
      if m2 = 0 then
        if m1 = 0 then finvalid f else ⟨finf f (s1 ^^ s2), excDZ⟩
      else
        let k := 2 * f.prec + 4
        let n := m1 * 2 ^ k
        fround f rm uft (s1 ^^ s2) (n / m2) (e1 - e2 - k) (decide (n % m2 ≠ 0))
    | _, _ => fquiet f

/-- Integer square root by binary digits, `n` digits. -/
def isqrtAux (x : Nat) (n : Nat) (r : Nat) : Nat :=
  match n with
  | 0 => r
  | k + 1 =>
    let t := r + 2 ^ k
    isqrtAux x k (if t * t ≤ x then t else r)

/-- Integer square root. -/
def isqrt (x : Nat) : Nat := isqrtAux x (bitLen x / 2 + 1) 0

/-- Square root. -/
def fsqrt (f : FFmt) (rm : BitVec 2) (uft : Bool) (x : FVal) : FRes :=
  match fnanResult f [x] with
  | some r => r
  | none =>
    match x with
    | .inf s => if s then finvalid f else ⟨finf f false, 0⟩
    | .fin s m e =>
      if m = 0 then ⟨fzero f s, 0⟩
      else if s then finvalid f
      else
        let k : Nat := 2 * f.prec + 4
        let adj : Nat := if (e - k) % 2 = 0 then k else k + 1
        let n := m * 2 ^ adj
        let r := isqrt n
        fround f rm uft false r ((e - adj) / 2) (decide (r * r ≠ n))
    | .nan _ => fquiet f

/-- Fused multiply-add x * y + z with one rounding (R234: infinity times zero is invalid whatever the addend). -/
def ffma (f : FFmt) (rm : BitVec 2) (uft : Bool) (x y z : FVal) : FRes :=
  let infZero := match x, y with
    | .inf _, .fin _ m _ => decide (m = 0)
    | .fin _ m _, .inf _ => decide (m = 0)
    | _, _ => false
  if infZero then finvalid f
  else
    match fnanResult f [x, y, z] with
    | some r => r
    | none =>
      let p : FVal := match x, y with
        | .inf s1, .inf s2 => .inf (s1 ^^ s2)
        | .inf s1, .fin s2 _ _ => .inf (s1 ^^ s2)
        | .fin s1 _ _, .inf s2 => .inf (s1 ^^ s2)
        | .fin s1 m1 e1, .fin s2 m2 e2 => .fin (s1 ^^ s2) (m1 * m2) (e1 + e2)
        | _, _ => .nan false
      fadd f rm uft p z

/-- Order of two operands that are not NaN: less, equal, greater as -1, 0, 1. -/
def fcompare (x y : FVal) : Int :=
  let key (v w : FVal) : Int := match v with
    | .inf s => if s then -2 else 2
    | .fin s m e =>
      let e' := match w with
        | .fin _ _ e2 => min e e2
        | _ => e
      (if s then -1 else 1) * ((m * 2 ^ (e - e').toNat : Nat) : Int)
    | .nan _ => 0
  match x, y with
  | .inf s, .inf t => if s = t then 0 else if s then -1 else 1
  | .inf s, _ => if s then -1 else 1
  | _, .inf t => if t then 1 else -1
  | _, _ => let a := key x y; let b := key y x; if a < b then -1 else if a = b then 0 else 1

/-- The sign of an operand. -/
def FVal.sign (x : FVal) : Bool :=
  match x with
  | .nan _ => false
  | .inf s => s
  | .fin s _ _ => s

/-- MIN and MAX with the NaN rules of Table 6.6; `a` and `b` are the encodings. -/
def fminmax (f : FFmt) (isMax x : Bool) (a b : Nat) : FRes :=
  let va := fdecode f a
  let vb := fdecode f b
  let sig := va == .nan true || vb == .nan true
  let exc : BitVec 5 := if sig then excNV else 0
  match va, vb with
  | .nan _, .nan _ => ⟨fnan f, exc⟩
  | .nan _, _ => ⟨if x then fnan f else b, exc⟩
  | _, .nan _ => ⟨if x then fnan f else a, exc⟩
  | _, _ =>
    let c := fcompare va vb
    let aLess := decide (c < 0) || (decide (c = 0) && va.sign && !vb.sign)
    let bLess := decide (c > 0) || (decide (c = 0) && vb.sign && !va.sign)
    ⟨if isMax then (if aLess then b else a) else (if bLess then b else a), 0⟩

/-- CMP (Table 6.7): Z, N, C, V as the low four bits, V highest, and the exceptions. -/
def fcmp (f : FFmt) (x : Bool) (a b : Nat) : BitVec 4 × BitVec 5 :=
  let va := fdecode f a
  let vb := fdecode f b
  let isNan (v : FVal) : Bool := match v with
    | .nan _ => true
    | _ => false
  if isNan va || isNan vb then
    (8, if x || va == .nan true || vb == .nan true then excNV else 0)
  else
    let c := fcompare va vb
    (if c < 0 then 2 else if c = 0 then 5 else 4, 0)

/-- The one-hot class of R237. -/
def fclass (f : FFmt) (a : Nat) : Nat :=
  match fdecode f a with
  | .nan true => 1
  | .nan false => 2
  | .inf s => if s then 4 else 512
  | .fin s m _ =>
    if m = 0 then (if s then 32 else 64)
    else if m < 2 ^ f.mb then (if s then 16 else 128)
    else (if s then 8 else 256)

/-- RINT (R238). -/
def frint (f : FFmt) (rm : BitVec 2) (x : Bool) (a : Nat) : FRes :=
  match fdecode f a with
  | .nan g => if g then finvalid f else fquiet f
  | .inf s => ⟨finf f s, 0⟩
  | .fin s m e =>
    if e ≥ 0 then ⟨a, 0⟩
    else
      let r := roundAt rm s m e false 0
      ⟨if r.1 = 0 then fzero f s else (fround f rm false s r.1 0 false).bits, if x && r.2 then excNX else 0⟩

/-- CVTIF (R239). -/
def fcvtif (f : FFmt) (rm : BitVec 2) (u : Bool) (x : Word) : FRes :=
  let v : Int := if u then x.toNat else x.toInt
  if v = 0 then ⟨fzero f false, 0⟩ else fround f rm false (decide (v < 0)) v.natAbs 0 false

/-- CVTFI with the results of Table 6.8. -/
def fcvtfi (f : FFmt) (rm : BitVec 2) (u : Bool) (a : Nat) : FRes :=
  let big : Nat := if u then 0xFFFFFFFF else 0x7FFFFFFF
  let small : Nat := if u then 0 else 0x80000000
  match fdecode f a with
  | .nan _ => ⟨big, excNV⟩
  | .inf s => ⟨if s then small else big, excNV⟩
  | .fin s m e =>
    let r := roundAt rm s m e false 0
    let v : Int := if s then -(r.1 : Int) else r.1
    let hi : Int := if u then 0xFFFFFFFF else 0x7FFFFFFF
    let lo : Int := if u then 0 else -0x80000000
    if v > hi then ⟨big, excNV⟩
    else if v < lo then ⟨small, excNV⟩
    else ⟨(BitVec.ofInt 32 v).toNat, if r.2 then excNX else 0⟩

/-- CVTFF between two formats (R239). -/
def fcvtff (src dst : FFmt) (rm : BitVec 2) (uft : Bool) (a : Nat) : FRes :=
  match fdecode src a with
  | .nan g => if g then finvalid dst else fquiet dst
  | .inf s => ⟨finf dst s, 0⟩
  | .fin s m e => fround dst rm uft s m e false

end Sys2Proof.Machine
end

