-- ==== Sys2Proof/Machine/DreselDecode.lean ====
section
/-! DEFINITION. Decoding of Dresel instruction bytes (R145 to R152, R160 to R167): which bytes are refused, and by which
vector. The commands carry instructions in decoded form, so only the refusals and the length are wanted here. -/

namespace Sys2Proof.Machine

/-- What decoding meets (R167). `short` needs more bytes than were given. -/
inductive Decoded
  | illegal
  | reserved
  | ok (len : Nat)
  | short
deriving DecidableEq, Repr

/-- Prefixes read so far: which were seen and how many bytes were taken. -/
structure Prefixes where
  seen : List Nat
  taken : Nat
deriving DecidableEq, Repr

/-- A prefix was seen. -/
def Prefixes.has (p : Prefixes) (b : Nat) : Bool := p.seen.contains b

/-- The prefix loop of R167: at most three prefixes, so five turns end it. -/
def readPrefixes (bs : List Byte) (p : Prefixes) (fuel : Nat) : Decoded ⊕ (Prefixes × List Byte) :=
  match fuel, bs with
  | 0, _ => .inl .illegal
  | _, [] => .inl .short
  | n + 1, b :: t =>
    let v := b.toNat
    if 0xF0 ≤ v ∧ v ≤ 0xF7 then
      if 0xF6 ≤ v then .inl .reserved
      else if p.seen.length = 3 ∨ p.has v = true then .inl .illegal
      else if v = 0xF0 then
        match t with
        | [] => .inl .short
        | _ :: t' => readPrefixes t' ⟨v :: p.seen, p.taken + 2⟩ n
      else readPrefixes t ⟨v :: p.seen, p.taken + 1⟩ n
    else .inr (p, b :: t)

/-- The forms of Table 4.5. -/
inductive Form
  | n | r | i1 | ri1 | ri2 | ri4 | d | cd | m | mx | rx
deriving DecidableEq, Repr

/-- The form of an opcode, or that it is illegal or reserved (Tables 4.9 to 4.15). -/
def opForm (op : Nat) : Decoded ⊕ Form :=
  if op = 0x00 ∨ op = 0xFF then .inl .illegal
  else if op ≤ 0x0E then .inr .r
  else if op = 0x0F then .inr .n
  else if 0x11 ≤ op ∧ op ≤ 0x1E then .inr .ri2
  else if 0x21 ≤ op ∧ op ≤ 0x2E then .inr .ri4
  else if 0x30 ≤ op ∧ op ≤ 0x3B then .inr .r
  else if 0x40 ≤ op ∧ op ≤ 0x46 then .inr .m
  else if 0x50 ≤ op ∧ op ≤ 0x54 then .inr .m
  else if op = 0x58 ∨ op = 0x5B ∨ op = 0x5C then .inr .m
  else if op = 0x59 ∨ op = 0x5A then .inr .mx
  else if 0x5D ≤ op ∧ op ≤ 0x5F then .inr .r
  else if op = 0x60 ∨ op = 0x62 ∨ op = 0x6A then .inr .d
  else if op = 0x61 then .inr .cd
  else if op = 0x63 ∨ op = 0x64 then .inr .r
  else if op = 0x65 ∨ op = 0x67 then .inr .n
  else if op = 0x66 ∨ op = 0x68 ∨ op = 0x69 then .inr .i1
  else if op = 0x70 ∨ op = 0x71 then .inr .ri2
  else if op = 0x72 ∨ op = 0x79 then .inr .i1
  else if op = 0x73 ∨ op = 0x77 ∨ op = 0x78 ∨ op = 0x7A then .inr .n
  else if op = 0x74 then .inr .r
  else if op = 0x75 then .inr .ri1
  else if op = 0x76 then .inr .mx
  else if op = 0x80 ∨ op = 0x81 ∨ 0x84 ≤ op ∧ op ≤ 0x86 then .inr .r
  else if op = 0x82 then .inr .n
  else if op = 0x83 then .inr .i1
  else if 0x90 ≤ op ∧ op ≤ 0xAF then .inr .rx
  else if op = 0xB0 ∨ op = 0xB1 then .inr .mx
  else if 0xB2 ≤ op ∧ op ≤ 0xB7 then .inr .rx
  else .inl .reserved

/-- Bytes that follow the opcode. `sBase` is the S field, 15 for short absolute; `imm` the I bit of FADD. -/
def formTail (op : Nat) (f : Form) (long : Bool) (sField : Nat) (imm : Bool) : Nat :=
  let addr := if sField ≠ 15 then 2 else if long then 4 else 3
  match f with
  | .n => 0
  | .r => 1
  | .i1 => 1
  | .ri1 => 2
  | .ri2 => 3
  | .ri4 => 5
  | .d => if long && op ≠ 0x6A then 4 else 2
  | .cd => if long then 5 else 3
  | .m => 1 + addr
  | .mx => 2 + addr + (if op = 0x5A ∧ imm = true then 4 else 0)
  | .rx => 2

/-- The prefixes are legal on the opcode (Table 4.7, R151). -/
def prefixesOk (p : Prefixes) (op : Nat) (f : Form) (sField : Nat) : Bool :=
  let memShort := (f == .m || f == .mx) && decide (sField = 15)
  let rep := decide (op ≤ 0x0E) || decide (0x5D ≤ op ∧ op ≤ 0x5F) || decide (op = 0x34 ∨ op = 0x35)
  let atomic := decide (0x58 ≤ op ∧ op ≤ 0x5A)
  (!p.has 0xF0 || memShort) &&
  (!p.has 0xF1 || memShort || decide (op = 0x60 ∨ op = 0x61 ∨ op = 0x62)) &&
  (!p.has 0xF2 || decide (op ≤ 0x0E) || decide (0x11 ≤ op ∧ op ≤ 0x1E) || atomic) &&
  (!p.has 0xF3 || atomic) &&
  (!p.has 0xF4 || rep) && (!p.has 0xF5 || rep) &&
  !(p.has 0xF4 && p.has 0xF5) && !(p.has 0xF0 && p.has 0xF1)

/-- The fields of an opcode meet R135, R148, R152 and the limits of its row. `b1` is the register byte or immediate,
`b2` the operand byte, `w` the two-byte field of RI2. -/
def fieldsOk (p : Prefixes) (op b1 b2 w : Nat) : Bool :=
  let d := b1 / 16
  let s := b1 % 16
  let wide := p.has 0xF2
  let ev (r : Nat) : Bool := r % 2 == 0
  let fb := b2 / 16
  let fs := (b2 / 8) % 2
  let fr := (b2 / 2) % 4
  let fx := b2 % 2
  let rnd := fs == 1 || fr == 0
  if op ≤ 0x0E then !wide || (ev d && ev s)
  else if 0x11 ≤ op ∧ op ≤ 0x1E then s == 0 && (!wide || ev d)
  else if 0x21 ≤ op ∧ op ≤ 0x2E then s == 0
  else if op = 0x32 ∨ op = 0x33 then ev d
  else if 0x34 ≤ op ∧ op ≤ 0x36 then ev d && s != d && s != d + 1
  else if op = 0x45 ∨ op = 0x53 then ev d
  else if op = 0x46 ∨ op = 0x54 then d % 4 == 0
  else if op = 0x58 then !wide || ev d
  else if op = 0x59 then b2 % 16 == 0 && (!wide || (ev d && ev fb))
  else if op = 0x5A then (b2 / 2) % 8 == 0 && (fx == 0 || fb == 0) && (!wide || (ev d && ev fb))
  else if op = 0x5C then d == 0
  else if op = 0x61 then decide (b1 < 15)
  else if op = 0x63 ∨ op = 0x64 then d == 0
  else if op = 0x66 ∨ op = 0x68 then decide (b1 ≥ 0x20)
  else if op = 0x70 then s == 0 && decide (w < 0x1000)
  else if op = 0x71 then d == 0 && decide (w < 0x1000)
  else if op = 0x72 then decide (b1 ≤ 1)
  else if op = 0x75 then s == 0
  else if op = 0x76 then
    fb == 0 && decide (b2 % 8 ≤ 4) && (b2 % 8 != 3 || ev d) && (b2 % 8 != 4 || d % 4 == 0)
  else if op = 0x80 ∨ op = 0x81 then d == 0
  else if op = 0x83 then decide (b1 ≤ 1)
  else if op = 0x86 then s == 0
  else if 0x90 ≤ op ∧ op ≤ 0xAF then
    match op % 16 with
    | 4 => fb == 0 && rnd && fx == 0
    | 9 => fs == 0 && fr == 0
    | 10 => fs == 0 && fr == 0
    | 11 => d == 0 && fs == 0 && fr == 0
    | 12 => b2 == 0
    | 13 => b2 == 0
    | 14 => b2 == 0
    | 15 => fb == 0 && rnd
    | _ => rnd && fx == 0
  else if op = 0xB0 ∨ op = 0xB1 ∨ op = 0xB3 ∨ op = 0xB4 then decide (b2 ≤ 1)
  else if op = 0xB2 then b2 == 0
  else if op = 0xB5 ∨ op = 0xB6 then decide (fb ≤ 1) && rnd
  else if op = 0xB7 then fb == 0 && rnd
  else true

/-- Decode the bytes at PC (R167): the first trap the procedure reaches, or the length. -/
def dreselDecode (bs : List Byte) : Decoded :=
  match readPrefixes bs ⟨[], 0⟩ 5 with
  | .inl d => d
  | .inr (p, t) =>
    let byte (i : Nat) : Nat := (t.getD i 0).toNat
    match opForm (byte 0) with
    | .inl d => d
    | .inr f =>
      let s := byte 1 % 16
      let imm := byte 2 % 2 = 1
      let tail := formTail (byte 0) f (p.has 0xF1) s imm
      if p.taken + 1 + tail > 12 then .illegal
      else if t.length < 1 + tail then .short
      else if !prefixesOk p (byte 0) f s then .illegal
      else if !fieldsOk p (byte 0) (byte 1) (byte 2) (byte 2 + 256 * byte 3) then .illegal
      else .ok (p.taken + 1 + tail)

end Sys2Proof.Machine
end

