-- ==== Sys2Proof/Machine/Flags.lean ====
section
/-! DEFINITION. The integer operations and every flag they set (R180 to R182, R214 to R221). -/

namespace Sys2Proof.Machine

/-- Flags an instruction writes; `none` keeps the flag (R180). -/
structure FlagUpd where
  z : Option Bool
  n : Option Bool
  c : Option Bool
  v : Option Bool
deriving DecidableEq, Repr

/-- No flag written. -/
def FlagUpd.keep : FlagUpd := ⟨none, none, none, none⟩

/-- Z and N of a result (R180). -/
def flagsZN {w : Nat} (r : BitVec w) : FlagUpd := ⟨some (r == 0), some r.msb, none, none⟩

/-- The signed value lies outside the range of `w` bits. -/
def signedOverflow (w : Nat) (x : Int) : Bool := x < -(2 ^ (w - 1) : Int) || x ≥ (2 ^ (w - 1) : Int)

/-- ADD and ADC (Table 6.1). -/
def addFlags {w : Nat} (a b : BitVec w) (cin : Bool) : BitVec w × FlagUpd :=
  let r := a + b + BitVec.ofNat w cin.toNat
  (r, ⟨some (r == 0), some r.msb, some (decide (a.toNat + b.toNat + cin.toNat ≥ 2 ^ w)),
    some (signedOverflow w (a.toInt + b.toInt + cin.toNat))⟩)

/-- SUB, SBC, CMP and NEG (Table 6.1): C is a borrow. -/
def subFlags {w : Nat} (a b : BitVec w) (cin : Bool) : BitVec w × FlagUpd :=
  let r := a - b - BitVec.ofNat w cin.toNat
  (r, ⟨some (r == 0), some r.msb, some (decide (a.toNat < b.toNat + cin.toNat)),
    some (signedOverflow w (a.toInt - b.toInt - cin.toNat))⟩)

/-- The shifts (R181): a count of 0 keeps C. -/
def shiftFlags {w : Nat} (op : AluOp) (a : BitVec w) (cnt : Nat) : BitVec w × FlagUpd :=
  let r := match op with
    | .shl => a <<< cnt
    | .shr => a >>> cnt
    | _ => a.sshiftRight cnt
  let last := match op with
    | .shl => a.getLsbD (w - cnt)
    | _ => a.getLsbD (cnt - 1)
  (r, ⟨some (r == 0), some r.msb, if cnt = 0 then none else some last, none⟩)

/-- An ALU operation at width `w` (Table 4.10, R180, R181): the value written to D, if any, and the flags. The shift
count is the operand modulo the width, bits 4:0 or 5:0. -/
def aluEval {w : Nat} (op : AluOp) (a b : BitVec w) (c : Bool) : Option (BitVec w) × FlagUpd :=
  match op with
  | .add => let r := addFlags a b false; (some r.1, r.2)
  | .adc => let r := addFlags a b c; (some r.1, r.2)
  | .sub => let r := subFlags a b false; (some r.1, r.2)
  | .sbc => let r := subFlags a b c; (some r.1, r.2)
  | .and => (some (a &&& b), flagsZN (a &&& b))
  | .or => (some (a ||| b), flagsZN (a ||| b))
  | .xor => (some (a ^^^ b), flagsZN (a ^^^ b))
  | .andn => (some (a &&& ~~~b), flagsZN (a &&& ~~~b))
  | .shl => let r := shiftFlags .shl a (b.toNat % w); (some r.1, r.2)
  | .shr => let r := shiftFlags .shr a (b.toNat % w); (some r.1, r.2)
  | .sar => let r := shiftFlags .sar a (b.toNat % w); (some r.1, r.2)
  | .cmp => (none, (subFlags a b false).2)
  | .tst => (none, flagsZN (a &&& b))
  | .mov => (some b, FlagUpd.keep)

/-- The multiplies (R162, R182): the product, low 32 bits or whole, and the flags. -/
def mulEval (op : MulOp) (a b : Word) : DWord × FlagUpd :=
  let sp : Int := a.toInt * b.toInt
  let up : Nat := a.toNat * b.toNat
  match op with
  | .muls =>
    let r : Word := BitVec.ofInt 32 sp
    (r.zeroExtend 64, ⟨some (r == 0), some r.msb, none, some (signedOverflow 32 sp)⟩)
  | .mulu =>
    let r : Word := BitVec.ofNat 32 up
    (r.zeroExtend 64, ⟨some (r == 0), some r.msb, none, some (decide (up ≥ 2 ^ 32))⟩)
  | .mulws =>
    let r : DWord := BitVec.ofInt 64 sp
    (r, ⟨some (r == 0), some r.msb, some false, some false⟩)
  | .mulwu =>
    let r : DWord := BitVec.ofNat 64 up
    (r, ⟨some (r == 0), some r.msb, some false, some false⟩)

/-- Leading zero bits of a word, 0 to 32 (Table 4.11). -/
def clz (x : Word) : Nat := ((List.range 32).find? fun i => x.getLsbD (31 - i)).getD 32

/-- The unary operations (Table 4.11, Table 5.2). -/
def unEval (op : UnOp) (x : Word) : Word × FlagUpd :=
  match op with
  | .neg => subFlags 0 x false
  | .not => (~~~x, FlagUpd.keep)
  | .extb => ((x.setWidth 8).signExtend 32, FlagUpd.keep)
  | .exth => ((x.setWidth 16).signExtend 32, FlagUpd.keep)
  | .clz => (BitVec.ofNat 32 (clz x), FlagUpd.keep)

/-- One DSTEP step (R219): the pair (hi, lo) and the flags. The divide-by-zero trap is checked before. -/
def dstepEval (hi lo d : Word) : (Word × Word) × FlagUpd :=
  let t := 2 * hi.toNat + lo.msb.toNat
  let lo1 := lo <<< 1
  let ge := decide (t ≥ d.toNat)
  let hi' : Word := BitVec.ofNat 32 (if ge then t - d.toNat else t)
  let lo' : Word := if ge then lo1 ||| 1 else lo1
  ((hi', lo'), ⟨some (hi' == 0), some false, some ge, some false⟩)

/-- The magnitude of a word read as signed (R220). -/
def wordAbs (d : Word) : Nat := d.toInt.natAbs

/-- One DSTEPS step (R220). -/
def dstepsEval (hi lo d : Word) : (Word × Word) × FlagUpd :=
  if d = 0 then
    let hi' := (hi <<< 1) + BitVec.ofNat 32 lo.msb.toNat
    ((hi', (lo <<< 1) + 1), ⟨some (hi' == 0), some false, some true, some true⟩)
  else
    let sg := hi.msb
    let r := hi.toNat % 2 ^ 31
    let t := 2 * r + (lo.msb ^^ sg).toNat
    let lo1 := lo <<< 1
    let a := wordAbs d
    let ge := decide (t ≥ a)
    let t' := if ge then t - a else t
    let lo' : Word := if ge then lo1 ||| 1 else lo1
    ((BitVec.ofNat 32 (sg.toNat * 2 ^ 31 + t'), lo'), ⟨some (t' == 0), some false, some ge, some true⟩)

/-- DFIX (R221). `v` is ST.V before. -/
def dfixEval (hi lo d : Word) (v : Bool) : (Word × Word) × FlagUpd :=
  let res : Word × Word × Bool :=
    if v = false ∨ d = 0 then (hi, lo, d == 0)
    else
      let a := wordAbs d
      let sg := hi.msb
      let r0 := hi.toNat % 2 ^ 31
      let r1 := if sg then r0 + 1 else r0
      let wrap := sg && r1 == a
      let r := if wrap then 0 else r1
      let q : Nat := if wrap then lo.toNat + 1 else lo.toNat
      let ovf := q == 2 ^ 31 && sg == d.msb
      let qw : Word := BitVec.ofNat 32 q
      let q' : Word := if sg ^^ d.msb then 0 - qw else qw
      let rw : Word := BitVec.ofNat 32 r
      (if sg then 0 - rw else rw, q', ovf)
  let hi' := res.1
  let lo' := res.2.1
  ((hi', lo'), ⟨some (lo' == 0), some lo'.msb, some (hi' != 0), some res.2.2⟩)

/-- The condition of Bcc (Table 4.8). Code 0b1111 is reserved and never decoded (R155). -/
def condHolds (cond : BitVec 4) (z n c v : Bool) : Bool :=
  match cond.toNat with
  | 0 => z
  | 1 => !z
  | 2 => c
  | 3 => !c
  | 4 => n
  | 5 => !n
  | 6 => v
  | 7 => !v
  | 8 => !c && !z
  | 9 => c || z
  | 10 => n == v
  | 11 => n != v
  | 12 => !z && n == v
  | 13 => z || n != v
  | _ => true

end Sys2Proof.Machine
end

