-- ==== Sys2Proof/Machine/Operands.lean ====
section
/-! DEFINITION. Operand forms: register reads through the shadow latch (R156), register pairs (R135), addresses (R153),
branch targets (R154), instruction lengths (R145 to R147), and ST's fields (Table 4.2). -/

namespace Sys2Proof.Machine

/-- The old value of `r` that the shadow latch holds, if any (R156, R268). -/
def Shadow.find (h : Shadow) (r : Gpr) : Option Word :=
  if r.val < h.d.val then none else h.old[r.val - h.d.val]?

/-- A register as the current instruction reads it. -/
def Core.rd (c : Core) (r : Gpr) : Word :=
  match c.shadow with
  | none => c.g[r]
  | some h => (h.find r).getD c.g[r]

/-- A register by number modulo 16; register fields that name pairs are checked before (R135). -/
def gpr (n : Nat) : Gpr := Fin.ofNat 16 n

/-- Write a general register. -/
def Core.wr (c : Core) (r : Gpr) (v : Word) : Core := { c with g := c.g.set r v }

/-- A register pair as a 64-bit value: the even register is bits 31:0 (R135). -/
def Core.rdPair (c : Core) (r : Gpr) : DWord := c.rd (gpr (r.val + 1)) ++ c.rd r

/-- Write a register pair. -/
def Core.wrPair (c : Core) (r : Gpr) (v : DWord) : Core :=
  (c.wr r (v.setWidth 32)).wr (gpr (r.val + 1)) ((v >>> 32).setWidth 32)

/-- Four consecutive registers as 16 bytes (R135). -/
def Core.rdQuad (c : Core) (r : Gpr) : QWord := c.rdPair (gpr (r.val + 2)) ++ c.rdPair r

/-- Write four consecutive registers. -/
def Core.wrQuad (c : Core) (r : Gpr) (v : QWord) : Core :=
  (c.wrPair r (v.setWidth 64)).wrPair (gpr (r.val + 2)) ((v >>> 64).setWidth 64)

/-- ST.Z. -/
def Core.z (c : Core) : Bool := bit c.st 0
/-- ST.N. -/
def Core.n (c : Core) : Bool := bit c.st 1
/-- ST.C. -/
def Core.c (c : Core) : Bool := bit c.st 2
/-- ST.V. -/
def Core.v (c : Core) : Bool := bit c.st 3
/-- ST.M. -/
def Core.m (c : Core) : Bool := bit c.st 4
/-- ST.RING. -/
def Core.ring (c : Core) : BitVec 2 := BitVec.ofNat 2 (fieldNat c.st 6 5)
/-- ST.RA. -/
def Core.ra (c : Core) : Bool := bit c.st 8
/-- ST.DZE. -/
def Core.dze (c : Core) : Bool := bit c.st 9
/-- ST.DBG. -/
def Core.dbgBit (c : Core) : Bool := bit c.st 10
/-- ST.ESC. -/
def Core.esc (c : Core) : Bool := bit c.st 11

/-- ST as software reads it, with LS (Table 4.2). -/
def Core.stWord (c : Core) : Word := setBit c.st 7 c.shadow.isSome

/-- Write the flags an instruction names (R180). -/
def Core.setFlags (c : Core) (f : FlagUpd) : Core :=
  let st := c.st
  let st := match f.z with
    | some b => setBit st 0 b
    | none => st
  let st := match f.n with
    | some b => setBit st 1 b
    | none => st
  let st := match f.c with
    | some b => setBit st 2 b
    | none => st
  let st := match f.v with
    | some b => setBit st 3 b
    | none => st
  { c with st := st }

/-- Advance PC past an instruction of `n` bytes; the load shadow is over (R134, R156). -/
def Core.step (c : Core) (n : Nat) : Core := { c with pc := c.pc + BitVec.ofNat 32 n, shadow := none }

/-- The fold address a memory form names (R153). -/
def Core.ea (c : Core) (m : MemAddr) : Word :=
  match m with
  | .base b d => c.rd (gpr b.val) + sext 32 d
  | .short none off => c.bk ++ off
  | .short (some k) off => k ++ off
  | .long a => a

/-- Bytes a memory form adds to opcode and register byte, its own prefix included (Table 4.5, R145). -/
def MemAddr.len (m : MemAddr) : Nat :=
  match m with
  | .base _ _ => 2
  | .short none _ => 3
  | .short (some _) _ => 5
  | .long _ => 5

/-- Prefixes a memory form carries (R150). -/
def MemAddr.prefixes (m : MemAddr) : Nat :=
  match m with
  | .base _ _ => 0
  | .short none _ => 0
  | .short (some _) _ => 1
  | .long _ => 1

/-- The second operand at 32 bits (R161). -/
def Core.arg (c : Core) (a : AluArg) : Word :=
  match a with
  | .reg s => c.rd s
  | .imm16 i => sext 32 i
  | .imm32 i => i

/-- The second operand at 64 bits under WIDE (R152). -/
def Core.argWide (c : Core) (a : AluArg) : DWord :=
  match a with
  | .reg s => c.rdPair s
  | .imm16 i => sext 64 i
  | .imm32 i => sext 64 i

/-- Length of an ALU instruction with its prefixes (Table 4.5, Table 4.7). -/
def aluLen (wide : Bool) (rep : Rep) (a : AluArg) : Nat :=
  (match a with
    | .reg _ => 2
    | .imm16 _ => 4
    | .imm32 _ => 6) + wide.toNat + (if rep = .once then 0 else 1)

/-- Length of a branch form: D or CD (Table 4.5). -/
def BrTarget.len (t : BrTarget) (condByte : Nat) : Nat :=
  match t with
  | .rel _ => 3 + condByte
  | .long _ => 6 + condByte

/-- The target address (R154). -/
def Core.target (c : Core) (t : BrTarget) (len : Nat) : Word :=
  match t with
  | .rel d => c.pc + BitVec.ofNat 32 len + sext 32 d
  | .long a => a

/-- Size in bytes of a load (Table 5.3). -/
def LoadOp.size (o : LoadOp) : Nat :=
  match o with
  | .b => 1 | .bu => 1 | .h => 2 | .hu => 2 | .w => 4 | .d => 8 | .q => 16

/-- Registers a load writes. -/
def LoadOp.count (o : LoadOp) : Nat :=
  match o with
  | .d => 2 | .q => 4 | _ => 1

/-- Size in bytes of a store (Table 5.3). -/
def StoreOp.size (o : StoreOp) : Nat :=
  match o with
  | .b => 1 | .h => 2 | .w => 4 | .d => 8 | .q => 16

/-- Registers a store reads. -/
def StoreOp.count (o : StoreOp) : Nat :=
  match o with
  | .d => 2 | .q => 4 | _ => 1

/-- Size of an EMIT; the reserved codes are refused at decoding (Table 4.13). -/
def emitSize (s : BitVec 3) : Nat := 2 ^ s.toNat

/-- The data of a transfer of `n` registers from `r`. -/
def Core.rdN (c : Core) (r : Gpr) (n : Nat) : QWord :=
  match n with
  | 1 => (c.rd r).zeroExtend 128
  | 2 => (c.rdPair r).zeroExtend 128
  | _ => c.rdQuad r

/-- Registers of a transfer of `n` registers from `d`. -/
def regsFrom (d : Gpr) (n : Nat) : List Gpr := (List.range n).map fun i => gpr (d.val + i)

/-- The words a load writes to its registers (Table 4.12). -/
def LoadOp.words (o : LoadOp) (v : QWord) : List Word :=
  match o with
  | .b => [(v.setWidth 8).signExtend 32]
  | .bu => [(v.setWidth 8).zeroExtend 32]
  | .h => [(v.setWidth 16).signExtend 32]
  | .hu => [(v.setWidth 16).zeroExtend 32]
  | .w => [v.setWidth 32]
  | .d => [v.setWidth 32, (v >>> 32).setWidth 32]
  | .q => [v.setWidth 32, (v >>> 32).setWidth 32, (v >>> 64).setWidth 32, (v >>> 96).setWidth 32]

/-- A register field that must name a pair or a quad (R135). -/
def aligned (r : Gpr) (n : Nat) : Bool := r.val % n == 0

/-- The effective rounding mode (R231). -/
def Rnd.mode (r : Rnd) (fcsr : Word) : BitVec 2 :=
  match r with
  | .fcsr => BitVec.ofNat 2 (fieldNat fcsr 17 16)
  | .static rm => rm

/-- The 16-byte block that contains an address. -/
def blockOf (a : Word) : Word := a &&& 0xFFFFFFF0

end Sys2Proof.Machine
end

