-- ==== Sys2Proof/Machine/CoreRun.lean ====
section
/-! DEFINITION. One active cycle of a core (R47): what an instruction does to the core that executes it, and the bus
outputs it drives (Table 2.1). The leading core runs it at issue, the trailing core when it takes the compare queue
entry, so both cores follow the same definition on their own registers. -/

namespace Sys2Proof.Machine

/-- What a core receives from outside itself in one active cycle: load-value queue values in order, and the float
unit's data for a float store (R50). -/
structure CoreIn where
  vals : List QWord
  fdata : QWord
deriving DecidableEq, Repr

/-- The service mailbox's request record lies here in bank 0x00 (R200). -/
def mailboxRequest : Word := 0x00001000

/-- The opcode, register and format bytes of a float instruction, with the integer operand not included (Table 4.15). -/
def FloatIns.fhi (fi : FloatIns) : BitVec 24 :=
  let enc (op d s fmt : Nat) : BitVec 24 := BitVec.ofNat 24 (op * 65536 + (d * 16 + s) * 256 + fmt)
  let rb (r : Rnd) : Nat := match r with
    | .fcsr => 0
    | .static rm => 8 + 2 * rm.toNat
  let o (sgl : Bool) (n : Nat) : Nat := (if sgl then 0xA0 else 0x90) + n
  match fi with
  | .bin op sgl rnd d s b =>
    let n := match op with
      | .add => 0 | .sub => 1 | .mul => 2 | .div => 3
    enc (o sgl n) d.val s.val (b.val * 16 + rb rnd)
  | .sqrt sgl rnd d s => enc (o sgl 4) d.val s.val (rb rnd)
  | .fused op sgl rnd d s b =>
    let n := match op with
      | .fma => 5 | .fms => 6 | .fnma => 7 | .fnms => 8
    enc (o sgl n) d.val s.val (b.val * 16 + rb rnd)
  | .minmax isMax sgl x d s b => enc (o sgl (if isMax then 10 else 9)) d.val s.val (b.val * 16 + x.toNat)
  | .cmp sgl x s b => enc (o sgl 11) 0 s.val (b.val * 16 + x.toNat)
  | .cls sgl d s => enc (o sgl 12) d.val s.val 0
  | .neg sgl d s => enc (o sgl 13) d.val s.val 0
  | .abs sgl d s => enc (o sgl 14) d.val s.val 0
  | .rint sgl rnd x d s => enc (o sgl 15) d.val s.val (rb rnd + x.toNat)
  | .fmov d s => enc 0xB2 d.val s.val 0
  | .fmvg x d s => enc 0xB3 d.val s.val x.toNat
  | .fmvf x d s => enc 0xB4 d.val s.val x.toNat
  | .cvtif rnd u x d s => enc 0xB5 d.val s.val (u.toNat * 16 + rb rnd + x.toNat)
  | .cvtfi rnd u x d s => enc 0xB6 d.val s.val (u.toNat * 16 + rb rnd + x.toNat)
  | .cvtff rnd x d s => enc 0xB7 d.val s.val (rb rnd + x.toNat)
  | .fld x d => enc 0xB0 d.val 0 x.toNat

/-- The register byte's S field of a memory form: the base register, or 15 (R148). -/
def MemAddr.base4 (m : MemAddr) : Nat :=
  match m with
  | .base b _ => b.val
  | _ => 15

/-- What FLD (opcode 0xB0) and FST (0xB1) hand to the float unit to be compared: opcode, register byte and format byte, and no
integer operand (Table 2.1, R166). -/
def floatMemOut (op : Nat) (x : Bool) (d : Freg) (m : MemAddr) : BitVec 24 × DWord :=
  (BitVec.ofNat 24 (op * 65536 + (d.val * 16 + m.base4) * 256 + x.toNat), 0)

/-- The integer operand a float instruction hands over (R228). -/
def FloatIns.intOperand (fi : FloatIns) (c : Core) : DWord :=
  match fi with
  | .fmvf _ _ s => (c.rd s).zeroExtend 64
  | .cvtif _ _ _ _ s => (c.rd s).zeroExtend 64
  | _ => 0

/-- Whether a float instruction's result goes to a general register or ST (R226). -/
def FloatIns.toCore (fi : FloatIns) : Bool :=
  match fi with
  | .cmp .. => true
  | .cls .. => true
  | .fmvg .. => true
  | .cvtfi .. => true
  | _ => false

/-- A float result delivered to the core: ST flags for CMP (Table 6.7), a general register otherwise. -/
def Core.takeFloat (c : Core) (fi : FloatIns) (v : QWord) : Core :=
  match fi with
  | .cmp .. => c.setFlags ⟨some (v.getLsbD 0), some (v.getLsbD 1), some (v.getLsbD 2), some (v.getLsbD 3)⟩
  | .cls _ d _ => c.wr d (v.setWidth 32)
  | .fmvg _ d _ => c.wr d (v.setWidth 32)
  | .cvtfi _ _ _ d _ => c.wr d (v.setWidth 32)
  | _ => c

/-- Whether the condition of a control transfer makes it taken, after LOOP's decrement (Table 5.8). -/
def BranchOp.taken (b : BranchOp) (c : Core) : Bool :=
  match b with
  | .bcc cond _ => condHolds cond c.z c.n c.c c.v
  | .loop _ => decide (c.ct - 1 ≠ 0)
  | _ => true

/-- Length of a control transfer. -/
def BranchOp.len (b : BranchOp) : Nat :=
  match b with
  | .br t => t.len 0
  | .bcc _ t => t.len 1
  | .brl t => t.len 0
  | .jr _ => 2
  | .jrl _ => 2
  | .ret => 1
  | .loop t => t.len 0

/-- Where a control transfer goes when taken (R154, Table 5.8). -/
def BranchOp.dest (b : BranchOp) (c : Core) : Word :=
  match b with
  | .br t => c.target t (t.len 0)
  | .bcc _ t => c.target t (t.len 1)
  | .brl t => c.target t (t.len 0)
  | .jr s => c.rd s
  | .jrl s => c.rd s
  | .ret => c.rd 15
  | .loop t => c.target t (t.len 0)

/-- The core after a control transfer with the given direction: link register, CT and PC. -/
def BranchOp.apply (b : BranchOp) (c : Core) (taken : Bool) : Core :=
  let nxt := c.pc + BitVec.ofNat 32 b.len
  let dest := b.dest c
  let c1 := { c with shadow := none }
  let c2 := match b with
    | .brl _ => c1.wr 15 nxt
    | .jrl _ => c1.wr 15 nxt
    | .loop _ => { c1 with ct := c1.ct - 1 }
    | _ => c1
  { c2 with pc := if taken then dest else nxt }

/-- The static prediction of R177. -/
def BranchOp.predicted (b : BranchOp) (c : Core) : Bool :=
  match b with
  | .bcc cond _ => if cond = 14 then true else decide ((b.dest c).toNat < c.pc.toNat)
  | .loop _ => decide ((b.dest c).toNat < c.pc.toNat)
  | _ => true

/-- Branches that are predicted: Bcc other than AL, and LOOP (R177). -/
def BranchOp.isPredicted (b : BranchOp) : Bool :=
  match b with
  | .bcc cond _ => decide (cond ≠ 14)
  | .loop _ => true
  | _ => false

/-- The end of one iteration of a repeat (R169, R171, R194): CT counts down; PC moves on with the last iteration. -/
def Core.iterate (c : Core) (rep : Rep) (len : Nat) : Core :=
  match rep with
  | .once => c.step len
  | _ =>
    let ct' := c.ct - 1
    if ct' = 0 then { (c.step len) with ct := ct', st := setBit c.st 8 false, rep := false }
    else { c with ct := ct', st := setBit c.st 8 true, shadow := none, rep := rep == .rep }

/-- A repeat that performs no further iteration: CT was 0 at the start, or CMPM found a difference (R169). -/
def Core.endRepeat (c : Core) (len : Nat) : Core := { (c.step len) with st := setBit c.st 8 false, rep := false }

/-- The ALU operation on the core (R161, R152). -/
def Core.aluOn (c : Core) (op : AluOp) (wide : Bool) (d : Gpr) (a : AluArg) : Core :=
  if wide then
    let r := aluEval op (c.rdPair d) (c.argWide a) c.c
    let c' := match r.1 with
      | some v => c.wrPair d v
      | none => c
    c'.setFlags r.2
  else
    let r := aluEval op (c.rd d) (c.arg a) c.c
    let c' := match r.1 with
      | some v => c.wr d v
      | none => c
    c'.setFlags r.2

/-- Length of a block operation or divide step: form R and the repeat prefix. -/
def repLen (rep : Rep) : Nat := if rep = .once then 2 else 3

/-- One MOVM, FILLM or CMPM iteration on the core, with the words read (Table 5.7, R197). -/
def Core.blockOn (c : Core) (op : BlockOp) (rep : Rep) (d s : Gpr) (src dst : QWord) : Core :=
  let len := repLen rep
  let pd := c.rd d
  let ps := c.rd s
  let dec (c : Core) : Core :=
    match rep with
    | .once => { (c.step len) with ct := c.ct - 1 }
    | _ => c.iterate rep len
  match op with
  | .movm => dec ((c.wr d (pd + 16)).wr s (if d = s then pd + 16 else ps + 16))
  | .fillm => dec (c.wr d (pd + 16))
  | .cmpm =>
    if src = dst then
      dec (((c.wr d (pd + 16)).wr s (if d = s then pd + 16 else ps + 16)).setFlags ⟨some true, none, some false, none⟩)
    else
      (c.setFlags ⟨some false, none, some (decide (dst.toNat < src.toNat)), none⟩).endRepeat len

/-- A system register held in the core, as SYSRD reads it (Table 5.9, Tables 4.4 and 8.14). -/
def Core.sysRead (c : Core) (num : BitVec 12) : Option Word :=
  match num.toNat with
  | 0x000 => some c.stWord
  | 0x001 => some (c.bk.zeroExtend 32)
  | 0x002 => some c.ct
  | 0x004 => some c.sp[0]
  | 0x005 => some c.sp[1]
  | 0x006 => some c.sp[2]
  | 0x007 => some c.sp[3]
  | 0x020 => some c.task.tattr
  | 0x021 => some c.task.tjoin
  | 0x022 => some c.task.tparent
  | 0x023 => some c.task.tspn
  | 0x024 => some (BitVec.ofNat 32 c.task.tlist.length)
  | 0x040 => some c.task.oepoch
  | n =>
    if 0x028 ≤ n ∧ n ≤ 0x02F then some (c.task.tlist.getD (n - 0x028) 0)
    else if h : 0x070 ≤ n ∧ n ≤ 0x07F then some (c.task.dbg[n - 0x070])
    else none

/-- Write a system register held in the core; the permission checks come before (R137, R138, R111). -/
def Core.sysWrite (c : Core) (num : BitVec 12) (v : Word) : Core :=
  match num.toNat with
  | 0x000 =>
    let st := setField c.st 3 0 v.toNat
    let st := setBit st 9 (bit v 9)
    { c with st := if c.ring.toNat ≤ 1 then setBit st 4 (bit v 4) else st }
  | 0x001 => { c with bk := v.setWidth 8 }
  | 0x002 => { c with ct := v }
  | 0x004 => { c with sp := c.sp.set 0 v }
  | 0x005 => { c with sp := c.sp.set 1 v }
  | 0x006 => { c with sp := c.sp.set 2 v }
  | 0x007 => { c with sp := c.sp.set 3 v }
  | 0x040 => { c with task := { c.task with oepoch := v } }
  | n =>
    if h : 0x070 ≤ n ∧ n ≤ 0x07F then { c with task := { c.task with dbg := c.task.dbg.set (n - 0x070) v } }
    else c

/-- SP of a ring. -/
def Core.spOf (c : Core) (r : BitVec 2) : Word := c.sp[r.toNat]'(r.isLt)

/-- The top of the stack block of SP[TR] (R262): blocks are 2^k bytes. -/
def blockTop (sp : Word) (k : Nat) : Word :=
  BitVec.ofNat 32 (((sp - 1).toNat / 2 ^ k + 1) * 2 ^ k)

/-- The frame address of an entry (R256, R262, R278). -/
def Core.frameAddr (c : Core) (e : EntryInfo) : Word :=
  match e.esc with
  | some a => a
  | none =>
    let sp := c.spOf e.tr
    (if e.ss then blockTop sp e.k else sp) - 128

/-- LSINFO of Table 7.5. -/
def lsInfo (h : Option Shadow) : Word :=
  match h with
  | none => 0
  | some s => BitVec.ofNat 32 (s.d.val + 16 * (match s.old.length with
    | 1 => 0
    | 2 => 1
    | _ => 2))

/-- The frame an entry stores (Table 7.5), formed from the core's own registers. -/
def Core.frame (c : Core) (e : EntryInfo) : Frame :=
  let h := if e.next || e.bare then none else c.shadow
  let ost := setBit c.st 7 h.isSome
  let cause := BitVec.ofNat 32 (e.vec.toNat + 256 * e.sec.toNat + 65536 * e.inEntry.toNat
    + 131072 * e.masked.toNat + 262144 * e.next.toNat)
  let old (i : Nat) : Word := match h with
    | none => 0
    | some s => s.old.getD i 0
  #v[c.pc + BitVec.ofNat 32 e.skip, ost, c.spOf e.tr, c.g[14],
     cause, e.info, e.syn, lsInfo h,
     old 0, old 1, old 2, old 3,
     e.oinfo, e.osyn, 0, 0]

/-- 16 bytes of a frame as one word. -/
def frameQuad (fr : Frame) (i : Fin 4) : QWord :=
  let w (j : Nat) : Word := fr.toList.getD (4 * i.val + j) 0
  w 3 ++ w 2 ++ w 1 ++ w 0

/-- A frame from the 16-byte words IRET has read, lowest first (R266). -/
def frameOf (vals : List QWord) : Frame :=
  let w (i : Nat) : Word := (vals.getD (i / 4) 0 >>> (32 * (i % 4))).setWidth 32
  Vector.ofFn fun i : Fin 16 => w i.val

/-- The core after step 4 of an entry (R258, R277). -/
def Core.enterHandler (c : Core) (e : EntryInfo) : Core :=
  let a := c.frameAddr e
  let st := setField c.st 6 5 e.tr.toNat
  let st := setBit st 4 (c.m || e.em)
  let st := setBit (setBit st 7 false) 8 false
  let st := if e.esc.isSome then setBit st 11 true else st
  { (c.wr 14 a) with st := st, sp := c.sp.set e.tr.toNat a e.tr.isLt, pc := e.handler, shadow := none, rep := false }

/-- LSINFO names registers that exist (R266). -/
def lsInfoValid (w : Word) : Bool :=
  fieldNat w 31 6 == 0 &&
    (match fieldNat w 5 4 with
      | 0 => true
      | 1 => fieldNat w 3 0 % 2 == 0
      | 2 => fieldNat w 3 0 % 4 == 0
      | _ => false)

/-- IRET's step on the core (R266), its checks passed. The return from the handler of an error under debug makes the task's
abort due (R285). -/
def Core.iretOn (c : Core) (fr : Frame) : Core :=
  let st' := fr[1]
  let ls := fr[7]
  let n := match fieldNat ls 5 4 with
    | 0 => 1
    | 1 => 2
    | _ => 4
  let sh : Option Shadow :=
    if bit st' 7 then
      some ⟨gpr (fieldNat ls 3 0), [fr[8], fr[9], fr[10], fr[11]].take n⟩
    else none
  let st := setBit (setBit (setBit st' 7 false) 11 false) 10 c.dbgBit
  { (c.wr 14 fr[3]) with
    sp := c.sp.set c.ring.toNat fr[2] c.ring.isLt,
    st := st &&& 0x00000FFF, pc := fr[0], shadow := sh, rep := false,
    task := { c.task with abort := if c.task.abort = .frame (c.spOf c.ring) then .due else c.task.abort } }

/-- A store's bus output. -/
def storeOut (a : Word) (size : Nat) (v : QWord) (k : AccKind) : BusOut :=
  { BusOut.none with store := some (a, byteEnables a.toNat size, placed a.toNat v, k) }

/-- A load's bus output. -/
def loadOut (a : Word) (size : Nat) (k : AccKind) : BusOut := { BusOut.none with load := some (a, size, k) }

/-- The bus outputs of a slip-collapsing instruction (Table 2.1, R49): CHPUT drives its data with byte enables 0x000F at
address 0. -/
def CollapseOut.drives (o : CollapseOut) (c : Core) : BusOut :=
  match o with
  | .none => .none
  | .access kind size m => loadOut (c.ea m) size kind
  | .aliasStore op d m => storeOut (c.ea m) op.size (c.rdN d op.count) .aliased
  | .operand s => loadOut (c.rd s) 4 .taskop
  | .chput h d => { loadOut (c.rd h) 4 .taskop with store := some (0, 0x000F, (c.rd d).zeroExtend 128, .plain) }
  | .syswr num s => { BusOut.none with sys := some (num, c.rd s) }
  | .sample pair => loadOut (pair.zeroExtend 32) 4 .sample

/-- Length of an instruction with its prefixes (R145 to R147). -/
def CoreIns.len (i : CoreIns) : Nat :=
  match i with
  | .alu _ wide rep _ a => aluLen wide rep a
  | .mul _ _ _ => 2
  | .dstep _ rep _ _ => repLen rep
  | .dfix _ _ => 2
  | .un _ _ _ => 2
  | .nop => 1
  | .load _ _ m => 2 + m.len
  | .store _ _ m => 2 + m.len
  | .emit _ _ _ m => 3 + m.len
  | .block _ rep _ _ => repLen rep
  | .branch b => b.len
  | .float _ => 3
  | .fld _ _ m => 3 + m.len
  | .fst _ _ m => 3 + m.len
  | .sysrd _ _ => 4
  | .syswr _ _ => 4
  | .epochCheck _ _ => 0
  | .ckpt => 1
  | .setM _ => 1
  | .bkld _ => 2
  | .tid _ => 2
  | .sysc _ => 2
  | .frameStore _ _ => 0
  | .enter _ => 0
  | .frameRead _ => 0
  | .iret => 1
  | .blockRead _ => 0
  | .collapse _ => 0

/-- Write a load's value to its registers, with the shadow latch holding their old values (R156, R157). -/
def Core.loadOn (c : Core) (op : LoadOp) (d : Gpr) (v : QWord) : Core :=
  let rs := regsFrom d op.count
  let old := rs.map fun r => c.g[r]
  let c1 := (rs.zip (op.words v)).foldl (fun c p => c.wr p.1 p.2) { c with shadow := none }
  { c1 with shadow := some ⟨d, old⟩ }

/-- The leading core's issue of a load whose data has not returned: the latch is set, PC moves on. -/
def Core.loadIssued (c : Core) (op : LoadOp) (d : Gpr) (len : Nat) : Core :=
  { c with shadow := some ⟨d, (regsFrom d op.count).map fun r => c.g[r]⟩, pc := c.pc + BitVec.ofNat 32 len }

/-- The instruction is a repeat; a repeat is never in a load shadow (R158). -/
def CoreIns.isRepeat (i : CoreIns) : Bool :=
  match i with
  | .alu _ _ rep _ _ => rep != .once
  | .dstep _ rep _ _ => rep != .once
  | .block _ rep _ _ => rep != .once
  | _ => false

/-- The core as the instruction sees it: a repeat is in no load shadow and reads every loaded value (R158). -/
def CoreIns.sees (i : CoreIns) (c : Core) : Core := if i.isRepeat then { c with shadow := none } else c

/-- The values OEPOCH accepts (R111). -/
def oepochOk (cur e : Word) (k : Nat) (v : Word) : Bool := serialGe v cur && serialGe (e + BitVec.ofNat 32 (k - 1)) v

/-- One active cycle: the core after it and the bus outputs driven. -/
def CoreIns.run (i : CoreIns) (core : Core) (x : CoreIn) : Core × BusOut :=
  let c := i.sees core
  let v0 := x.vals.headD 0
  match i with
  | .alu op wide rep d a =>
    if rep ≠ .once ∧ c.ct = 0 then (c.endRepeat i.len, .none)
    else ((c.aluOn op wide d a).iterate rep i.len, .none)
  | .mul op d s =>
    let r := mulEval op (c.rd d) (c.rd s)
    let c1 := match op with
      | .muls => c.wr d (r.1.setWidth 32)
      | .mulu => c.wr d (r.1.setWidth 32)
      | _ => c.wrPair d r.1
    ((c1.setFlags r.2).step i.len, .none)
  | .dstep signed rep d s =>
    if rep ≠ .once ∧ c.ct = 0 then (c.endRepeat i.len, .none)
    else
      let hi := c.rd (gpr (d.val + 1))
      let r := if signed then dstepsEval hi (c.rd d) (c.rd s) else dstepEval hi (c.rd d) (c.rd s)
      ((((c.wr d r.1.2).wr (gpr (d.val + 1)) r.1.1).setFlags r.2).iterate rep i.len, .none)
  | .dfix d s =>
    let r := dfixEval (c.rd (gpr (d.val + 1))) (c.rd d) (c.rd s) c.v
    ((((c.wr d r.1.2).wr (gpr (d.val + 1)) r.1.1).setFlags r.2).step i.len, .none)
  | .un op d s =>
    let r := unEval op (c.rd s)
    (((c.wr d r.1).setFlags r.2).step i.len, .none)
  | .nop => (c.step i.len, .none)
  | .load op d m =>
    let a := c.ea m
    let c1 := c.loadOn op d v0
    ({ c1 with pc := c.pc + BitVec.ofNat 32 i.len }, loadOut a op.size .plain)
  | .store op d m =>
    let a := c.ea m
    (c.step i.len, storeOut a op.size (c.rdN d op.count) .plain)
  | .emit loc sz d m =>
    let a := c.ea m
    let n := if sz.toNat = 4 then 4 else if sz.toNat = 3 then 2 else 1
    (c.step i.len, storeOut a (emitSize sz) (c.rdN d n) (if loc then .emitLocal else .emit))
  | .block op rep d s =>
    if c.ct = 0 then (c.endRepeat i.len, .none)
    else
      let src := v0
      let dst := x.vals.tail.headD 0
      let out : BusOut := match op with
        | .cmpm => loadOut (c.rd d) 16 .plain
        | _ => { storeOut (c.rd d) 16 src .plain with load := some (c.rd s, 16, .plain) }
      (c.blockOn op rep d s src dst, out)
  | .branch b => (b.apply c (b.taken c), .none)
  | .float fi =>
    let out : BusOut := { BusOut.none with fl := some (fi.fhi, fi.intOperand c) }
    ((c.step i.len).takeFloat fi v0, out)
  | .fld x' d m => (c.step i.len, { loadOut (c.ea m) (if x' then 4 else 8) .plain with fl := some (floatMemOut 0xB0 x' d m) })
  | .fst x' d m =>
    (c.step i.len, { storeOut (c.ea m) (if x' then 4 else 8) x.fdata .plain with fl := some (floatMemOut 0xB1 x' d m) })
  | .sysrd d num =>
    match c.sysRead num with
    | some v => ((c.wr d v).step i.len, .none)
    | none => ((c.wr d (v0.setWidth 32)).step i.len, loadOut (num.zeroExtend 32) 4 .sysread)
  | .syswr num s =>
    let v := c.rd s
    ((c.sysWrite num v).step i.len, { BusOut.none with sys := some (num, v) })
  | .epochCheck s k =>
    if oepochOk c.task.oepoch (v0.setWidth 32) k (c.rd s) then ((c.sysWrite 0x040 (c.rd s)).step 4, .none) else (c, .none)
  | .ckpt => (c.step i.len, .none)
  | .setM m => (({ c with st := setBit c.st 4 m }).step i.len, .none)
  | .bkld b => (({ c with bk := b }).step i.len, .none)
  | .tid d => ((c.wr d c.task.ident).step i.len, .none)
  | .sysc n =>
    let q : QWord := c.rd 3 ++ c.rd 2 ++ c.rd 1 ++ n.zeroExtend 32
    (c.step i.len, storeOut mailboxRequest 16 q .plain)
  | .frameStore e k =>
    (c, storeOut (c.frameAddr e + BitVec.ofNat 32 (16 * k.val)) 16 (frameQuad (c.frame e) k) .plain)
  | .enter e => (c.enterHandler e, .none)
  | .frameRead k => (c, loadOut (c.spOf c.ring + BitVec.ofNat 32 (16 * k)) 16 .plain)
  | .iret => (c.iretOn (frameOf x.vals), .none)
  | .blockRead a => (c, loadOut (c.rd a) 16 .plain)
  | .collapse o => (c, o.drives c)

/-- General registers an instruction reads (R176). -/
def CoreIns.reads (i : CoreIns) : List Gpr :=
  let m1 (m : MemAddr) : List Gpr := match m with
    | .base b _ => [gpr b.val]
    | _ => []
  match i with
  | .alu _ wide _ d a =>
    let rd := if wide then [d, gpr (d.val + 1)] else [d]
    let rs := match a with
      | .reg s => if wide then [s, gpr (s.val + 1)] else [s]
      | _ => []
    rd ++ rs
  | .mul _ d s => [d, s]
  | .dstep _ _ d s => [d, gpr (d.val + 1), s]
  | .dfix d s => [d, gpr (d.val + 1), s]
  | .un _ _ s => [s]
  | .nop => []
  | .load _ _ m => m1 m
  | .store op d m => regsFrom d op.count ++ m1 m
  | .emit _ sz d m => regsFrom d (if sz.toNat = 4 then 4 else if sz.toNat = 3 then 2 else 1) ++ m1 m
  | .block _ _ d s => [d, s]
  | .branch b => match b with
    | .jr s => [s]
    | .jrl s => [s]
    | .ret => [15]
    | _ => []
  | .float fi => match fi with
    | .fmvf _ _ s => [s]
    | .cvtif _ _ _ _ s => [s]
    | _ => []
  | .fld _ _ m => m1 m
  | .fst _ _ m => m1 m
  | .sysrd _ _ => []
  | .syswr _ s => [s]
  | .epochCheck s _ => [s]
  | .ckpt => []
  | .setM _ => []
  | .bkld _ => []
  | .tid _ => []
  | .sysc _ => [1, 2, 3]
  | .frameStore _ _ => []
  | .enter _ => []
  | .frameRead _ => []
  | .iret => []
  | .blockRead a => [a]
  | .collapse _ => []

/-- General registers an instruction writes. -/
def CoreIns.writes (i : CoreIns) : List Gpr :=
  match i with
  | .alu op wide _ d _ => match op with
    | .cmp => []
    | .tst => []
    | _ => if wide then [d, gpr (d.val + 1)] else [d]
  | .mul op d _ => match op with
    | .muls => [d]
    | .mulu => [d]
    | _ => [d, gpr (d.val + 1)]
  | .dstep _ _ d _ => [d, gpr (d.val + 1)]
  | .dfix d _ => [d, gpr (d.val + 1)]
  | .un _ d _ => [d]
  | .load op d _ => regsFrom d op.count
  | .block _ _ d s => [d, s]
  | .branch b => match b with
    | .brl _ => [15]
    | .jrl _ => [15]
    | _ => []
  | .float fi => match fi with
    | .cls _ d _ => [d]
    | .fmvg _ d _ => [d]
    | .cvtfi _ _ _ d _ => [d]
    | _ => []
  | .sysrd d _ => [d]
  | .tid d => [d]
  | .enter _ => [14]
  | .iret => [14]
  | _ => []

/-- Instructions the leading core issues past an unresolved branch (R177): ALU, multiply, divide step, load and float.
The model lets the same set issue while a load has not returned. -/
def CoreIns.speculable (i : CoreIns) : Bool :=
  match i with
  | .alu .. => true
  | .mul .. => true
  | .dstep .. => true
  | .dfix .. => true
  | .un .. => true
  | .nop => true
  | .load .. => true
  | .float .. => true
  | .fld .. => true
  | _ => false

end Sys2Proof.Machine
end

