-- ==== Sys2Proof/Config.lean ====
section
/-! DEFINITION. What the spec leaves open: values an implementation fixes and free values. Each is a constant without a
body, so nothing in Lean can compute it (log entries 2 and 3). -/

namespace Sys2Proof

/-- A free 32-bit value: the n-th value the spec does not state, such as the detail word of a report (log entry 3). -/
opaque Config.freeWord : Nat → Word


/-- A stream filter's four words name a filter in use (Table 14.11 gives the words no layout). -/
opaque Config.sfUsed : List Word → Bool
/-- The destination MAC address a stream filter matches. -/
opaque Config.sfMac : List Word → Nat
/-- The VLAN ID a stream filter matches. -/
opaque Config.sfVid : List Word → Nat
/-- The queue a stream filter steers to. -/
opaque Config.sfQueue : List Word → Fin 64
/-- The maximum SDU of a stream filter, in bytes. -/
opaque Config.sfMaxSdu : List Word → Nat
/-- The stream gate of a filter is open at a device time. -/
opaque Config.sfGateOpen : List Word → Nat → Bool
/-- The flow meter of a filter finds a frame of some length at a device time green; the first argument is the number of the
decision, which stands for the meter's past. -/
opaque Config.sfGreen : Nat → List Word → Nat → Nat → Bool

/-- The header log of a TLP, of which a command gives the error's kind, the function, an offset or tag and a length: the rest of its
header is free. -/
opaque Config.tlpHeader : Nat → Option Nat → Nat → Nat → QWord

/-- Byte `off` of the first 64 bytes of the retained area, which hold WDCOUNT, RSTCAUSE and the tamper record: Table 16.15 gives them no
layout (log entry 84). -/
opaque Config.retainedHead : Nat → Half → Word → Word → Byte

/-- The 16 RS parity bytes of a twin link flit: no field polynomial and no generator is stated (log entry 81). -/
opaque Config.rsParity : List Byte → QWord

end Sys2Proof
end

