-- ==== Sys2Proof/Machine/State.lean ====
section
/-! DEFINITION. The state of the J1024. -/

namespace Sys2Proof.Machine

/-- No command of this model ends in a fault; the constructor stands for a stop the spec would back. Safe. -/
inductive Fault
  | unspecified (what : String)
deriving DecidableEq, Repr

/-- Refusals. `notModelled` is raised by an arm of `exec` whose command has no meaning yet; safe. -/
inductive Refusal
  | notModelled (mnemonic : String)
deriving DecidableEq, Repr

/-- Device time and clocks (R14, R15, R96): fc, device time in ns with its 32-bit binary fraction, the increment per fabric
cycle in 2^-32 ns, bt and the fraction of a bt in units of 1/1,600,000,000, the device time of the latest valid correction
(R99). -/
structure Clock where
  fc : Nat
  time : Nat
  frac : Nat
  inc : Nat
  bt : Nat
  btAcc : Nat
  corrAt : Nat
deriving DecidableEq, Repr

/-- The J1024 as one machine. Registers of the device control space that software or hardware stores are held by address in `regs`
(a register not listed holds its After reset value); every other part has a field of its own. `mem` holds the scratchpads, groups,
vault, retained area and Drover memory by physical address (Table 1.5), as reads return it; `memErr` the bits in which stored
codewords differ from clean ones (R342). `reports` are on their way to the fault manager; `fabricFails` lists the 16-byte words
whose next fabric transaction ends with a bus error after its retry (R346), `releasing` the groups whose accepted release waits
for stores they have accepted, with the word written (R348); `slotPlan` is the fabric slot plan in effect; `gateAt` the gate list
entry in force and its beginning, by port, `served` the queue served last, by port and class; `droverIrq` what has interrupted
Drover; `debugData` what the debug port read last, `debugFailed` whether its last memory access returned a bus error, `flash` what
the boot flash holds; `wire`, `stamp` and `freeN` are the model's own: what has left the device, and counters of bank accepts and
of free values. -/
structure State where
  pending : List Instr
  clk : Clock
  regs : KMap Nat Word
  mem : List Host.Cell
  memErr : KMap Nat (DWord × Byte)
  writeback : List Nat
  fabricFails : List Nat
  cutNodes : List SpanId
  releasing : KMap GroupId Word
  yokes : KMap YokeId Yoke
  spans : KMap SpanId Span
  folds : KMap FoldId Fold
  dma : KMap DmaId Dma
  reports : List Report
  fm : FaultMgr
  fr : Recorder
  aon : AonWd
  xch : KMap Nat XchQueue
  slotPlan : KMap Nat Word
  slotLent : KMap Nat FoldId
  queues : KMap Nat PortQueue
  linkUp : List Nat
  gateAt : KMap Nat (Nat × Nat)
  served : KMap Nat Nat
  conns : KMap Nat Conn
  pcie : Pcie
  service : Service
  inPairs : KMap Nat InPair
  inUnit : InUnit
  outPairs : KMap Nat OutPair
  twin : Twin
  twins : KMap FoldId TwinFold
  power : Power
  pwr : PwrMgr
  bist : Bist
  sec : Sec
  wire : List WireMsg
  droverIrq : List (Nat × Nat)
  debugger : Bool
  debugData : QWord
  debugFailed : Bool
  straps : Word
  flash : Flash
  stamp : Nat
  freeN : Nat
deriving DecidableEq, Repr

/-- What the retained area and the clocks keep over a reset of the main domain; everything else is at its After reset
value (R447, R462, R640). -/
def State.boot (sec : Sec) (clk : Clock) (aon : AonWd) (fr : Recorder) (regs : KMap Nat Word) (mem : List Host.Cell)
    (power : Power) (straps : Word) : State where
  pending := []
  clk := clk
  regs := regs
  mem := mem
  memErr := []
  writeback := []
  fabricFails := []
  cutNodes := []
  releasing := []
  yokes := []
  spans := []
  folds := []
  dma := []
  reports := []
  fm := FaultMgr.reset
  fr := fr
  aon := aon
  xch := []
  slotPlan := []
  slotLent := []
  queues := []
  linkUp := []
  gateAt := []
  served := []
  conns := []
  pcie := Pcie.reset
  service := Service.reset
  inPairs := []
  inUnit := ⟨0, 0, none, none⟩
  outPairs := []
  twin := Twin.reset
  twins := []
  power := power
  pwr := PwrMgr.reset
  bist := Bist.reset
  sec := sec
  wire := []
  droverIrq := []
  debugger := false
  debugData := 0
  debugFailed := false
  straps := straps
  flash := ⟨none, none, none⟩
  stamp := 0
  freeN := 0

/-- The device right after the main domain has left its power-on reset: always-on domain running, every rail good, startup
BIST begun, device time 0. -/
def State.reset : State :=
  State.boot (Sec.boot [] [] 0 0) ⟨0, 0, 0, 0x140000000, 0, 0, 0⟩ AonWd.reset Recorder.reset [(0x080114, 0x80000001)] []
    ⟨true, true, true, true, false, true, none, false, false, true, false, 0, 0, true⟩ 0

end Sys2Proof.Machine
end

