-- ==== Sys2Proof/Machine/Regs.lean ====
section
/-! DEFINITION. Access to the parts of the state: yokes, spans, folds, and the registers of the device control space by
their addresses (Table 1.6 and the register tables of the chapters). -/

namespace Sys2Proof.Machine

/-- The fabric cycle in which device time reached `d` ns is over (R96): what awaits that instant has expired. -/
def Clock.cyclePast (c : Clock) (d : Nat) : Bool := decide (d * 2 ^ 32 + c.inc ≤ c.time * 2 ^ 32 + c.frac)
/-- The fc in which device time reached `d` ns is over; device time advances at each even fc. -/
def Clock.fcPast (c : Clock) (d : Nat) : Bool := c.cyclePast d || (decide (d ≤ c.time) && decide (c.fc % 2 = 1))

/-- A yoke. -/
def State.yoke (s : State) (y : YokeId) : Yoke := kget s.yokes Yoke.reset y
/-- Replace a yoke. -/
def State.setYoke (s : State) (y : YokeId) (k : Yoke) : State := { s with yokes := kset s.yokes y k }
/-- A span. -/
def State.span (s : State) (i : SpanId) : Span := kget s.spans Span.reset i
/-- Replace a span. -/
def State.setSpan (s : State) (i : SpanId) (k : Span) : State := { s with spans := kset s.spans i k }
/-- A fold. -/
def State.fold (s : State) (f : FoldId) : Fold := kget s.folds Fold.reset f
/-- Replace a fold. -/
def State.setFold (s : State) (f : FoldId) (k : Fold) : State := { s with folds := kset s.folds f k }

/-- The span of a yoke (R20). -/
def spanOf (y : YokeId) : SpanId := ⟨y.val / 16, by omega⟩
/-- The yoke index within its span (R20). -/
def yokeIx (y : YokeId) : Fin 16 := ⟨y.val % 16, by omega⟩
/-- The device yoke number of a span and a yoke index (R20). -/
def yokeAt (sp : SpanId) (i : Fin 16) : YokeId := ⟨16 * sp.val + i.val, by omega⟩

/-- The base of a span's control block (Table 1.6). -/
def rSpan (sp : SpanId) (off : Nat) : Nat := 0x030000 + sp.val * 0x1000 + off
/-- SPAN.CKCTL (Table 2.11). -/
def rCkctl (sp : SpanId) : Nat := rSpan sp 0x100
/-- SPAN.CKSTAT. -/
def rCkstat (sp : SpanId) : Nat := rSpan sp 0x104
/-- SPAN.YKSYN. -/
def rYksyn (y : YokeId) : Nat := rSpan (spanOf y) (0x200 + (y.val % 16) * 0x10)
/-- SPAN.YKADDR. -/
def rYkaddr (y : YokeId) : Nat := rSpan (spanOf y) (0x204 + (y.val % 16) * 0x10)
/-- SPAN.YKTIME. -/
def rYktime (y : YokeId) : Nat := rSpan (spanOf y) (0x208 + (y.val % 16) * 0x10)
/-- SPAN.YKSTAT. -/
def rYkstat (y : YokeId) : Nat := rSpan (spanOf y) (0x20C + (y.val % 16) * 0x10)
/-- SPAN.SCHCTL (Table 8.17). -/
def rSchctl (sp : SpanId) : Nat := rSpan sp 0x300
/-- SPAN.SPECC (Table 9.11). -/
def rSpecc (sp : SpanId) : Nat := rSpan sp 0x400
/-- SPAN.GRECC. -/
def rGrecc (sp : SpanId) : Nat := rSpan sp 0x404
/-- SPAN.LINKCNT. -/
def rSpLinkcnt (sp : SpanId) : Nat := rSpan sp 0x408
/-- SPAN.MEMCTL. -/
def rMemctl (sp : SpanId) : Nat := rSpan sp 0x40C
/-- SPAN.MEMSTAT. -/
def rMemstat (sp : SpanId) : Nat := rSpan sp 0x410
/-- SPAN.UEADDR. -/
def rUeaddr (sp : SpanId) : Nat := rSpan sp 0x414
/-- FOLDMGR.STAT (Table 11.12). -/
def rFmStat : Nat := 0x020004
/-- FOLDMGR.REFUSE. -/
def rRefuse : Nat := 0x020008
/-- FOLDMGR.FENTRY. -/
def rFentry (f : FoldId) : Nat := 0x020080 + 4 * f.val
/-- FOLDMGR.FROOT. -/
def rFroot (f : FoldId) : Nat := 0x0200C0 + 4 * f.val
/-- FOLDMGR.SPANOWN. -/
def rSpanown (sp : SpanId) : Nat := 0x020100 + 4 * sp.val
/-- FOLDMGR.GRPOWN. -/
def rGrpown (g : GroupId) : Nat := 0x020200 + 4 * g.val
/-- FOLDMGR.DMAOWN. -/
def rDmaown (c : DmaId) : Nat := 0x020300 + 4 * c.val
/-- FOLDMGR.FSTACK. -/
def rFstack (f : FoldId) : Nat := 0x020E40 + 4 * f.val
/-- Window entry word (R332). -/
def rWindow (f : FoldId) (w i : Nat) : Nat := 0x024000 + f.val * 0x400 + w * 0x10 + 4 * i
/-- FM.CTL (Table 12.7). -/
def rFmCtl : Nat := 0x010000
/-- FM.LAST[i]. -/
def rFmLast (i : Nat) : Nat := 0x010010 + 4 * i
/-- FM.CNT[c]. -/
def rFmCnt (c : Nat) : Nat := 0x010040 + 4 * c
/-- FM.SRCCFG[s]. -/
def rSrccfg (c : Byte) : Nat := 0x010400 + 4 * c.toNat
/-- FM.FWDCFG[f]. -/
def rFwdcfg (f : FoldId) : Nat := 0x010600 + 4 * f.val
/-- FR.CTL (Table 12.23). -/
def rFrCtl : Nat := 0x130000
/-- FR.RIDX. -/
def rFrRidx : Nat := 0x130030
/-- FOLDMGR.CTL (Table 11.10). -/
def rFmgrCtl : Nat := 0x020000
/-- FOLDMGR.SLOT[i]. -/
def rSlot (i : Nat) : Nat := 0x020400 + 4 * i
/-- FOLDMGR.PQOWN[p][q]. -/
def rPqown (p q : Nat) : Nat := 0x020500 + 0x100 * p + 4 * q
/-- FOLDMGR.XCHOWN[x]. -/
def rXchown (x : Nat) : Nat := 0x020A00 + 4 * x
/-- FOLDMGR.FPWR[f]. -/
def rFpwr (f : FoldId) : Nat := 0x020E00 + 4 * f.val
/-- DMA.ENGSTAT (Table 10.15). -/
def rDmaEngstat : Nat := 0x100000
/-- EPOCH.CTL (Table 3.6). -/
def rEpCtl : Nat := 0x140000
/-- EPOCH.SYNC. -/
def rEpSync : Nat := 0x140004
/-- EPOCH.TIMEHI, as latched. -/
def rEpTimehi : Nat := 0x14000C
/-- EPOCH.RATE. -/
def rEpRate : Nat := 0x140010
/-- EPOCH.TSETLO. -/
def rEpTsetlo : Nat := 0x140018
/-- EPOCH.TSETHI. -/
def rEpTsethi : Nat := 0x14001C
/-- EPOCH.FCFG. -/
def rFcfg (f : FoldId) : Nat := 0x140100 + f.val * 0x40
/-- EPOCH.FHBASE. -/
def rFhbase (f : FoldId) : Nat := 0x140108 + f.val * 0x40
/-- EPOCH.FHSIZE. -/
def rFhsize (f : FoldId) : Nat := 0x14010C + f.val * 0x40
/-- EPOCH.FSTAT. -/
def rEpFstat (f : FoldId) : Nat := 0x140110 + f.val * 0x40
/-- EPOCH.FHUSE. -/
def rFhuse (f : FoldId) : Nat := 0x140114 + f.val * 0x40
/-- EPOCH.FSIGLO. -/
def rFsiglo (f : FoldId) : Nat := 0x140118 + f.val * 0x40
/-- EPOCH.FSIGHI. -/
def rFsighi (f : FoldId) : Nat := 0x14011C + f.val * 0x40
/-- EPOCH.FSIGEP. -/
def rFsigep (f : FoldId) : Nat := 0x140120 + f.val * 0x40

/-- Firmware runs on Drover: an image has passed (R599, Table 16.2). -/
def State.firmware (s : State) : Bool := decide (fieldNat s.sec.bootstat 31 30 ≠ 3)

/-- What Drover or the main domain does: nothing while the main domain is in reset (R640). -/
def State.whenMain (s : State) (f : State → State) : State := if s.power.main then f s else s

/-- What Drover firmware does: nothing while the main domain is in reset (R640) or the ROM has stopped (R599). -/
def State.whenFirmware (s : State) (f : State → State) : State := if s.power.main && s.firmware then f s else s

end Sys2Proof.Machine
end

