-- ==== Sys2Proof/Machine/Secded.lean ====
section
/-! DEFINITION. The code that protects memory: code columns, address signature and decoding (R342 to R344). -/

namespace Sys2Proof.Machine

/-- The data columns of the code: 64 bytes of odd weight, at least 3 (R342). Which bytes they are is this model's choice (log
entry 66). -/
def codeColumns : List Byte :=
  [0x07, 0x0B, 0x0D, 0x0E, 0x13, 0x15, 0x16, 0x19, 0x1A, 0x1C, 0x23, 0x25, 0x26, 0x29, 0x2A, 0x2C,
   0x31, 0x32, 0x34, 0x38, 0x43, 0x45, 0x46, 0x49, 0x4A, 0x4C, 0x51, 0x52, 0x54, 0x58, 0x61, 0x62] ++
  [0x64, 0x68, 0x70, 0x83, 0x85, 0x86, 0x89, 0x8A, 0x8C, 0x91, 0x92, 0x94, 0x98, 0xA1, 0xA2, 0xA4,
   0xA8, 0xB0, 0xC1, 0xC2, 0xC4, 0xC8, 0xD0, 0xE0, 0x1F, 0x2F, 0x37, 0x3B, 0x3D, 0x3E, 0x4F, 0x57]

/-- The code's check bits over 64 data bits (R342). -/
def checkBits (d : DWord) : Byte := codeColumns.zipIdx.foldl (fun c x => if d.getLsbD x.2 then c ^^^ x.1 else c) 0

/-- Q of a physical address (R343). -/
def addrQ (a : Nat) : BitVec 7 :=
  let slice (lo : Nat) : BitVec 7 := BitVec.ofNat 7 (a >>> lo)
  slice 3 ^^^ slice 10 ^^^ slice 17 ^^^ slice 24 ^^^ slice 31 ^^^ BitVec.ofNat 7 ((a >>> 38) % 4)

/-- The address signature S(a) (R343). -/
def addrSig (a : Nat) : Byte := BitVec.ofBool (popCount (addrQ a) 7 % 2 = 1) ++ addrQ a

/-- The check bits stored with data at a physical address (R342). -/
def storedCheck (d : DWord) (a : Nat) : Byte := checkBits d ^^^ addrSig a

/-- What a syndrome means, and the data bits it corrects (Table 9.7). -/
def syndromeClass (s : Byte) : Ecc × DWord :=
  if s = 0 then (.clean, 0)
  else if popCount s 8 % 2 = 0 then (.uncorrectable, 0)
  else if popCount s 8 = 1 then (.checkBit, 0)
  else match codeColumns.findIdx? (· == s) with
    | some i => (.dataBit, 1 <<< i)
    | none => (.uncorrectable, 0)

/-- What decoding makes of a stored codeword whose data and check bits differ by `p` from a clean one: its syndrome's meaning. -/
def patternClass (p : DWord × Byte) : Ecc × DWord := syndromeClass (checkBits p.1 ^^^ p.2)

/-- The data bits in which what a read returns differs from what was written. -/
def residual (p : DWord × Byte) : DWord := p.1 ^^^ (patternClass p).2

end Sys2Proof.Machine
end

