-- ==== Sys2Proof/Machine/Memory.lean ====
section
/-! DEFINITION. Memory: bytes by device physical address in one canonical form, error marks by codeword (R342 to R345),
and the physical layout of Table 1.5. -/

namespace Sys2Proof.Machine

/-- A byte of memory; an unlisted address reads 0 (R351: every scratchpad and group is wiped to zero before use). -/
def memGet (m : List Host.Cell) (a : Nat) : Byte :=
  match m with
  | [] => 0
  | (k, v) :: t => if k = a then v else memGet t a

/-- Write a byte and keep the canonical form: addresses rising, no listed zero. -/
def memSet (m : List Host.Cell) (a : Nat) (v : Byte) : List Host.Cell :=
  match m with
  | [] => if v = 0 then [] else [(a, v)]
  | (k, x) :: t =>
    if k < a then (k, x) :: memSet t a v
    else if k = a then (if v = 0 then t else (a, v) :: t)
    else if v = 0 then (k, x) :: t
    else (a, v) :: (k, x) :: t

/-- Write consecutive bytes. -/
def memWrite (m : List Host.Cell) (a : Nat) (bs : List Byte) : List Host.Cell :=
  match bs with
  | [] => m
  | b :: t => memWrite (memSet m a b) (a + 1) t

/-- Read `n` consecutive bytes, lowest first. -/
def memRead (m : List Host.Cell) (a n : Nat) : List Byte := (List.range n).map fun i => memGet m (a + i)

/-- Zero a range (R349, R350). -/
def memWipe (m : List Host.Cell) (a n : Nat) : List Host.Cell :=
  m.filter fun c => decide (c.1 < a) || decide (a + n ≤ c.1)

/-- Every listed address lies above `lo`, rising, and no listed byte is zero. -/
def memWfFrom (lo : Option Nat) (m : List Host.Cell) : Bool :=
  match m with
  | [] => true
  | (k, v) :: t =>
    (match lo with
      | none => true
      | some l => decide (l < k)) && decide (v ≠ 0) && memWfFrom (some k) t

/-- The canonical form of memory. -/
def Memory.wf (m : List Host.Cell) : Bool := memWfFrom none m

/-- Physical address of a scratchpad offset (Table 1.5). -/
def physScratch (sp : SpanId) (off : Nat) : Nat := 0x0100000000 + sp.val * 0x200000 + off
/-- Physical address of a fold memory group offset (Table 1.5). -/
def physGroup (g : GroupId) (off : Nat) : Nat := 0x0200000000 + g.val * 0x100000 + off
/-- Physical address of a fold I/O page offset (Table 1.5). -/
def physIo (f : FoldId) (off : Nat) : Nat := 0x0400000000 + f.val * 0x100000 + off

/-- Which memory a physical address lies in. -/
inductive PhysRegion
  | scratch (sp : SpanId) (off : Nat)
  | group (g : GroupId) (off : Nat)
  | vault (off : Nat)
  | retained (off : Nat)
  | other
deriving DecidableEq, Repr

/-- The region of a physical address (Table 1.5). -/
def physRegion (a : Nat) : PhysRegion :=
  if 0x0100000000 ≤ a ∧ a < 0x0108000000 then
    .scratch (Fin.ofNat 64 ((a - 0x0100000000) / 0x200000)) ((a - 0x0100000000) % 0x200000)
  else if 0x0200000000 ≤ a ∧ a < 0x0204000000 then
    .group (Fin.ofNat 64 ((a - 0x0200000000) / 0x100000)) ((a - 0x0200000000) % 0x100000)
  else if 0x0300000000 ≤ a ∧ a < 0x0300040000 then .vault (a - 0x0300000000)
  else if 0x0300100000 ≤ a ∧ a < 0x0300100800 then .retained (a - 0x0300100000)
  else .other

/-- The stored value of a register, or its reset value from the table. -/
def State.reg (s : State) (a : Nat) (dflt : Word) : Word := kget s.regs dflt a
/-- Store a register. -/
def State.setReg (s : State) (a : Nat) (v : Word) : State := { s with regs := kset s.regs a v }

/-- SPAN.MEMSTAT after reset: both memories wiping (Table 9.15). -/
def memstatReset : Word := 0xC0000000

/-- The memory at a physical address is being wiped (R349, R350), or lies in a group bank that has failed (R583). -/
def State.wiping (s : State) (a : Nat) : Bool :=
  match physRegion a with
  | .scratch sp _ => bit (s.reg (rMemstat sp) memstatReset) 30
  | .group g off => bit (s.reg (rMemstat g) memstatReset) 31 || s.pwr.failed.contains (g.val, off / 16 % 4)
  | _ => false

/-- A physical address lies in a memory that is in retention and serves no access (R361, R560). -/
def State.retained (s : State) (a : Nat) : Bool :=
  match physRegion a with
  | .scratch sp _ => bit (s.reg (rMemstat sp) memstatReset) 28
  | .group g _ => bit (s.reg (rMemstat g) memstatReset) 29
  | _ => false

/-- The codewords an access covers (R344). -/
def codewords (a n : Nat) : List Nat := (List.range ((a + n - 1) / 8 + 1 - a / 8)).map fun i => a / 8 + i

/-- Reports go to the fault manager in the order of detection. -/
def State.report (s : State) (r : Report) : State := { s with reports := s.reports ++ [r] }

/-- A report whose detail word the spec does not state: the detail is a free value (log entry 3). -/
def State.reportU (s : State) (src : Byte) (kind : RegionKind) (region unit : Nat) : State :=
  { s.report ⟨src, kind, region, unit, Config.freeWord s.freeN, none, s.clk.time⟩ with freeN := s.freeN + 1 }

/-- The fold that owns a span, if any (Table 11.4). -/
def State.spanFold (s : State) (sp : SpanId) : Option FoldId :=
  let w := s.reg (rSpanown sp) 0
  if bit w 31 then some (Fin.ofNat 16 (fieldNat w 3 0)) else none
/-- The fold that owns a group, if any (Table 11.4). -/
def State.groupFold (s : State) (g : GroupId) : Option FoldId :=
  let w := s.reg (rGrpown g) 0
  if bit w 31 then some (Fin.ofNat 16 (fieldNat w 3 0)) else none

/-- The spans a fold owns, in ascending device span index (R22). -/
def State.foldSpans (s : State) (f : FoldId) : List SpanId :=
  (List.finRange 64).filter fun sp => s.spanFold sp == some f
/-- The groups a fold owns, in ascending device group number (R326). -/
def State.foldGroups (s : State) (f : FoldId) : List GroupId :=
  (List.finRange 64).filter fun g => s.groupFold g == some f

/-- The fold a yoke runs for. -/
def State.foldOf (s : State) (y : YokeId) : Option FoldId := s.spanFold (spanOf y)

/-- Where the error counts of a physical address are kept: the register, the region kind and index, the bank, the
offset (Table 9.11, Table 12.1, R335, R336). -/
def memSite (a : Nat) : Option (Nat × RegionKind × SpanId × Nat × Nat) :=
  match physRegion a with
  | .scratch sp off => some (rSpecc sp, .span, sp, (off / 16) % 32, off)
  | .group g off => some (rGrecc g, .group, g, (off / 16) % 4, off)
  | _ => none

/-- Count one codeword event at its span and in the owning fold (Tables 9.10, 9.12) and report it. -/
def State.countEcc (s : State) (cw : Nat) (e : Ecc) (src : Byte) : State :=
  match memSite (cw * 8) with
  | none => s
  | some (r, kind, sp, bank, off) =>
    let w := s.reg r 0
    let w' := match e with
      | .dataBit => setField w 15 0 (satNat 0xFFFF (fieldNat w 15 0 + 1))
      | .checkBit => setField w 23 16 (satNat 0xFF (fieldNat w 23 16 + 1))
      | .uncorrectable => setField w 31 24 (satNat 0xFF (fieldNat w 31 24 + 1))
      | .clean => w
    let s1 := s.setReg r w'
    let s2 := match e with
      | .uncorrectable =>
        s1.setReg (rUeaddr sp) (BitVec.ofNat 32 (0x80000000 + (if kind = RegionKind.group then 0x40000000 else 0)
          + (off % 0x200000) / 8 * 8))
      | _ => s1
    let owner := match kind with
      | .group => s.groupFold sp
      | _ => s.spanFold sp
    let s3 := match owner with
      | none => s2
      | some f =>
        let fo := s2.fold f
        s2.setFold f (match e with
          | .uncorrectable => { fo with memUncor := satInc fo.memUncor }
          | .clean => fo
          | _ => { fo with memCorr := satInc fo.memCorr })
    s3.reportU src kind sp.val bank

/-- The bits in which a stored codeword differs from a clean one. -/
def State.cwPattern (s : State) (cw : Nat) : DWord × Byte := kget s.memErr (0, 0) cw
/-- What decoding a codeword finds (Table 9.7). -/
def State.cwEcc (s : State) (cw : Nat) : Ecc := (patternClass (s.cwPattern cw)).1

/-- The 8 bytes at `a` with the bits of `d` inverted. -/
def memFlip (m : List Host.Cell) (a : Nat) (d : DWord) : List Host.Cell :=
  memWrite m a ((List.range 8).map fun i => memGet m (a + i) ^^^ (d >>> (8 * i)).setWidth 8)

/-- A disturbance of a stored codeword (R342): memory holds what reads of it now return. -/
def State.flip (s : State) (cw : Nat) (e : CwFlip) : State :=
  if e.data = 0 ∧ e.check = 0 then s
  else
    let p := s.cwPattern cw
    let q := (p.1 ^^^ e.data, p.2 ^^^ e.check)
    { s with mem := memFlip s.mem (8 * cw) (residual p ^^^ residual q), memErr := if q = (0, 0) then kdel s.memErr cw else kset s.memErr cw q }

/-- Memory as a read sees it that takes codeword `other` in place of `cw`: its data and check bits, which carry the signature of its own
address (R343). -/
def State.misread (s : State) (cw : Nat) (other : Option (BitVec 37)) : State :=
  match other with
  | none => s
  | some b =>
    let p := s.cwPattern b.toNat
    let q := (p.1, p.2 ^^^ addrSig (8 * cw) ^^^ addrSig (8 * b.toNat))
    { s with
      mem := memFlip (memWrite s.mem (8 * cw) (memRead s.mem (8 * b.toNat) 8)) (8 * cw) (residual p ^^^ residual q)
      memErr := kset s.memErr cw q }

/-- Bytes written directly to a memory, with fresh check bits (R342). -/
def State.rawWrite (s : State) (a : Nat) (bs : List Byte) : State :=
  { s with
    mem := memWrite s.mem a bs
    memErr := s.memErr.filter fun e => bs.isEmpty || decide (e.1 < a / 8) || decide ((a + bs.length - 1) / 8 < e.1) }

/-- Drover stores bytes to the vault or the retained area (R345, R364), one 16-byte word at a time: where a codeword that the store
covers in part is uncorrectable the word stays unchanged and source 0x20 is reported (Table 12.2). -/
def State.vaultWrite (s : State) (a : Nat) (bs : List Byte) : State :=
  (if bs.isEmpty then [] else (List.range ((a + bs.length - 1) / 16 + 1 - a / 16)).map fun i => a / 16 + i).foldl (fun s w =>
    let lo := max a (16 * w)
    let hi := min (a + bs.length) (16 * w + 16)
    let part (cw : Nat) : Bool := decide (lo < 8 * cw + 8) && decide (8 * cw < hi) && (decide (8 * cw < lo) || decide (hi < 8 * cw + 8))
    let bad := [2 * w, 2 * w + 1].filter fun cw => part cw && s.cwEcc cw == .uncorrectable
    if bad.isEmpty then s.rawWrite lo ((bs.drop (lo - a)).take (hi - lo))
    else bad.foldl (fun s _ => s.reportU 0x20 .device 0 0) s) s

/-- Codewords of the vault or the retained area are read (R344, R364): one that decoding corrects is corrected, an uncorrectable one
stays and is source 0x20. -/
def State.vaultDecode (s : State) (cws : List Nat) : State :=
  cws.foldl (fun s cw => match s.cwEcc cw with
    | .uncorrectable => s.reportU 0x20 .device 0 0
    | _ => { s with memErr := kdel s.memErr cw }) s

/-- After such a read memory stands as it did before, in `s0`. -/
def State.asStored (s s0 : State) : State := { s with mem := s0.mem, memErr := s0.memErr }

/-- The 16-byte words an access covers. -/
def accessWords (a n : Nat) : List Nat := (List.range ((a + n - 1) / 16 + 1 - a / 16)).map fun i => a / 16 + i

/-- The endpoint of a physical address has been disconnected by its router (R501). -/
def State.nodeCut (s : State) (a : Nat) : Bool :=
  match physRegion a with
  | .scratch sp _ => s.cutNodes.contains sp
  | .group g _ => s.cutNodes.contains g
  | _ => false

/-- The fabric transaction to a 16-byte word fails: its retry does (R346), or the target is disconnected (R501). -/
def State.wordDown (s : State) (w : Nat) : Bool := s.fabricFails.contains w || s.nodeCut (16 * w)

/-- The fabric transaction of this access fails (R346, R501). -/
def State.fabricDown (s : State) (a n : Nat) : Bool := (accessWords a n).any s.wordDown

/-- The failed transaction is over. -/
def State.fabricUp (s : State) (a n : Nat) : State :=
  { s with fabricFails := s.fabricFails.filter fun w => !(accessWords a n).contains w }

/-- Some word of the access lies in a memory that is wiping or in a failed bank (R349, R350, R583). -/
def State.wipingAny (s : State) (a n : Nat) : Bool := (accessWords a n).any fun w => s.wiping (16 * w)

/-- A read at the bank finds a codeword (R344, Table 9.7): the counts and the report, and a corrected one waits to be written back. -/
def State.decodeWord (s : State) (cw : Nat) : State :=
  match s.cwEcc cw with
  | .clean => s
  | .uncorrectable => s.countEcc cw .uncorrectable 0x07
  | e => { s.countEcc cw e 0x06 with writeback := if s.writeback.contains cw then s.writeback else s.writeback ++ [cw] }

/-- Decode the codewords of a read (R344): the state with the counts and reports, and the status. A memory that is wiping
or a failed bank, met anywhere in the access, gives a bus error, and so does a fabric transaction that fails its retry. -/
def State.decodeAccess (s : State) (a n : Nat) : State × LoadStatus :=
  if s.wipingAny a n then (s, .busError 4)
  else if s.fabricDown a n then (s.fabricUp a n, .busError 2)
  else
    (codewords a n).foldl (fun (p : State × LoadStatus) cw =>
      (p.1.decodeWord cw, match p.1.cwEcc cw, p.2 with
        | .clean, st => st
        | .uncorrectable, _ => .busError 1
        | _, .completed => .corrected
        | _, st => st)) (s, .completed)

/-- A page of a fold in transfer that has been sent is marked dirty at every write (R494). -/
def State.markDirty (s : State) (a : Nat) : State :=
  { s with twins := s.twins.map fun e =>
      if e.2.sent.contains (a / 4096) && !e.2.dirty.contains (a / 4096) then (e.1, { e.2 with dirty := e.2.dirty ++ [a / 4096] })
      else e }

/-- Write bytes at the bank (R345): a partly covered uncorrectable codeword, a wiping memory or failed bank anywhere in the
access, or a fabric transaction that fails its retry, fails the write and leaves the words. A codeword covered in part is read, which
counts and reports what it finds (R344), merged and written; codewords written get fresh check bits. -/
def State.bankWrite (s : State) (a : Nat) (bs : List (Nat × Byte)) : State × Bool :=
  let covered (cw : Nat) : Nat := (bs.filter fun b => (a + b.1) / 8 == cw).length
  let cws := (bs.map fun b => (a + b.1) / 8).dedup
  let bad := cws.any fun cw => decide (covered cw < 8) && s.cwEcc cw == .uncorrectable
  let wipes := cws.any fun cw => s.wiping (8 * cw)
  let down := cws.any fun cw => s.wordDown (cw / 2)
  if wipes then (s, false)
  else if down then ({ s with fabricFails := s.fabricFails.filter fun w => !(cws.any fun cw => cw / 2 == w) }, false)
  else
    let s := (cws.filter fun cw => decide (covered cw < 8)).foldl (fun s cw => s.decodeWord cw) s
    if bad then (s, false)
    else
    ({ cws.foldl (fun s cw => s.markDirty (cw * 8)) s with
      mem := bs.foldl (fun m b => memSet m (a + b.1) b.2) s.mem,
      memErr := cws.foldl (fun m cw => kdel m cw) s.memErr }, true)

end Sys2Proof.Machine
end

