-- ==== Sys2Proof/Machine/Recorder.lean ====
section
/-! DEFINITION. The fault recorder (R461 to R466). -/

namespace Sys2Proof.Machine

/-- The region kind's code (Table 12.1). -/
def RegionKind.code (k : RegionKind) : Nat :=
  match k with
  | .device => 0 | .span => 1 | .group => 2 | .node => 3 | .fold => 4 | .dma => 5 | .port => 6

/-- A record of an incident (Table 12.5). -/
def Incident.record (i : Incident) (time : Nat) (kind : Nat) : Record :=
  let f : Nat := match i.fold with
    | some f => 0x80 + f.val
    | none => 0
  [BitVec.ofNat 32 time, BitVec.ofNat 32 (time / 2 ^ 32),
    BitVec.ofNat 32 (kind + i.cls.toNat * 2 ^ 8 + f * 2 ^ 16 + i.kind.code * 2 ^ 24),
    BitVec.ofNat 32 (i.region % 256 + i.num.toNat * 2 ^ 16),
    i.map.setWidth 32, (i.map >>> 32).setWidth 32, i.detail,
    BitVec.ofNat 32 (satNat 65535 i.count + i.src.toNat * 2 ^ 16)]

/-- The record of a fold watchdog's warning or expiry (kind 0x07): fold-scoped, the region its fold (Tables 12.1, 12.5). -/
def foldRecord (time kind : Nat) (f : FoldId) (detail : Word) : Record :=
  [BitVec.ofNat 32 time, BitVec.ofNat 32 (time / 2 ^ 32), BitVec.ofNat 32 (kind + (0x80 + f.val) * 2 ^ 16 + RegionKind.code .fold * 2 ^ 24),
    BitVec.ofNat 32 f.val, 0, 0, detail, 0]

/-- A record that belongs to no incident and no fold: the AON watchdog or a mark. -/
def plainRecord (time kind : Nat) (detail : Word) : Record :=
  [BitVec.ofNat 32 time, BitVec.ofNat 32 (time / 2 ^ 32), BitVec.ofNat 32 kind, 0, 0, 0, detail, 0]

/-- A trigger while not ARMED (R464). -/
def Recorder.miss (r : Recorder) (time : Nat) : Recorder :=
  { r with missed := satInc r.missed, missedValid := true, mtime := if r.missedValid then r.mtime else time }

/-- FR.CTL.PRE as a number of records. -/
def prePortion (ctl : Word) : Nat := 4096 * fieldNat ctl 3 0

/-- Record `n` takes its place with fresh check bits: its four codewords are stored clean (R342, R461). -/
def Recorder.store (r : Recorder) (rec : Record) : Recorder :=
  { r with
    sram := kset r.sram r.wptr rec
    err := r.err.filter fun e => decide (e.1 / 4 ≠ r.wptr)
    wptr := (r.wptr + 1) % 65536 }

/-- Write a record, as a trigger or not (R462 to R465). -/
def Recorder.put (r : Recorder) (ctl : Word) (time : Nat) (rec : Record) (trigger : Bool) : Recorder :=
  match r.state with
  | .armed =>
    let r1 := { r.store rec with written := satNat 65536 (r.written + 1) }
    if trigger then
      { r1 with
        state := .capturing, trigIdx := r.wptr, precnt := min (prePortion ctl) r.written, postcnt := 1, ttime := time }
    else r1
  | .capturing =>
    let n := r.postcnt + 1
    let r1 := { r.store rec with
      postcnt := n,
      state := if n ≥ 65536 - prePortion ctl then .captured else .capturing }
    if trigger then r1.miss time else r1
  | _ =>
    let r1 := { r with drop := satInc r.drop }
    if trigger then r1.miss time else r1

/-- FR.CTL after reset (Table 12.24). -/
def frCtlReset : Word := 0x00050004

/-- Write a record to the recorder. -/
def State.record (s : State) (rec : Record) (trigger : Bool) : State :=
  { s with fr := s.fr.put (s.reg rFrCtl frCtlReset) s.clk.time rec trigger }

/-- ARMING begins (R462). -/
def Recorder.arm (r : Recorder) (fc : Nat) : Recorder :=
  { r with state := .arming, trigIdx := 0, precnt := 0, postcnt := 0, ttime := 0, written := 0, armFc := fc }

/-- ARMED after 1,024 fc. -/
def Recorder.armed (r : Recorder) (fc : Nat) : Recorder :=
  if r.state = .arming ∧ fc ≥ r.armFc + 1024 then { r with state := .armed, written := 0 } else r

/-- A C6 reset freezes the recorder (R466). -/
def Recorder.freeze (r : Recorder) (ctl : Word) (time : Nat) (rec : Record) : Recorder :=
  match r.state with
  | .capturing => { r with state := .captured }
  | .armed =>
    { r.store rec with
      state := .captured, trigIdx := r.wptr,
      precnt := min (prePortion ctl) r.written, postcnt := 1, ttime := time }
  | _ => r

/-- The codeword of the recorder's SRAM, four to a record, that holds word `i` of the record at FR.RIDX. -/
def State.recordWord (s : State) (i : Nat) : Nat := 4 * (s.reg rFrRidx 0).toNat + i / 2

/-- A disturbance of a codeword of the recorder's SRAM (R342, R461). -/
def State.flipRecord (s : State) (cw : Nat) (e : CwFlip) : State :=
  if e.data = 0 ∧ e.check = 0 then s
  else
    let p := kget s.fr.err (0, 0) cw
    let q := (p.1 ^^^ e.data, p.2 ^^^ e.check)
    { s with fr := { s.fr with err := if q = (0, 0) then kdel s.fr.err cw else kset s.fr.err cw q } }

/-- A read of FR.RD[i] (Table 12.23): its codeword is decoded. One that decoding corrects is corrected; an uncorrectable one sets RUE, is
source 0x21 (Table 12.2), and is returned as it stands (Table 12.25). -/
def State.readRecord (s : State) (i : Nat) : State × Word :=
  let cw := s.recordWord i
  let p := kget s.fr.err (0, 0) cw
  let w := (kget s.fr.sram [] (s.reg rFrRidx 0).toNat).getD i 0
  match (patternClass p).1 with
  | .uncorrectable =>
    (({ s with fr := { s.fr with rue := true } }).reportU 0x21 .device 0 0, w ^^^ (residual p >>> (32 * (i % 2))).setWidth 32)
  | _ => ({ s with fr := { s.fr with err := kdel s.fr.err cw } }, w)

/-- What a reset of the main domain that is no power-on leaves of the recorder: the SRAM, the header and the state; RUE, MISSED, MTIME
and DROP take their values after reset (R447, R462, R472). -/
def Recorder.afterReset (r : Recorder) : Recorder := { r with rue := false, missedValid := false, missed := 0, mtime := 0, drop := 0 }

end Sys2Proof.Machine
end

