-- ==== Sys2Proof/Machine/Access.lean ====
section
/-! DEFINITION. The fold address map, fold windows and permission checks (R325 to R334), and a yoke's view of memory
through its write-hold buffer (R64). -/

namespace Sys2Proof.Machine

/-- What a fold address leads to (Table 9.1). -/
inductive Target
  | mem (phys : Nat)
  | aliased (clear : Bool) (phys : Nat)
  | page (off : Nat)
  | io (bank off : Nat)
  | absent
deriving DecidableEq, Repr

/-- Permissions an access needs (R331). -/
structure Need where
  r : Bool
  w : Bool
  x : Bool
deriving DecidableEq, Repr

/-- Read. -/
def Need.read : Need := ⟨true, false, false⟩
/-- Write. -/
def Need.write : Need := ⟨false, true, false⟩
/-- Read and write, for atomics and tethers. -/
def Need.both : Need := ⟨true, true, false⟩
/-- Execute. -/
def Need.exec : Need := ⟨false, false, true⟩

/-- Translate a fold address for fold `f` and executing span `sp` (Table 9.1). -/
def State.translate (s : State) (f : FoldId) (sp : SpanId) (a : Word) : Target :=
  let bank := fieldNat a 31 24
  let off := fieldNat a 23 0
  let groupAt (j off : Nat) : Option Nat := ((s.foldGroups f)[j]?).map fun g => physGroup g off
  if bank = 0 then
    if off < 0x4000 then .page off
    else if off < 0x100000 then
      match groupAt 0 off with
      | some p => .mem p
      | none => .absent
    else .absent
  else if bank = 1 then
    if off < 0x200000 then .mem (physScratch sp off) else .absent
  else if 0x10 ≤ bank ∧ bank < 0x50 then
    if off < 0x200000 then
      match (s.foldSpans f)[bank - 0x10]? with
      | some sp' => .mem (physScratch sp' off)
      | none => .absent
    else .absent
  else if 0x80 ≤ bank ∧ bank < 0xC0 then
    let lin := a.toNat - 0x80000000
    match groupAt (lin / 0x100000) (lin % 0x100000) with
    | some p => .mem p
    | none => .absent
  else if 0xC0 ≤ bank ∧ bank < 0xC8 then
    if off < 0x100000 then
      match groupAt (bank % 4) off with
      | some p => .aliased (decide (bank ≥ 0xC4)) p
      | none => .absent
    else .absent
  else if 0xF0 ≤ bank ∧ bank ≤ 0xF8 then
    if off < 0x10000 then .io bank off else .absent
  else .absent

/-- The window covers an address (R331). -/
def Window.covers (w : Window) (a : Word) : Bool :=
  let bank := fieldNat a 31 24
  let off := fieldNat a 23 0
  let base := w.obase.toNat * 0x1000
  decide (w.size ≠ 0) && decide (w.blo.toNat ≤ bank) && decide (bank ≤ w.bhi.toNat) &&
    decide (base ≤ off) && decide (off < base + 2 ^ w.size)

/-- The window grants a ring what an access needs (Table 9.5, PERM). -/
def Window.grants (w : Window) (ring : BitVec 2) (n : Need) : Bool :=
  let i := 3 * ring.toNat
  (!n.r || w.perm.getLsbD i) && (!n.w || w.perm.getLsbD (i + 1)) && (!n.x || w.perm.getLsbD (i + 2))

/-- The hardware pages of bank 0x00 (R328, R608): what ring 0 may do at an offset, size in bytes. -/
def pageAllows (off size : Nat) (n : Need) : Bool :=
  if n.x then false
  else if off < 0x1000 then !n.w
  else if off < 0x2000 then
    if off < 0x1010 then !n.w
    else if off < 0x1014 then !n.w && decide (off + size ≤ 0x1014)
    else if off < 0x1018 then n.w && !n.r && decide (off + size ≤ 0x1018)
    else if off < 0x1100 then false
    else if off < 0x1200 then !n.w
    else true
  else !n.w

/-- The permission check of R331: the target when the access is permitted. -/
def State.check (s : State) (f : FoldId) (sp : SpanId) (ring : BitVec 2) (a : Word) (size : Nat) (n : Need) :
    Option Target :=
  match s.translate f sp a with
  | .absent => none
  | .page off => if ring = 0 ∧ pageAllows off size n then some (.page off) else none
  | t => if (s.fold f).windows.any (fun w => w.2.covers a && w.2.grants ring n) then some t else none

/-- The target is a span scratchpad or fold memory bank of the fold (R188, R195, R653). -/
def Target.memPhys (t : Target) : Option Nat :=
  match t with
  | .mem p => some p
  | _ => Option.none

/-- The access code in SYN of vectors 0x02 to 0x04 (Table 7.6). -/
def accessCode (size : Nat) (w x ent : Bool) (bkind : BitVec 3) : Word :=
  let sz : Nat := match size with
    | 1 => 0 | 2 => 1 | 4 => 2 | 8 => 3 | 16 => 4 | _ => 5
  BitVec.ofNat 32 (sz + 8 * w.toNat + 16 * x.toNat + 32 * ent.toNat + 256 * bkind.toNat)

/-- A byte of a hardware page of bank 0x00 (Table 9.2, Table 16.10). -/
def State.pageByte (s : State) (f : FoldId) (off : Nat) : Byte :=
  let fo := s.fold f
  if off < 0x400 then
    let w := kget fo.windows ⟨0, 0, 0, 0, 0⟩ (off / 16)
    let word : Nat := match (off % 16) / 4 with
      | 0 => w.bhi.toNat * 2 ^ 24 + w.blo.toNat * 2 ^ 16 + w.size
      | 1 => w.obase.toNat * 2 ^ 12
      | 2 => w.perm.toNat
      | _ => 0
    BitVec.ofNat 8 (word >>> (8 * (off % 4)))
  else if 0x1000 ≤ off ∧ off < 0x1010 then byteOf fo.mbReq (off - 0x1000)
  else if 0x1010 ≤ off ∧ off < 0x1014 then
    BitVec.ofNat 8 ((fo.mbPend.toNat * 2 ^ 31 + fo.mbRdy.toNat * 2 ^ 30) >>> (8 * (off - 0x1010)))
  else if 0x1100 ≤ off ∧ off < 0x2000 then memGet fo.mbBytes off
  else 0

/-- `n` bytes of a hardware page. -/
def State.pageRead (s : State) (f : FoldId) (off n : Nat) : QWord :=
  BitVec.ofNat 128 (leValue ((List.range n).map fun i => s.pageByte f (off + i)))

/-- The model's own key for a byte of a fold's hardware pages, above the device physical space of Table 1.5. -/
def physPage (f : FoldId) (off : Nat) : Nat := 0x0500000000 + f.val * 0x4000 + off

/-- A byte as a bank or a hardware page holds it. -/
def State.physByte (s : State) (a : Nat) : Byte :=
  if a < 0x0500000000 then memGet s.mem a
  else s.pageByte (Fin.ofNat 16 ((a - 0x0500000000) / 0x4000)) ((a - 0x0500000000) % 0x4000)

/-- A write-hold buffer entry holds data of this 16-byte word for the yoke's own loads (R64, R186). -/
def WhbEntry.serves (e : WhbEntry) (word : Nat) : Bool :=
  decide (e.phys / 16 = word) && !e.io && e.phase != .failed

/-- A yoke's view of one byte: the newest entry that holds it, else memory (R64). -/
def State.yokeByte (s : State) (k : Yoke) (a : Nat) : Byte :=
  match (k.whb.filter fun e => e.serves (a / 16) && e.be.getLsbD (a % 16)).getLast? with
  | some e => byteOf e.data (a % 16)
  | none => s.physByte a

/-- The entries of every yoke that their banks have accepted and that are not yet visible, for one byte, with the order of their
acceptance. -/
def State.acceptedFor (s : State) (a : Nat) : List (Nat × WhbEntry) :=
  s.yokes.flatMap fun p => p.2.whb.filterMap fun e => match e.phase with
    | .accepted n => if e.serves (a / 16) && e.be.getLsbD (a % 16) then some (n, e) else none
    | _ => none

/-- A byte as a read sees it that waits for every accepted value to become visible (R358): the yoke's own newest store, else the
value the bank accepted last, else memory. -/
def State.settledByte (s : State) (k : Yoke) (a : Nat) : Byte :=
  match (k.whb.filter fun e => e.serves (a / 16) && e.be.getLsbD (a % 16) && (match e.phase with
      | .accepted _ => false
      | _ => true)).getLast? with
  | some e => byteOf e.data (a % 16)
  | none =>
    match (s.acceptedFor a).foldl (fun best x => match best with
        | some b => if b.1 < x.1 then some x else best
        | none => some x) (none : Option (Nat × WhbEntry)) with
    | some x => byteOf x.2.data (a % 16)
    | none => s.physByte a

/-- `n` bytes as such a read sees them. -/
def State.settledRead (s : State) (k : Yoke) (a n : Nat) : QWord :=
  BitVec.ofNat 128 (leValue ((List.range n).map fun i => s.settledByte k (a + i)))

/-- A yoke's view of `n` bytes. -/
def State.yokeRead (s : State) (k : Yoke) (a n : Nat) : QWord :=
  BitVec.ofNat 128 (leValue ((List.range n).map fun i => s.yokeByte k (a + i)))

/-- Every byte of the access comes from the buffer, so memory is not read. -/
def Yoke.covers (k : Yoke) (a n : Nat) : Bool :=
  (List.range n).all fun i => k.whb.any fun e => e.serves ((a + i) / 16) && e.be.getLsbD ((a + i) % 16)

/-- Another yoke's accepted but not yet visible value lies in the word (R358): the read waits. -/
def State.heldElsewhere (s : State) (y : YokeId) (a : Nat) : Bool :=
  s.yokes.any fun p => decide (p.1 ≠ y) && p.2.whb.any fun e =>
    decide (e.phys / 16 = a / 16) && (match e.phase with
      | .accepted _ => true
      | _ => false)


end Sys2Proof.Machine
end

