-- ==== Sys2Proof/Machine/Crc.lean ====
section
/-! DEFINITION. Cyclic redundancy codes, bit by bit: the reflected form takes the lowest bit first, the other the
highest. -/

namespace Sys2Proof.Machine

/-- One reflected step with a reflected polynomial, `n` bits. -/
def crcReflStep {w : Nat} (poly : BitVec w) (r : BitVec w) (n : Nat) : BitVec w :=
  match n with
  | 0 => r
  | k + 1 => crcReflStep poly (if r.getLsbD 0 then (r >>> 1) ^^^ poly else r >>> 1) k

/-- A reflected CRC over bytes, without the final XOR. -/
def crcRefl {w : Nat} (poly init : BitVec w) (bs : List Byte) : BitVec w :=
  bs.foldl (fun r b => crcReflStep poly (r ^^^ b.zeroExtend w) 8) init

/-- One step that takes the highest bit first. -/
def crcFwdStep {w : Nat} (poly : BitVec w) (r : BitVec w) (n : Nat) : BitVec w :=
  match n with
  | 0 => r
  | k + 1 => crcFwdStep poly (if r.msb then (r <<< 1) ^^^ poly else r <<< 1) k

/-- A CRC that takes the highest bit of each byte first, without the final XOR. -/
def crcFwd {w : Nat} (poly init : BitVec w) (bs : List Byte) : BitVec w :=
  bs.foldl (fun r b => crcFwdStep poly (r ^^^ (b.zeroExtend w).shiftLeft (w - 8)) 8) init

/-- The running CRC-32C of R378: reflected 0x1EDC6F41. -/
def crc32cRun (r : Word) (bs : List Byte) : Word := crcRefl 0x82F63B78 r bs

/-- CRC-32C of bytes with its initial value and final XOR (R378). -/
def crc32c (bs : List Byte) : Word := crc32cRun 0xFFFFFFFF bs ^^^ 0xFFFFFFFF

end Sys2Proof.Machine
end

