-- ==== Sys2Proof/Machine/DmaRegs.lean ====
section
/-! DEFINITION. The channel registers (R379 to R383, R400 to R402). -/

namespace Sys2Proof.Machine

/-- A channel. -/
def State.dmaCh (s : State) (c : DmaId) : Dma := kget s.dma Dma.reset c
/-- Replace a channel. -/
def State.setDma (s : State) (c : DmaId) (d : Dma) : State := { s with dma := kset s.dma c d }

/-- The fold that owns a channel (Table 11.4). -/
def State.dmaFold (s : State) (c : DmaId) : Option FoldId :=
  let w := s.reg (rDmaown c) 0
  if bit w 31 then some (Fin.ofNat 16 (fieldNat w 3 0)) else none

/-- The code of a state in CSTAT (Table 10.5). -/
def DmaState.code (d : DmaState) : Nat :=
  match d with
  | .idle => 0 | .running => 1 | .waiting => 2 | .stopping => 3 | .done => 4 | .stopped => 5 | .error => 6

/-- Running, waiting or stopping (R383). -/
def Dma.busy (d : Dma) : Bool :=
  match d.state with
  | .running => true
  | .waiting => true
  | .stopping => true
  | _ => false

/-- CSTAT (Table 10.10). -/
def Dma.cstat (d : Dma) : Word :=
  BitVec.ofNat 32 (d.state.code * 2 ^ 29 + d.serr.toNat * 2 ^ 28 + d.err.toNat * 2 ^ 16 + d.ring.toNat)

/-- CDEFER (Table 10.14). -/
def Dma.cdefer (d : Dma) : Word :=
  BitVec.ofNat 32 (d.defValid.toNat * 2 ^ 31 + d.defOvr.toNat * 2 ^ 30 + d.defSeq.toNat)

/-- A channel register as LDW returns it (Table 10.8). -/
def Dma.read (d : Dma) (off : Nat) : Option Word :=
  match off with
  | 0x00 => some (BitVec.ofNat 32 (d.wdt * 2 ^ 16 + d.prio.toNat * 2 ^ 8))
  | 0x04 => some d.cstat
  | 0x08 => some d.cpc
  | 0x0C => some d.csrc
  | 0x10 => some d.cdst
  | 0x14 => some (d.crc ^^^ 0xFFFFFFFF)
  | 0x18 => some (BitVec.ofNat 32 (d.loopAct.toNat * 2 ^ 31 + d.entry.toNat * 2 ^ 16 + d.lcnt.toNat))
  | 0x1C => some (BitVec.ofNat 32 d.ev.toNat)
  | 0x20 => some (d.seq.zeroExtend 32)
  | 0x24 => some d.cdefer
  | _ => none

/-- START (R380, R382): a stopped channel keeps its loop state and CRC. -/
def Dma.start (d : Dma) (ring : BitVec 2) (oepoch : Word) (now : Nat) : Dma :=
  let d1 := { d with state := .running, ring := ring, oepoch := oepoch, wait := none, xfer := none, wdFrom := now, lastWrite := none }
  if d.state = .stopped then d1
  else { d1 with loopAct := false, lcnt := 0, lpc := 0, entry := 0, crc := 0xFFFFFFFF }

/-- STOP (R381, R383, R384), in fabric cycle `clk.fc / 2`. The watchdog, which paused from the beginning of a wait, goes on. -/
def Dma.stop (d : Dma) (clk : Clock) : Dma :=
  match d.state with
  | .running => { d with state := .stopping, stopAt := clk.fc / 2 }
  | .waiting => { d with state := .stopping, stopAt := clk.fc / 2, wdFrom := clk.time }
  | _ => d

/-- The channel's WAIT has expired in an earlier fabric cycle: an event now is late (R377, R396). -/
def DmaWait.late (w : DmaWait) (clk : Clock) : Bool := decide (w.tmo ≠ 0) && clk.cyclePast (w.begin + w.tmo * 1000)

/-- An event of kind `kind` reaches a channel's wait (Table 10.4): one that comes in time is noted. -/
def Dma.arrives (d : Dma) (kind : Nat) (clk : Clock) : Dma :=
  match d.wait with
  | some w => if w.kind = kind ∧ w.late clk = false then { d with wait := some { w with seen := true } } else d
  | none => d

/-- CEVT.EV is set (Table 10.12, kind 0x02). -/
def Dma.setEv (d : Dma) (clk : Clock) : Dma := ({ d with ev := true }).arrives 2 clk

/-- A store to CCTL (R383, Table 10.9). A store that sets STOP alone stops a busy channel and changes nothing of another;
its RW fields are not stored. -/
def Dma.writeCctl (d : Dma) (v : Word) (ring : BitVec 2) (oepoch : Word) (clk : Clock) : Dma :=
  let st := bit v 31
  let sp := bit v 30
  let d1 := { d with wdt := fieldNat v 27 16, prio := BitVec.ofNat 3 (fieldNat v 10 8) }
  if st && sp then { d with serr := true }
  else if d.busy then (if sp then d.stop clk else { d with serr := true })
  else if st then d1.start ring oepoch clk.time
  else if sp then d
  else d1

/-- A store to a channel register (R379 to R383). -/
def Dma.write (d : Dma) (off : Nat) (v : Word) (ring : BitVec 2) (oepoch : Word) (clk : Clock) : Dma :=
  match off with
  | 0x00 => d.writeCctl v ring oepoch clk
  | 0x04 => if bit v 28 then { d with serr := false } else d
  | 0x08 => if d.busy then { d with serr := true } else { d with cpc := v }
  | 0x0C => if d.busy then { d with serr := true } else { d with csrc := v }
  | 0x10 => if d.busy then { d with serr := true } else { d with cdst := v }
  | 0x1C => if bit v 0 then d.setEv clk else d
  | 0x24 => if bit v 31 then { d with defValid := false, defOvr := false } else d
  | _ => d

/-- The channel and register of an offset in bank 0xF5, when the fold may reach it (R400). -/
def State.dmaTarget (s : State) (f : FoldId) (off : Nat) : Option (DmaId × Nat) :=
  let c : DmaId := Fin.ofNat 64 (off / 0x400)
  let o := off % 0x400
  if off < 0x10000 ∧ s.dmaFold c = some f ∧ (Dma.reset.read o).isSome = true then some (c, o) else none

/-- Life-cycle states of Table 16.2 by their number in SEC.LCSTAT. -/
abbrev lcField : BitVec 3 := 3
/-- OPENED. -/
abbrev lcOpened : BitVec 3 := 4
/-- VOID. -/
abbrev lcVoid : BitVec 3 := 5

/-- FOLDMGR.CTL: ISO is 1 after reset in FIELD (Table 11.11). -/
def State.fmgrCtl (s : State) : Word := s.reg rFmgrCtl (if s.sec.lc = lcField then 1 else 0)

/-- A memory's retention bit in SPAN.MEMSTAT: SRET 28, GRET 29 (Table 9.15). -/
def State.setRet (s : State) (n : SpanId) (b : Nat) (on : Bool) : State :=
  s.setReg (rMemstat n) (setBit (s.reg (rMemstat n) memstatReset) b on)

/-- Every span of a fold rests and none of its DMA channels runs (R361). -/
def State.foldRests (s : State) (f : FoldId) : Bool :=
  (s.foldSpans f).all (fun sp => match (s.span sp).power with
    | .rest _ => true
    | _ => false) && (List.finRange 64).all fun c => decide (s.dmaFold c ≠ some f) || !(s.dmaCh c).busy

/-- RETENTION_ENTER of a fold that rests (R361, R574): the scratchpads of its spans in Nap, and its groups. -/
def State.retainFold (s : State) (f : FoldId) : State :=
  if s.foldRests f then
    let s1 := (s.foldSpans f).foldl (fun s x => if (s.span x).power == .rest true then s.setRet x 28 true else s) s
    (s1.foldGroups f).foldl (fun s g => s.setRet g 29 true) s1
  else s

/-- A DMA channel of a fold has ended: the fold's memories enter retention where it now rests (R574). -/
def State.retainAfter (s : State) (c : DmaId) : State :=
  match s.dmaFold c with
  | some f => s.retainFold f
  | none => s

/-- The memories of a fold leave retention (R361). -/
def State.unretainFold (s : State) (f : FoldId) : State :=
  let s1 := (s.foldSpans f).foldl (fun s x => s.setRet x 28 false) s
  (s1.foldGroups f).foldl (fun s g => s.setRet g 29 false) s1

end Sys2Proof.Machine
end

