-- ==== Sys2Proof/Machine/IoWindow.lean ====
section
/-! DEFINITION. Stores to and loads from the I/O banks 0xF0 to 0xF8 (Table 9.3): port and function queue windows, pair-input
and safe output windows, cross-fold channel windows; output holding (R109 to R113, R122). -/

namespace Sys2Proof.Machine

/-- One store or EMIT to an I/O bank, as it is handed over at its checkpoint (R186). -/
structure IoWrite where
  fold : FoldId
  bank : Nat
  off : Nat
  size : Nat
  data : QWord
  loc : Bool
  oepoch : Word
  ring : BitVec 2
  pc : Word
deriving DecidableEq, Repr

/-- A register of port `p`'s block (Table 14.11). -/
def rPort (p off : Nat) : Nat := 0x0D0000 + p * 0x2000 + off
/-- PORT.QCFG[q]. -/
def rQcfg (p q : Nat) : Nat := rPort p (0x100 + 4 * q)
/-- A register of the safe I/O block (Table 14.15). -/
def rSio (off : Nat) : Nat := 0x110000 + off
/-- SIO.IPCFG[i]. -/
def rIpcfg (i : Nat) : Nat := rSio (0x100 + 4 * i)
/-- SIO.IPCFG after reset (Table 14.17). -/
def ipcfgReset : Word := 0x000003E8
/-- SIO.IPNET[i]. -/
def rIpnet (i : Nat) : Nat := rSio (0x300 + 4 * i)
/-- SIO.OPCFG[k]. -/
def rOpcfg (k : Nat) : Nat := rSio (0x500 + 4 * k)
/-- SIO.OPCFG after reset (Table 14.18). -/
def opcfgReset : Word := 0x00C86414

/-- The key of a queue pair: queue `q` of port `p`; P4 uses 8 × fold + queue (Table 14.11). -/
def qKey (p q : Nat) : Nat := 128 * p + q
/-- A queue pair. -/
def State.queue (s : State) (p q : Nat) : PortQueue := kget s.queues PortQueue.reset (qKey p q)
/-- Replace a queue pair. -/
def State.setQueue (s : State) (p q : Nat) (k : PortQueue) : State := { s with queues := kset s.queues (qKey p q) k }
/-- A safety connection. -/
def State.conn (s : State) (n : Nat) : Conn := kget s.conns Conn.reset n
/-- An input pair. -/
def State.inPair (s : State) (i : Nat) : InPair := kget s.inPairs InPair.reset i
/-- An output pair. -/
def State.outPair (s : State) (k : Nat) : OutPair := kget s.outPairs OutPair.reset k
/-- Replace an output pair. -/
def State.setOutPair (s : State) (k : Nat) (o : OutPair) : State := { s with outPairs := kset s.outPairs k o }
/-- A cross-fold channel's receive queue. -/
def State.xchQ (s : State) (x : Nat) : XchQueue := kget s.xch XchQueue.reset x
/-- Something leaves the device. -/
def State.emit (s : State) (m : WireMsg) : State := { s with wire := s.wire ++ [m] }

/-- The fold an ownership register names (Table 11.4). -/
def ownerOf (w : Word) : Option FoldId := if bit w 31 then some (Fin.ofNat 16 (fieldNat w 3 0)) else none

/-- The fold that owns queue `q` of port `p` (R416, R418). -/
def State.queueFold (s : State) (p q : Nat) : Option FoldId :=
  if p < 4 then ownerOf (s.reg (rPqown p q) 0) else some (Fin.ofNat 16 (q / 8))

/-- The port and queue of a queue window offset (R508, R523). -/
def windowQueue (f : FoldId) (bank off : Nat) : Option (Nat × Nat) :=
  if 0xF0 ≤ bank ∧ bank < 0xF4 then some (bank - 0xF0, off / 0x400)
  else if bank = 0xF4 ∧ off / 0x400 < 8 then some (4, 8 * f.val + off / 0x400)
  else none

/-- The queue window's port and queue when the fold owns them (R508). -/
def State.ownWindow (s : State) (f : FoldId) (bank off : Nat) : Option (Nat × Nat) :=
  match windowQueue f bank off with
  | some (p, q) => if s.queueFold p q = some f then some (p, q) else none
  | none => none

/-- SIO.IPCFG assigns an input pair to the fold. -/
def State.pairOf (s : State) (f : FoldId) (i : Nat) : Bool :=
  let w := s.reg (rIpcfg i) ipcfgReset
  decide (i < 64) && bit w 31 && decide (fieldNat w 29 26 = f.val)

/-- SIO.OPCFG assigns an output pair to the fold. -/
def State.outOf (s : State) (f : FoldId) (k : Nat) : Bool :=
  let w := s.reg (rOpcfg k) opcfgReset
  decide (k < 8) && bit w 31 && decide (fieldNat w 30 27 = f.val)

/-- A declared cross-fold channel with the fold at its sending end (R421). -/
def State.sends (s : State) (f : FoldId) (x : Nat) : Bool :=
  let w := s.reg (rXchown x) 0
  bit w 31 && decide (fieldNat w 3 0 = f.val)

/-- A declared cross-fold channel with the fold at its receiving end. -/
def State.receives (s : State) (f : FoldId) (x : Nat) : Bool :=
  let w := s.reg (rXchown x) 0
  bit w 31 && decide (fieldNat w 11 8 = f.val)

/-- The destination code of an output window (Table 3.2). -/
def outputDest (bank off : Nat) : Half :=
  if bank < 0xF4 then BitVec.ofNat 16 (0x1000 + (bank - 0xF0) * 0x100 + off / 0x400)
  else if bank = 0xF4 then BitVec.ofNat 16 (0x1400 + off / 0x400)
  else if bank = 0xF7 then BitVec.ofNat 16 (off / 0x10)
  else BitVec.ofNat 16 (0x2000 + off / 0x100)

/-- A transmit window of a queue the fold owns; DMA writes go there with any length (Table 14.3). -/
def State.isTxWindow (s : State) (f : FoldId) (bank off : Nat) : Bool :=
  (s.ownWindow f bank off).isSome && decide (off % 0x400 < 0x10)

/-- An output window of the fold that takes a store or EMIT of this size (R211, R421, R508, R537). -/
def State.isOutputWindow (s : State) (f : FoldId) (bank off size : Nat) : Bool :=
  if bank < 0xF5 then s.isTxWindow f bank off && decide (off % 0x400 + size ≤ 0x10)
  else if bank = 0xF7 then s.outOf f (off / 0x10) && decide (off % 0x10 = 0) && decide (size = 4)
  else if bank = 0xF8 then s.sends f (off / 0x100) && decide (off % 0x100 = 0) && decide (size = 16)
  else false

/-- A store the window lists (R400, R421, R508, R536, R537). -/
def State.ioStoreOk (s : State) (f : FoldId) (bank off size : Nat) : Bool :=
  s.isOutputWindow f bank off size || (decide (bank = 0xF5) && decide (size = 4) && (s.dmaTarget f off).isSome)

/-- A load the window lists. -/
def State.ioLoadOk (s : State) (f : FoldId) (bank off size : Nat) : Bool :=
  if bank < 0xF5 then
    (s.ownWindow f bank off).isSome &&
      ((decide (off % 0x400 = 0x100) && decide (size = 16)) || (decide (off % 0x400 = 0x110) && decide (size = 4)))
  else if bank = 0xF5 then (s.dmaTarget f off).isSome && decide (size = 4)
  else if bank = 0xF6 then s.pairOf f (off / 16) && decide (off % 16 ≤ 8) && decide (off % 4 = 0) && decide (size = 4)
  else if bank = 0xF7 then s.outOf f (off / 16) && decide (off % 16 = 4) && decide (size = 4)
  else if bank = 0xF8 then
    s.receives f (off / 0x100) &&
      ((decide (off % 0x100 = 0x80) && decide (size = 16)) || (decide (off % 0x100 = 0x90) && decide (size = 4)))
  else false

/-- The epoch length E of a fold in ns (R100). -/
def State.epochNs (s : State) (f : FoldId) : Nat := 2 ^ fieldNat (s.reg (rFcfg f) 0x00030000) 19 16 * 1000
/-- k of a fold (R30). -/
def State.frameK (s : State) (f : FoldId) : Nat := fieldNat (s.reg (rFcfg f) 0x00030000) 9 0 + 1
/-- The fold's current epoch number: the epoch its latest boundary opened (R101). -/
def State.curEpoch (s : State) (f : FoldId) : Nat := (s.fold f).epoch.toNat

/-- The epoch whose input window holds an instant (R103). -/
def State.windowEpoch (s : State) (f : FoldId) (t : Nat) : Nat := (t + 2000) / s.epochNs f

/-- Bytes an output occupies in the holding area (R112). -/
def HeldOutput.bytes (o : HeldOutput) : Nat := 16 + (o.data.length + 15) / 16 * 16
/-- Bytes of the holding area in use. -/
def Fold.heldBytes (fo : Fold) : Nat := fo.held.foldl (fun n o => n + o.bytes) 0

/-- A mark of an epoch of the fold. -/
def Fold.mark (fo : Fold) (tag : Word) : EpochMark := (fo.marks.find? fun m => m.tag == tag).getD ⟨tag, false, false⟩
/-- Replace a mark. -/
def Fold.setMark (fo : Fold) (m : EpochMark) : Fold := { fo with marks := m :: fo.marks.filter fun x => x.tag != m.tag }

/-- An output whose tag is sealed is discarded and makes its epoch late, counted once (R122). -/
def State.lateOutput (s : State) (f : FoldId) (tag : Word) : State :=
  let fo := s.fold f
  let m := fo.mark tag
  if m.late then s
  else
    let w := s.reg (rEpFstat f) 0
    (((s.setFold f (fo.setMark { m with late := true })).setReg (rEpFstat f)
      (setField w 31 16 (satNat 0xFFFF (fieldNat w 31 16 + 1))))).reportU 0x10 .fold f.val 0

/-- An output enters output holding (R110, R112, R113, R116, R122); false when the holding area refuses it. Outside RUN it
is discarded without error (R443). -/
def State.enterOutput (s : State) (f : FoldId) (dest : Half) (bs : List Byte) (loc : Bool) (tag : Word) (o : Origin) :
    State × Bool :=
  let fo := s.fold f
  if fo.phase ≠ .running then (s, true)
  else if ¬ serialGe tag (BitVec.ofNat 32 (s.curEpoch f)) then (s.lateOutput f tag, true)
  else
    let h : HeldOutput := ⟨dest, bs, loc && decide (0x1000 ≤ dest.toNat) && decide (dest.toNat < 0x2000), tag, o⟩
    let n := fo.heldBytes + h.bytes
    if n > (s.reg (rFhsize f) 0).toNat then (s.reportU 0x11 .fold f.val 0, false)
    else (s.setFold f { fo with held := fo.held ++ [h], heldPeak := max fo.heldPeak n }, true)

/-- The bytes of a store. -/
def storeBytes (v : QWord) (n : Nat) : List Byte := (List.range n).map fun i => byteOf v i

/-- A store or EMIT to an I/O bank takes effect (R110, R186, R379): a channel register, or an output. -/
def State.ioStore (s : State) (w : IoWrite) : State :=
  if w.bank = 0xF5 then
    match s.dmaTarget w.fold w.off with
    | some (c, o) => s.setDma c ((s.dmaCh c).write o (w.data.setWidth 32) w.ring w.oepoch s.clk)
    | none => s
  else if s.isOutputWindow w.fold w.bank w.off w.size then
    (s.enterOutput w.fold (outputDest w.bank w.off) (storeBytes w.data w.size) w.loc w.oepoch ⟨w.pc, none⟩).1
  else s

/-- Pop the next 16 bytes of the head entry (R508). -/
def PortQueue.pop (k : PortQueue) : PortQueue × QWord :=
  match k.rx with
  | [] => ({ k with under := true }, 0)
  | e :: t =>
    let rest := e.bytes.drop 16
    ({ k with rx := if rest.isEmpty then t else { e with bytes := rest } :: t }, BitVec.ofNat 128 (leValue (e.bytes.take 16)))

/-- RXSTAT of a queue window (Table 14.14). -/
def PortQueue.rxstat (k : PortQueue) (link : Bool) : Word :=
  BitVec.ofNat 32 (k.under.toNat * 2 ^ 31 + link.toNat * 2 ^ 30 + satNat 16383 k.rx.length * 2 ^ 16 + k.lost.toNat)

/-- RXSTAT of a cross-fold channel (Table 11.8). -/
def XchQueue.rxstat (k : XchQueue) : Word :=
  BitVec.ofNat 32 (k.under.toNat * 2 ^ 31 + k.items.length * 2 ^ 16 + k.lost.toNat)

/-- SIO.OPSTAT (Table 14.15). -/
def OutPair.stat (o : OutPair) : Word :=
  BitVec.ofNat 32 (o.ofault.toNat * 2 ^ 31 + o.req.toNat * 2 ^ 30 + o.fba.toNat * 2 ^ 29 + o.fbb.toNat * 2 ^ 28
    + o.dra.toNat * 2 ^ 27 + o.drb.toNat * 2 ^ 26 + o.refused.toNat * 2 ^ 8 + o.badval.toNat)

/-- AGREED of one device's frozen values (R535). -/
def FrozenPair.agreed (p : FrozenPair) : Bool := p.a && p.b && !p.dfault
/-- DIFF of one device's frozen values (R535). -/
def FrozenPair.diff (p : FrozenPair) : Bool := p.a != p.b

/-- AGREED of Table 5.12: the AND of the devices' values (R485). -/
def SampleVal.agreed (v : SampleVal) : Bool := v.own.agreed && (v.theirs.map FrozenPair.agreed).getD true
/-- DIFF of Table 5.12: the OR of the devices' values (R485). -/
def SampleVal.diff (v : SampleVal) : Bool := v.own.diff || (v.theirs.map FrozenPair.diff).getD false
/-- DFAULT of Table 5.12: the OR of the devices' values (R485). -/
def SampleVal.dfault (v : SampleVal) : Bool := v.own.dfault || (v.theirs.map FrozenPair.dfault).getD false

/-- SAMPLE's result word (Table 5.12). -/
def SampleVal.word (v : SampleVal) : Word := BitVec.ofNat 32 (v.agreed.toNat + 2 * v.diff.toNat + 4 * v.dfault.toNat)

/-- The frozen values of a pair in the current epoch; the safe value before the pair's first freeze (R535). -/
def State.frozenOf (s : State) (f : FoldId) (i : Nat) : SampleVal := kget (s.fold f).frozen SampleVal.safe i

/-- What SAMPLE and PVAL of a pair return in the current epoch. -/
def State.sampleOf (s : State) (f : FoldId) (i : Nat) : Word := (s.frozenOf f i).word

/-- A load from an I/O bank (R187): the state with what the read pops or clears, the data and the status. -/
def State.ioLoad (s : State) (f : FoldId) (bank off size : Nat) : State × QWord × LoadStatus :=
  let a := physIo f ((bank - 0xF0) * 0x10000 + off)
  if !s.ioLoadOk f bank off size then (s, 0, .accessViolation)
  else if s.fabricDown a size then (s.fabricUp a size, 0, .busError 2)
  else if bank < 0xF5 then
    match s.ownWindow f bank off with
    | none => (s, 0, .accessViolation)
    | some (p, q) =>
      let k := s.queue p q
      if size = 16 then
        let r := k.pop
        (s.setQueue p q r.1, r.2, .completed)
      else
        (s.setQueue p q { k with under := false, lost := 0 }, (k.rxstat (s.linkUp.contains p)).zeroExtend 128, .completed)
  else if bank = 0xF5 then
    match s.dmaTarget f off with
    | some (c, o) => (s, (((s.dmaCh c).read o).getD 0).zeroExtend 128, .completed)
    | none => (s, 0, .accessViolation)
  else if bank = 0xF6 then
    let i := off / 16
    let cfg := s.reg (rIpcfg i) ipcfgReset
    let net := s.reg (rIpnet i) 0
    let v : Word :=
      if off % 16 = 0 then s.sampleOf f i
      else if off % 16 = 4 then
        BitVec.ofNat 32 ((decide (i ≥ 16)).toNat * 2 ^ 31 + (bit cfg 30).toNat * 2 ^ 30 + fieldNat cfg 17 0)
      else if i ≥ 16 then BitVec.ofNat 32 (fieldNat net 31 20 * 2 ^ 16 + fieldNat net 15 4)
      else 0
    (s, v.zeroExtend 128, .completed)
  else if bank = 0xF7 then (s, ((s.outPair (off / 16)).stat).zeroExtend 128, .completed)
  else
    let x := off / 0x100
    let k := s.xchQ x
    if size = 16 then
      match k.items with
      | [] => ({ s with xch := kset s.xch x { k with under := true } }, 0, .completed)
      | e :: t => ({ s with xch := kset s.xch x { k with items := t } }, e, .completed)
    else ({ s with xch := kset s.xch x { k with under := false, lost := 0 } }, k.rxstat.zeroExtend 128, .completed)

/-- A cross-fold channel receive queue of the fold holds a visible entry (Table 5.11, XCH). -/
def State.xchVisible (s : State) (f : FoldId) : Bool := s.xch.any fun e => s.receives f e.1 && !(s.xchQ e.1).items.isEmpty

/-- The fold may read an input pair (R210). -/
def State.pairReadable (s : State) (f : FoldId) (pair : Nat) : Bool := s.pairOf f pair

/-- Both switches of a pair off, in one cycle (R538). -/
def OutPair.off (o : OutPair) (us : Nat) : OutPair := { o with
    on := false, dra := false, drb := false, soaAt := none, test := none, changed := us }

/-- De-energise the safe output pairs of a fold, or every pair (R443, R445). -/
def State.deenergise (s : State) (f : Option FoldId) : State :=
  (List.range 8).foldl (fun s k =>
    let mine := match f with
      | some f => s.outOf f k
      | none => true
    if mine then s.setOutPair k ((s.outPair k).off (s.clk.time / 1000)) else s) s

/-- Empty the transmit queues of a fold on every port (R443). -/
def State.emptyTx (s : State) (f : FoldId) : State :=
  { s with queues := s.queues.map fun e =>
      if s.queueFold (e.1 / 128) (e.1 % 128) = some f then (e.1, { e.2 with tx := [] }) else e }

end Sys2Proof.Machine
end

