-- ==== Sys2Proof/Machine/Ops.lean ====
section
/-! DEFINITION. The named operations of a yoke: issue by the leading core, stores into the write-hold buffer,
checkpoints, handler entry and escalation (chapters 2, 5, 7). -/

namespace Sys2Proof.Machine

/-- The slip: the entries in the compare queue (R45). -/
def Yoke.slip (k : Yoke) : Nat := k.cq.length

/-- The yoke is under debug: its trailing core is held in reset and nothing is compared (R85). -/
def Yoke.unchecked (k : Yoke) : Bool := k.debug != .off

/-- A destination register of a load that has not returned. -/
def Yoke.awaits (k : Yoke) (r : Gpr) : Bool := k.loads.any fun l => l.live.contains r

/-- The instruction reads a register whose load has not returned, other than through the shadow latch (R176). -/
def Yoke.readsAwaited (k : Yoke) (i : CoreIns) : Bool :=
  i.reads.any fun r => k.awaits r && (match k.lead.shadow with
    | none => true
    | some h => (h.find r).isNone)

/-- A float instruction whose result goes to the core has not completed (R226). -/
def Yoke.awaitsFloat (k : Yoke) : Bool :=
  k.fpu.queue.any (fun e => e.ins.toCore) || k.fpu.busy.any (fun e => e.ins.toCore)

/-- Any float instruction is in the unit. -/
def Yoke.floatActive (k : Yoke) : Bool := !k.fpu.queue.isEmpty || !k.fpu.busy.isEmpty

/-- A trap enable of FCSR is set: the float unit runs synchronously (R241). -/
def Yoke.floatSync (k : Yoke) : Bool := decide (fieldNat k.fpu.fcsr 12 8 ≠ 0)

/-- A checkpoint, an entry or the next instruction waits for the float unit: a result for the core has not come (R226), or
the unit runs synchronously (R241). -/
def Yoke.floatHolds (k : Yoke) : Bool := k.awaitsFloat || (k.floatSync && k.floatActive)

/-- The instruction is handed to the float unit and takes an entry of its issue queue. FST is a store of the core: it drives the
hand-off to be compared, and takes no entry (log entry 56). -/
def CoreIns.isFloat (i : CoreIns) : Bool :=
  match i with
  | .float _ => true
  | .fld .. => true
  | _ => false

/-- Data lane entries that an instruction needs as it issues, or the failed reads and the entry that take its place (R54, R55). -/
def CoreIns.lvqNeed (i : CoreIns) : Nat :=
  match i with
  | .block .. => 2
  | .iret => 3
  | _ => 1

/-- The leading core is blocked at this instruction (R47, R54, R62, R158, R176, R177, R224, R226, R241). `room` is the
number of compare queue entries it needs. -/
def Yoke.stalls (k : Yoke) (i : CoreIns) (room : Nat) : Bool :=
  (!k.unchecked && (decide (k.slip + room > 96) || decide (k.lvq.length + i.lvqNeed > 64) || decide (k.fetchLane.length ≥ 32))) ||
    k.floatHolds ||
    (!i.speculable && (k.branch.isSome || !k.loads.isEmpty)) ||
    k.readsAwaited i ||
    (i.isRepeat && !k.loads.isEmpty) ||
    (match i with
      | .load op d _ => (regsFrom d op.count).any k.awaits
      | _ => false) ||
    (i.isFloat && (decide (k.fpu.queue.length ≥ 8) || (k.floatSync && k.branch.isSome)))

/-- A checkpoint trigger of Table 2.5 by count or time has been reached and its checkpoint not yet taken. -/
def State.ckTriggered (s : State) (k : Yoke) : Bool :=
  decide (k.retired ≥ 4096) || decide (s.clk.fc - k.ckFc ≥ 4608)

/-- The float part of a pending slot, once every float instruction before the point has completed (R68). -/
def Yoke.captureFloat (k : Yoke) : Yoke :=
  match k.pend with
  | some p =>
    if p.fl.isNone && !(k.fpu.queue.any fun e => decide (e.seq ≤ p.seq)) && !(k.fpu.busy.any fun e => decide (e.seq ≤ p.seq)) then
      { k with pend := some { p with fl := some (k.fpu.f, k.fpu.fcsr) } }
    else k
  | none => k

/-- Open entries of an interval leave the buffer towards their banks (R69 step 2). -/
def Yoke.release (k : Yoke) (interval : Nat) : Yoke :=
  { k with whb := k.whb.map fun e =>
      if e.interval ≤ interval ∧ e.phase = .open then { e with phase := .released } else e }

/-- The I/O stores among entries being released go to their windows in program order and leave the buffer (R110, R186). -/
def State.handOver (s : State) (y : YokeId) (interval : Nat) : State :=
  let k := s.yoke y
  match s.foldOf y with
  | none => s
  | some f =>
    let ios := k.whb.filter fun e => e.io && decide (e.interval ≤ interval) && e.phase == .open
    let s1 := s.setYoke y { k with whb := k.whb.filter fun e => !(e.io && decide (e.interval ≤ interval) && e.phase == .open) }
    ios.foldl (fun s e =>
      s.ioStore ⟨f, fieldNat e.addr 31 24, fieldNat e.addr 23 0, popCount e.be 16, e.data.ushiftRight (8 * (e.addr.toNat % 16)),
        e.loc, e.oepoch, e.ring, e.pc⟩) s1

/-- The event an entry was made for leaves the pending state with the entry's checkpoint (R259). -/
def State.eventDone (s : State) (f : FoldId) (v : Option Byte) : State :=
  match v with
  | none => s
  | some v => let fo := s.fold f; s.setFold f { fo with events := fo.events.filter fun e => e.vec != v }

/-- The interval an effect belongs to. -/
def YokeEffect.interval (e : YokeEffect) : Nat :=
  match e with
  | .takeSlot _ _ n => n
  | .freeSlot _ n => n
  | .nowHi _ n => n

/-- An effect on the fold (R266, R277, R278, Table 3.12). -/
def Fold.effect (fo : Fold) (e : YokeEffect) : Fold :=
  match e with
  | .takeSlot n inEntry _ =>
    { fo with
      eslot := setBit fo.eslot n true,
      entryf := if inEntry then satInc fo.entryf else fo.entryf,
      etotal := satInc fo.etotal }
  | .freeSlot n _ => { fo with eslot := setBit fo.eslot n false }
  | .nowHi v _ => { fo with nowHi := v }

/-- The fold as the yoke's own task sees it: what waits for its checkpoints has taken effect. -/
def Yoke.sees (k : Yoke) (fo : Fold) : Fold := k.effects.foldl Fold.effect fo

/-- The effects take place on the fold. -/
def State.takeEffect (s : State) (f : FoldId) (es : List YokeEffect) : State :=
  es.foldl (fun s e => s.setFold f ((s.fold f).effect e)) s

/-- Commit a state as the yoke's checkpoint, release the stores up to `interval` (R69), and let what the task did to its fold up to
there take effect (R78). -/
def State.commit (s : State) (y : YokeId) (ck : Ckpt) (interval : Nat) (event : Option Byte) : State :=
  let s0 := s.handOver y interval
  let k := s0.yoke y
  let s1 := s0.setYoke y { (k.release interval) with
    committed := ck, pend := none, effects := k.effects.filter fun u => decide (interval < u.interval) }
  match s.foldOf y with
  | none => s1
  | some f => (s1.eventDone f event).takeEffect f (k.effects.filter fun u => decide (u.interval ≤ interval))

/-- The trailing core reaches the pending checkpoint point: the checker takes its state (R69). -/
def Yoke.reach (k : Yoke) : Yoke :=
  match k.pend with
  | some p =>
    if p.reached.isNone && !(k.cq.any fun e => decide (e.seq ≤ p.seq)) then { k with pend := some { p with reached := some k.trailC } }
    else k
  | none => k

/-- The leading core stands at a checkpoint point: its state goes to the pending slot (R68), or it waits while one is
pending (R70), while a load, a branch or a float result for the core is outstanding, and while the float unit runs
synchronously (R226, R241). A yoke under debug commits at once (R85). -/
def State.capture (s : State) (y : YokeId) : State :=
  let k := s.yoke y
  if k.pend.isSome || !k.loads.isEmpty || k.branch.isSome || k.floatHolds then s.setYoke y { k with ckptDue := true }
  else if k.unchecked then
    if k.floatActive then s.setYoke y { k with ckptDue := true }
    else
      (s.setYoke y { k with ckptDue := false, retired := 0, ckFc := s.clk.fc, interval := k.interval + 1, entryEvent := none }).commit y
        ⟨k.lead, k.fpu.f, k.fpu.fcsr⟩ k.interval k.entryEvent
  else
    let k1 := { k with
      pend := some ⟨k.seq, k.interval, k.lead, none, k.entryEvent, none⟩,
      ckptDue := false, entryEvent := none, retired := 0, ckFc := s.clk.fc, interval := k.interval + 1 }
    s.setYoke y k1.captureFloat.reach

/-- The parity bits of a 16-byte value, one per 32 bits (R54). -/
def parity32 (v : QWord) : BitVec 4 :=
  BitVec.ofNat 4 ((List.range 4).foldl (fun a i => a + popCount ((v >>> (32 * i)).setWidth 32) 32 % 2 * 2 ^ i) 0)

/-- The kind of value an instruction leaves in the data lane (R55). -/
def CoreIns.lvqKind (i : CoreIns) : LvqKind :=
  match i with
  | .float _ => .float
  | .sysrd _ _ => .sysread
  | .syswr _ _ => .epoch
  | .epochCheck _ _ => .epoch
  | .enter _ => .event
  | _ => .load

/-- A data lane entry as it is written (R54). -/
def lvqEntry (seq : Nat) (kind : LvqKind) (v : QWord) (st : LoadStatus) : LvqEntry := ⟨seq, kind, v, st, parity32 v⟩

/-- A fetch lane entry as it is written (R54). -/
def laneBlock (q : QWord) : LaneBlock := ⟨q, parity32 q⟩

/-- The compare queue entry of the leading core's next active cycle (R49), with the fetch block it asked for. -/
def Yoke.entry (k : Yoke) (i : CoreIns) (out : BusOut) (uses : Nat) (whb : Option Nat) (data : QWord) : CqEntry :=
  let out' := match k.fetchReq with
    | some n => { out with faddr := some (blockOf k.lead.pc + BitVec.ofNat 32 (16 * n)) }
    | none => out
  ⟨k.seq + 1, i, out', k.fetchReq, false, uses, whb, data⟩

/-- Add an instruction the leading core has executed: the compare queue entry, the load-value queue entries, the core. -/
def Yoke.push (k : Yoke) (i : CoreIns) (c : Core) (out : BusOut) (vals : List (QWord × LoadStatus)) (whb : Option Nat)
    (data : QWord) : Yoke :=
  let k1 := { k with
    seq := k.seq + 1, lead := c, retired := k.retired + 1, fetchReq := none, bpSkip := false,
    loads := k.loads.map fun l => { l with live := l.live.filter fun r => !i.writes.contains r } }
  if k.unchecked then k1
  else { k1 with
    cq := k.cq ++ [k.entry i out vals.length whb data], lvq := k.lvq ++ vals.map fun v => lvqEntry (k.seq + 1) i.lvqKind v.1 v.2 }

/-- Add a part of an instruction that leaves the core as it is and is no instruction of its own: it only drives outputs to
be compared, and its lane values. -/
def Yoke.pushPart (k : Yoke) (i : CoreIns) (out : BusOut) (vals : List (QWord × LoadStatus)) : Yoke :=
  { k.push i k.lead out vals none 0 with retired := k.retired }

/-- Add a read that failed: its address is compared, the lane carries its status, and its reports wait for the comparison
(R55, R58). -/
def Yoke.pushFailed (k : Yoke) (i : CoreIns) (out : BusOut) (st : LoadStatus) (reps : List Report) : Yoke :=
  let k1 := k.pushPart i out [(0, st)]
  if k.unchecked then k1 else { k1 with heldReports := k1.heldReports ++ reps.map fun r => (k1.seq, r) }

/-- The yoke as its leading core begins an active cycle: it no longer waits and no longer replays (R91), and an empty compare
queue starts the time of the trailing core's progress anew (R83). -/
def State.going (s : State) (y : YokeId) : Yoke :=
  let k := s.yoke y
  { k with wait := .none, replaying := false, trailFc := if k.cq.isEmpty then s.clk.fc else k.trailFc }

/-- An access of an instruction, for the breakpoints of Table 16.16: a store or not, address, size. -/
structure BpAccess where
  store : Bool
  addr : Word
  size : Nat
deriving DecidableEq, Repr

/-- The memory accesses of an instruction that issues. -/
def CoreIns.accesses (i : CoreIns) (core : Core) : List BpAccess :=
  let c := i.sees core
  match i with
  | .load op _ m => [⟨false, c.ea m, op.size⟩]
  | .store op _ m => [⟨true, c.ea m, op.size⟩]
  | .emit _ sz _ m => [⟨true, c.ea m, emitSize sz⟩]
  | .fld x _ m => [⟨false, c.ea m, if x then 4 else 8⟩]
  | .fst x _ m => [⟨true, c.ea m, if x then 4 else 8⟩]
  | .block op _ d s =>
    if c.ct = 0 then []
    else [⟨false, c.rd s, 16⟩, ⟨op != .cmpm, c.rd d, 16⟩]
  | _ => []

/-- Breakpoint `n` is enabled with a kind that `p` accepts (Table 16.16, BPCTL). -/
def Core.bpArmed (c : Core) (n : Fin 4) (p : Nat → Bool) : Bool :=
  bit c.task.dbg[4] (4 * n.val + 3) && p (fieldNat c.task.dbg[4] (4 * n.val + 2) (4 * n.val + 1))

/-- The breakpoints that match the instruction at PC, as bits 3:0 (R619). -/
def Core.bpExec (c : Core) : Word :=
  (List.finRange 4).foldl (fun w n =>
    if c.bpArmed n (fun kind => kind == 0) && c.task.dbg[n.val]'(by omega) == c.pc then setBit w n.val true else w) 0

/-- The breakpoints that match an access. -/
def Core.bpData (c : Core) (l : List BpAccess) : Word :=
  (List.finRange 4).foldl (fun w n =>
    let a : Word := c.task.dbg[n.val]'(by omega)
    let hit := l.any fun x => c.bpArmed n (fun kind => if x.store then decide (kind ≥ 2) else decide (kind = 1 ∨ kind = 3)) &&
      decide ((a - x.addr).toNat < x.size)
    if hit then setBit w n.val true else w) 0

/-- The bits in which a held entry's data and the trailing core's data, from which its check bits are formed, differ (R65). -/
def WhbEntry.syndrome (e : WhbEntry) : QWord := mergeBytes 0 (e.data ^^^ e.chk) e.be

/-- What the check of a held entry finds: SECDED over each 64 bits of its data (R65, log entry 57). -/
def WhbEntry.ecc (e : WhbEntry) : Ecc :=
  let n (h : Nat) : Nat := popCount ((e.syndrome >>> (64 * h)).setWidth 64) 64
  if n 0 ≥ 2 ∨ n 1 ≥ 2 then .uncorrectable else if n 0 + n 1 > 0 then .dataBit else .clean

/-- A held entry of the intervals up to `interval`, not yet released. -/
def WhbEntry.closes (e : WhbEntry) (interval : Nat) : Bool := decide (e.interval ≤ interval) && e.phase == .open

/-- The first held entry of the interval that SECDED cannot correct (R65). -/
def Yoke.heldBad (k : Yoke) (interval : Nat) : Option WhbEntry :=
  k.whb.find? fun e => e.closes interval && e.ecc == .uncorrectable

/-- The correction of a held entry is reported (R65) with the memory its word lies in as region and the bank as unit (Table 12.1); an
entry for a page or a window lies in no bank, and the report names the yoke's span and unit 0 (DESIGN CHOICE, log entry 57). -/
def State.reportHeld (s : State) (y : YokeId) (e : WhbEntry) : State :=
  match memSite e.phys with
  | some (_, kind, n, bank, _) => s.reportU 0x06 kind n.val bank
  | none => s.reportU 0x06 .span (spanOf y).val 0

/-- Every held entry of the interval is corrected, and each correction is counted (R65). -/
def State.correctHeld (s : State) (y : YokeId) (interval : Nat) : State :=
  let k := s.yoke y
  let fix (e : WhbEntry) : Bool := e.closes interval && e.ecc == .dataBit
  (k.whb.filter fix).foldl (fun s e => s.reportHeld y e)
    (s.setYoke y { k with whb := k.whb.map fun e => if fix e then { e with data := mergeBytes e.data e.chk e.be } else e })

/-- A place in the write-hold buffer for a store: the entry it merges into, if any (R63, R186). -/
def Yoke.mergeSlot (k : Yoke) (phys : Nat) : Option WhbEntry :=
  k.whb.find? fun e => decide (e.phys / 16 = phys / 16) && !e.io && e.phase == .open && decide (e.interval = k.interval)

/-- Whether the buffer can take the store (R63). -/
def Yoke.whbRoom (k : Yoke) (n : Nat) : Bool := decide (k.whb.length + n ≤ 128)

/-- Enter a store into the write-hold buffer (R62, R63, R186): it merges or reserves an entry; the entry's number. A failed check
of an entry into which several stores merged records the PC of the latest, where the spec does not say which (R93; DESIGN CHOICE,
log entry 59). -/
def Yoke.hold (k : Yoke) (addr : Word) (phys : Nat) (be : BitVec 16) (data : QWord) (io loc sysc : Bool) : Yoke × Nat :=
  let un := if k.unchecked then 0 else 1
  match if io then none else k.mergeSlot phys with
  | some e =>
    let e' := { e with
      be := e.be ||| be, data := mergeBytes e.data data be, unconf := e.unconf + un, pc := k.lead.pc,
      chk := if k.unchecked then mergeBytes e.chk data be else e.chk }
    ({ k with whb := k.whb.map fun x => if x.id = e.id then e' else x }, e.id)
  | none =>
    let id := k.whb.foldl (fun m e => max m (e.id + 1)) 0
    let e : WhbEntry := {
      id := id, addr := addr, phys := phys, be := be, data := data, chk := data, unconf := un, interval := k.interval,
      io := io, loc := loc, sysc := sysc, pc := k.lead.pc, oepoch := k.lead.task.oepoch, ring := k.lead.ring, phase := .open }
    ({ k with whb := k.whb ++ [e] }, id)

/-- Entries reserved in the open interval (Table 2.5). -/
def Yoke.openCount (k : Yoke) : Nat := (k.whb.filter fun e => decide (e.interval = k.interval) && e.phase == .open).length

/-- The checkpoint of Table 2.5 after the store that reserves the 96th entry. -/
def State.after96 (s : State) (y : YokeId) : State :=
  if (s.yoke y).openCount ≥ 96 then s.capture y else s

/-- The task of the yoke does not continue, and the fold gets an incident of source 0x13 (R279). While instructions of the
leading core have not been compared the report waits for them, since a replay can still take the fault back (R58, R78). The point at
which the task ends is then a checkpoint point, to which the trailing core drains as R47 and R70 let it (DEDUCED, log entry 60). -/
def State.escalationFails (s : State) (y : YokeId) : State :=
  let k := { s.yoke y with run := .stopped, replaying := false }
  match s.foldOf y with
  | none => s.setYoke y k
  | some f =>
    let unit := ((s.foldSpans f).takeWhile (· ≠ spanOf y)).length
    if k.cq.isEmpty then (s.setYoke y k).reportU 0x13 .fold f.val unit
    else
      let r : Report := ⟨0x13, .fold, f.val, unit, Config.freeWord s.freeN, none, s.clk.time⟩
      let s1 := { s.setYoke y { k with heldReports := k.heldReports ++ [(k.seq, r)] } with freeN := s.freeN + 1 }
      let s2 := s1.capture y
      s2.setYoke y { (s2.yoke y) with wait := .ckpt }

/-- Read on from `a` the bytes that decoding needs after those `got` (R168): the state with the codewords decoded (R344), and the
vector, INFO and SYN of the first byte that cannot be fetched. INFO is the address of its block (log entry 64). -/
def State.fetchCode (s : State) (f : FoldId) (y : YokeId) (ring : BitVec 2) (a : Word) (got : List Byte) (fuel : Nat) :
    State × Option (Byte × Word × Word) :=
  match fuel, dreselDecode got with
  | n + 1, .short =>
    let b := a + BitVec.ofNat 32 got.length
    match (s.check f (spanOf y) ring b 1 Need.exec).bind Target.memPhys with
    | none => (s, some (0x04, blockOf b, accessCode 16 false true false 0))
    | some p =>
      let r := if got.isEmpty || decide (p % 8 = 0) then s.decodeAccess p 1 else (s, .completed)
      match r.2 with
      | .busError e => (r.1, some (0x03, blockOf b, accessCode 16 false true false e))
      | _ => r.1.fetchCode f y ring a (got ++ [memGet r.1.mem p]) n
  | _, _ => (s, none)

/-- The fetch of a handler's first instruction (Table 7.4 step 5): every byte its decoding needs. -/
def State.fetchFails (s : State) (f : FoldId) (y : YokeId) (ring : BitVec 2) (a : Word) : State × Option (Byte × Word × Word) :=
  s.fetchCode f y ring a [] 13

/-- The physical address a frame store at `a` goes to, when ring `r` may write there. -/
def State.framePhys (s : State) (f : FoldId) (y : YokeId) (r : BitVec 2) (a : Word) : Option Nat :=
  match s.check f (spanOf y) r a 16 Need.write with
  | some t => t.memPhys
  | none => none

/-- The four frame stores of an entry, through the buffer (Table 7.4 step 3). -/
def State.frameStores (s : State) (y : YokeId) (e : EntryInfo) (phys : List Nat) : State :=
  (List.finRange 4).foldl (fun s i =>
    let k := s.yoke y
    let a := k.lead.frameAddr e + BitVec.ofNat 32 (16 * i.val)
    let q := frameQuad (k.lead.frame e) i
    let h := k.hold a (phys.getD i.val 0) 0xFFFF q false false false
    let out := storeOut a 16 q .plain
    s.setYoke y ({ h.1.push (.frameStore e i) k.lead out [] (some h.2) 0 with retired := k.retired })) s

/-- The entry's own cycle: an event's acceptance goes to the trailing core through the data lane, with its vector and the
boundary at which it was taken (R55, R59). The handler's first instruction is a checkpoint point (R259). -/
def State.entered (s : State) (y : YokeId) (e : EntryInfo) (event : Option Byte) (phys : List Nat) : State :=
  let s1 := (s.setYoke y (s.going y)).frameStores y e phys
  let k := s1.yoke y
  let told := if e.event then [(e.vec.zeroExtend 128 ||| (k.lead.pc.zeroExtend 128 <<< 32), LoadStatus.completed)] else []
  let s2 := s1.setYoke y { k.push (.enter e) (k.lead.enterHandler e) BusOut.none told none 0 with
    retired := k.retired, entryEvent := event }
  s2.capture y

/-- Physical addresses of the four quads of a frame, when all may be written. -/
def State.frameAddrs (s : State) (f : FoldId) (y : YokeId) (r : BitVec 2) (a : Word) : Option (List Nat) :=
  (List.range 4).foldr (fun i acc =>
    match acc, s.framePhys f y r (a + BitVec.ofNat 32 (16 * i)) with
    | some l, some p => some (p :: l)
    | _, _ => none) (some [])

/-- The first quad of a frame at `a` that ring `r` has no permission `need` for. -/
def State.frameMiss (s : State) (f : FoldId) (y : YokeId) (r : BitVec 2) (need : Need) (a : Word) : Word :=
  let quads := (List.range 4).map fun i => a + BitVec.ofNat 32 (16 * i)
  (quads.find? fun q => ((s.check f (spanOf y) r q 16 need).bind Target.memPhys).isNone).getD a

/-- Another yoke of the fold has taken escalation slot `n` and its checkpoint is not confirmed: the slot is held for it. -/
def State.slotHeld (s : State) (y : YokeId) (n : Nat) : Bool :=
  s.yokes.any fun p => decide (p.1 ≠ y) && decide (s.foldOf p.1 = s.foldOf y) && p.2.effects.any fun e => match e with
    | .takeSlot m _ _ => m == n
    | _ => false

/-- The slot an escalation takes: the lowest-numbered free one (R278). -/
def State.freeEscSlot (s : State) (y : YokeId) (f : FoldId) : Option Nat :=
  let fo := (s.yoke y).sees (s.fold f)
  (List.range (fieldNat fo.esp 4 0 + 1)).find? fun i => !(bit fo.eslot i) && !s.slotHeld y i

/-- Escalation (R276 to R279). ECOUNT counts one whose handler is entered; the spec does not say whether one that fails under R279
counts, and the model does not count it (R277; DESIGN CHOICE, log entry 77). -/
def State.escalate (s : State) (y : YokeId) (f : FoldId) (vec sec : Byte) (inEntry masked : Bool)
    (info syn oinfo osyn : Word) (skip : Nat) (event : Option Byte) (floor : BitVec 2) : State :=
  let fo := s.fold f
  let k := s.yoke y
  if k.lead.esc then s.escalationFails y
  else
    match s.freeEscSlot y f with
    | none => s.escalationFails y
    | some slot =>
      let a := (fo.esp &&& 0xFFFFFE00) + BitVec.ofNat 32 (512 * slot + 384)
      match s.frameAddrs f y 0 a with
      | none => s.escalationFails y
      | some phys =>
      let r := s.fetchFails f y 0 fo.escv
      match r.2 with
      | some _ => r.1.escalationFails y
      | none =>
        let s1 := r.1.setYoke y { k with effects := k.effects ++ [.takeSlot slot inEntry k.interval] }
        let e : EntryInfo := {
          vec := vec, sec := sec, inEntry := inEntry, masked := masked, next := decide (skip ≠ 0), skip := skip,
          handler := fo.escv, tr := 0, em := true, ss := false, k := 0, info := info, syn := syn, oinfo := oinfo,
          osyn := osyn, esc := some a, event := event.isSome, floor := floor, bare := k.lead.shadow.isNone }
        s1.entered y e event phys

/-- How an entry was caused, for descriptor validity (R252). -/
inductive EntryCause
  | sync
  | deferrable
  | trapIns
  | gate
deriving DecidableEq, Repr

/-- The TYPE a cause needs (R252). -/
def EntryCause.type (c : EntryCause) : Nat :=
  match c with
  | .sync => 1
  | .deferrable => 2
  | .trapIns => 1
  | .gate => 3

/-- The descriptor of a vector as the event router or an entry reads it (R250, R256): its two words, or the vector, INFO and SYN of
the failed read. A value that a bank has accepted and not made visible keeps the entry waiting before (R358; `entryHeld`). The read
takes the descriptor's 16 bytes, where the spec says no width: a failed codeword in the ignored bytes 8 to 15 fails the entry too (R251;
DESIGN CHOICE, log entry 65). A table in the bank 0x00 pages is refused, as they are no
memory (R328; log entry 65). -/
def State.readDescriptor (s : State) (f : FoldId) (y : YokeId) (vec : Byte) : State × ((Word × Word) ⊕ (Byte × Word × Word)) :=
  let a := ((s.fold f).dtb &&& 0xFFFFF000) + BitVec.ofNat 32 (16 * vec.toNat)
  match (s.check f (spanOf y) 0 a 16 Need.read).bind Target.memPhys with
  | none => (s, .inr (0x04, a, accessCode 16 false false true 0))
  | some p =>
    let r := s.decodeAccess p 16
    match r.2 with
    | .busError b => (r.1, .inr (0x03, a, accessCode 16 false false true b))
    | _ =>
      let q := r.1.settledRead (r.1.yoke y) p 16
      (r.1, .inl (q.setWidth 32, (q >>> 32).setWidth 32))

/-- The reserved bits of a descriptor's attribute word are zero (Table 7.2). -/
def descReservedOk (attr : Word) : Bool := attr &&& 0xFFF0FCCC == 0

/-- The stack check of R262: the failing vector with INFO and SYN, if any. -/
def stackCheck (c : Core) (tr : BitVec 2) (ss : Bool) (k : Nat) : Option (Byte × Word × Word) :=
  let sp0 := c.spOf tr
  let sp := if ss then blockTop sp0 k else sp0
  if sp.toNat % 16 ≠ 0 then some (0x02, sp, accessCode 16 true false true 0)
  else if sp.toNat < 128 ∨ (sp.toNat - 128) / 2 ^ k ≠ (sp.toNat - 1) / 2 ^ k then some (0x09, sp, 0)
  else none

/-- Block size exponent of a ring (R262, Table 7.10). -/
def Fold.stackK (fo : Fold) (r : BitVec 2) : Nat := fieldNat fo.sksz (8 * r.toNat + 4) (8 * r.toNat)

/-- The checks of steps 2 and 3 of an entry, with its descriptor read, in the order of Table 7.4 and R264. The answer is the entry
with the physical addresses of its frame, or the first failing check's vector, INFO and SYN. -/
def State.frameOfDescriptor (s : State) (f : FoldId) (y : YokeId) (vec : Byte) (cause : EntryCause) (info syn : Word)
    (skip : Nat) (handler attr : Word) : (EntryInfo × List Nat) ⊕ (Byte × Word × Word) :=
  let c := (s.yoke y).lead
  let tr := BitVec.ofNat 2 (fieldNat attr 5 4)
  let ss := bit attr 9
  let k := (s.fold f).stackK tr
  let isCall := cause == .trapIns || cause == .gate
  if fieldNat attr 1 0 ≠ cause.type ∨ !descReservedOk attr then .inr (0x06, vec.zeroExtend 32, 0x01)
  else if isCall && !bit attr (16 + c.ring.toNat) then .inr (0x06, vec.zeroExtend 32, 0x02)
  else if tr.toNat > c.ring.toNat then .inr (0x06, vec.zeroExtend 32, 0x03)
  else
    match stackCheck c tr ss k with
    | some e => .inr e
    | none =>
      let e : EntryInfo := {
        vec := vec, sec := 0, inEntry := false, masked := false, next := isCall, skip := skip, handler := handler,
        tr := tr, em := bit attr 8, ss := ss, k := k, info := info, syn := syn, oinfo := 0, osyn := 0, esc := none,
        event := cause == .deferrable, floor := tr, bare := c.shadow.isNone }
      match s.frameAddrs f y tr (c.frameAddr e) with
      | none => .inr (0x04, s.frameMiss f y tr Need.write (c.frameAddr e), accessCode 16 true false true 0)
      | some phys => .inl (e, phys)

/-- Steps 1 to 3 of an entry: the state after the descriptor read, and the outcome of the checks. -/
def State.planFrame (s : State) (f : FoldId) (y : YokeId) (vec : Byte) (cause : EntryCause) (info syn : Word)
    (skip : Nat) : State × ((EntryInfo × List Nat) ⊕ (Byte × Word × Word)) :=
  let r := s.readDescriptor f y vec
  (r.1, match r.2 with
    | .inr e => .inr e
    | .inl (handler, attr) => r.1.frameOfDescriptor f y vec cause info syn skip handler attr)

/-- The checks of a whole entry: those of its frame, and the first fetch of step 5. -/
def State.planEntry (s : State) (f : FoldId) (y : YokeId) (vec : Byte) (cause : EntryCause) (info syn : Word)
    (skip : Nat) : State × ((EntryInfo × List Nat) ⊕ (Byte × Word × Word)) :=
  let r := s.planFrame f y vec cause info syn skip
  match r.2 with
  | .inr e => (r.1, .inr e)
  | .inl (e, phys) =>
    let q := r.1.fetchFails f y e.tr e.handler
    (q.1, match q.2 with
      | some x => .inr x
      | none => .inl (e, phys))

/-- The leading core can take an entry now: nothing outstanding before it, in the core or the float unit (R226, R241, R254);
room for its four stores, the entry itself and up to three reads that failed, with their data lane entries. -/
def Yoke.trapReady (k : Yoke) : Bool :=
  k.loads.isEmpty && k.branch.isNone && !k.ckptDue && !k.floatHolds &&
    (k.unchecked || (decide (k.slip + 8 ≤ 96) && decide (k.lvq.length + 3 ≤ 64))) && k.whbRoom 4

/-- The descriptor of a vector holds a value that another yoke's bank has accepted and not made visible: its read waits (R358). -/
def State.descHeld (s : State) (y : YokeId) (vec : Byte) : Bool :=
  match s.foldOf y with
  | none => false
  | some f =>
    let a := ((s.fold f).dtb &&& 0xFFFFF000) + BitVec.ofNat 32 (16 * vec.toNat)
    match (s.check f (spanOf y) 0 a 16 Need.read).bind Target.memPhys with
    | some p => s.heldElsewhere y p
    | none => false

/-- An entry for the vector waits for its descriptor. An escalation reads none (R277). -/
def State.entryHeld (s : State) (y : YokeId) (vec : Byte) : Bool := !(s.yoke y).lead.m && s.descHeld y vec

/-- The leading core can take an entry through this vector's descriptor now. -/
def State.takes (s : State) (y : YokeId) (vec : Byte) : Bool := (s.yoke y).trapReady && !s.entryHeld y vec

/-- Take a synchronous vector (R253, R257, R276). -/
def State.raise (s : State) (y : YokeId) (vec : Byte) (info syn : Word) : State :=
  match s.foldOf y with
  | none => s
  | some f =>
    let c := (s.yoke y).lead
    if c.esc then s.escalationFails y
    else if c.m then s.escalate y f vec 0 false true info syn 0 0 0 none 0
    else
      let r := s.planEntry f y vec .sync info syn 0
      match r.2 with
      | .inl (e, phys) => r.1.entered y e none phys
      | .inr (v, i, sy) => r.1.escalate y f vec v true false i sy info syn 0 none 0

/-- A synchronous fault of the instruction at PC: it is taken once the core can take it, and waits before. -/
def State.trap (s : State) (y : YokeId) (vec : Byte) (info syn : Word) : State :=
  let k := s.yoke y
  if s.takes y vec then s.raise y vec info syn else s.setYoke y { k with wait := .pipeline }

/-- A synchronous fault of the instruction `i` at PC; a repeat takes it in no load shadow (R158). -/
def State.trapOf (s : State) (y : YokeId) (i : CoreIns) (vec : Byte) (info syn : Word) : State :=
  let k := s.yoke y
  if s.takes y vec then (s.setYoke y { k with lead := i.sees k.lead }).raise y vec info syn
  else s.setYoke y { k with wait := .pipeline }

/-- GATE n and TRAP n (R263 to R265). A failure of the checks of R264 is a fault of the instruction; a failure of the first
fetch, which R264 does not name, is a fault during the entry and escalates (R276). -/
def State.call (s : State) (y : YokeId) (cause : EntryCause) (n : Byte) : State :=
  match s.foldOf y with
  | none => s
  | some f =>
    let k := s.yoke y
    if n.toNat < 0x20 then s.trap y 0x00 0 0
    else if !k.trapReady || s.descHeld y n then s.setYoke y { k with wait := .pipeline }
    else if k.lead.esc then s.escalationFails y
    else
      let r := s.planFrame f y n cause 0 0 2
      match r.2 with
      | .inr (v, i, sy) => if s.entryHeld y v then s.setYoke y { k with wait := .pipeline } else r.1.raise y v i sy
      | .inl (e, phys) =>
        let q := r.1.fetchFails f y e.tr e.handler
        match q.2 with
        | some (v, i, sy) => q.1.escalate y f n v true k.lead.m i sy 0 0 2 none 0
        | none => q.1.entered y e none phys

/-- The ring number that an event's descriptor asks for (R257, R272): none, which is 0, when it cannot be read or is not valid. -/
def State.eventRing (s : State) (f : FoldId) (y : YokeId) (vec : Byte) : BitVec 2 :=
  match (s.readDescriptor f y vec).2 with
  | .inr _ => 0
  | .inl (_, attr) => if fieldNat attr 1 0 ≠ 2 ∨ descReservedOk attr = false then 0 else BitVec.ofNat 2 (fieldNat attr 5 4)

/-- An event may be offered to the yoke's task (R272); while the descriptor's read waits (R358) the core stands at the boundary. -/
def State.offered (s : State) (f : FoldId) (y : YokeId) (vec : Byte) : Bool :=
  s.entryHeld y vec || decide ((s.eventRing f y vec).toNat ≤ (s.yoke y).lead.ring.toNat)

/-- The lowest pending event the yoke's task may accept (R272, R274). -/
def State.nextEvent (s : State) (f : FoldId) (y : YokeId) : Option PendEvent :=
  (s.fold f).events.foldl (fun best e =>
    if e.reserved.isSome || !s.offered f y e.vec then best
    else
      match best with
      | none => some e
      | some b => if e.vec.toNat < b.vec.toNat then some e else best) none

/-- The yoke's task admits events at this boundary (R171, R272, R275): it runs or is suspended in WAIT. -/
def Yoke.admits (k : Yoke) : Bool :=
  (k.run == .task || (match k.run with
    | .waiting _ => true
    | _ => false)) &&
  !k.lead.m && !k.lead.esc && !k.lead.rep && k.collapse.isNone && k.debug != .halted && k.lead.task.abort != .due

/-- The yoke can accept an event now (R217, R259): everything before the boundary has completed. -/
def Yoke.mayAccept (k : Yoke) : Bool := k.admits && k.trapReady

/-- An event that the yoke's task accepts at this boundary is pending (R203, R272): the leading core issues nothing until everything
before the boundary has completed and it has been accepted (R275). -/
def State.eventWaits (s : State) (y : YokeId) : Bool :=
  (s.yoke y).admits && (match s.foldOf y with
    | some f => (s.nextEvent f y).isSome
    | none => false)

/-- A yoke under debug, or about to be, commits its pending slot once the float part is captured: from the leading core's
state alone (R85), with the held entries checked (R65). -/
def State.commitUnchecked (s : State) (y : YokeId) : State :=
  match (s.yoke y).pend with
  | some p =>
    match p.fl, (s.yoke y).heldBad p.interval with
    | some fl, none => (s.correctHeld y p.interval).commit y ⟨p.core, fl.1, fl.2⟩ p.interval p.event
    | _, _ => s
  | none => s

/-- What is outstanding at the leading core is dropped, back to the oldest load that has not returned, or else to the branch
not yet resolved. -/
def Yoke.squashAll (k : Yoke) : Yoke :=
  let seq := match k.loads, k.branch with
    | l :: _, some b => min l.seq b.seq
    | l :: _, none => l.seq
    | [], some b => b.seq
    | [], none => k.seq + 1
  let lead := match k.loads, k.branch with
    | l :: _, some b => if l.seq < b.seq then l.before else b.resume
    | l :: _, none => l.before
    | [], some b => b.resume
    | [], none => k.lead
  { k with
    lead := lead, loads := [], branch := none, ckptDue := false, fetchReq := none, fetchBuf := [],
    fpu := { k.fpu with
      queue := k.fpu.queue.filter (fun e => decide (e.seq < seq)), busy := k.fpu.busy.filter fun e => decide (e.seq < seq) } }

/-- An error detected on a yoke under debug aborts its task with vector 0x0C, reason 0x08 (R85, R285). Held stores that a
check has failed do not become visible; the entry waits for nothing. The task is aborted once the handler returns, which the frame's
address tells. -/
def State.debugError (s : State) (y : YokeId) : State :=
  let k := s.yoke y
  if k.run ≠ .task then s
  else
    let s1 := (s.setYoke y { k.squashAll with
      collapse := none, wait := .none, pend := none, fpu := { k.squashAll.fpu with queue := [], busy := [] },
      whb := k.whb.filter fun e => e.ecc != .uncorrectable }).raise y 0x0C 0 0x08
    let c := (s1.yoke y).lead
    s1.setYoke y { (s1.yoke y) with lead := { c with task := { c.task with abort := .frame (c.spOf c.ring) } } }

/-- Halt a yoke under debug (R85, R619): the trailing core goes into reset, what it had not compared is dropped, the check bits of
stores it had not matched are formed from the leading core's data, and checkpoints follow the leading core alone. `hits` is BPHIT;
zero leaves it. -/
def State.debugHalt (s : State) (y : YokeId) (hits : Word) : State :=
  let k0 := s.yoke y
  let s0 := s.setYoke y { k0 with
    whb := k0.whb.map fun e => if e.unconf = 0 then e else { e with unconf := 0, chk := e.data } }
  let s1 := s0.commitUnchecked y
  let k := s1.yoke y
  let task := if hits = 0 then k.lead.task else { k.lead.task with dbg := k.lead.task.dbg.set 5 hits }
  let s2 := s1.setYoke y { k with
    debug := .halted, bpSkip := false, cq := [], lvq := [], fetchLane := [], fetchReq := none, heldReports := [], spec := none,
    replaying := false, lead := { k.lead with st := setBit k.lead.st 10 true, task := task } }
  let s3 := match s2.foldOf y with
    | none => s2
    | some f => s2.setFold f { (s2.fold f) with unchecked := true }
  if (s3.yoke y).heldBad k.interval |>.isSome then s3.debugError y else s3

/-- After an instruction: a single step halts again, and a matching data breakpoint halts (R618, R619). -/
def State.afterIns (s : State) (y : YokeId) (seq : Nat) (hits : Word) : State :=
  let k := s.yoke y
  if k.seq = seq then s
  else if k.debug = .stepping ∨ (s.debugger = true ∧ hits ≠ 0) then s.debugHalt y hits
  else s

/-- Run `act` when the leading core of `y` can issue `i` now; otherwise it waits, or the yoke executes nothing, as in a span that
wakes (R560) or for a task whose abort is due (R285). An event the task can accept is accepted at the boundary before the
instruction (R203, R272). An execute breakpoint halts before the instruction (R619). -/
def State.lead (s : State) (y : YokeId) (i : CoreIns) (room : Nat) (act : State → State) : State :=
  let k := s.yoke y
  if k.run ≠ .task ∨ k.collapse.isSome ∨ k.debug = .halted ∨ (s.span (spanOf y)).power ≠ .run ∨ k.lead.task.abort = .due then s
  else if s.debugger = true ∧ k.bpSkip = false ∧ k.lead.bpExec ≠ 0 ∧ k.branch.isNone = true then s.debugHalt y k.lead.bpExec
  else
    let s1 := if k.ckptDue then s.capture y else s
    let k1 := s1.yoke y
    if k1.ckptDue then s1.setYoke y { k1 with wait := .ckpt }
    else if s1.ckTriggered k1 || k1.stalls i room || s1.eventWaits y then s1.setYoke y { k1 with wait := .pipeline }
    else (act (s1.setYoke y (s1.going y))).afterIns y k1.seq (k1.lead.bpData (i.accesses k1.lead))

/-- Issue an instruction that touches nothing outside the core. -/
def State.issue (s : State) (y : YokeId) (i : CoreIns) : State :=
  s.lead y i 1 fun s =>
    let k := s.yoke y
    let r := i.run k.lead ⟨[], 0⟩
    s.setYoke y (k.push i r.1 r.2 [] none 0)

/-- Set an event pending (R272 to R274): waits on it are ended elsewhere; a set bit merges, vector 0x10 ORs SYN bit 0. -/
def State.pendEvent (s : State) (f : FoldId) (vec : Byte) (info syn : Word) : State :=
  let fo := s.fold f
  if fo.events.any fun e => e.vec == vec then
    if vec = 0x10 then
      s.setFold f { fo with events := fo.events.map fun e => if e.vec = vec then { e with syn := e.syn ||| (syn &&& 1) } else e }
    else s
  else s.setFold f { fo with events := fo.events ++ [⟨vec, info, syn, none⟩] }

/-- The WAIT bit of a vector (Table 5.11): bits 0 to 9 are vectors 0x10 to 0x19. -/
def waitBit (vec : Byte) : Option Nat :=
  if 0x10 ≤ vec.toNat ∧ vec.toNat ≤ 0x19 then some (vec.toNat - 0x10) else none

/-- The yokes of a fold, by fold-relative span and yoke index (R272). -/
def State.foldYokes (s : State) (f : FoldId) : List YokeId :=
  (s.foldSpans f).flatMap fun sp => (List.finRange 16).map fun i => yokeAt sp i

/-- The span or group that a memory test's unit names, as written to BIST.MSTART (Table 15.15). -/
def testNode (unit : Word) : Bool × SpanId := (bit unit 31, Fin.ofNat 64 (fieldNat unit 13 8))

/-- The fold that owns the memory a unit of memory BIST names. -/
def State.testFold (s : State) (unit : Word) : Option FoldId :=
  if (testNode unit).1 then s.groupFold (testNode unit).2 else s.spanFold (testNode unit).2

/-- BIST.LAST. -/
def rBistLast : Nat := 0x0B0010

/-- The bank a memory test takes offline is in retention or unowned (R362). -/
def State.testAllowed (s : State) (unit : Word) : Bool :=
  let n := testNode unit
  let ret := bit (s.reg (rMemstat n.2) memstatReset) (if n.1 then 29 else 28)
  match s.testFold unit with
  | none => true
  | some _ => ret

/-- The running memory tests of a fold's banks that `p` names are abandoned; the contents are restored (R583). -/
def State.abandonWhere (s : State) (f : FoldId) (p : MemTest → Bool) : State :=
  let mine (t : MemTest) : Bool := t.since.isSome && decide (s.testFold t.unit = some f) && p t
  let s1 := { s with bist := { s.bist with mem := s.bist.mem.filter fun t => !mine t } }
  match (s.bist.mem.filter mine).getLast? with
  | some t => s1.setReg rBistLast ((t.unit &&& 0x3FFF) ||| 0x60000000)
  | none => s1

/-- The memory tests of a fold's banks are abandoned (R583). -/
def State.abandonFoldTests (s : State) (f : FoldId) : State := s.abandonWhere f fun _ => true

/-- The memory tests of those banks of a fold that are not in retention are abandoned (R362). -/
def State.abandonOnline (s : State) (f : FoldId) : State := s.abandonWhere f fun t => !s.testAllowed t.unit

/-- A wake of a fold's span abandons the memory tests of its banks (R583). -/
def State.abandonTests (s : State) (sp : SpanId) : State :=
  match s.spanFold sp with
  | none => s
  | some f => s.abandonFoldTests f

/-- Wake a span in or entering Doze or Nap (R296, R562, R583, R31). -/
def State.wakeSpan (s : State) (sp : SpanId) : State :=
  let k := s.span sp
  match k.power with
  | .rest nap => (s.setSpan sp { k with power := .waking nap s.clk.fc }).abandonTests sp
  | .entering _ _ => s.setSpan sp { k with power := .run, quietFc := s.clk.fc, runFc := s.clk.fc }
  | _ => s

/-- End a WAIT: both cores receive the value; the state after WAIT is the committed checkpoint (R71, R208). -/
def State.endWait (s : State) (y : YokeId) (w : WaitInfo) (v : Word) : State :=
  let k := s.yoke y
  let c := (k.lead.wr w.d v).step 2
  let s1 := (s.setYoke y { k with
    run := .task, lead := c, trailC := c.inv, committed := ⟨c, k.fpu.f, k.fpu.fcsr⟩, retired := 0, ckFc := s.clk.fc }).wakeSpan (spanOf y)
  if k.debug = .stepping then s1.debugHalt y 0 else s1

/-- The timeout of a yoke's WAIT has expired in an earlier fc: an event now is late (R208, R396). -/
def State.waitLate (s : State) (y : YokeId) : Bool :=
  match (s.yoke y).run with
  | .waiting w => decide (fieldNat w.set 31 20 ≠ 0) && s.clk.fcPast (w.begin + fieldNat w.set 31 20 * 1000)
  | _ => false

/-- An edge event of the fold occurs (R208, R273, R274): it ends every wait that includes it and has not expired, and is then
consumed; otherwise it becomes pending when `raised`, or is discarded. -/
def State.edge (s : State) (f : FoldId) (vec : Byte) (info syn : Word) (always : Bool) : State :=
  let waiting (y : YokeId) : Option WaitInfo :=
    match (s.yoke y).run, waitBit vec with
    | .waiting w, some b => if bit w.set b && !s.waitLate y then some w else none
    | _, _ => none
  let ws := (s.foldYokes f).filter fun y => (waiting y).isSome
  if ws.isEmpty then
    let en := match waitBit vec with
      | some b => decide (b ≤ 8) && bit (s.fold f).ien b
      | none => true
    if en || always || decide (vec = 0x19) then s.pendEvent f vec info syn else s
  else
    ws.foldl (fun s y =>
      match (s.yoke y).run, waitBit vec with
      | .waiting w, some b => s.endWait y w (BitVec.ofNat 32 b)
      | _, _ => s) s

end Sys2Proof.Machine
end

