-- ==== Sys2Proof/Machine/Sched.lean ====
section
/-! DEFINITION. The span scheduler: overflow queue, save slots, task start and resumption, join counters, ends of tasks
(chapter 8), and the span's wake. -/

namespace Sys2Proof.Machine

/-- A save slot free in a range (R309). -/
def Span.freeSlot (k : Span) (lo n : Nat) : Option Nat :=
  ((List.range n).map (lo + ·)).find? fun i => !(k.slots.any fun e => e.1 == i)

/-- Push an entry onto the overflow queue, up to a limit of entries; the waking push of R296. -/
def State.pushOverflow (s : State) (sp : SpanId) (limit : Nat) (e : OvfEntry) : State × Bool :=
  let k := s.span sp
  if k.overflow.length < limit then
    ((s.setSpan sp { k with overflow := k.overflow ++ [e], quietFc := s.clk.fc }).wakeSpan sp, true)
  else (s, false)

/-- A resume or move push that waits when every entry but the root's is in use (R295). -/
def State.pushOrWait (s : State) (sp : SpanId) (e : OvfEntry) : State :=
  let r := s.pushOverflow sp 1535 e
  if r.2 then r.1
  else let k := s.span sp; s.setSpan sp { k with waitPush := k.waitPush ++ [e] }

/-- ATTR.PRIO. -/
def attrPrio (a : Word) : BitVec 2 := BitVec.ofNat 2 (fieldNat a 9 8)
/-- ATTR.PORT. -/
def attrPort (a : Word) : Bool := bit a 7

/-- The overflow entry of a fresh descriptor. -/
def freshEntry (d : TaskDesc) : OvfEntry := ⟨false, attrPrio d.attr, attrPort d.attr, .fresh d⟩

/-- A resume descriptor of a save slot in the resume class (R295, R307). -/
def resumeEntry (slot : Nat) : OvfEntry := ⟨true, 0, false, .resume slot⟩

/-- The core of a fresh task (R291). -/
def freshCore (d : TaskDesc) : Core where
  g := (((Vector.replicate 16 (0 : Word)).set 1 d.g1).set 2 d.g2 |>.set 3 d.g3).set 4 d.g4
  pc := d.entry
  st := setField (0 : Word) 6 5 (fieldNat d.attr 6 5)
  bk := 0x80
  ct := 0
  sp := d.sp
  shadow := none
  rep := false
  task := {
    ident := d.ident, tattr := d.attr &&& 0xF00003E0, tjoin := d.joinref, tparent := d.parent, tspn := 0, tlist := [],
    oepoch := d.oepoch, ordCount := 0, ordSeen := 0, dbg := Vector.replicate 16 0, abort := .none }

/-- Load a state into a yoke with every queue empty: a task start (R72, R174) or a resumption (R309). A yoke that left
debug stays in it only until a task boundary (R87). -/
def Yoke.load (k : Yoke) (ck0 : Ckpt) (fc : Nat) : Yoke :=
  let ck := { ck0 with core := { ck0.core with st := setBit ck0.core.st 10 false } }
  { k with
    run := .task, replaying := false, lead := ck.core, trailC := ck.core.inv, spec := none, fpu := ⟨ck.f, ck.fcsr, [], []⟩,
    cq := [], lvq := [], fetchLane := [], fetchBuf := [], fetchReq := none, loads := [], branch := none, wait := .none,
    committed := ck, pend := none, ckptDue := false, entryEvent := none, retired := 0, ckFc := fc, trailFc := fc,
    debug := .off, collapse := none, effects := [], heldReports := [], interval := k.interval + 1 }

/-- The span writes a schedule-following record as Lead (R318). SFM is bits 9:8 of SPAN.SCHCTL. -/
def State.sfm (s : State) (sp : SpanId) : Nat := fieldNat (s.reg (rSchctl sp) 1) 9 8

/-- Records the 16 KiB log buffer holds. -/
def logLimit : Nat := 1024

/-- Append a log record in a Lead span, in the order of the decisions (R318). A SPAWN's record is appended to a full log as well:
R318 delays task starts and ordered atomics alone (the model's choice, log entry 79). -/
def State.logRec (s : State) (sp : SpanId) (r : LogRec) : State :=
  if s.sfm sp = 1 then
    let k := s.span sp
    { s.setSpan sp { k with log := k.log ++ [(s.stamp, r)] } with stamp := s.stamp + 1 }
  else s

/-- The fold-relative index of a span (R22). -/
def State.relSpan (s : State) (sp : SpanId) : Nat :=
  match s.spanFold sp with
  | none => 0
  | some f => ((s.foldSpans f).takeWhile (· ≠ sp)).length

/-- A yoke takes a fresh task (R291, R301). -/
def State.startTask (s : State) (y : YokeId) (d : TaskDesc) : State :=
  let s1 := s.logRec (spanOf y) (.start (s.relSpan (spanOf y)) d.ident)
  s1.setYoke y ((s1.yoke y).load ⟨freshCore d, Vector.replicate 16 0, 0⟩ s.clk.fc)

/-- A yoke takes a resume descriptor: the state is restored and the slot is freed (R309). -/
def State.resumeTask (s : State) (y : YokeId) (sp : SpanId) (slot : Nat) : State :=
  let k := s.span sp
  match (k.slots.find? fun e => e.1 == slot) with
  | none => s
  | some (_, t) =>
    let s1 := s.setSpan sp { k with slots := kdel k.slots slot }
    let s2 := s1.logRec (spanOf y) (.start (s.relSpan (spanOf y)) t.ck.core.task.ident)
    s2.setYoke y ((s2.yoke y).load t.ck s.clk.fc)

/-- Start what an overflow entry holds. -/
def State.startEntry (s : State) (y : YokeId) (sp : SpanId) (e : OvfEntry) : State :=
  match e.body with
  | .fresh d => s.startTask y d
  | .resume slot => s.resumeTask y sp slot

/-- Replace a parked task's slot content and queue its resume descriptor (R307, R311). -/
def State.unpark (s : State) (r : ParkRef) (f : SavedTask → SavedTask) : State :=
  let k := s.span r.span
  match (k.slots.find? fun e => e.1 == r.slot) with
  | none => s
  | some (_, t) =>
    let t' := { f t with why := .resume }
    (s.setSpan r.span { k with slots := kset k.slots r.slot t' }).pushOrWait r.span (resumeEntry r.slot)

/-- The decrement of a join counter at its bank (R305, R307): the word's new value, and the resumption of the parked
task when COUNT reaches 0. -/
def State.joinDecrement (s : State) (f : FoldId) (phys : Nat) (abort : Bool) : State :=
  let w := BitVec.ofNat 32 (leValue (memRead s.mem phys 4))
  let n := fieldNat w 30 0
  let n' := n - 1
  let w' : Word := setField (if abort then setBit w 31 true else w) 30 0 n'
  let s1 := (s.bankWrite phys ((List.range 4).map fun i => (i, BitVec.ofNat 8 (w'.toNat >>> (8 * i))))).1
  if n' = 0 ∧ n ≠ 0 then
    let fo := s1.fold f
    match fo.joins.find? fun j => j.phys == phys with
    | none => s1
    | some j => (s1.setFold f { fo with joins := fo.joins.filter fun x => x.phys != phys }).unpark j.ref id
  else s1

/-- The yoke ends with its task: it holds no task, its queues are empty and its float operations are abandoned (R77, R80).
That holds too where the task is saved and not ended; a task suspended under debug so leaves debug (log entry 58). A halted yoke
stays halted without a task until DEBUG_RESUME, where the spec does not say whether the discard ends debug (R87; DESIGN CHOICE,
log entry 58). -/
def Yoke.toIdle (k : Yoke) (fc : Nat) : Yoke :=
  { k with
    run := .idle, replaying := false, fpu := { k.fpu with queue := [], busy := [] }
    cq := [], lvq := [], fetchLane := [], fetchBuf := [], fetchReq := none, loads := [], branch := none
    wait := .none, pend := none, ckptDue := false, entryEvent := none, collapse := none, spec := none, retired := 0
    idleFc := fc, ckFc := fc, effects := [], heldReports := [], debug := if k.debug = .halted then .halted else .off }

/-- The identifier of an overflow entry's task; that of a resume descriptor stands in its save slot. -/
def OvfEntry.ident (e : OvfEntry) : List Word :=
  match e.body with
  | .fresh d => [d.ident]
  | .resume _ => []

/-- The identifiers of the fold's live tasks: on its yokes, in deques, overflow entries and save slots (R290). -/
def State.liveIdents (s : State) (f : FoldId) : List Word :=
  (s.foldYokes f).flatMap (fun y => let k := s.yoke y
    (if k.run = .idle then [] else [k.lead.task.ident]) ++ k.deque.map (·.ident)) ++
  (s.foldSpans f).flatMap fun sp => let k := s.span sp
    k.slots.map (·.2.ck.core.task.ident) ++ (k.overflow ++ k.waitPush).flatMap OvfEntry.ident

/-- The serial after a given one; 0 is never assigned (R290). -/
def nextSerial (n : BitVec 28) : BitVec 28 := if n = BitVec.allOnes 28 then 1 else n + 1

/-- Skip serials of live tasks, at most `fuel` of them. -/
def pickSerial (live : List Word) (f : FoldId) (n : BitVec 28) (fuel : Nat) : BitVec 28 :=
  match fuel with
  | 0 => n
  | k + 1 => if live.contains (BitVec.ofNat 4 f.val ++ n) then pickSerial live f (nextSerial n) k else n

/-- Create a task identifier (R213, R290): the identifier and the state with the counter advanced. No more serials are skipped than
the fold has live tasks. -/
def State.newIdent (s : State) (f : FoldId) : State × Word :=
  let live := s.liveIdents f
  let n := pickSerial live f (s.fold f).serial live.length
  let fo := s.fold f
  (s.setFold f { fo with serial := nextSerial n }, BitVec.ofNat 4 f.val ++ n)

/-- The yoke is out of the stealing rotation for logic BIST (R581). -/
def Yoke.inTest (k : Yoke) : Bool :=
  match k.bist with
  | .testing _ => true
  | _ => false

/-- A working yoke: neither stalled nor held for BIST. -/
def Yoke.working (k : Yoke) : Bool := !k.stalled && !k.inTest

/-- A start of logic BIST that waits lapses with its yoke, which a stalled yoke never begins (R580, R581). -/
def Yoke.dropStart (k : Yoke) : Yoke :=
  { k with bist := match k.bist with
      | .requested _ => .none
      | b => b }

/-- Source 0x03 when a span has lost its last working yoke (Table 12.2). -/
def State.spanLost (s : State) (sp : SpanId) : State :=
  if (List.finRange 16).all fun i => (s.yoke (yokeAt sp i)).stalled then s.reportU 0x03 .span sp.val 0 else s

/-- Step 4 of R80: the deque moves to the overflow queue, oldest first; what finds no entry stays (R295). -/
def State.moveDeque (s : State) (y : YokeId) : State :=
  (s.yoke y).deque.foldl (fun s d =>
    let k := s.yoke y
    let r := s.pushOverflow (spanOf y) 1535 (freshEntry d)
    if r.2 then r.1.setYoke y { k with deque := k.deque.drop 1 } else s) s

/-- The events reserved to the yoke are offered again (R259). -/
def State.offerAgain (s : State) (y : YokeId) : State :=
  match s.foldOf y with
  | none => s
  | some f =>
    let fo := s.fold f
    s.setFold f { fo with
      events := fo.events.map (fun e => if e.reserved = some y then { e with reserved := none } else e) }

/-- Retirement (R80): stop, save the committed state to the retirement pool, queue its resume descriptor, move the
deque, stall the yoke. Of the free slots of the pool it takes 272 + the yoke's index (the model's choice, log entry 75). -/
def State.retire (s : State) (y : YokeId) : State :=
  let k := s.yoke y
  let sp := spanOf y
  let keep := k.whb.filter fun e => e.phase != .open
  let s1 :=
    match k.run with
    | .idle => s
    | _ =>
      let slot := 272 + y.val % 16
      let kp := s.span sp
      (s.setSpan sp { kp with slots := kset kp.slots slot ⟨k.committed, .resume⟩ }).pushOrWait sp (resumeEntry slot)
  let s2 := s1.setYoke y { (k.toIdle s.clk.fc).dropStart with stalled := true, whb := keep, debug := .off }
  ((s2.offerAgain y).moveDeque y).spanLost sp

/-- Replay (R77): both cores restart from the committed checkpoint; nothing of the open interval remains. -/
def State.replay (s : State) (y : YokeId) : State :=
  let k := s.yoke y
  let ck := k.committed
  let s1 := s.setYoke y { k with
    run := if k.run = .stopped then .task else k.run,
    lead := ck.core, trailC := ck.core.inv, spec := none, fpu := ⟨ck.f, ck.fcsr, [], []⟩, cq := [], lvq := [],
    fetchLane := [], fetchBuf := [], fetchReq := none, loads := [], branch := none, wait := .none,
    whb := k.whb.filter (fun e => e.phase != .open), pend := none, ckptDue := false, entryEvent := none,
    retired := 0, ckFc := s.clk.fc, trailFc := s.clk.fc, collapse := none, replaying := true, effects := [],
    heldReports := [] }
  s1.offerAgain y

/-- Device time in ns. -/
def State.now (s : State) : Nat := s.clk.time

/-- The SPAN.YKSYN word of a mismatch (Table 2.14). -/
def synWord (hard : Bool) (side : BitVec 2) (kind : BitVec 4) (ndiff first : Byte) (slip : Nat) : Word :=
  BitVec.ofNat 32 (2 ^ 31 + hard.toNat * 2 ^ 30 + side.toNat * 2 ^ 28 + kind.toNat * 2 ^ 24 + ndiff.toNat * 2 ^ 16
    + first.toNat * 2 ^ 8 + satNat 255 slip)

/-- The decision of R75 on a mismatch of yoke `y`. `pc` is the instruction whose comparison failed; `shadowErr` a
checkpoint shadow parity error met by the restore. -/
def State.mismatch (s : State) (y : YokeId) (kind : BitVec 4) (first ndiff : Byte) (side : BitVec 2) (pc : Word)
    (shadowErr : Bool) : State :=
  let k := s.yoke y
  let injected := decide (kind = 0xE)
  let hard := !injected && (decide (kind = 0xC) || decide (kind = 0xD) || shadowErr ||
    (match k.prev with
      | some p => decide (p.kind = kind ∧ p.first = first ∧ p.ndiff = ndiff)
      | none => false))
  let within := match k.prev with
    | some p => decide (s.now - p.time ≤ 1000000)
    | none => false
  let syn := synWord hard side kind ndiff first k.slip
  let s1 := ((s.setReg (rYksyn y) syn).setReg (rYkaddr y) pc).setReg (rYktime y) (BitVec.ofNat 32 s.now)
  if injected then
    (s1.replay y).reportU 0x2D .span (spanOf y).val (y.val % 16)
  else
    let s2 := s1.setYoke y { (s1.yoke y) with prev := some ⟨kind, first, ndiff, s.now⟩, mcount := satInc k.mcount }
    if hard || within then (s2.retire y).reportU 0x02 .span (spanOf y).val (y.val % 16)
    else (s2.replay y).reportU 0x01 .span (spanOf y).val (y.val % 16)

end Sys2Proof.Machine
end

