-- ==== Sys2Proof/Machine/SysRegs.lean ====
section
/-! DEFINITION. The system register space (R143, R144, Table 5.9): which numbers exist, which rings reach them, and the
registers that lie outside the core. -/

namespace Sys2Proof.Machine

/-- What an access to a system register number meets (R144). -/
inductive SysPerm
  | reserved
  | denied
  | ok
deriving DecidableEq, Repr

/-- Permission of a SYSRD (`w = false`) or SYSWR from a ring (Tables 4.4, 3.12, 7.7, 8.10, 8.14, 9.8, 12.14, 16.16). -/
def sysPerm (num : BitVec 12) (ring : BitVec 2) (w : Bool) : SysPerm :=
  let n := num.toNat
  let r := ring.toNat
  let rings (m : Nat) : SysPerm := if r ≤ m then .ok else .denied
  let ro (m : Nat) : SysPerm := if w then .denied else rings m
  if n ≤ 0x003 then .ok
  else if n ≤ 0x007 then rings 0
  else if n ≤ 0x00F then .reserved
  else if n ≤ 0x013 then rings 0
  else if n = 0x014 then rings 1
  else if n = 0x015 then ro 1
  else if n ≤ 0x017 then ro 0
  else if n ≤ 0x01F then .reserved
  else if n ≤ 0x024 then ro 3
  else if n ≤ 0x027 then .reserved
  else if n ≤ 0x02F then ro 3
  else if n ≤ 0x032 then rings 0
  else if n = 0x033 then ro 1
  else if n ≤ 0x035 then ro 3
  else if n ≤ 0x03F then .reserved
  else if n = 0x040 then (if w then rings 2 else .ok)
  else if n ≤ 0x044 then ro 3
  else if n ≤ 0x04F then .reserved
  else if n ≤ 0x051 then ro 3
  else if n ≤ 0x055 then ro 0
  else if n ≤ 0x06F then .reserved
  else if n ≤ 0x074 then rings 0
  else if n = 0x075 then ro 0
  else if n ≤ 0x07F then .reserved
  else if n ≤ 0x081 then ro 1
  else if n ≤ 0x08F then .reserved
  else if n = 0x090 then (if w then rings 2 else .denied)
  else if n = 0x091 then (if w then rings 0 else rings 2)
  else if n = 0x092 then (if w then rings 0 else .denied)
  else if n = 0x093 then ro 2
  else .reserved

/-- The register lies outside the yoke and its SYSWR acts outside the yoke (Table 5.9). -/
def sysOutside (num : BitVec 12) : Bool :=
  let n := num.toNat
  (decide (0x010 ≤ n) && decide (n ≤ 0x01F)) || (decide (0x030 ≤ n) && decide (n ≤ 0x03F)) ||
    (decide (0x050 ≤ n) && decide (n ≤ 0x06F)) || (decide (0x080 ≤ n) && decide (n ≤ 0x09F))


/-- The fold watchdog's remaining µs (R449, R450). -/
def State.wdRem (s : State) (f : FoldId) : Nat :=
  let fo := s.fold f
  if fo.wdRun && !fo.wdPaused then fo.wdVal - (s.now / 1000 - fo.wdFrom) else fo.wdVal

/-- Reload PERIOD and clear WRN (R452). -/
def State.wdReload (s : State) (f : FoldId) : State :=
  let fo := s.fold f
  s.setFold f { fo with wdVal := fieldNat (s.reg (rFwdcfg f) 0) 29 15, wdFrom := s.now / 1000, wdWrn := false }

/-- The watchdog stops and reports source 0x14 (R451, R452). A wrong service value counts as an expiry of a stopped
watchdog too (log entry 28). -/
def State.wdExpire (s : State) (f : FoldId) : State :=
  let fo := s.fold f
  ((s.setFold f { fo with wdRun := false, wdVal := 0 }).record (foldRecord s.now 7 f 1) false).reportU 0x14 .fold f.val 0

/-- A task channel of a fold. -/
def Fold.chan (fo : Fold) (c : Nat) : Channel := kget fo.chans Channel.reset c
/-- The selected channel's number (Table 8.10). -/
def Fold.sel (fo : Fold) : Nat := fieldNat fo.chsel 5 0
/-- Bits for the open channels of a half (Table 8.10). -/
def Fold.chOpen (fo : Fold) (base : Nat) : Word :=
  BitVec.ofNat 32 ((List.range 32).foldl (fun a i => a + (fo.chan (base + i)).isOpen.toNat * 2 ^ i) 0)

/-- GWIPELO and GWIPEHI (Table 9.8). -/
def State.gwipe (s : State) (f : FoldId) (base : Nat) : Word :=
  BitVec.ofNat 32 ((List.range 32).foldl (fun a i =>
    match (s.foldGroups f)[base + i]? with
    | some g => a + (bit (s.reg (rMemstat g) memstatReset) 31).toNat * 2 ^ i
    | none => a) 0)

/-- PEND (Table 7.12). -/
def Fold.pendWord (fo : Fold) : Word :=
  BitVec.ofNat 32 ((List.range 15).foldl (fun a i =>
    a + (fo.events.any fun e => e.vec.toNat == 11 + i).toNat * 2 ^ (11 + i)) 0)

/-- A SYSRD of a register outside the core (Table 5.9), as the yoke's own task sees its fold. -/
def State.sysReadOutside (s : State) (y : YokeId) (f : FoldId) (num : BitVec 12) : Word :=
  let k := s.yoke y
  let fo := k.sees (s.fold f)
  let ch := fo.chan fo.sel
  match num.toNat with
  | 0x003 => k.fpu.fcsr
  | 0x010 => fo.dtb
  | 0x011 => fo.escv
  | 0x012 => fo.esp
  | 0x013 => fo.sksz
  | 0x014 => fo.ien
  | 0x015 => fo.pendWord
  | 0x016 => fo.eslot
  | 0x017 => fo.entryf ++ fo.etotal
  | 0x030 => fo.chsel
  | 0x031 => ch.base
  | 0x032 => setBit (ch.dpow.zeroExtend 32) 31 ch.isOpen
  | 0x033 => setBit (setBit (BitVec.ofNat 32 ch.count) 31 ch.pput.isSome) 30 ch.pget.isSome
  | 0x034 => fo.chOpen 0
  | 0x035 => fo.chOpen 32
  | 0x041 => s.reg (rFcfg f) 0x00030000 &&& 0x000F03FF
  | 0x042 => BitVec.ofNat 32 (k.lead.task.oepoch.toNat * s.epochNs f)
  | 0x043 => BitVec.ofNat 32 s.now
  | 0x044 => fo.nowHi
  | 0x050 => BitVec.ofNat 32 (f.val * 2 ^ 28 + (s.foldGroups f).length * 2 ^ 16 + (s.foldSpans f).length)
  | 0x051 => BitVec.ofNat 32 (s.relSpan (spanOf y))
  | 0x052 => fo.winchg
  | 0x053 => fo.memCorr ++ fo.memUncor
  | 0x054 => s.gwipe f 0
  | 0x055 => s.gwipe f 32
  | 0x080 => fo.fninc
  | 0x081 => fo.fncnt
  | 0x091 => s.reg (rFwdcfg f) 0
  | 0x093 =>
    BitVec.ofNat 32 (fo.wdRun.toNat * 2 ^ 31 + fo.wdPaused.toNat * 2 ^ 30 + fo.wdWrn.toNat * 2 ^ 29 + s.wdRem f)
  | _ => 0

/-- A channel's buffer lies wholly in scratchpad or fold memory banks of the fold and is aligned to its size (R312). -/
def State.chanBufferOk (s : State) (f : FoldId) (y : YokeId) (base : Word) (dpow : Nat) : Bool :=
  let bytes := 4 * 2 ^ dpow
  decide (base.toNat % bytes = 0) &&
    ((s.translate f (spanOf y) base).memPhys).isSome &&
    ((s.translate f (spanOf y) (base + BitVec.ofNat 32 (bytes - 1))).memPhys).isSome

/-- The physical address of a fold address that a task names. -/
def State.physOf (s : State) (y : YokeId) (a : Word) : Option Nat :=
  match s.foldOf y with
  | none => none
  | some f => (s.translate f (spanOf y) a).memPhys

/-- The fold address of channel entry `i` (R310). -/
def Channel.slotAddr (ch : Channel) (i : Nat) : Word :=
  ch.base + BitVec.ofNat 32 (4 * (i % 2 ^ ch.dpow.toNat))

/-- The bytes of a value, indexed, for a bank write. -/
def indexed (v : Nat) (n : Nat) : List (Nat × Byte) := (List.range n).map fun i => (i, BitVec.ofNat 8 (v >>> (8 * i)))

/-- Write one channel entry at the tail. -/
def State.chanWrite (s : State) (y : YokeId) (f : FoldId) (n : Nat) (v : Word) : State :=
  let fo := s.fold f
  let ch := fo.chan n
  let s1 := match s.physOf y (ch.slotAddr (ch.head + ch.count)) with
    | some p => (s.bankWrite p (indexed v.toNat 4)).1
    | none => s
  s1.setFold f { (s1.fold f) with chans := kset fo.chans n { ch with count := ch.count + 1 } }

/-- The parked CHPUT of a channel with a free entry completes (R311): its data goes to the tail and its task resumes. -/
def State.completeChput (s : State) (y : YokeId) (f : FoldId) (n : Nat) (r : ParkRef) : State :=
  let data : Word := match ((s.span r.span).slots.find? fun e => e.1 == r.slot) with
    | some (_, ⟨_, .chput _ v⟩) => v
    | _ => 0
  let s1 := s.chanWrite y f n data
  let fo := s1.fold f
  (s1.setFold f { fo with chans := kset fo.chans n { (fo.chan n) with pput := none } }).unpark r id

/-- A SYSWR to a register outside the yoke, after comparison (R280 to R284, R312, R452, R453): the new state, or the
vector raised with INFO and SYN. -/
def State.sysWriteOutside (s : State) (y : YokeId) (f : FoldId) (num : BitVec 12) (v : Word) :
    State ⊕ (Byte × Word × Word) :=
  let fo := s.fold f
  let ch := fo.chan fo.sel
  match num.toNat with
  | 0x010 => .inl (s.setFold f { fo with dtb := v &&& 0xFFFFF000 })
  | 0x011 => .inl (s.setFold f { fo with escv := v })
  | 0x012 => if fo.eslot ≠ 0 then .inr (0x05, 0, 0) else .inl (s.setFold f { fo with esp := v &&& 0xFFFFFE1F })
  | 0x013 =>
    if [0, 1, 2, 3].all fun r => decide (8 ≤ fieldNat v (8 * r + 4) (8 * r)) && decide (fieldNat v (8 * r + 4) (8 * r) ≤ 20) then
      .inl (s.setFold f { fo with sksz := v &&& 0x1F1F1F1F })
    else .inr (0x05, 0, 0)
  | 0x014 => .inl (s.setFold f { fo with ien := v &&& 0x1FF })
  | 0x030 => .inl (s.setFold f { fo with chsel := v &&& 0x3F })
  | 0x031 =>
    if ch.isOpen then .inr (0x05, 0, 0)
    else .inl (s.setFold f { fo with chans := kset fo.chans fo.sel { ch with base := v } })
  | 0x032 =>
    let dp := fieldNat v 3 0
    let op := bit v 31
    if dp < 2 ∨ 12 < dp then .inr (0x05, 0, 0)
    else if ch.isOpen && decide (dp ≠ ch.dpow.toNat) then .inr (0x05, 0, 0)
    else if !op && (ch.pput.isSome || ch.pget.isSome) then .inr (0x05, 0, 0)
    else if op && !s.chanBufferOk f y ch.base dp then .inr (0x04, ch.base, accessCode 4 true false false 0)
    else
      let ch' := { ch with
        isOpen := op, dpow := BitVec.ofNat 4 dp, count := if op then 0 else ch.count, head := if op then 0 else ch.head }
      let t := s.setFold f { fo with chans := kset fo.chans fo.sel ch' }
      .inl (match op, ch.pput with
        | true, some r => t.completeChput y f fo.sel r
        | _, _ => t)
  | 0x090 => if v = 0x6C3A95D1 then .inl (s.wdReload f) else .inl (s.wdExpire f)
  | 0x091 => .inl (if bit v 30 then s.setReg (rFwdcfg f) (setBit (s.reg (rFwdcfg f) 0) 30 true) else s)
  | 0x092 =>
    let cfg := s.reg (rFwdcfg f) 0
    if bit cfg 30 then .inl s
    else if fo.wdKeyed && decide (v = 0x0000E530) then
      .inl ((s.setFold f { fo with wdKeyed := false, wdRun := false, wdVal := s.wdRem f }).setReg (rFwdcfg f) (setBit cfg 31 false))
    else .inl (s.setFold f { fo with wdKeyed := decide (v = 0x00001ACF) })
  | _ => .inl s

end Sys2Proof.Machine
end

