-- ==== Sys2Proof/Machine/Collapse.lean ====
section
/-! DEFINITION. Slip-collapsing instructions (R60, R71, Table 2.3): arrival of the leading core, and the effect performed
once after comparison: atomics, tethers, aliased stores, window loads, task and channel instructions, WAIT, FENCE, SYSWR
outside the yoke, SAMPLE. Also how an idle yoke takes a task (R297 to R299). -/

namespace Sys2Proof.Machine

/-- Instructions with a checkpoint immediately before and after them (Table 2.3). -/
def CollapseOp.bounded (o : CollapseOp) : Bool :=
  match o with
  | .sample _ _ _ => false
  | .fence _ => false
  | .fenced _ => false
  | _ => true

/-- Instructions at which a checkpoint is taken: they wait while one is pending (R70). FENCE takes its own, after it
(Table 2.5). -/
def CollapseOp.checkpoints (o : CollapseOp) : Bool :=
  match o with
  | .sample _ _ _ => false
  | _ => true

/-- The memory access of a slip-collapsing instruction, for breakpoints. -/
def CollapseOp.accesses (o : CollapseOp) : List BpAccess :=
  let rw (a : Word) (n : Nat) : List BpAccess := [⟨false, a, n⟩, ⟨true, a, n⟩]
  match o with
  | .xchg w _ _ a _ _ => rw a (if w then 8 else 4)
  | .cas w _ _ a _ _ _ => rw a (if w then 8 else 4)
  | .fadd w _ _ a _ _ => rw a (if w then 8 else 4)
  | .tlock _ a _ => rw a 4
  | .tunlock a _ => rw a 4
  | .aliasStore _ n a _ _ => [⟨true, a, n⟩]
  | .ioLoad _ a n _ => [⟨false, a, n⟩]
  | _ => []

/-- The result enters both cores; a checkpoint-bounded instruction commits the state after it (R60, R71). -/
def State.finish (s : State) (y : YokeId) (c : Core) (bounded : Bool) : State :=
  let k := s.yoke y
  let hits := match k.collapse with
    | some o => k.lead.bpData o.op.accesses
    | none => 0
  let k1 := { k with lead := c, trailC := c.inv, collapse := none, wait := .none, trailFc := s.clk.fc }
  let s1 := s.setYoke y (if bounded then
    { k1 with committed := ⟨c, k.fpu.f, k.fpu.fcsr⟩, retired := 0, ckFc := s.clk.fc, interval := k.interval + 1 }
  else { k1 with retired := k.retired + 1 })
  if k.debug = .stepping ∨ (s.debugger = true ∧ hits ≠ 0) then s1.debugHalt y hits
  else s1.setYoke y { (s1.yoke y) with bpSkip := false }

/-- The instruction raises a vector instead of its effect. -/
def State.collapseFault (s : State) (y : YokeId) (vec : Byte) (info syn : Word) : State :=
  (s.setYoke y { (s.yoke y) with collapse := none, wait := .none }).raise y vec info syn

/-- Save the yoke's task, its instruction completed, in a save slot, and free the yoke (R306). -/
def State.park (s : State) (y : YokeId) (slot : Nat) (c : Core) (why : ParkKind) : State :=
  let k := s.yoke y
  let sp := spanOf y
  let ks := s.span sp
  (s.setSpan sp { ks with slots := kset ks.slots slot ⟨⟨c, k.fpu.f, k.fpu.fcsr⟩, why⟩ }).setYoke y (k.toIdle s.clk.fc)

/-- A read-modify-write at the bank (R188): the old value, or the BKIND of the failure. `f` gives the new value, or
none when nothing is written. -/
def State.rmw (s : State) (phys size : Nat) (f : Nat → Option Nat) : State × (Nat ⊕ BitVec 3) :=
  let r := s.decodeAccess phys size
  match r.2 with
  | .busError b => (r.1, .inr b)
  | _ =>
    let w := leValue (memRead r.1.mem phys size)
    match f w with
    | none => (r.1, .inl w)
    | some v =>
      let q := r.1.bankWrite phys (indexed v size)
      if q.2 then (q.1, .inl w) else (q.1, .inr 4)

/-- The records of a fold's Follow spans still to be reproduced, with their span and number of arrival. -/
def State.followed (s : State) (f : FoldId) : List (SpanId × Nat × LogRec) :=
  (s.foldSpans f).flatMap fun sp => (s.span sp).follow.map fun r => (sp, r)

/-- The earlier in arrival of a record and one found before it. -/
def earlierRec (best : Option (SpanId × Nat × LogRec)) (r : SpanId × Nat × LogRec) : Option (SpanId × Nat × LogRec) :=
  match best with
  | some b => if b.2.1 < r.2.1 then best else some r
  | none => some r

/-- The first ATOM record of a word still to be reproduced on the fold's Follow spans (R319, R653). The spans' records are ordered
by their arrival (log entry 61). -/
def State.followAtom (s : State) (y : YokeId) (phys : Nat) : Option (SpanId × Nat × LogRec) :=
  match s.foldOf y with
  | none => none
  | some f =>
    ((s.followed f).filter fun r => match r.2.2 with
      | .atom a _ _ => (s.translate f r.1 a).memPhys == some phys
      | _ => false).foldl earlierRec none

/-- The yoke's ordered action was performed before a replay or a retirement undid its instruction. -/
def Core.orderedBefore (c : Core) : Bool := decide (c.task.ordSeen = c.task.ordCount + 1)

/-- An ordered action may be performed now (R189, R318, R319): always outside schedule-following mode; in a Lead span
while the log has room; in a Follow span when the word's first record names this task. One performed before is not delayed. -/
def State.orderedMay (s : State) (y : YokeId) (phys : Nat) : Bool :=
  let c := (s.yoke y).lead
  c.orderedBefore || match s.sfm (spanOf y) with
  | 1 => decide ((s.span (spanOf y)).log.length < logLimit)
  | 2 => match s.followAtom y phys with
    | some (_, _, .atom _ id n) => decide (id = c.task.ident ∧ n = c.task.ordCount)
    | _ => false
  | _ => true

/-- Take a record off a Follow span's list. -/
def State.followDrop (s : State) (sp : SpanId) (n : Nat) : State :=
  let k := s.span sp
  s.setSpan sp { k with follow := kdel k.follow n }

/-- Record an ordered action, or take its record off the Follow list (R318, R319). -/
def State.orderedRec (s : State) (y : YokeId) (addr : Word) (phys : Nat) : State :=
  let sp := spanOf y
  let c := (s.yoke y).lead
  if c.orderedBefore then s
  else match s.sfm sp with
    | 1 => s.logRec sp (.atom addr c.task.ident c.task.ordCount)
    | 2 => match s.followAtom y phys with
      | some (q, n, _) => s.followDrop q n
      | none => s
    | _ => s

/-- The task's count of ordered actions advances. -/
def Core.countOrdered (c : Core) : Core :=
  { c with task := { c.task with ordCount := c.task.ordCount + 1, ordSeen := c.task.ordCount + 1 } }

/-- An ordered action has been performed at the bank, whatever it answered (R319): its record, its count in both cores, and the mark
that a replay leaves. -/
def State.orderedDone (s : State) (y : YokeId) (addr : Word) (phys : Nat) : State :=
  let s1 := s.orderedRec y addr phys
  let k := s1.yoke y
  let c := k.lead.countOrdered
  let ck := k.committed
  s1.setYoke y { k with
    lead := c, trailC := k.trail.countOrdered.inv,
    committed := { ck with core := { ck.core with task := { ck.core.task with ordSeen := c.task.ordSeen } } } }

/-- An atomic's register result (Table 5.4). -/
def Core.atomResult (c : Core) (wide : Bool) (d : Gpr) (w : Nat) : Core :=
  if wide then c.wrPair d (BitVec.ofNat 64 w) else c.wr d (BitVec.ofNat 32 w)

/-- XCHG, CAS and FADD at the bank (Table 5.4). `fin` sets the flags from the old value. -/
def State.performAtomic (s : State) (y : YokeId) (wide ord : Bool) (d : Gpr) (addr : Word) (phys len : Nat)
    (f : Nat → Option Nat) (fin : Core → Nat → Core) : State :=
  let size := if wide then 8 else 4
  if ord && !s.orderedMay y phys then s
  else
    let r := s.rmw phys size f
    let s1 := if ord then r.1.orderedDone y addr phys else r.1
    match r.2 with
    | .inr b => s1.collapseFault y 0x03 addr (accessCode size true false false b)
    | .inl w => s1.finish y ((fin ((s1.yoke y).lead.atomResult wide d w) w).step len) true

/-- TLOCK (R191). -/
def State.performTlock (s : State) (y : YokeId) (d : Gpr) (addr : Word) (phys len : Nat) : State :=
  if !s.orderedMay y phys then s
  else
    let r := s.decodeAccess phys 4
    let s1 := r.1.orderedDone y addr phys
    match r.2 with
    | .busError b => s1.collapseFault y 0x03 addr (accessCode 4 true false false b)
    | _ =>
      let w : Word := BitVec.ofNat 32 (leValue (memRead s1.mem phys 4))
      let c := (s1.yoke y).lead
      let own := fieldNat c.task.ident 27 0
      if bit w 31 && decide (fieldNat w 27 0 = own) then s1.collapseFault y 0x0C 0 0x01
      else if bit w 31 then s1.finish y (((c.wr d w).setFlags ⟨some false, none, some false, none⟩).step len) true
      else if c.task.tlist.length ≥ 8 then s1.collapseFault y 0x0C 0 0x02
      else
        let q := s1.bankWrite phys (indexed (2 ^ 31 + own) 4)
        if !q.2 then q.1.collapseFault y 0x03 addr (accessCode 4 true false false 4)
        else
          let c1 := (c.wr d w).setFlags ⟨some true, none, some (bit w 30), none⟩
          q.1.finish y (({ c1 with task := { c1.task with tlist := c1.task.tlist ++ [addr] } }).step len) true

/-- TUNLOCK (R192). -/
def State.performTunlock (s : State) (y : YokeId) (addr : Word) (phys len : Nat) : State :=
  if !s.orderedMay y phys then s
  else
    let r := s.decodeAccess phys 4
    let s1 := r.1.orderedDone y addr phys
    match r.2 with
    | .busError b => s1.collapseFault y 0x03 addr (accessCode 4 true false false b)
    | _ =>
      let w : Word := BitVec.ofNat 32 (leValue (memRead s1.mem phys 4))
      let c := (s1.yoke y).lead
      if bit w 31 && decide (fieldNat w 27 0 = fieldNat c.task.ident 27 0) then
        let q := s1.bankWrite phys (indexed 0 4)
        if !q.2 then q.1.collapseFault y 0x03 addr (accessCode 4 true false false 4)
        else
          let tl := c.task.tlist.filter fun a => q.1.physOf y a != some phys
          q.1.finish y (({ c with task := { c.task with tlist := tl } }).step len) true
      else s1.collapseFault y 0x0C 0 0x03

/-- A bit-set or bit-clear aliased store (R352, R353). -/
def State.performAlias (s : State) (y : YokeId) (clear : Bool) (size : Nat) (addr : Word) (phys : Nat) (v : QWord)
    (len : Nat) : State :=
  let f (w : Nat) : Option Nat :=
    let a : QWord := BitVec.ofNat 128 w
    some (if clear then a &&& ~~~v else a ||| v).toNat
  let r := s.rmw phys size f
  match r.2 with
  | .inr b => r.1.collapseFault y 0x03 addr (accessCode size true false false b)
  | .inl _ => r.1.finish y ((r.1.yoke y).lead.step len) true

/-- A load from banks 0xF0 to 0xFF reads the window itself (R187). -/
def State.performIoLoad (s : State) (y : YokeId) (f : FoldId) (dest : LoadDest) (addr : Word) (size len : Nat) : State :=
  let r := s.ioLoad f (fieldNat addr 31 24) (fieldNat addr 23 0) size
  match r.2.2 with
  | .busError b => r.1.collapseFault y 0x03 addr (accessCode size false false false b)
  | .accessViolation => r.1.collapseFault y 0x04 addr (accessCode size false false false 0)
  | _ =>
    let k := r.1.yoke y
    match dest with
    | .gpr op d =>
      let c := k.lead.loadOn op d r.2.1
      r.1.finish y { c with pc := k.lead.pc + BitVec.ofNat 32 len } true
    | .freg x d =>
      let old := k.fpu.f[d]
      let v : DWord := if x then (old &&& 0xFFFFFFFF00000000) ||| (r.2.1.setWidth 64 &&& 0xFFFFFFFF) else r.2.1.setWidth 64
      (r.1.setYoke y { k with fpu := { k.fpu with f := k.fpu.f.set d v } }).finish y (k.lead.step len) true

/-- Push a descriptor onto a yoke's deque; a full deque sends its oldest entry to the overflow queue (R294). None when
that would need an overflow entry beyond the ordinary limit (R295). -/
def State.pushDeque (s : State) (y : YokeId) (d : TaskDesc) : Option State :=
  let k := s.yoke y
  match k.deque with
  | o :: t =>
    if k.deque.length ≥ 64 then
      let r := s.pushOverflow (spanOf y) 1024 (freshEntry o)
      if r.2 then some (r.1.setYoke y { (r.1.yoke y) with deque := t ++ [d] }) else none
    else some (s.setYoke y { k with deque := k.deque ++ [d] })
  | [] => some (s.setYoke y { k with deque := [d] })

/-- Word `i` of a descriptor's 64 bytes. -/
def descWord (bs : List Byte) (i : Nat) : Word := BitVec.ofNat 32 (leValue ((bs.drop (4 * i)).take 4))

/-- The task descriptor a SPAWN makes from the 64 bytes it read (Table 8.1, R289): the parent's order epoch and identity, and
zero for the stack pointers of rings below the parent's. -/
def Core.spawnDesc (c : Core) (bs : List Byte) (id : Word) : TaskDesc :=
  let spw (i : Nat) : Word := if i < c.ring.toNat then 0 else descWord bs (8 + i)
  { entry := descWord bs 0, g1 := descWord bs 1, g2 := descWord bs 2, g3 := descWord bs 3, g4 := descWord bs 4,
    joinref := descWord bs 5, oepoch := c.task.oepoch, attr := descWord bs 7, sp := #v[spw 0, spw 1, spw 2, spw 3],
    ident := id, parent := c.task.ident }

/-- The identity of a spawned task: a new one, or in a Follow span the one the partner's log names (R319), the fold's counter
advancing all the same (R290); none while that record has not come. -/
def State.childIdent (s : State) (y : YokeId) (f : FoldId) : Option (State × Word) :=
  let c := (s.yoke y).lead
  match s.sfm (spanOf y) with
  | 2 =>
    let ks := s.span (spanOf y)
    match ks.follow.find? fun x => match x.2 with
        | .serial p n _ => p == c.task.ident && n == c.task.tspn
        | _ => false with
    | some (n, .serial _ _ ch) => some ((s.newIdent f).1.followDrop (spanOf y) n, ch)
    | _ => none
  | _ => some (s.newIdent f)

/-- SPAWN after its alignment check (R288 to R290). A full log of a Lead span does not delay it: R318 names task starts and ordered
atomics alone (the model's choice, log entry 79). -/
def State.performSpawn (s : State) (y : YokeId) (f : FoldId) (addr : Word) (len : Nat) : State :=
  let c := (s.yoke y).lead
  let chk := (List.range 4).map fun i => s.check f (spanOf y) c.ring (addr + BitVec.ofNat 32 (16 * i)) 16 Need.read
  match chk.headD none, chk.all fun t => (t.bind Target.memPhys).isSome with
  | some (.mem p), true =>
    let r := s.decodeAccess p 64
    match r.2 with
    | .busError b => r.1.collapseFault y 0x03 addr (accessCode 64 false false false b)
    | _ =>
      let bs := memRead r.1.mem p 64
      let attr := descWord bs 7
      let jr := descWord bs 5
      let ring := c.ring.toNat
      let jbad := decide (jr ≠ 0) && (decide (jr.toNat % 4 ≠ 0) || ((s.translate f (spanOf y) jr).memPhys).isNone)
      if fieldNat attr 31 28 ≠ f.val ∨ fieldNat attr 6 5 < ring then r.1.collapseFault y 0x0C 0 0x05
      else if attr &&& 0x0FFFFC1F ≠ 0 ∨ descWord bs 15 ≠ 0 then r.1.collapseFault y 0x0C 0 0x10
      else if jbad then r.1.collapseFault y 0x0C 0 0x11
      else
        match r.1.childIdent y f with
        | none => s
        | some (s1, id) =>
          match s1.pushDeque y (c.spawnDesc bs id) with
          | none => r.1.collapseFault y 0x0C 0 0x14
          | some s2 =>
            let s3 := s2.logRec (spanOf y) (.serial c.task.ident c.task.tspn id)
            s3.finish y (({ c with task := { c.task with tspn := c.task.tspn + 1 } }).step len) true
  | _, _ => s.collapseFault y 0x04 addr (accessCode 64 false false false 0)

/-- JOIN at the counter (R306). -/
def State.performJoin (s : State) (y : YokeId) (f : FoldId) (addr : Word) (phys len : Nat) : State :=
  let r := s.decodeAccess phys 4
  match r.2 with
  | .busError b => r.1.collapseFault y 0x03 addr (accessCode 4 false false false b)
  | _ =>
    let w : Word := BitVec.ofNat 32 (leValue (memRead r.1.mem phys 4))
    let c := (r.1.yoke y).lead.step len
    if fieldNat w 30 0 = 0 then r.1.finish y c true
    else
      let fo := r.1.fold f
      if fo.joins.any fun j => j.phys == phys then r.1.collapseFault y 0x0C 0 0x13
      else
        match (r.1.span (spanOf y)).freeSlot 0 272, decide (fo.joins.length < 512) with
        | some slot, true =>
          (r.1.park y slot c (.join phys)).setFold f { fo with joins := fo.joins ++ [⟨phys, ⟨spanOf y, slot⟩⟩] }
        | _, _ => r.1.collapseFault y 0x0C 0 0x15

/-- The overflow entry an idle yoke takes: resume class oldest first, then the highest priority, the oldest first
(R295). -/
def bestOverflow (l : List OvfEntry) (p : OvfEntry → Bool) : Option OvfEntry :=
  match l.find? fun e => e.resumeClass && p e with
  | some e => some e
  | none =>
    [3, 2, 1, 0].findSome? fun pr => l.find? fun e => !e.resumeClass && decide (e.prio.toNat = pr) && p e

/-- The sibling deque a thief chooses (R298): most entries, ties to the lowest index. -/
def State.stealVictim (s : State) (y : YokeId) : Option YokeId :=
  (List.finRange 16).foldl (fun best i =>
    let v := yokeAt (spanOf y) i
    let k := s.yoke v
    let deeper : Bool := match best with
      | none => true
      | some b => decide (k.deque.length > (s.yoke b).deque.length)
    if decide (v ≠ y) && k.working && !k.deque.isEmpty && deeper then some v else best) none

/-- Owner pop of the newest entry (R293, R297). -/
def State.ownerPop (s : State) (y : YokeId) : Option State :=
  let k := s.yoke y
  match k.deque.getLast? with
  | some d => some ((s.setYoke y { k with deque := k.deque.dropLast }).startTask y d)
  | none => none

/-- Take from the span's overflow queue (R295, R297). -/
def State.takeOverflow (s : State) (y : YokeId) : Option State :=
  let ks := s.span (spanOf y)
  match bestOverflow ks.overflow (fun _ => true) with
  | some e => some ((s.setSpan (spanOf y) { ks with overflow := ks.overflow.erase e }).startEntry y (spanOf y) e)
  | none => none

/-- Steal the oldest entry of the chosen sibling (R298); SPAN.STEALCNT.LOCAL counts it. -/
def State.stealLocal (s : State) (y : YokeId) : Option State :=
  match s.stealVictim y with
  | none => none
  | some v =>
    match (s.yoke v).deque with
    | [] => none
    | d :: t =>
      let s1 := s.setYoke v { (s.yoke v) with deque := t }
      let ks := s1.span (spanOf y)
      some ((s1.setSpan (spanOf y) { ks with stealLocal := satInc ks.stealLocal }).startTask y d)

/-- The first source of R297 other than a cross-span steal that yields a task. -/
def State.takeLocal (s : State) (y : YokeId) : Option State :=
  match s.ownerPop y with
  | some t => some t
  | none =>
    match s.takeOverflow y with
    | some t => some t
    | none => s.stealLocal y

/-- Take the task of an identifier from a deque or overflow queue of the fold (R319). -/
def State.takeNamed (s : State) (f : FoldId) (y : YokeId) (id : Word) : Option State :=
  match (s.foldYokes f).find? fun v => (s.yoke v).deque.any fun d => d.ident == id with
  | some v =>
    match (s.yoke v).deque.find? fun d => d.ident == id with
    | some d => some ((s.setYoke v { (s.yoke v) with deque := (s.yoke v).deque.erase d }).startTask y d)
    | none => none
  | none =>
    let idOf (sp : SpanId) (e : OvfEntry) : Option Word := match e.body with
      | .fresh d => some d.ident
      | .resume n => ((s.span sp).slots.find? fun x => x.1 == n).map fun x => x.2.ck.core.task.ident
    match (s.foldSpans f).find? fun sp => (s.span sp).overflow.any fun e => idOf sp e == some id with
    | none => none
    | some sp =>
      let ks := s.span sp
      match ks.overflow.find? fun e => idOf sp e == some id with
      | some e => some ((s.setSpan sp { ks with overflow := ks.overflow.erase e, quietFc := s.clk.fc }).startEntry y sp e)
      | none => none

/-- Take the task that the Follow span's next START record names, once it is present (R319). -/
def State.followTake (s : State) (y : YokeId) : Option State :=
  let sp := spanOf y
  let ks := s.span sp
  match s.foldOf y, ks.follow.find? fun r => match r.2 with
      | .start n _ => n == s.relSpan sp
      | _ => false with
  | some f, some (n, .start _ id) => (s.followDrop sp n).takeNamed f y id
  | _, _ => none

/-- A task start is not delayed by schedule following: off, or a Lead span whose log has room (R318). -/
def State.mayStart (s : State) (sp : SpanId) : Bool :=
  match s.sfm sp with
  | 0 => true
  | 1 => decide ((s.span sp).log.length < logLimit)
  | _ => false

/-- What R297 gives a yoke of the span now, other than by a cross-span steal; in a Follow span the task of its next START
record (R318, R319). -/
def State.takeNow (s : State) (y : YokeId) : Option State :=
  if s.sfm (spanOf y) = 2 then s.followTake y else if s.mayStart (spanOf y) then s.takeLocal y else none

/-- YIELD (R308): the task continues unless another task, a save slot and an overflow entry are there. -/
def State.performYield (s : State) (y : YokeId) (len : Nat) : State :=
  let k := s.yoke y
  let c := k.lead.step len
  let ks := s.span (spanOf y)
  match ks.freeSlot 0 272, (s.takeNow y).isSome && decide (ks.overflow.length < 1024) with
  | some slot, true =>
    let tattr := k.lead.task.tattr
    let e : OvfEntry := ⟨false, attrPrio tattr, false, .resume slot⟩
    match (s.park y slot c .resume).takeNow y with
    | some t => (t.pushOverflow (spanOf y) 1024 e).1
    | none => s.finish y c true
  | _, _ => s.finish y c true

/-- A deferred write error of a yoke store (vector 0x0E, Table 7.3): INFO the PC, SYN bit 22. -/
def State.deferYokeError (s : State) (f : FoldId) (pc : Word) : State := s.pendEvent f 0x0E pc 0x00400000

/-- Mark one tether abandoned at its bank (R193, R360); false when the marking meets a bus error. -/
def State.abandon (s : State) (y : YokeId) (a : Word) : State × Bool :=
  match s.physOf y a with
  | none => (s, true)
  | some p =>
    let r := s.rmw p 4 fun w => some (w % 2 ^ 28 + 2 ^ 30)
    (r.1, match r.2 with
      | .inl _ => true
      | .inr _ => false)

/-- The end of the task: the yoke is free, the root task's end is known to the epoch controller (R32). -/
def State.endTask (s : State) (y : YokeId) (f : FoldId) : State :=
  let k := s.yoke y
  let fo := s.fold f
  let s1 := if fo.rootIdent = some k.lead.task.ident then s.setFold f { fo with rootIdent := none } else s
  s1.setYoke y ({ k.toIdle s.clk.fc with committed := k.committed })

/-- The join counter at the end of a task (R193, R305): on the left the state from which the end goes on, on the right the one a
fault leaves. -/
def State.settleJoin (s : State) (y : YokeId) (f : FoldId) (jr pc : Word) (abort : Bool) : State ⊕ State :=
  if jr = 0 then .inl s
  else
    match s.physOf y jr with
    | none => if abort then .inl (s.deferYokeError f pc) else .inr (s.collapseFault y 0x03 jr (accessCode 4 true false false 4))
    | some p =>
      let r := s.decodeAccess p 4
      match r.2 with
      | .busError b =>
        if abort then .inl (r.1.deferYokeError f pc)
        else .inr (r.1.collapseFault y 0x03 jr (accessCode 4 true false false b))
      | _ =>
        let w : Word := BitVec.ofNat 32 (leValue (memRead r.1.mem p 4))
        if fieldNat w 30 0 = 0 then
          if abort then .inl (r.1.bankWrite p (indexed (setBit w 31 true).toNat 4)).1
          else .inr (r.1.collapseFault y 0x0C 0 0x12)
        else .inl (r.1.joinDecrement f p abort)

/-- TEND (R193, R305, R360). -/
def State.performTend (s : State) (y : YokeId) (f : FoldId) (abort : Bool) : State :=
  let c := (s.yoke y).lead
  let pc := c.pc
  if !abort && !c.task.tlist.isEmpty then s.collapseFault y 0x0C 0 0x04
  else
    match s.settleJoin y f c.task.tjoin pc abort with
    | .inr t => t
    | .inl s1 =>
      if abort then
        let r := c.task.tlist.foldl (fun (p : State × Bool) a =>
          let q := p.1.abandon y a
          (q.1, p.2 && q.2)) (s1, true)
        (if r.2 then r.1 else r.1.deferYokeError f pc).endTask y f
      else s1.endTask y f

/-- The head entry of a channel as its bank gives it. -/
def State.chanHead (s : State) (y : YokeId) (f : FoldId) (n : Nat) : State × Option Word :=
  match s.physOf y (((s.fold f).chan n).slotAddr ((s.fold f).chan n).head) with
  | none => (s, none)
  | some p => match s.decodeAccess p 4 with
    | (s1, .busError _) => (s1, none)
    | (s1, _) => (s1, some (BitVec.ofNat 32 (leValue (memRead s1.mem p 4))))

/-- Remove the head entry of a channel. -/
def State.chanDrop (s : State) (f : FoldId) (n : Nat) : State :=
  let fo := s.fold f
  let ch := fo.chan n
  s.setFold f { fo with
    chans := kset fo.chans n { ch with head := (ch.head + 1) % 2 ^ ch.dpow.toNat, count := ch.count - 1 } }

/-- Read and remove the head entry of a channel. The spec states no value for an entry that its bank cannot give: it is
free (log entry 3). -/
def State.chanTake (s : State) (y : YokeId) (f : FoldId) (n : Nat) : State × Word :=
  match s.chanHead y f n with
  | (s1, some v) => (s1.chanDrop f n, v)
  | (s1, none) => ({ s1.chanDrop f n with freeN := s1.freeN + 1 }, Config.freeWord s1.freeN)

/-- The channel a handle names when it is open (R311). -/
def Fold.handle (fo : Fold) (h : Word) : Option Nat :=
  if fieldNat h 31 6 = 0 ∧ (fo.chan (fieldNat h 5 0)).isOpen = true then some (fieldNat h 5 0) else none

/-- CHPUT (R311): write at the tail, complete a parked CHGET, or park when full. -/
def State.performChput (s : State) (y : YokeId) (f : FoldId) (h data : Word) (len : Nat) : State :=
  let fo := s.fold f
  match fo.handle h with
  | none => s.collapseFault y 0x0D h 0x01
  | some n =>
    let ch := fo.chan n
    let c := (s.yoke y).lead.step len
    if ch.count < 2 ^ ch.dpow.toNat then
      let s1 := s.chanWrite y f n data
      match ch.pget with
      | none => s1.finish y c true
      | some r =>
        let t := s1.chanTake y f n
        let fo2 := t.1.fold f
        let s2 := t.1.setFold f { fo2 with chans := kset fo2.chans n { (fo2.chan n) with pget := none } }
        let s3 := s2.unpark r fun sv => match sv.why with
          | .chget _ d => { sv with ck := { sv.ck with core := sv.ck.core.wr d t.2 } }
          | _ => sv
        s3.finish y c true
    else if ch.pput.isSome then s.collapseFault y 0x0D h 0x02
    else
      match (s.span (spanOf y)).freeSlot 0 272 with
      | none => s.collapseFault y 0x0D h 0x03
      | some slot =>
        (s.park y slot c (.chput n data)).setFold f { fo with chans := kset fo.chans n { ch with pput := some ⟨spanOf y, slot⟩ } }

/-- CHGET (R311): take the head entry, complete a parked CHPUT, or park when empty. -/
def State.performChget (s : State) (y : YokeId) (f : FoldId) (d : Gpr) (h : Word) (len : Nat) : State :=
  let fo := s.fold f
  match fo.handle h with
  | none => s.collapseFault y 0x0D h 0x01
  | some n =>
    let ch := fo.chan n
    let c := (s.yoke y).lead.step len
    if ch.count > 0 then
      let t := s.chanTake y f n
      match ch.pput with
      | none => t.1.finish y (c.wr d t.2) true
      | some r => (t.1.completeChput y f n r).finish y (c.wr d t.2) true
    else if ch.pget.isSome then s.collapseFault y 0x0D h 0x02
    else
      match (s.span (spanOf y)).freeSlot 0 272 with
      | none => s.collapseFault y 0x0D h 0x03
      | some slot =>
        (s.park y slot c (.chget n d)).setFold f { fo with chans := kset fo.chans n { ch with pget := some ⟨spanOf y, slot⟩ } }

/-- The lowest level condition of a WAIT set that holds now (Table 5.11). -/
def State.waitLevel (s : State) (f : FoldId) (set : Word) : Option Nat :=
  if bit set 11 && s.xchVisible f then some 11
  else if bit set 12 && (s.fold f).mbRdy then some 12
  else none

/-- WAIT begins (R207, R208). -/
def State.performWait (s : State) (y : YokeId) (f : FoldId) (d : Gpr) (set : Word) : State :=
  if (fieldNat set 12 0 = 0 ∧ fieldNat set 31 20 = 0) ∨ set &&& 0x000FE400 ≠ 0 then s.collapseFault y 0x0C 0 0x07
  else
    let k := s.yoke y
    let s1 := s.setYoke y { k with collapse := none, wait := .none, run := .waiting ⟨set, s.now, s.clk.fc, d⟩ }
    match s.waitLevel f set with
    | some b => s1.endWait y ⟨set, s.now, s.clk.fc, d⟩ (BitVec.ofNat 32 b)
    | none => s1

/-- SAMPLE (R61, R209, R210): the leading core has read channel A, the trailing core reads channel B of the same freeze when it
reaches the instruction (R106), and the agreed value enters both cores. A yoke under debug reads both for its leading core. -/
def State.performSample (s : State) (y : YokeId) (f : FoldId) (d : Gpr) (pair : Byte) (v : SampleVal) (len : Nat) : State :=
  let w : Word := 0xF6000000 + BitVec.ofNat 32 (16 * pair.toNat)
  if !s.pairReadable f pair.toNat || (s.check f (spanOf y) (s.yoke y).lead.ring w 4 Need.read).isNone then
    s.collapseFault y 0x04 (pair.zeroExtend 32) (accessCode 4 false false false 0)
  else
    let c := ((s.yoke y).lead.wr d v.word).setFlags ⟨some (!bit v.word 0), none, none, none⟩
    s.finish y (c.step len) false

/-- FENCE, compared: each core passes it and its checkpoint is taken (R206, Table 2.5). -/
def State.performFence (s : State) (y : YokeId) (code : Bool) (len : Nat) : State :=
  let k := s.yoke y
  (s.setYoke y { k with
      lead := k.lead.step len, trailC := (k.trail.step len).inv, collapse := some ⟨.fenced code, 0⟩, retired := k.retired + 1 }).capture y

/-- FENCE, confirmed and its group visible: the code fence empties the fetch lane and buffer, and the leading core resumes
(R74, R206). -/
def State.finishFence (s : State) (y : YokeId) (code : Bool) : State :=
  let k := s.yoke y
  let k1 := if code then { k with fetchLane := [], fetchBuf := [], fetchReq := none } else k
  let s1 := s.setYoke y { k1 with collapse := none, wait := .none, bpSkip := false }
  if k.debug = .stepping then s1.debugHalt y 0 else s1

/-- The effect of the instruction at which the leading core waits, performed once (R60). -/
def State.perform (s : State) (y : YokeId) : State :=
  match (s.yoke y).collapse, s.foldOf y with
  | some ⟨op, len⟩, some f =>
    match op with
    | .xchg wide ord d addr phys v => s.performAtomic y wide ord d addr phys len (fun _ => some v.toNat) (fun c _ => c)
    | .cas wide ord d addr phys cmp new =>
      s.performAtomic y wide ord d addr phys len (fun w => if w = cmp.toNat then some new.toNat else none)
        (fun c w => c.setFlags ⟨some (decide (w = cmp.toNat)), none, none, none⟩)
    | .fadd wide ord d addr phys a =>
      s.performAtomic y wide ord d addr phys len (fun w => some ((w + a.toNat) % (if wide then 2 ^ 64 else 2 ^ 32))) (fun c _ => c)
    | .tlock d addr phys => s.performTlock y d addr phys len
    | .tunlock addr phys => s.performTunlock y addr phys len
    | .aliasStore clear size addr phys v => s.performAlias y clear size addr phys v len
    | .ioLoad dest addr size _ => s.performIoLoad y f dest addr size len
    | .spawn addr => s.performSpawn y f addr len
    | .join addr phys => s.performJoin y f addr phys len
    | .yield => s.performYield y len
    | .tend abort => s.performTend y f abort
    | .chput h v => s.performChput y f h v len
    | .chget d h => s.performChget y f d h len
    | .wait d set => s.performWait y f d set
    | .fence code => s.performFence y code len
    | .fenced code => s.finishFence y code
    | .syswr num v =>
      match s.sysWriteOutside y f num v with
      | .inl s1 => s1.finish y ((s.yoke y).lead.step len) true
      | .inr (vec, i, sy) => s.collapseFault y vec i sy
    | .sample d pair v => s.performSample y f d pair v len
  | _, _ => s

/-- The words of memory that a slip-collapsing instruction reads or changes at their banks. -/
def State.collapseWords (s : State) (y : YokeId) (op : CollapseOp) : List Nat :=
  let word (a : Word) : List Nat := (s.physOf y a).toList
  let chan (h : Word) : List Nat :=
    match s.foldOf y with
    | none => []
    | some f =>
      match (s.fold f).handle h with
      | none => []
      | some n =>
        let ch := (s.fold f).chan n
        word (ch.slotAddr ch.head) ++ word (ch.slotAddr (ch.head + ch.count))
  match op with
  | .xchg _ _ _ _ p _ => [p]
  | .cas _ _ _ _ p _ _ => [p]
  | .fadd _ _ _ _ p _ => [p]
  | .tlock _ _ p => [p]
  | .tunlock _ p => [p]
  | .aliasStore _ _ _ p _ => [p]
  | .join _ p => [p]
  | .spawn a => (List.range 4).flatMap fun i => word (a + BitVec.ofNat 32 (16 * i))
  | .tend abort =>
    let c := (s.yoke y).lead.task
    (if c.tjoin = 0 then [] else word c.tjoin) ++ (if abort then c.tlist.flatMap word else [])
  | .chput h _ => chan h
  | .chget _ h => chan h
  | _ => []

/-- A word the instruction acts on holds a value its bank has accepted and not yet made visible: the action waits, and comes
after that value in the order of the bank (R353, R357, R358). -/
def State.collapseHeld (s : State) (y : YokeId) : Bool :=
  match (s.yoke y).collapse with
  | none => false
  | some c => (s.collapseWords y c.op).any (s.heldElsewhere y)

end Sys2Proof.Machine
end

