-- ==== Sys2Proof/Machine/Checker.lean ====
section
/-! DEFINITION. The slip checker: the trailing core's cycle and its comparison (R47 to R52), confirmation of checkpoints
(R69), delivery of write-hold buffer entries (R65, R341, R345, R358). -/

namespace Sys2Proof.Machine

/-- The slip target of a yoke's span (R46). -/
def State.slipTarget (s : State) (y : YokeId) : Nat := fieldNat (s.reg (rCkctl (spanOf y)) 0x10) 6 0

/-- The leading core is blocked in the sense of R47. -/
def Yoke.leadBlocked (k : Yoke) : Bool :=
  k.wait != .none || k.collapse.isSome || decide (k.slip ≥ 96) || decide (k.lvq.length ≥ 64) ||
    decide (k.fetchLane.length ≥ 32) || decide (k.whb.length ≥ 128)

/-- The trailing core executes its oldest entry now (R47, R48). -/
def Yoke.trailMay (k : Yoke) (t : Nat) : Bool :=
  decide (k.slip ≥ t) && decide (k.slip > 0) || (k.leadBlocked && decide (k.slip > 4)) ||
    (k.collapse.isSome && decide (k.slip > 0)) ||
    (k.wait == .ckpt && (match k.pend with
      | some p => k.cq.any fun e => decide (e.seq ≤ p.seq)
      | none => false))

/-- The load-value queue and fetch lane hold what the entry consumes (R47), and its branch has resolved. -/
def Yoke.trailReady (k : Yoke) (e : CqEntry) : Bool :=
  decide ((k.lvq.filter fun v => v.seq == e.seq).length ≥ e.lvqUse) &&
    (e.fetchOff.isNone || !k.fetchLane.isEmpty) &&
    (match k.branch with
      | some b => decide (b.seq ≠ e.seq)
      | none => true)

/-- Code of an access kind in OPK (Table 2.2). -/
def AccKind.code (a : AccKind) : Nat :=
  match a with
  | .plain => 0 | .xchg => 1 | .cas => 2 | .fadd => 3 | .tlock => 4 | .tunlock => 5 | .aliased => 6 | .sample => 7
  | .sysread => 8 | .taskop => 9 | .emitLocal => 10 | .emit => 0

/-- Code of an access size in LSIZE: 0 to 4 for 1 to 16 bytes. Table 2.2 gives the sizes and no codes (R50; DESIGN CHOICE, log entry
8). -/
def lsizeCode (n : Nat) : Nat := if n = 1 then 0 else if n = 2 then 1 else if n = 4 then 2 else if n = 8 then 3 else 4

/-- A compared field group of the bus outputs, with the bit positions of Table 2.2 counted from the group's lowest field;
none when it is not valid. OPK belongs to the load group, and with a store alone it is the only field of that group
(R211). The order of the parts inside a group is the model's (log entry 73). -/
def BusOut.field (o : BusOut) (f : BusField) : Option (BitVec 128) :=
  match f with
  | .fetch => o.faddr.map fun a => a.zeroExtend 128
  | .load => match o.load, o.store with
    | .some p, _ => .some (BitVec.ofNat 128 (p.1.toNat + lsizeCode p.2.1 * 2 ^ 32 + p.2.2.code * 2 ^ 35))
    | .none, .some p => .some (BitVec.ofNat 128 (p.2.2.2.code * 2 ^ 35))
    | .none, .none => .none
  | .storeAddr => o.store.map fun p => p.1.zeroExtend 128
  | .storeBe => o.store.map fun p => p.2.1.zeroExtend 128
  | .storeData => o.store.map fun p => p.2.2.1
  | .float => o.fl.map fun p => BitVec.ofNat 128 (p.1.toNat + p.2.toNat * 2 ^ 24)
  | .sysreg => o.sys.map fun p => BitVec.ofNat 128 (p.1.toNat + p.2.toNat * 2 ^ 12)

/-- The lines of a field group that are compared (Table 2.2). -/
def BusOut.lines (o : BusOut) (f : BusField) : BitVec 128 :=
  BitVec.ofNat 128 (match f with
    | .fetch => 2 ^ 32 - 1
    | .load => if o.load.isSome then 2 ^ 39 - 1 else 15 * 2 ^ 35
    | .storeAddr => 2 ^ 32 - 1
    | .storeBe => 2 ^ 16 - 1
    | .storeData => 2 ^ 128 - 1
    | .float => 2 ^ 88 - 1
    | .sysreg => 2 ^ 44 - 1)

/-- The fields in the order of their kinds (Table 2.7). -/
def busFields : List (BusField × BitVec 4) :=
  [(.fetch, 0), (.load, 1), (.storeAddr, 2), (.storeBe, 3), (.storeData, 4), (.float, 5), (.sysreg, 6)]

/-- The bits of a field group in which the leading value is not the complement of the value the trailing core drives: its
outputs leave it complemented (R52), the group `df` disturbed by a mask. None when the group is not valid. -/
def busField (lead trail : BusOut) (df : Option (BusField × BitVec 128)) (f : BusField) : Option (BitVec 128) :=
  (lead.field f).map fun a =>
    let driven := ~~~((trail.field f).getD 0) ^^^ (match df with
      | some (g, m) => if g = f then m else 0
      | none => 0)
    (a ^^^ ~~~driven) &&& lead.lines f

/-- The first field in which the two cores' outputs differ, with lowest position and number of differing bits (R49,
R50, R75). The trailing side's field of `df` is disturbed by its mask. -/
def busDiff (lead trail : BusOut) (df : Option (BusField × BitVec 128)) : Option (BitVec 4 × Byte × Byte) :=
  busFields.findSome? fun (f, kind) =>
    match busField lead trail df f with
    | none => none
    | some x =>
      if x = 0 then none
      else some (kind, BitVec.ofNat 8 (lowestBit x 128), BitVec.ofNat 8 (satNat 255 (popCount x 128)))

/-- What a disturbance makes of a comparison: the mismatch it causes besides differing fields. The spec gives no FIRST and
NDIFF for a slip-floor error: both are 0 (log entry 59). -/
def Disturb.check (d : Disturb) : Option (BitVec 4 × Byte × Byte × BitVec 2) :=
  match d with
  | .regParity t f n => some (9, f, n, if t then 2 else 1)
  | .queueParity f n => some (10, f, n, 0)
  | .floatResidue f n => some (11, f, n, 0)
  | .codeError f n => some (12, f, n, 3)
  | .slipFloor => some (13, 0, 0, 0)
  | .shadow d => d.check
  | _ => Option.none

/-- The PC recorded with the mismatch a disturbance causes (R93): for a residue check that of the oldest float instruction in
progress, else that of the instruction compared. -/
def Disturb.pc (d : Disturb) (k : Yoke) (pc : Word) : Word :=
  match d with
  | .floatResidue _ _ => (k.fpu.busy.head?.map fun b => b.before.pc).getD pc
  | .shadow d => d.pc k pc
  | _ => pc

/-- What a disturbance does to the checkpoint that a slip-collapsing instruction confirms before its effect. -/
def Disturb.onCk (d : Disturb) : CkDisturb :=
  match d with
  | .checkpoint d => d
  | .shadow d => .shadow d.onCk
  | _ => .none

/-- The field a disturbance touches. -/
def Disturb.busMask (d : Disturb) : Option (BusField × BitVec 128) :=
  match d with
  | .field f m => some (f, m)
  | .shadow d => d.busMask
  | _ => Option.none

/-- The restore after this disturbance meets a shadow parity error. -/
def Disturb.onShadow (d : Disturb) : Bool :=
  match d with
  | .shadow _ => true
  | _ => false

/-- An error that the leading core or the float unit of a yoke under debug detects in itself (R85): its trailing core is in
reset and its checker compares nothing. -/
def Disturb.underDebug (d : Disturb) : Bool :=
  match d with
  | .regParity t _ _ => !t
  | .floatResidue _ _ => true
  | .shadow d => d.underDebug
  | _ => false

/-- A parity error of the lane entries the trailing core consumes (R54): the lowest differing parity bit of the first bad entry and
their number in it. The spec gives FIRST and NDIFF no meaning for this kind (R75; DESIGN CHOICE, log entry 59). -/
def laneParity (vals : List LvqEntry) (block : Option LaneBlock) : Option (Byte × Byte) :=
  let bad := (vals.map fun v => v.parity ^^^ parity32 v.value) ++ (block.toList.map fun b => b.parity ^^^ parity32 b.bytes)
  (bad.find? fun x => x != 0).map fun x =>
    (BitVec.ofNat 8 (lowestBit (x.zeroExtend 128) 128), BitVec.ofNat 8 (popCount (x.zeroExtend 128) 128))

/-- The mismatch of a comparison, if any: an injected test, a check, a parity error of what the trailing core consumes, a
differing field, or a refused event (R54, R59, R75). Of several in one cycle the spec does not say which is recorded: the model
takes them in this order, a check before lane parity, the fields in the order of their kinds (DESIGN CHOICE, log entry 59). The
spec gives no FIRST and NDIFF for an injected test and a refused event: both are 0 (log entry 59). -/
def compareResult (inj : Bool) (d : Disturb) (parity : Option (Byte × Byte)) (lead trail : BusOut) (eventRefused : Bool) :
    Option (BitVec 4 × Byte × Byte × BitVec 2) :=
  if inj then some (14, 0, 0, 0)
  else
    match d.check, parity with
    | some r, _ => some r
    | none, some (f, n) => some (10, f, n, 0)
    | none, none =>
      match busDiff lead trail d.busMask with
      | some (k, f, n) => some (k, f, n, 0)
      | none => if eventRefused then some (8, 0, 0, 0) else none

/-- The trailing core's own output of an entry, with its fetch address. -/
def trailOut (c : Core) (e : CqEntry) (o : BusOut) : BusOut :=
  match e.fetchOff with
  | some n => { o with faddr := some (blockOf c.pc + BitVec.ofNat 32 (16 * n)) }
  | none => o

/-- The trailing core refuses the event it is told of (R59): its own ST.M, ST.ESC or ring does not permit it. An event whose
descriptor cannot be read or is not valid carries no ring condition (R257). -/
def CoreIns.refusedEvent (i : CoreIns) (c : Core) : Bool :=
  match i with
  | .enter e => e.event && (c.m || c.esc || decide (c.ring.toNat < e.floor.toNat))
  | _ => false

/-- A matched store's data enters the check bits and its entry becomes held when all its stores matched (R62, R65). -/
def Yoke.heldBy (k : Yoke) (id : Nat) (o : BusOut) : Yoke :=
  match o.store with
  | none => k
  | some (_, be, data, _) =>
    { k with whb := k.whb.map fun w =>
        if w.id = id then { w with unconf := w.unconf - 1, chk := mergeBytes w.chk data be } else w }

/-- What the trailing core receives, complemented on entry (R53). -/
def CoreIn.inv (x : CoreIn) : CoreIn := ⟨x.vals.map (~~~ ·), ~~~x.fdata⟩

/-- One active cycle of the trailing core (R52, R53): the leading core's computation in complemented form, on complemented
registers and values. -/
def CoreIns.runInv (i : CoreIns) (c : Core) (x : CoreIn) : Core × BusOut :=
  let r := i.run c.inv x.inv
  (r.1.inv, r.2)

/-- The trailing core, complemented, after an entry: a load that failed changes nothing (R58). -/
def trailStep (c : Core) (e : CqEntry) (vals : List LvqEntry) : Core × BusOut :=
  let r := e.op.runInv c (CoreIn.inv ⟨vals.map (·.value), e.data⟩)
  let failed := vals.any fun v => match v.status with
    | .busError _ => true
    | .accessViolation => true
    | _ => false
  (if failed then c else r.1, r.2)

/-- After a mispredicted branch the squashed entries run on the predicted path (R177). -/
def specAfter (c : Core) (i : CoreIns) : Option Core :=
  match i with
  | .branch b => if b.isPredicted && b.predicted c != b.taken c then some (b.apply c (b.predicted c)).inv else none
  | _ => none

/-- The trailing core that executes an entry, complemented: a squashed one belongs to the mispredicted path. -/
def Yoke.trailAt (k : Yoke) (e : CqEntry) : Core := if e.squashed then k.spec.getD k.trailC else k.trailC

/-- One active cycle of the trailing core (R47) with comparison; see TRAILING_COMPARE. -/
def State.trailCycle (s : State) (y : YokeId) (d : Disturb) : State :=
  let k := s.yoke y
  match k.cq with
  | [] => s
  | e :: rest =>
    let vals := k.lvq.filter fun v => v.seq == e.seq
    let c := k.trailAt e
    let r := trailStep c e vals
    let o := trailOut c.inv e r.2
    let lane := laneParity vals (if e.fetchOff.isSome then k.fetchLane.head? else none)
    match compareResult k.inj d lane e.out o (e.op.refusedEvent c.inv) with
    | some (kind, first, ndiff, side) =>
      (s.setYoke y { k with inj := false }).mismatch y kind first ndiff side (d.pc k c.inv.pc) d.onShadow
    | none =>
      let k1 := match e.whb with
        | some id => k.heldBy id o
        | none => k
      let held := k1.heldReports.filter fun p => p.1 == e.seq
      let k2 := { k1 with
        cq := rest, lvq := k1.lvq.filter (fun v => v.seq != e.seq),
        fetchLane := if e.fetchOff.isSome then k1.fetchLane.drop 1 else k1.fetchLane,
        trailC := if e.squashed then k1.trailC else r.1,
        spec := if e.squashed then some r.1 else specAfter c.inv e.op,
        trailFc := s.clk.fc, heldReports := k1.heldReports.filter fun p => p.1 != e.seq }
      held.foldl (fun s p => s.report p.2) (s.setYoke y k2.reach)

/-- The trailing core has reached the pending checkpoint point and the float part is captured (R69). -/
def Yoke.confirmReady (k : Yoke) : Bool :=
  match k.pend with
  | none => false
  | some p => p.fl.isSome && p.reached.isSome && !k.unchecked

/-- The registers of a core in the numbering of Table 2.14, with whether they are compared as a whole. -/
def Core.words (c : Core) : List (Nat × Word) :=
  ((List.finRange 16).map fun i => (i.val, c.g[i])) ++ [(16, c.stWord), (17, c.bk.zeroExtend 32), (18, c.ct)] ++
    ((List.finRange 4).map fun i => (19 + i.val, c.sp[i])) ++ [(23, c.pc)] ++
    ([c.task.ident, c.task.tattr, c.task.tjoin, c.task.tparent, c.task.tspn, c.task.oepoch, c.task.ordCount] ++
      ((List.range 8).map fun i => c.task.tlist.getD i 0) ++ c.task.dbg.toList).map fun w => (24, w)

/-- The lowest register in which a core differs from the pending slot, numbered as in Table 2.14, and the number of
differing bits over all registers (R75). A difference in the shadow latch or in the length of TLIST alone counts as one
bit of a yoke-held system register (log entry 73). -/
def ckDiff (a b : Core) : Option (Byte × Nat) :=
  let words := (a.words.zip b.words).filter fun w => w.1.2 != w.2.2
  match words with
  | [] => if a.task = b.task ∧ a.shadow = b.shadow ∧ a.rep = b.rep then none else some (24, 1)
  | w :: _ => some (BitVec.ofNat 8 w.1.1, words.foldl (fun n w => n + popCount (w.1.2 ^^^ w.2.2) 32) 0)

/-- A disturbed register of the trailing core at the checkpoint point, numbered as in Table 2.14. -/
def Core.disturb (c : Core) (r : Byte) (m : Word) : Core :=
  if h : r.toNat < 16 then { c with g := c.g.set r.toNat (c.g[r.toNat] ^^^ m) }
  else if r = 16 then { c with st := c.st ^^^ m }
  else if r = 17 then { c with bk := c.bk ^^^ m.setWidth 8 }
  else if r = 18 then { c with ct := c.ct ^^^ m }
  else if h : 19 ≤ r.toNat ∧ r.toNat ≤ 22 then { c with sp := c.sp.set (r.toNat - 19) (c.sp[r.toNat - 19] ^^^ m) }
  else if r = 23 then { c with pc := c.pc ^^^ m }
  else if r = 24 then { c with task := { c.task with oepoch := c.task.oepoch ^^^ m } }
  else c

/-- What a disturbance does to the trailing core's state. -/
def CkDisturb.onCore (d : CkDisturb) (c : Core) : Core :=
  match d with
  | .state r m => c.disturb r m
  | .shadow d => d.onCore c
  | _ => c

/-- What a disturbance does to the held entries of an interval: the data of the `n`-th of them. -/
def CkDisturb.onHeld (d : CkDisturb) (k : Yoke) (interval : Nat) : Yoke :=
  match d with
  | .held n m =>
    match (k.whb.filter fun e => e.closes interval)[n]? with
    | .some e => { k with whb := k.whb.map fun x => if x.id = e.id then { x with data := x.data ^^^ m } else x }
    | .none => k
  | .shadow d => d.onHeld k interval
  | _ => k

/-- The restore after this disturbance meets a shadow parity error. -/
def CkDisturb.onShadow (d : CkDisturb) : Bool :=
  match d with
  | .shadow _ => true
  | _ => false

/-- Confirm the pending checkpoint (R65, R69): the state the trailing core had at the point and the held entries are
checked, then the slot is committed. An injected test takes this comparison if it is the yoke's next (R90), and then records the PC at
the checkpoint point, where the spec names none (R93; DESIGN CHOICE, log entry 59). -/
def State.confirm (s : State) (y : YokeId) (d : CkDisturb) : State :=
  let k := s.yoke y
  match k.pend with
  | none => s
  | some p =>
    match p.reached, p.fl with
    | some c, some fl =>
      if k.inj then (s.setYoke y { k with inj := false }).mismatch y 0xE 0 0 0 p.core.pc d.onShadow
      else
        match ckDiff (d.onCore c.inv) p.core with
        | some (first, n) => s.mismatch y 7 first (BitVec.ofNat 8 (satNat 255 n)) 0 p.core.pc d.onShadow
        | none =>
          let s1 := s.setYoke y (d.onHeld k p.interval)
          match (s1.yoke y).heldBad p.interval with
          | some e =>
            s1.mismatch y 10 (BitVec.ofNat 8 (lowestBit e.syndrome 128)) (BitVec.ofNat 8 (satNat 255 (popCount e.syndrome 128))) 0
              e.pc d.onShadow
          | none =>
            let s2 := (s1.correctHeld y p.interval).commit y ⟨p.core, fl.1, fl.2⟩ p.interval p.event
            if (s2.yoke y).ckptDue then s2.capture y else s2
    | _, _ => s

/-- The deferred write error of a failed drain (R65, R345, Table 12.2 source 0x17). -/
def State.drainFails (s : State) (y : YokeId) (pc : Word) : State :=
  let s1 := match s.foldOf y with
    | some f => s.deferYokeError f pc
    | none => s
  s1.reportU 0x17 .span (spanOf y).val (y.val % 16)

/-- The entry next in line for its bank: the oldest released entry, in reservation order (R341). -/
def Yoke.nextDrain (k : Yoke) : Option WhbEntry :=
  if k.whb.any fun e => match e.phase with
    | .accepted _ => true
    | .failed => true
    | _ => false
  then
    let iv := k.whb.foldl (fun m e => match e.phase with
      | .accepted _ => min m e.interval
      | .failed => min m e.interval
      | _ => m) k.interval
    k.whb.find? fun e => e.phase == .released && e.interval == iv
  else k.whb.find? fun e => e.phase == .released

/-- The worse of two checks of one word. -/
def Ecc.worst (a b : Ecc) : Ecc :=
  if a = .uncorrectable ∨ b = .uncorrectable then .uncorrectable else if a = .clean then b else a

/-- The uncorrectable codewords that an entry covers in part (R345). -/
def State.refusedWords (s : State) (e : WhbEntry) : List Nat :=
  let base := e.phys / 16 * 16
  let bytes := (List.range 16).filter fun i => e.be.getLsbD i
  if base < 0x0500000000 then
    ([0, 1].filter fun h => let n := (bytes.filter fun i => i / 8 == h).length
      decide (0 < n) && decide (n < 8) && s.cwEcc (base / 8 + h) == .uncorrectable).map (base / 8 + ·)
  else []

/-- The entry's bytes do not reach the bank, or the bank refuses them (R345, R346): a wiping memory, a transaction that fails
its retry, or a partly covered uncorrectable codeword. -/
def State.drainRefused (s : State) (e : WhbEntry) : Bool :=
  let base := e.phys / 16 * 16
  s.fabricDown base 16 || (decide (base < 0x0500000000) && (s.wiping base || !(s.refusedWords e).isEmpty))

/-- The codewords at which a drain is refused are counted and reported (R344, R345). -/
def State.countRefused (s : State) (e : WhbEntry) : State :=
  let base := e.phys / 16 * 16
  if s.wiping base then s
  else if s.fabricDown base 16 then s.fabricUp base 16
  else (s.refusedWords e).foldl (fun s cw => s.countEcc cw .uncorrectable 0x07) s

/-- Deliver one entry to its bank as accepted but not visible (R358), after its check (R65). -/
def State.drain (s : State) (y : YokeId) (ecc : Ecc) : State :=
  let k := s.yoke y
  match k.nextDrain with
  | none => s
  | some e =>
    let put (p : WhbPhase) (s : State) : State :=
      let k := s.yoke y
      s.setYoke y { k with whb := k.whb.map fun x => if x.id = e.id then { x with phase := p } else x }
    match ecc.worst e.ecc with
    | .uncorrectable => (put .failed s).drainFails y e.pc
    | found =>
      let s1 := match found with
        | .clean => s
        | _ => s.reportHeld y e
      if s1.drainRefused e then (put .failed (s1.countRefused e)).drainFails y e.pc
      else put (.accepted s1.stamp) { s1 with stamp := s1.stamp + 1 }

/-- Write to a hardware page when its store becomes visible (R200, R609, Table 16.10). -/
def State.pageWrite (s : State) (f : FoldId) (off : Nat) (sysc : Bool) (bs : List (Nat × Byte)) (q : QWord) : State :=
  let fo := s.fold f
  if sysc then
    if fo.mbPend then s.reportU 0x1B .fold f.val 0
    else s.setFold f { fo with mbReq := q, mbPend := true }
  else
    bs.foldl (fun s b =>
      let fo := s.fold f
      let o := off + b.1
      if 0x1014 ≤ o ∧ o < 0x1018 then s.setFold f { fo with mbRdy := false }
      else if 0x1200 ≤ o ∧ o < 0x2000 then s.setFold f { fo with mbBytes := memSet fo.mbBytes o b.2 }
      else s) s

/-- One accepted entry becomes visible at its bank. A codeword of it that has become uncorrectable since the bank accepted it
makes the write a failed drain (R345). Another group's value accepted earlier for the same word no longer
reaches it (R358: the last accepted value stays). -/
def State.makeVisible (s : State) (y : YokeId) (e : WhbEntry) : State :=
  let base := e.phys / 16 * 16
  let bs : List (Nat × Byte) := ((List.range 16).filter fun i => e.be.getLsbD i).map fun i => (i, byteOf e.data i)
  if base ≥ 0x0500000000 then
    s.pageWrite (Fin.ofNat 16 ((base - 0x0500000000) / 0x4000)) ((base - 0x0500000000) % 0x4000) e.sysc bs e.data
  else
    let r := s.bankWrite base bs
    let s1 := if r.2 then r.1 else r.1.drainFails y e.pc
    { s1 with yokes := s1.yokes.map fun p =>
        if p.1 = y then p
        else (p.1, { p.2 with whb := p.2.whb.map fun x =>
          match x.phase, e.phase with
          | .accepted a, .accepted b =>
            if x.phys / 16 = e.phys / 16 ∧ a < b then { x with be := x.be &&& ~~~e.be } else x
          | _, _ => x }) }

/-- The interval of the group being delivered, when every entry of it has been accepted or has failed (R358). -/
def Yoke.groupReady (k : Yoke) : Option Nat :=
  let done (e : WhbEntry) : Bool := match e.phase with
    | .accepted _ => true
    | .failed => true
    | _ => false
  match k.whb.find? done with
  | none => none
  | some e => if k.whb.all fun x => x.interval != e.interval || done x then some e.interval else none

/-- No store that a group has accepted waits to become visible. -/
def State.groupDrained (s : State) (g : GroupId) : Bool :=
  s.yokes.all fun p => p.2.whb.all fun e => match e.phase with
    | .accepted _ => (match physRegion e.phys with
      | .group h _ => h != g
      | _ => true)
    | _ => true

/-- A group leaves its fold, its ownership register written `v`, and its wipe begins (R349, R409). -/
def State.releaseGroup (s : State) (g : GroupId) (v : Word) : State :=
  let s1 := s.setReg (rGrpown g) v
  { s1.setReg (rMemstat g) (setBit (s1.reg (rMemstat g) memstatReset) 31 true) with releasing := kdel s.releasing g }

/-- The accepted releases that wait for no store any more take effect (R348). -/
def State.finishReleases (s : State) : State :=
  s.releasing.foldl (fun s r => if s.groupDrained r.1 then s.releaseGroup r.1 r.2 else s) s

/-- The group's entries become visible together and are freed (R341, R358). -/
def State.groupVisible (s : State) (y : YokeId) : State :=
  let k := s.yoke y
  match k.groupReady with
  | none => s
  | some iv =>
    let es := k.whb.filter fun e => e.interval == iv
    let s1 := es.foldl (fun s e => match e.phase with
      | .accepted _ => s.makeVisible y e
      | _ => s) s
    let k1 := s1.yoke y
    (s1.setYoke y { k1 with whb := k1.whb.filter fun e => e.interval != iv }).finishReleases

/-- The trailing core has caught up and every earlier checkpoint is confirmed; outside SAMPLE and FENCE every earlier store
is visible (R60, R71, R188). FENCE then takes its own checkpoint, and ends once that is confirmed and its group visible
(R206). -/
def Yoke.collapseReady (k : Yoke) : Bool :=
  match k.collapse with
  | none => false
  | some c =>
    k.cq.isEmpty && (match c.op with
      | .sample _ _ _ => true
      | .fence _ => k.pend.isNone
      | .fenced _ => k.pend.isNone && !k.ckptDue && k.whb.isEmpty
      | _ => k.pend.isNone && k.whb.isEmpty)

/-- The pending checkpoint at a slip-collapsing instruction is confirmed when the trailing core has reached it (R69), that of FENCE
among them. -/
def State.confirmBefore (s : State) (y : YokeId) (d : Disturb) : State :=
  let k := s.yoke y
  match k.collapse with
  | some c =>
    if !c.op.checkpoints then s
    else
      let s1 := if k.ckptDue && k.cq.isEmpty then s.capture y else s
      if k.unchecked then s1.commitUnchecked y
      else if (s1.yoke y).confirmReady then s1.confirm y d.onCk
      else s1
  | none => s

/-- The instruction's effect was an entry through a descriptor whose read waits (R358): the vectors such an instruction raises. -/
def State.faultHeld (s : State) (y : YokeId) (t : State) : Bool :=
  decide ((t.yoke y).seq ≠ (s.yoke y).seq) && [0x03, 0x04, 0x05, 0x0C, 0x0D].any (s.entryHeld y)

/-- Perform the effect if everything before it is done. -/
def State.performReady (s : State) (y : YokeId) (d : Disturb) : State :=
  let s1 := s.confirmBefore y d
  if (s1.yoke y).collapseReady && !s1.collapseHeld y then
    let t := s1.perform y
    if s1.faultHeld y t then s1 else t
  else s1

/-- Perform the effect if everything before it is done; FENCE goes on to its end when nothing holds it. -/
def State.tryCollapse (s : State) (y : YokeId) (d : Disturb) : State :=
  let t := s.performReady y d
  match (t.yoke y).collapse with
  | some ⟨.fenced _, _⟩ => t.performReady y d
  | _ => t

/-- The leading core stands at a slip-collapsing instruction: its outputs go into the compare queue (R49, R60). -/
def Yoke.arriveAt (k : Yoke) (c : Collapse) (o : CollapseOut) : Yoke :=
  if k.unchecked then { k with collapse := some c }
  else { k with
    collapse := some c, seq := k.seq + 1, cq := k.cq ++ [k.entry (.collapse o) (o.drives k.lead) 0 none 0], fetchReq := none }

/-- SLIP_COLLAPSE_COMPLETE (R60): the trailing core, when only the slip-collapsing instruction is left in the compare queue,
reaches it; its outputs are compared and its effect is performed. On a yoke under debug nothing is compared (R85). -/
def State.collapseComplete (s : State) (y : YokeId) (d : Disturb) : State :=
  let k := s.yoke y
  if k.collapse.isNone then s
  else
    match k.cq with
    | [] => if k.unchecked && d.underDebug then s.debugError y else s.tryCollapse y d
    | [e] =>
      if k.trailReady e then
        let t := s.trailCycle y d
        if (t.yoke y).cq.isEmpty then t.tryCollapse y d else t
      else s
    | _ => s

/-- The leading core reaches a slip-collapsing instruction (R60): the checkpoint before it is taken (Table 2.5), and with
nothing left to drain it is compared and its effect performed in the same command. -/
def State.arrive (s : State) (y : YokeId) (op : CollapseOp) (o : CollapseOut) (len : Nat) : State :=
  let k := s.yoke y
  if op.checkpoints && k.pend.isSome then s.setYoke y { k with wait := .ckpt }
  else
    let s1 := if op.bounded then s.capture y else s
    if op.bounded && (s1.yoke y).ckptDue then s1.setYoke y { (s1.yoke y) with wait := .pipeline }
    else (s1.setYoke y ((s1.yoke y).arriveAt ⟨op, len⟩ o)).collapseComplete y .none

end Sys2Proof.Machine
end

