-- ==== Sys2Proof/Machine/Issue.lean ====
section
/-! DEFINITION. Issue of one instruction by the leading core: the checks of decoding and of R179, then the core's step and
the compare queue entry, or the arrival at a slip-collapsing instruction. -/

namespace Sys2Proof.Machine

/-- A vector with INFO and SYN (Table 7.3). -/
abbrev Raise := Byte × Word × Word

/-- Decoding meets an illegal field or combination: vector 0x00 (R135, R148, R150 to R152, R167). -/
def State.illegal (s : State) (y : YokeId) : State := s.lead y .nop 1 fun s => s.trap y 0x00 0 0

/-- Issue an instruction whose checks look at the core only. -/
def State.issueWhen (s : State) (y : YokeId) (i : CoreIns) (chk : Core → Option Raise) : State :=
  s.lead y i 1 fun s =>
    let k := s.yoke y
    match chk (i.sees k.lead) with
    | some (v, info, syn) => s.trapOf y i v info syn
    | none =>
      let r := i.run k.lead ⟨[], 0⟩
      s.setYoke y (k.push i r.1 r.2 [] none 0)

/-- REP accepts at most 1,024 iterations at its start (R170). -/
def Core.repCheck (c : Core) (rep : Rep) : Option Raise :=
  if rep = .rep ∧ c.ra = false ∧ c.ct.toNat > 1024 then some (0x00, 0, 0) else none

/-- The register fields and prefixes of an ALU operation are legal (Table 4.7, R135, R152). -/
def aluLegal (wide : Bool) (rep : Rep) (d : Gpr) (a : AluArg) : Bool :=
  match a with
  | .reg s => !wide || (aligned d 2 && aligned s 2)
  | .imm16 _ => (!wide || aligned d 2) && rep == .once
  | .imm32 _ => !wide && rep == .once

/-- An ALU operation of Table 4.10. -/
def State.issueAlu (s : State) (y : YokeId) (op : AluOp) (wide : Bool) (rep : Rep) (d : Gpr) (a : AluArg) : State :=
  if aluLegal wide rep d a then s.issueWhen y (.alu op wide rep d a) fun c => c.repCheck rep else s.illegal y

/-- A multiply of Table 4.11. -/
def State.issueMul (s : State) (y : YokeId) (op : MulOp) (d src : Gpr) : State :=
  match op with
  | .muls => s.issue y (.mul op d src)
  | .mulu => s.issue y (.mul op d src)
  | _ => if aligned d 2 then s.issue y (.mul op d src) else s.illegal y

/-- The operands of a divide step or DFIX are legal (R135, R218). -/
def divLegal (d src : Gpr) : Bool := aligned d 2 && src != d && src != gpr (d.val + 1)

/-- A divide step (R219, R220). -/
def State.issueDstep (s : State) (y : YokeId) (signed : Bool) (rep : Rep) (d src : Gpr) : State :=
  if divLegal d src then
    s.issueWhen y (.dstep signed rep d src) fun c =>
      match c.repCheck rep with
      | some r => some r
      | none =>
        if (rep = .once ∨ c.ct ≠ 0) ∧ c.rd src = 0 ∧ c.dze = true then some (0x08, 0, 0) else none
  else s.illegal y

/-- Checks 3 and 4 of R179: alignment, then window and permission. -/
def State.access (s : State) (y : YokeId) (f : FoldId) (a : Word) (size : Nat) (n : Need) : Target ⊕ Raise :=
  if a.toNat % size ≠ 0 then .inr (0x02, a, accessCode size n.w n.x false 0)
  else
    match s.check f (spanOf y) (s.yoke y).lead.ring a size n with
    | none => .inr (0x04, a, accessCode size n.w n.x false 0)
    | some t => .inl t

/-- Change the leading core of a yoke. -/
def State.setLead (s : State) (y : YokeId) (f : Core → Core) : State :=
  s.setYoke y { (s.yoke y) with lead := f (s.yoke y).lead }

/-- The leading core waits at its instruction. -/
def State.waits (s : State) (y : YokeId) : State := s.setYoke y { (s.yoke y) with wait := .pipeline }

/-- The entry just pushed takes `n` values of the load-value queue that arrive later. -/
def Yoke.lastUses (k : Yoke) (n : Nat) : Yoke :=
  { k with cq := k.cq.map fun e => if e.seq = k.seq then { e with lvqUse := n } else e }

/-- The permission check of a memory access by the instruction at PC; `act` gets the target. -/
def State.accessThen (s : State) (y : YokeId) (a : Word) (size : Nat) (n : Need) (act : State → FoldId → Target → State) :
    State :=
  match s.foldOf y with
  | none => s
  | some f =>
    match s.access y f a size n with
    | .inr (v, info, syn) => s.trap y v info syn
    | .inl t => act s f t

/-- A load to general registers leaves for its bank; its data returns with LOAD_COMPLETE. -/
def State.loadGo (s : State) (y : YokeId) (op : LoadOp) (d : Gpr) (m : MemAddr) (a : Word) (p : Nat) : State :=
  let k := s.yoke y
  let i : CoreIns := .load op d m
  let k1 := (k.push i (k.lead.loadIssued op d i.len) (loadOut a op.size .plain) [] none 0).lastUses 1
  s.setYoke y { k1 with loads := k1.loads ++ [⟨k1.seq, a, op.size, p, .gpr op d, regsFrom d op.count, k.lead, none⟩] }

/-- A read that the window permissions refuse: its address is compared, with the status access violation, before the vector
(R55, R58). -/
def State.readViolates (s : State) (y : YokeId) (i : CoreIns) (a : Word) (size : Nat) : State :=
  let k := s.yoke y
  if s.takes y 0x04 then
    (s.setYoke y (k.pushFailed i (i.run k.lead ⟨[], 0⟩).2 .accessViolation [])).raise y 0x04 a (accessCode size false false false 0)
  else s.waits y

/-- The checks of a read by the instruction at PC; `act` gets the target. -/
def State.readThen (s : State) (y : YokeId) (i : CoreIns) (a : Word) (size : Nat) (act : State → FoldId → Target → State) :
    State :=
  match s.foldOf y with
  | none => s
  | some f =>
    match s.access y f a size Need.read with
    | .inr (v, info, syn) => if v = 0x04 then s.readViolates y i a size else s.trap y v info syn
    | .inl t => act s f t

/-- LDB to LDQ (R156, R183, R184, R187). -/
def State.issueLoad (s : State) (y : YokeId) (op : LoadOp) (d : Gpr) (m : MemAddr) : State :=
  if !aligned d op.count then s.illegal y
  else
    s.lead y (.load op d m) 1 fun s =>
      let a := (s.yoke y).lead.ea m
      s.readThen y (.load op d m) a op.size fun s f t =>
        match t with
        | .mem p => s.loadGo y op d m a p
        | .page off => s.loadGo y op d m a (physPage f off)
        | .io bank off =>
          let k := s.yoke y
          if !s.ioLoadOk f bank off op.size then s.readViolates y (.load op d m) a op.size
          else if k.loads.isEmpty && k.branch.isNone then
            s.arrive y (.ioLoad (.gpr op d) a op.size 0) (.access .plain op.size m) (CoreIns.load op d m).len
          else s.waits y
        | _ => s.readViolates y (.load op d m) a op.size

/-- Enter a store in the write-hold buffer and execute it; it stalls while the buffer is full (R62, R63, R185). -/
def State.storeGo (s : State) (y : YokeId) (i : CoreIns) (a : Word) (p size : Nat) (v : QWord) (fdata : QWord)
    (io loc sysc : Bool) : State :=
  let k := s.yoke y
  if !(k.whbRoom 1 || (!io && (k.mergeSlot p).isSome)) then s.waits y
  else
    let h := k.hold a p (byteEnables a.toNat size) (placed a.toNat v) io loc sysc
    let r := i.run k.lead ⟨[], fdata⟩
    (s.setYoke y (h.1.push i r.1 r.2 [] (some h.2) fdata)).after96 y

/-- STB to STQ (R185, R186, R352). -/
def State.issueStore (s : State) (y : YokeId) (op : StoreOp) (d : Gpr) (m : MemAddr) : State :=
  if !aligned d op.count then s.illegal y
  else
    let i : CoreIns := .store op d m
    s.lead y i 1 fun s =>
      let c := (s.yoke y).lead
      let a := c.ea m
      let v := c.rdN d op.count
      s.accessThen y a op.size Need.write fun s f t =>
        match t with
        | .mem p => s.storeGo y i a p op.size v 0 false false false
        | .page off => s.storeGo y i a (physPage f off) op.size v 0 false false false
        | .io bank off =>
          if s.ioStoreOk f bank off op.size then s.storeGo y i a a.toNat op.size v 0 true false false
          else s.trap y 0x04 a (accessCode op.size true false false 0)
        | .aliased clear p => 
          s.arrive y (.aliasStore clear op.size a p (v &&& BitVec.ofNat 128 (2 ^ (8 * op.size) - 1))) (.aliasStore op d m) i.len
        | .absent => s.trap y 0x04 a (accessCode op.size true false false 0)

/-- EMIT (R211). -/
def State.issueEmit (s : State) (y : YokeId) (loc : Bool) (sz : BitVec 3) (d : Gpr) (m : MemAddr) : State :=
  let n := if sz.toNat = 4 then 4 else if sz.toNat = 3 then 2 else 1
  if sz.toNat > 4 || !aligned d n then s.illegal y
  else
    let i : CoreIns := .emit loc sz d m
    s.lead y i 1 fun s =>
      let c := (s.yoke y).lead
      let a := c.ea m
      s.accessThen y a (emitSize sz) Need.write fun s f t =>
        match t with
        | .io bank off =>
          if s.isOutputWindow f bank off (emitSize sz) then s.storeGo y i a a.toNat (emitSize sz) (c.rdN d n) 0 true loc false
          else s.trap y 0x04 a (accessCode (emitSize sz) true false false 0)
        | _ => s.trap y 0x04 a (accessCode (emitSize sz) true false false 0)

/-- A float register an instruction in the float unit will write. -/
def FloatIns.fdest (fi : FloatIns) : Option Freg :=
  match fi with
  | .bin _ _ _ d _ _ => some d
  | .sqrt _ _ d _ => some d
  | .fused _ _ _ d _ _ => some d
  | .minmax _ _ _ d _ _ => some d
  | .cmp .. => none
  | .cls .. => none
  | .neg _ d _ => some d
  | .abs _ d _ => some d
  | .rint _ _ _ d _ => some d
  | .fmov d _ => some d
  | .fmvg .. => none
  | .fmvf _ d _ => some d
  | .cvtif _ _ _ d _ => some d
  | .cvtfi .. => none
  | .cvtff _ _ d _ => some d
  | .fld _ d => some d

/-- A float instruction that writes `d` has not completed. -/
def Yoke.awaitsFreg (k : Yoke) (d : Freg) : Bool :=
  (k.fpu.queue.any fun e => e.ins.fdest == some d) || (k.fpu.busy.any fun e => e.ins.fdest == some d)

/-- FLD leaves for its bank and enters the float issue queue, its hand-off compared (Table 2.1); its data goes to the float unit
(R227). -/
def State.fldGo (s : State) (y : YokeId) (x : Bool) (d : Freg) (m : MemAddr) (a : Word) (p : Nat) : State :=
  let k := s.yoke y
  let i : CoreIns := .fld x d m
  let size := if x then 4 else 8
  let r := i.run k.lead ⟨[], 0⟩
  let k1 := (k.push i r.1 r.2 [] none 0).lastUses 1
  s.setYoke y { k1 with
    loads := k1.loads ++ [⟨k1.seq, a, size, p, .freg x d, [], k.lead, none⟩],
    fpu := { k1.fpu with queue := k1.fpu.queue ++ [⟨k1.seq, .fld x d, 0, k.lead, none⟩] } }

/-- FLD (R227). -/
def State.issueFld (s : State) (y : YokeId) (x : Bool) (d : Freg) (m : MemAddr) : State :=
  let size := if x then 4 else 8
  s.lead y (.fld x d m) 1 fun s =>
    let a := (s.yoke y).lead.ea m
    s.readThen y (.fld x d m) a size fun s f t =>
      match t with
      | .mem p => s.fldGo y x d m a p
      | .page off => s.fldGo y x d m a (physPage f off)
      | _ => s.readViolates y (.fld x d m) a size

/-- FST (R227): the leading core waits for the register's producers. -/
def State.issueFst (s : State) (y : YokeId) (x : Bool) (d : Freg) (m : MemAddr) : State :=
  let size := if x then 4 else 8
  let i : CoreIns := .fst x d m
  s.lead y i 1 fun s =>
    let k := s.yoke y
    if k.awaitsFreg d then s.waits y
    else
      let a := k.lead.ea m
      let v : QWord := if x then ((k.fpu.f[d]).setWidth 32).zeroExtend 128 else (k.fpu.f[d]).zeroExtend 128
      s.accessThen y a size Need.write fun s f t =>
        match t with
        | .mem p => s.storeGo y i a p size v v false false false
        | .page off => s.storeGo y i a (physPage f off) size v v false false false
        | _ => s.trap y 0x04 a (accessCode size true false false 0)

/-- SYSC (R200). -/
def State.issueSysc (s : State) (y : YokeId) (n : Byte) : State :=
  let i : CoreIns := .sysc n
  s.lead y i 1 fun s =>
    let c := (s.yoke y).lead
    if c.ring ≠ 0 then s.trap y 0x05 0 0
    else
      match s.foldOf y with
      | none => s
      | some f =>
        let q : QWord := c.rd 3 ++ c.rd 2 ++ c.rd 1 ++ n.zeroExtend 32
        s.storeGo y i mailboxRequest (physPage f 0x1000) 16 q 0 false false true

/-- Alignment check of one pointer of a block operation. -/
def blockAlign (a : Word) (w : Bool) : Option Raise :=
  if a.toNat % 16 ≠ 0 then some (0x02, a, accessCode 16 w false false 0) else none

/-- The physical word a pointer of a block operation addresses, when permitted (R195). -/
def State.blockPhys (s : State) (y : YokeId) (f : FoldId) (a : Word) (n : Need) : Nat ⊕ Raise :=
  match s.check f (spanOf y) (s.yoke y).lead.ring a 16 n with
  | some (.mem p) => if fieldNat a 31 24 = 0 then .inr (0x04, a, accessCode 16 n.w false false 0) else .inl p
  | _ => .inr (0x04, a, accessCode 16 n.w false false 0)

/-- A block operation's read at the pointer register `r` fails: its address is compared first (R58). -/
def State.blockReadFails (s : State) (y : YokeId) (i : CoreIns) (r : Gpr) (a : Word) (st : LoadStatus) (reps : List Report)
    (vec : Byte) (syn : Word) : State :=
  let k := s.yoke y
  ((s.setYoke y (k.pushFailed (.blockRead r) (loadOut a 16 .plain) st reps)).setLead y i.sees).raise y vec a syn

/-- The read of one 16-byte word by the yoke, through its write-hold buffer: the state, the word and its status, and the
reports of a failure apart. -/
def State.blockRead (s : State) (y : YokeId) (p : Nat) : State × QWord × LoadStatus × List Report :=
  let k := s.yoke y
  let v := s.yokeRead k p 16
  if k.covers p 16 then (s, v, .completed, [])
  else
    let r := s.decodeAccess p 16
    match r.2 with
    | .busError b =>
      if k.unchecked then (r.1, v, .busError b, [])
      else ({ r.1 with reports := s.reports }, v, .busError b, r.1.reports.drop s.reports.length)
    | st => (r.1, v, st, [])

/-- A read of the 16-byte word by the yoke would end with a bus error. -/
def State.readFails (s : State) (y : YokeId) (p : Nat) : Bool :=
  match (s.blockRead y p).2.2.1 with
  | .busError _ => true
  | _ => false

/-- The read at pointer register `r` of one iteration: `act` gets the word and its status. -/
def State.blockReadThen (s : State) (y : YokeId) (i : CoreIns) (r : Gpr) (a : Word) (p : Nat)
    (act : State → QWord → LoadStatus → State) : State :=
  match s.blockRead y p with
  | (s1, _, .busError b, reps) => s1.blockReadFails y i r a (.busError b) reps 0x03 (accessCode 16 false false false b)
  | (s1, v, st, _) => act s1 v st

/-- The accesses of one iteration, in the order of R195. CMPM's first read is compared in an entry of its own; both words go to the
trailing core with the second. -/
def State.blockIterate (s : State) (y : YokeId) (f : FoldId) (i : CoreIns) (op : BlockOp) (d src : Gpr) (ps pd : Word) :
    State :=
  match blockAlign ps false, blockAlign pd (op != .cmpm) with
  | some (v, a, sy), _ => s.trapOf y i v a sy
  | none, some (v, a, sy) => s.trapOf y i v a sy
  | none, none =>
    match s.blockPhys y f ps Need.read, s.blockPhys y f pd (if op = .cmpm then Need.read else Need.write) with
    | .inr (v, a, sy), _ =>
      if s.takes y v then s.blockReadFails y i src ps .accessViolation [] v sy else s.waits y
    | .inl _, .inr (v, a, sy) =>
      if op = .cmpm ∧ s.takes y v = true then s.blockReadFails y i d pd .accessViolation [] v sy else s.trapOf y i v a sy
    | .inl p, .inl q =>
      let k := s.yoke y
      if s.heldElsewhere y p || (op == .cmpm && s.heldElsewhere y q) || !k.trapReady ||
          (s.entryHeld y 0x03 && (s.readFails y p || (op == .cmpm && s.readFails y q))) then s.waits y
      else
        match op with
        | .cmpm =>
          s.blockReadThen y i src ps p fun s v st =>
            (s.setYoke y ((s.yoke y).pushPart (.blockRead src) (loadOut ps 16 .plain) [])).blockReadThen y i d pd q
              fun s w st2 =>
                let k2 := s.yoke y
                let r := i.run k2.lead ⟨[v, w], 0⟩
                s.setYoke y (k2.push i r.1 r.2 [(v, st), (w, st2)] none 0)
        | _ =>
          if !(k.whbRoom 1 || (k.mergeSlot q).isSome) then s.waits y
          else
            s.blockReadThen y i src ps p fun s v st =>
              let h := (s.yoke y).hold pd q 0xFFFF v false false false
              let r := i.run h.1.lead ⟨[v], 0⟩
              (s.setYoke y (h.1.push i r.1 r.2 [(v, st)] (some h.2) 0)).after96 y

/-- MOVM, FILLM and CMPM: one iteration (R169, R170, R194 to R197). -/
def State.issueBlock (s : State) (y : YokeId) (op : BlockOp) (rep : Rep) (d src : Gpr) : State :=
  let i : CoreIns := .block op rep d src
  s.lead y i 2 fun s =>
    let k := s.yoke y
    let c := i.sees k.lead
    match c.repCheck rep with
    | some (v, a, sy) => s.trapOf y i v a sy
    | none =>
      if c.ct = 0 then
        let r := i.run k.lead ⟨[], 0⟩
        s.setYoke y (k.push i r.1 r.2 [] none 0)
      else
        match s.foldOf y with
        | none => s
        | some f => s.blockIterate y f i op d src (c.rd src) (c.rd d)

/-- Bcc and LOOP are predicted: the leading core follows the prediction and keeps what it does otherwise (R177). -/
def State.issueBranch (s : State) (y : YokeId) (b : BranchOp) : State :=
  let i : CoreIns := .branch b
  s.lead y i 1 fun s =>
    let k := s.yoke y
    let c := k.lead
    if b.isPredicted then
      let p := b.predicted c
      let t := b.taken c
      let k1 := k.push i (b.apply c p) .none [] none 0
      s.setYoke y { k1 with branch := some ⟨k1.seq, decide (p ≠ t), b.apply c t, k1.retired⟩ }
    else
      let r := i.run c ⟨[], 0⟩
      s.setYoke y (k.push i r.1 r.2 [] none 0)

/-- Hand a float instruction to the float unit (R224, R226, R228). -/
def State.issueFloat (s : State) (y : YokeId) (fi : FloatIns) : State :=
  let i : CoreIns := .float fi
  s.lead y i 1 fun s =>
    let k := s.yoke y
    let v := fi.intOperand k.lead
    let out : BusOut := { BusOut.none with fl := some (fi.fhi, v) }
    let k1 := (k.push i (k.lead.step i.len) out [] none 0).lastUses (if fi.toCore then 1 else 0)
    s.setYoke y { k1 with fpu := { k1.fpu with queue := k1.fpu.queue ++ [⟨k1.seq, fi, v, k.lead, none⟩] } }

/-- A slip-collapsing instruction with no operands in memory arrives. -/
def State.issueCollapse (s : State) (y : YokeId) (o : CollapseOut) (len : Nat) (op : Core → CollapseOp) : State :=
  s.lead y (.collapse o) 1 fun s => s.arrive y (op (s.yoke y).lead) o len

/-- An atomic at its word (R188): alignment, read and write permission, then a memory bank. -/
def State.issueAtomic (s : State) (y : YokeId) (kind : AccKind) (m : MemAddr) (size len : Nat)
    (op : Core → Word → Nat → CollapseOp) : State :=
  let o : CollapseOut := .access kind size m
  s.lead y (.collapse o) 1 fun s =>
    let a := (s.yoke y).lead.ea m
    s.accessThen y a size Need.both fun s _ t =>
      match t.memPhys with
      | some p => s.arrive y (op (s.yoke y).lead a p) o len
      | none => s.trap y 0x04 a (accessCode size true false false 0)

/-- Length of an atomic: form M or MX with `extra` bytes for the operand byte and an immediate, and the prefixes WIDE and
ORD (Table 4.5, R146). -/
def atomicLen (wide ord : Bool) (m : MemAddr) (extra : Nat) : Nat := 2 + m.len + extra + wide.toNat + ord.toNat

/-- A register, or a pair under WIDE (R152). -/
def Core.wideReg (c : Core) (wide : Bool) (r : Gpr) : DWord := if wide then c.rdPair r else (c.rd r).zeroExtend 64

/-- The addend's register is a pair under WIDE. -/
def Addend.legal (a : Addend) (wide : Bool) : Bool :=
  match a with
  | .reg r => !wide || aligned r 2
  | .imm _ => true

/-- Bytes of FADD after the address: the operand byte, and the immediate. -/
def Addend.len (a : Addend) : Nat :=
  match a with
  | .reg _ => 1
  | .imm _ => 5

/-- The addend of FADD; an immediate is sign-extended under WIDE (R188). -/
def Core.addend (c : Core) (wide : Bool) (a : Addend) : DWord :=
  match a with
  | .reg r => c.wideReg wide r
  | .imm i => if wide then sext 64 i else i.zeroExtend 64

/-- TRAILING_COMPARE: the trailing core takes its oldest entry when R47 lets it. On a yoke under debug nothing is compared,
and an error detected in it aborts its task (R85). -/
def State.trailingCompare (s : State) (y : YokeId) (d : Disturb) : State :=
  let k := s.yoke y
  match k.cq with
  | [] => if k.unchecked && d.underDebug then s.debugError y else s
  | e :: _ => if k.trailMay (s.slipTarget y) && k.trailReady e then s.trailCycle y d else s

end Sys2Proof.Machine
end

