-- ==== Sys2Proof/Machine/FloatUnit.lean ====
section
/-! DEFINITION. The float unit: what a float instruction computes (R228 to R239), when it begins and retires (R225, R240
to R245). -/

namespace Sys2Proof.Machine

/-- Float registers a float instruction reads, its destination included where a part of it stays. -/
def FloatIns.sources (fi : FloatIns) : List Freg :=
  match fi with
  | .bin _ _ _ _ s b => [s, b]
  | .sqrt _ _ _ s => [s]
  | .fused _ _ _ d s b => [s, b, d]
  | .minmax _ _ _ _ s b => [s, b]
  | .cmp _ _ s b => [s, b]
  | .cls _ _ s => [s]
  | .neg _ _ s => [s]
  | .abs _ _ s => [s]
  | .rint _ _ _ _ s => [s]
  | .fmov _ s => [s]
  | .fmvg _ _ s => [s]
  | .fmvf _ d _ => [d]
  | .cvtif _ _ x d _ => if x then [d] else []
  | .cvtfi _ _ _ _ s => [s]
  | .cvtff _ x d s => if x then [s] else [s, d]
  | .fld x d => if x then [d] else []

/-- The instruction uses the iterative divider (R225). -/
def FloatIns.divides (fi : FloatIns) : Bool :=
  match fi with
  | .bin .div _ _ _ _ _ => true
  | .sqrt .. => true
  | _ => false

/-- Lane 0 of a float register. -/
def lane0 (v : DWord) : Nat := v.toNat % 2 ^ 32
/-- Lane 1 of a float register. -/
def lane1 (v : DWord) : Nat := v.toNat / 2 ^ 32
/-- A register from two lanes. -/
def lanes (l0 l1 : Nat) : DWord := BitVec.ofNat 64 (l0 % 2 ^ 32 + l1 % 2 ^ 32 * 2 ^ 32)

/-- An operation of one, two or three operands on the format or on both lanes (R230). -/
def onLanes (sgl : Bool) (f : FFmt → Nat → Nat → Nat → FRes) (a b c : DWord) : DWord × BitVec 5 × BitVec 5 :=
  if sgl then
    let r0 := f FFmt.s (lane0 a) (lane0 b) (lane0 c)
    let r1 := f FFmt.s (lane1 a) (lane1 b) (lane1 c)
    (lanes r0.bits r1.bits, r0.exc, r1.exc)
  else
    let r := f FFmt.d a.toNat b.toNat c.toNat
    (BitVec.ofNat 64 r.bits, r.exc, 0)

/-- The two-operand operations on decoded values. -/
def FBin.eval (op : FBin) (f : FFmt) (rm : BitVec 2) (uft : Bool) (a b : FVal) : FRes :=
  match op with
  | .add => fadd f rm uft a b
  | .sub => fadd f rm uft a b.negate
  | .mul => fmul f rm uft a b
  | .div => fdiv f rm uft a b

/-- The fused operations: S × B + D with the signs of Table 4.15. -/
def FFused.eval (op : FFused) (f : FFmt) (rm : BitVec 2) (uft : Bool) (a b d : FVal) : FRes :=
  match op with
  | .fma => ffma f rm uft a b d
  | .fms => ffma f rm uft a b d.negate
  | .fnma => ffma f rm uft a.negate b d
  | .fnms => ffma f rm uft a.negate b d.negate

/-- The result of a float instruction and the exceptions of its lanes: FCSR.RM and UFT as they stand when it begins
(R231, R233). For FLD the operand is the loaded data. -/
def FloatIns.compute (fi : FloatIns) (f : Vector DWord 16) (fcsr : Word) (operand : DWord) : DWord × BitVec 5 × BitVec 5 :=
  let uft := bit fcsr 9
  match fi with
  | .bin op sgl rnd _ s b =>
    onLanes sgl (fun fm x y _ => op.eval fm (rnd.mode fcsr) uft (fdecode fm x) (fdecode fm y)) f[s] f[b] 0
  | .sqrt sgl rnd _ s => onLanes sgl (fun fm x _ _ => fsqrt fm (rnd.mode fcsr) uft (fdecode fm x)) f[s] 0 0
  | .fused op sgl rnd d s b =>
    onLanes sgl (fun fm x y z => op.eval fm (rnd.mode fcsr) uft (fdecode fm x) (fdecode fm y) (fdecode fm z)) f[s] f[b] f[d]
  | .minmax isMax sgl x _ s b => onLanes sgl (fun fm u v _ => fminmax fm isMax x u v) f[s] f[b] 0
  | .cmp sgl x s b =>
    let r := if sgl then fcmp FFmt.s x (lane0 f[s]) (lane0 f[b]) else fcmp FFmt.d x f[s].toNat f[b].toNat
    (r.1.zeroExtend 64, r.2, 0)
  | .cls sgl _ s =>
    if sgl then (BitVec.ofNat 64 (fclass FFmt.s (lane0 f[s]) + fclass FFmt.s (lane1 f[s]) * 2 ^ 16), 0, 0)
    else (BitVec.ofNat 64 (fclass FFmt.d f[s].toNat), 0, 0)
  | .neg sgl _ s => (f[s] ^^^ (if sgl then 0x8000000080000000 else 0x8000000000000000), 0, 0)
  | .abs sgl _ s => (f[s] &&& (if sgl then 0x7FFFFFFF7FFFFFFF else 0x7FFFFFFFFFFFFFFF), 0, 0)
  | .rint sgl rnd x _ s => onLanes sgl (fun fm u _ _ => frint fm (rnd.mode fcsr) x u) f[s] 0 0
  | .fmov _ s => (f[s], 0, 0)
  | .fmvg x _ s => (BitVec.ofNat 64 (if x then lane1 f[s] else lane0 f[s]), 0, 0)
  | .fmvf x d _ =>
    (if x then lanes (lane0 f[d]) (lane0 operand) else lanes (lane0 operand) (lane1 f[d]), 0, 0)
  | .cvtif rnd u x d _ =>
    if x then
      let r := fcvtif FFmt.s (rnd.mode fcsr) u (operand.setWidth 32)
      (lanes r.bits (lane1 f[d]), r.exc, 0)
    else
      let r := fcvtif FFmt.d (rnd.mode fcsr) u (operand.setWidth 32)
      (BitVec.ofNat 64 r.bits, r.exc, 0)
  | .cvtfi rnd u x _ s =>
    let r := if x then fcvtfi FFmt.s (rnd.mode fcsr) u (lane0 f[s]) else fcvtfi FFmt.d (rnd.mode fcsr) u f[s].toNat
    (BitVec.ofNat 64 r.bits, r.exc, 0)
  | .cvtff rnd x d s =>
    if x then
      let r := fcvtff FFmt.s FFmt.d (rnd.mode fcsr) uft (lane0 f[s])
      (BitVec.ofNat 64 r.bits, r.exc, 0)
    else
      let r := fcvtff FFmt.d FFmt.s (rnd.mode fcsr) uft f[s].toNat
      (lanes r.bits (lane1 f[d]), r.exc, 0)
  | .fld x d => (if x then lanes (lane0 operand) (lane1 f[d]) else operand, 0, 0)

/-- The head of the issue queue can begin: its sources hold their values, FLD's data has come, the divider is free. -/
def Fpu.mayBegin (p : Fpu) (e : FpuEntry) : Bool :=
  (e.ins.sources.all fun r => p.busy.all fun b => b.ins.fdest != some r) &&
    (match e.ins with
      | .fld _ _ => e.data.isSome
      | _ => true) &&
    (!e.ins.divides || p.busy.all fun b => !b.ins.divides)

/-- Begin the instruction at the head of the issue queue (R225). -/
def Fpu.begin (p : Fpu) : Fpu :=
  match p.queue with
  | [] => p
  | e :: rest =>
    if p.mayBegin e then
      let r := e.ins.compute p.f p.fcsr (e.data.getD e.operand)
      { p with queue := rest, busy := p.busy ++ [⟨e.seq, e.ins, e.before, r.1, r.2.1, r.2.2⟩] }
    else p

/-- FLOAT_BEGIN on a yoke. -/
def State.floatBegin (s : State) (y : YokeId) : State :=
  let k := s.yoke y
  s.setYoke y { k with fpu := k.fpu.begin }

/-- The exceptions of an instruction whose trap enables are set (R242). -/
def FpuBusy.trapped (b : FpuBusy) (fcsr : Word) : Bool :=
  decide ((b.exc0 ||| b.exc1) &&& BitVec.ofNat 5 (fieldNat fcsr 12 8) ≠ 0)

/-- The oldest instruction in progress may retire: no older load is outstanding, it is not past an unresolved branch. -/
def Yoke.floatMayRetire (k : Yoke) (b : FpuBusy) : Bool :=
  (k.loads.all fun l => decide (b.seq ≤ l.seq)) && (match k.branch with
    | some br => decide (b.seq < br.seq)
    | none => true)

/-- Retire: write the destination and accrue the flags (R225, R240); a result for the core goes there (R226). -/
def Yoke.floatWrite (k : Yoke) (b : FpuBusy) (rest : List FpuBusy) : Yoke :=
  let fcsr := k.fpu.fcsr ||| (b.exc0 ||| b.exc1).zeroExtend 32
  let f := match b.ins.fdest with
    | some d => k.fpu.f.set d b.result
    | none => k.fpu.f
  let k1 := { k with fpu := { k.fpu with f := f, fcsr := fcsr, busy := rest } }
  let k2 := if b.ins.toCore then
      { k1 with
        lead := k1.lead.takeFloat b.ins (b.result.zeroExtend 128),
        lvq := if k1.unchecked then k1.lvq else k1.lvq ++ [lvqEntry b.seq .float (b.result.zeroExtend 128) .completed] }
    else k1
  k2.captureFloat

/-- FLOAT_RETIRE on a yoke: retirement, or vector 0x07 (R242). A result for the core waits while the data lane is full (R54). On a
yoke under debug a checkpoint that waited for the float unit is committed (R85). The float unit runs synchronously while a trap is
enabled (R241), so the trapping instruction is the latest the core has issued. -/
def State.floatRetire (s : State) (y : YokeId) : State :=
  let k := s.yoke y
  match k.fpu.busy with
  | [] => s
  | b :: rest =>
    if !k.floatMayRetire b || (b.ins.toCore && !k.unchecked && decide (k.lvq.length ≥ 64)) then s
    else if b.trapped k.fpu.fcsr then
      let k1 := { k with
        fetchReq := none, fetchBuf := [], fetchLane := if k.fetchReq.isSome then k.fetchLane.dropLast else k.fetchLane,
        lead := b.before, fpu := { k.fpu with queue := [], busy := [] }, ckptDue := false,
        cq := k.cq.map fun e => if e.seq = b.seq then { e with squashed := true, lvqUse := 0 } else e }
      if k1.trapReady && !s.entryHeld y 0x07 then
        (s.setYoke y k1).raise y 0x07 0 (b.exc0.zeroExtend 32 ||| (b.exc1.zeroExtend 32 <<< 8))
      else s
    else
      let s1 := s.setYoke y (k.floatWrite b rest)
      if k.unchecked then s1.commitUnchecked y else s1

end Sys2Proof.Machine
end

