-- ==== Sys2Proof/Machine/YokeOps.lean ====
section
/-! DEFINITION. The events of a yoke that are not instructions (load data, fetch blocks, branch resolution, event
acceptance), IRET, and the system register instructions. -/

namespace Sys2Proof.Machine

/-- An instruction between the entries `lo` and `hi` of the compare queue writes `r`. -/
def Yoke.writtenBetween (k : Yoke) (lo hi : Nat) (r : Gpr) : Bool :=
  k.cq.any fun e => decide (lo < e.seq) && decide (e.seq < hi) && e.op.writes.contains r

/-- The loaded words enter the registers no later instruction has written. -/
def Core.fill (c : Core) (ws : List (Gpr × Word)) (live : Gpr → Bool) : Core :=
  ws.foldl (fun c p => if live p.1 then c.wr p.1 p.2 else c) c

/-- The data of the oldest load reaches the core and the data lane (R55, R156), or the float unit alone: of FLD the lane carries
the status only (R58, R227). -/
def Yoke.takeLoad (k : Yoke) (l : PendLoad) (rest : List PendLoad) (v : QWord) (st : LoadStatus) : Yoke :=
  let told : QWord := match l.dest with
    | .freg _ _ => 0
    | .gpr _ _ => v
  let lvq := if k.unchecked then k.lvq else k.lvq ++ [lvqEntry l.seq .load told st]
  match l.dest with
  | .freg _ _ =>
    { k with
      loads := rest, lvq := lvq,
      fpu := { k.fpu with queue := k.fpu.queue.map fun e => if e.seq = l.seq then { e with data := some (v.setWidth 64) } else e } }
  | .gpr op d =>
    let ws := (regsFrom d op.count).zip (op.words v)
    let upd (seq : Nat) (c : Core) : Core :=
      if l.seq < seq then c.fill ws (fun r => !k.writtenBetween l.seq seq r) else c
    { k with
      loads := rest.map fun x => { x with before := upd x.seq x.before },
      lead := k.lead.fill ws l.live.contains,
      fpu := { k.fpu with queue := k.fpu.queue.map (fun e => { e with before := upd e.seq e.before }),
                          busy := k.fpu.busy.map fun e => { e with before := upd e.seq e.before } },
      branch := k.branch.map fun b => { b with resume := upd b.seq b.resume },
      lvq := lvq }

/-- The fetch lane without the blocks of the compare queue entries younger than `seq`, and of a fetch no entry has taken. -/
def Yoke.laneUpTo (k : Yoke) (seq : Nat) : List LaneBlock :=
  k.fetchLane.take (k.fetchLane.length - k.fetchReq.isSome.toNat -
    (k.cq.filter fun e => decide (seq < e.seq) && e.fetchOff.isSome).length)

/-- The oldest load met a bus error: what was issued after it is discarded, and its status waits for the trailing core
(R58, R270). -/
def Yoke.failLoad (k : Yoke) (l : PendLoad) (b : BitVec 3) (reps : List Report) : Yoke :=
  { k with
    lead := l.before, loads := [], ckptDue := false, fetchBuf := [], fetchReq := none, fetchLane := k.laneUpTo l.seq,
    branch := match k.branch with
      | some br => if br.seq > l.seq then none else some br
      | none => none,
    cq := k.cq.filter fun e => decide (e.seq ≤ l.seq),
    fpu := { k.fpu with
      queue := k.fpu.queue.filter (fun e => decide (e.seq < l.seq)), busy := k.fpu.busy.filter fun e => decide (e.seq < l.seq) },
    lvq := if k.unchecked then [] else k.lvq.filter (fun v => decide (v.seq < l.seq)) ++ [lvqEntry l.seq .load 0 (.busError b)],
    heldReports := k.heldReports ++ reps.map fun r => (l.seq, r) }

/-- Two loads go to one bank: of one memory, or both to none (R356). -/
def sameBank (a b : Nat) : Bool :=
  match memSite a, memSite b with
  | some (_, k1, i1, b1, _), some (_, k2, i2, b2, _) => k1 == k2 && i1 == i2 && b1 == b2
  | none, none => true
  | _, _ => false

/-- The `n`-th outstanding load can be performed: it has not been, every older load of its bank has (R356), and its word
holds no value that a bank has accepted and not made visible (R358). -/
def State.mayPerform (s : State) (y : YokeId) (n : Nat) (l : PendLoad) : Bool :=
  l.got.isNone && ((s.yoke y).loads.take n).all (fun x => x.got.isSome || !sameBank x.phys l.phys) && !s.heldElsewhere y l.phys

/-- The `n`-th outstanding load is performed at its bank, or in the buffer (R64, R184, R344); `e` is a disturbance of its
first codeword. The reports of a failed read stay with the load (R58). -/
def State.performLoad (s : State) (y : YokeId) (n : Nat) (e : CwFlip) : State :=
  let k := s.yoke y
  match k.loads[n]? with
  | none => s
  | some l =>
    if !s.mayPerform y n l then s
    else
      let own := k.covers l.phys l.size || decide (l.phys ≥ 0x0500000000)
      let s0 := if own then s else s.flip (l.phys / 8) e
      let s1 := if own then s else s0.misread (l.phys / 8) e.other
      let r : State × LoadStatus :=
        if k.covers l.phys l.size then (s1, .completed)
        else if own then (if s1.fabricDown l.phys l.size then (s1.fabricUp l.phys l.size, .busError 2) else (s1, .completed))
        else s1.decodeAccess l.phys l.size
      let failed : Bool := match r.2 with
        | .busError _ => true
        | _ => false
      let reps := if failed then r.1.reports.drop s1.reports.length else []
      let s2 := if failed then { r.1 with reports := s1.reports } else r.1
      (s2.asStored s0).setYoke y { k with loads := k.loads.set n { l with got := some ⟨s1.yokeRead k l.phys l.size, r.2, reps⟩ } }

/-- Fail the oldest load with a bus error once nothing older is outstanding (R58, R270). -/
def State.loadFails (s : State) (y : YokeId) (l : PendLoad) (b : BitVec 3) (reps : List Report) : State :=
  let k := s.yoke y
  let older : Bool := match k.branch with
    | some br => decide (br.seq < l.seq)
    | none => false
  let k1 := k.failLoad l b (if k.unchecked then [] else reps)
  if older || !k1.trapReady || s.entryHeld y 0x03 then s
  else
    let s1 := if k.unchecked then { s with reports := s.reports ++ reps } else s
    (s1.setYoke y k1).raise y 0x03 l.addr (accessCode l.size false false false b)

/-- The oldest load returns once it has been performed; it waits while the data lane is full (R54). -/
def State.retireLoad (s : State) (y : YokeId) : State :=
  let k := s.yoke y
  match k.loads with
  | [] => s
  | l :: rest =>
    match l.got with
    | none => s
    | some g =>
      if !k.unchecked && decide (k.lvq.length ≥ 64) then s
      else
        match g.status with
        | .busError b => s.loadFails y l b g.reports
        | st => s.setYoke y (k.takeLoad l rest g.value st)

/-- LOAD_COMPLETE: the `n`-th outstanding load is performed; every load that is performed, and no older one outstanding,
returns to the core. -/
def State.loadComplete (s : State) (y : YokeId) (n : Nat) (e : CwFlip) : State :=
  (List.range (s.yoke y).loads.length).foldl (fun s _ => s.retireLoad y) (s.performLoad y n e)

/-- BRANCH_RESOLVE (R177): a misprediction squashes the instructions issued past the branch. -/
def State.branchResolve (s : State) (y : YokeId) : State :=
  let k := s.yoke y
  match k.branch with
  | none => s
  | some b =>
    if !b.mispredicted then s.setYoke y { k with branch := none }
    else
      s.setYoke y { k with
        branch := none, lead := b.resume, retired := b.retired, wait := .none, fetchBuf := [], fetchReq := none,
        fetchLane := if k.fetchReq.isSome then k.fetchLane.dropLast else k.fetchLane,
        loads := k.loads.filter fun l => decide (l.seq < b.seq),
        fpu := { k.fpu with
          queue := k.fpu.queue.filter (fun e => decide (e.seq < b.seq)),
          busy := k.fpu.busy.filter fun e => decide (e.seq < b.seq) },
        cq := k.cq.map fun e =>
          if e.seq > b.seq then
            { e with squashed := true, lvqUse := if k.lvq.any (fun v => v.seq == e.seq) then e.lvqUse else 0 }
          else e }

/-- FETCH_COMPLETE: the 16-byte block `n` blocks after that of PC returns (R56, R168). `needed` are the bytes of it that
decoding needs, one bit each: their codewords are decoded (R344), and a failure of one of them raises its vector. `e` is a
disturbance of the block's first codeword. A pending event is accepted before the fault (R274). A block that returns while one waits for
its compare queue entry, which names one, or for room in the lane, is fetched again (R54). -/
def State.fetchComplete (s : State) (y : YokeId) (n : Nat) (needed : BitVec 16) (e : CwFlip) : State :=
  let k := s.yoke y
  match s.foldOf y with
  | none => s
  | some f =>
    if k.run ≠ .task ∨ k.collapse.isSome = true ∨ k.debug = .halted then s
    else
      let a := blockOf k.lead.pc + BitVec.ofNat 32 (16 * n)
      let fail (t : State) (vec : Byte) (b : BitVec 3) : State :=
        if needed = 0 then t
        else if s.eventWaits y then s.setYoke y { k with wait := .pipeline }
        else t.trap y vec a (accessCode 16 false true false b)
      match s.check f (spanOf y) k.lead.ring a 16 Need.exec with
      | some (.mem p) =>
        let halves := [0, 1].filter fun h => decide ((needed >>> (8 * h)).setWidth 8 ≠ (0 : BitVec 8))
        let s0 := s.flip (p / 8) e
        let r := halves.foldl (fun (x : State × Option (BitVec 3)) h => match x.2 with
          | some _ => x
          | none => match x.1.decodeAccess (p + 8 * h) 8 with
            | (s1, .busError b) => (s1, some b)
            | (s1, _) => (s1, none)) (s0.misread (p / 8) e.other, none)
        match r.2 with
        | some b => fail (r.1.asStored s0) 0x03 b
        | none =>
          if k.fetchReq.isSome || decide (k.fetchLane.length ≥ 32) then s
          else
          let q : QWord := BitVec.ofNat 128 (leValue (memRead r.1.mem p 16))
          (r.1.asStored s0).setYoke y { k with
            fetchBuf := a :: (k.fetchBuf.filter (· ≠ a)), fetchReq := some n,
            fetchLane := if k.unchecked then [] else k.fetchLane ++ [laneBlock q] }
      | _ => fail s 0x04 0

/-- EVENT_ACCEPT (R59, R259, R272 to R276). A span at rest is woken first (R562). -/
def State.eventAccept (s : State) (y : YokeId) : State :=
  let k := s.yoke y
  match s.foldOf y with
  | none => s
  | some f =>
    if !k.mayAccept || s.waitLate y then s
    else
      match s.nextEvent f y with
      | none => s
      | some e =>
        if s.entryHeld y e.vec then s
        else if (s.span (spanOf y)).power ≠ .run then s.wakeSpan (spanOf y)
        else
        let fo := s.fold f
        let s1 := s.setFold f { fo with
          events := fo.events.map fun x => if x.vec = e.vec then { x with reserved := some y } else x }
        let s2 := s1.setYoke y { k with run := .task, wait := .none }
        let r := s2.planEntry f y e.vec .deferrable e.info e.syn 0
        match r.2 with
        | .inl (en, phys) => r.1.entered y en (some e.vec) phys
        | .inr (v, i, sy) => r.1.escalate y f e.vec v true false i sy e.info e.syn 0 (some e.vec) (s.eventRing f y e.vec)

/-- The address of word `i` of the frame that IRET reads. -/
def Core.frameQuadAddr (c : Core) (i : Nat) : Word := c.spOf c.ring + BitVec.ofNat 32 (16 * i)

/-- The three 16-byte words IRET reads, which hold PC, ST, OSP, G14, LSINFO and LSOLD (R266, Table 7.5), in order: their
addresses are compared, and the first that cannot be read fails with its vector (R58). -/
inductive FrameRead
  | ok (s : State) (qs : List (QWord × LoadStatus))
  | fails (s : State) (vec : Byte) (info syn : Word)

/-- Read the frame's words from word `i` on, `n` of them; each is compared in an entry of its own, and all go to the trailing core
with the IRET. -/
def State.readFrame (s : State) (y : YokeId) (f : FoldId) (n i : Nat) (qs : List (QWord × LoadStatus)) : FrameRead :=
  match n with
  | 0 => .ok s qs
  | m + 1 =>
    let k := s.yoke y
    let a := k.lead.frameQuadAddr i
    let ins : CoreIns := .frameRead i
    let out := loadOut a 16 .plain
    match (s.check f (spanOf y) k.lead.ring a 16 Need.read).bind Target.memPhys with
    | none => .fails (s.setYoke y (k.pushFailed ins out .accessViolation [])) 0x04 a (accessCode 16 false false true 0)
    | some p =>
      let r : State × LoadStatus := if k.covers p 16 then (s, .completed) else s.decodeAccess p 16
      match r.2 with
      | .busError b =>
        let reps := r.1.reports.drop s.reports.length
        let s1 := if k.unchecked then r.1 else { r.1 with reports := s.reports }
        .fails (s1.setYoke y (k.pushFailed ins out (.busError b) reps)) 0x03 a (accessCode 16 false false true b)
      | st =>
        let q := s.yokeRead k p 16
        (r.1.setYoke y (k.pushPart ins out [])).readFrame y f m (i + 1) (qs ++ [(q, st)])

/-- A word of the frame holds a value that a bank has accepted and not made visible: the read waits (R358). -/
def State.frameHeld (s : State) (y : YokeId) (f : FoldId) : Bool :=
  let c := (s.yoke y).lead
  (List.range 3).any fun i => match (s.check f (spanOf y) c.ring (c.frameQuadAddr i) 16 Need.read).bind Target.memPhys with
    | some p => s.heldElsewhere y p
    | none => false

/-- The escalation slot whose frame lies at `a` (R278). A frame that the handler has moved off its place frees none, where the spec does
not say which slot then holds it (R266; DESIGN CHOICE, log entry 77). -/
def Fold.slotAt (fo : Fold) (a : Word) : Option Nat :=
  (List.range 32).find? fun i => (fo.esp &&& 0xFFFFFE00) + BitVec.ofNat 32 (512 * i + 384) == a

/-- The first check of IRET on the frame it has read that fails (R266). -/
def Core.iretRefuses (c : Core) (fr : Frame) : Bool :=
  let st' := fr[1]
  (bit st' 7 && !lsInfoValid fr[7]) || decide (fieldNat st' 6 5 < c.ring.toNat) ||
    (decide (c.ring.toNat ≥ 2) && bit st' 4 && !c.m)

/-- IRET releases the escalation slot that holds its frame (R266, R278), once its checkpoint is confirmed (R78). -/
def State.releaseSlot (s : State) (y : YokeId) (f : FoldId) : State :=
  let k := s.yoke y
  match k.lead.esc, (s.fold f).slotAt (k.lead.spOf k.lead.ring) with
  | true, some n => s.setYoke y { k with effects := k.effects ++ [.freeSlot n k.interval] }
  | _, _ => s

/-- A task whose abort is due (R285) stands at TEND's abort form and issues nothing else. -/
def State.abortDue (s : State) (y : YokeId) : State :=
  let k := s.yoke y
  if k.run = .task ∧ k.collapse.isNone = true ∧ k.lead.task.abort = .due then s.arrive y (.tend true) .none 0 else s

/-- SLIP_COLLAPSE_COMPLETE, for a task whose abort is due too. -/
def State.collapseStep (s : State) (y : YokeId) (d : Disturb) : State :=
  if (s.yoke y).collapse.isSome then s.collapseComplete y d else s.abortDue y

/-- IRET (R266). -/
def State.issueIret (s : State) (y : YokeId) : State :=
  s.lead y .iret 4 fun s =>
    match s.foldOf y with
    | none => s
    | some f =>
      let k := s.yoke y
      let a := k.lead.spOf k.lead.ring
      if !k.trapReady || s.frameHeld y f then s.waits y
      else if a.toNat % 16 ≠ 0 then s.trap y 0x02 a (accessCode 16 false false true 0)
      else
        match s.readFrame y f 3 0 [] with
        | .fails s1 v i sy => if s.entryHeld y v then s.waits y else s1.raise y v i sy
        | .ok s1 qs =>
          if k.lead.iretRefuses (frameOf (qs.map (·.1))) then (if s.entryHeld y 0x05 then s.waits y else s1.raise y 0x05 0 0)
          else
            let s2 := s1.releaseSlot y f
            let r := CoreIns.iret.run k.lead ⟨qs.map (·.1), 0⟩
            (s2.setYoke y ((s2.yoke y).push .iret r.1 r.2 qs none 0)).abortDue y

/-- MASK and UNMASK (R203). -/
def State.issueMask (s : State) (y : YokeId) (m : Bool) : State :=
  s.issueWhen y (.setM m) fun c => if c.ring.toNat ≥ 2 then some (0x05, 0, 0) else none

/-- BRK (Table 5.8). -/
def State.issueBrk (s : State) (y : YokeId) : State := s.lead y .ckpt 1 fun s => s.trap y 0x0A 0 0

/-- GATE and TRAP (R264). -/
def State.issueCall (s : State) (y : YokeId) (cause : EntryCause) (n : Byte) : State :=
  s.lead y .ckpt 1 fun s => s.call y cause n

/-- CKPT (R205). -/
def State.issueCkpt (s : State) (y : YokeId) : State :=
  s.lead y .ckpt 1 fun s =>
    let k := s.yoke y
    if k.pend.isSome then s.setYoke y { k with wait := .ckpt }
    else
      let r := CoreIns.ckpt.run k.lead ⟨[], 0⟩
      (s.setYoke y (k.push .ckpt r.1 r.2 [] none 0)).capture y

/-- SYSRD (R144, R202, R243). -/
def State.issueSysrd (s : State) (y : YokeId) (d : Gpr) (num : BitVec 12) : State :=
  let i : CoreIns := .sysrd d num
  s.lead y i 1 fun s =>
    let k := s.yoke y
    match sysPerm num k.lead.ring false, s.foldOf y with
    | .reserved, _ => s.trap y 0x01 0 0
    | .denied, _ => s.trap y 0x05 0 0
    | .ok, none => s
    | .ok, some f =>
      if num = 0x003 ∧ k.floatActive = true then s.waits y
      else
        match k.lead.sysRead num with
        | some _ =>
          let r := i.run k.lead ⟨[], 0⟩
          s.setYoke y (k.push i r.1 r.2 [] none 0)
        | none =>
          let v := s.sysReadOutside y f num
          let r := i.run k.lead ⟨[v.zeroExtend 128], 0⟩
          let latch := if num = 0x043 then [YokeEffect.nowHi (BitVec.ofNat 32 (s.now / 2 ^ 32)) k.interval] else []
          s.setYoke y { k.push i r.1 r.2 [(v.zeroExtend 128, .completed)] none 0 with effects := k.effects ++ latch }

/-- Execute a SYSWR to a register of the yoke. -/
def State.sysWriteIn (s : State) (y : YokeId) (num : BitVec 12) (src : Gpr) (vals : List (QWord × LoadStatus)) : State :=
  let k := s.yoke y
  let i : CoreIns := .syswr num src
  let r := i.run k.lead ⟨[], 0⟩
  s.setYoke y (k.push i r.1 r.2 vals none 0)

/-- SYSWR (R111, R137, R144, R201, R202, R243). -/
def State.issueSyswr (s : State) (y : YokeId) (num : BitVec 12) (src : Gpr) : State :=
  s.lead y (.syswr num src) 1 fun s =>
    let k := s.yoke y
    let c := k.lead
    let v := c.rd src
    match sysPerm num c.ring true, s.foldOf y with
    | .reserved, _ => s.trap y 0x01 0 0
    | .denied, _ => s.trap y 0x05 0 0
    | .ok, none => s
    | .ok, some f =>
      if sysOutside num then s.arrive y (.syswr num v) (.syswr num src) 4
      else
        match num.toNat with
        | 0x000 =>
          if c.ring.toNat ≥ 2 && bit v 4 != c.m then s.trap y 0x05 0 0 else s.sysWriteIn y num src []
        | 0x003 =>
          if k.floatActive then s.waits y
          else (s.setYoke y { k with fpu := { k.fpu with fcsr := v &&& 0x00031F1F } }).sysWriteIn y num src []
        | 0x040 =>
          let e := BitVec.ofNat 32 (s.curEpoch f)
          if oepochOk c.task.oepoch e (s.frameK f) v then s.sysWriteIn y num src [(e.zeroExtend 128, .completed)]
          else if s.takes y 0x0C then
            (s.setYoke y (k.pushPart (.epochCheck src (s.frameK f)) BusOut.none [(e.zeroExtend 128, .completed)])).raise y 0x0C 0 0x06
          else s.waits y
        | _ => s.sysWriteIn y num src []

/-- A task or channel instruction, WAIT or FENCE arrives with its register operands. -/
def State.issueTask (s : State) (y : YokeId) (len : Nat) (o : CollapseOut) (op : Core → CollapseOp) : State :=
  s.issueCollapse y o len op

/-- SAMPLE (R61, R209): the leading core reads channel A when it reaches the instruction; the pair-input unit keeps that freeze for
the trailing core's reading of channel B (R106). -/
def State.issueSample (s : State) (y : YokeId) (d : Gpr) (pair : Byte) : State :=
  s.lead y (.collapse (.sample pair)) 1 fun s =>
    match s.foldOf y with
    | none => s
    | some f => s.arrive y (.sample d pair (s.frozenOf f pair.toNat)) (.sample pair) 3

/-- SPAWN: alignment before arrival (R212, R288). -/
def State.issueSpawn (s : State) (y : YokeId) (src : Gpr) : State :=
  s.lead y (.collapse (.operand src)) 1 fun s =>
    let a := (s.yoke y).lead.rd src
    if a.toNat % 64 ≠ 0 then s.trap y 0x02 a (accessCode 64 false false false 0) else s.arrive y (.spawn a) (.operand src) 2

/-- JOIN: alignment and bank before arrival (R212, R306). -/
def State.issueJoin (s : State) (y : YokeId) (src : Gpr) : State :=
  s.lead y (.collapse (.operand src)) 1 fun s =>
    let a := (s.yoke y).lead.rd src
    if a.toNat % 4 ≠ 0 then s.trap y 0x02 a (accessCode 4 false false false 0)
    else
      match s.foldOf y with
      | none => s
      | some f =>
        match (s.check f (spanOf y) (s.yoke y).lead.ring a 4 Need.read).bind Target.memPhys with
        | some p => s.arrive y (.join a p) (.operand src) 2
        | none => s.trap y 0x04 a (accessCode 4 false false false 0)

/-- The WAIT of a yoke has timed out (R208). An event of the fc of the expiry wins, so the expiry acts when that fc is over
(log entry 62). -/
def State.waitTimeout (s : State) (y : YokeId) : State :=
  match (s.yoke y).run with
  | .waiting w => if s.waitLate y then s.endWait y w 0xFFFFFFFF else s
  | _ => s

/-- Level conditions end the waits of a fold that include them (R208). -/
def State.levelWaits (s : State) (f : FoldId) : State :=
  (s.foldYokes f).foldl (fun s y =>
    match (s.yoke y).run with
    | .waiting w => match s.waitLevel f w.set with
      | some b => if s.waitLate y then s else s.endWait y w (BitVec.ofNat 32 b)
      | none => s
    | _ => s) s

/-- CHECKPOINT_COUNT_TRIGGER and CHECKPOINT_TIME_TRIGGER: a trigger of Table 2.5 that has been reached takes its
checkpoint at the boundary. -/
def State.trigger (s : State) (y : YokeId) (due : Yoke → Bool) : State :=
  let k := s.yoke y
  if k.run = .task ∧ k.collapse.isNone = true ∧ k.debug ≠ .halted ∧ due k = true then s.capture y else s

/-- The trailing core has made no progress for 4,096 fc (Table 2.7, kind 0b1101), with the PC of its next instruction (R93).
The spec gives no FIRST and NDIFF for this kind: both are 0 (log entry 59). -/
def State.trailTimeout (s : State) (y : YokeId) : State :=
  let k := s.yoke y
  match k.cq with
  | [] => s
  | e :: _ => if s.clk.fc - k.trailFc ≥ 4096 then s.mismatch y 0xD 0 0 0 (k.trailAt e).inv.pc false else s

/-- The bytes at PC are refused in decoding: vector 0x00 or 0x01 (R167). -/
def State.decodeTrap (s : State) (y : YokeId) (bs : List Byte) (want : Decoded) : State :=
  if dreselDecode bs = want then
    s.lead y .nop 1 fun s => s.trap y (if want = .reserved then 0x01 else 0x00) 0 0
  else s

end Sys2Proof.Machine
end

