-- ==== Sys2Proof/Machine/Alu.lean ====
section
/-! DEFINITION. Meanings of the integer instructions: ALU, NOP, multiply, divide step and unary operations (chapters 4 and 6). -/

namespace Sys2Proof.Machine

/-- ADD (R214): adds the operand to D and sets Z, N, C and V. -/
def execAdd (y : YokeId) (wide : Bool) (rep : Rep) (d : Gpr) (a : AluArg)
    (s : State) : Host.Outcome State Fault Refusal :=
  .next (s.issueAlu y .add wide rep d a)

/-- ADC (R214): adds the operand and carry to D and sets the flags. -/
def execAdc (y : YokeId) (wide : Bool) (rep : Rep) (d : Gpr) (a : AluArg)
    (s : State) : Host.Outcome State Fault Refusal :=
  .next (s.issueAlu y .adc wide rep d a)

/-- SUB (R214): subtracts the operand from D, C a borrow. -/
def execSub (y : YokeId) (wide : Bool) (rep : Rep) (d : Gpr) (a : AluArg)
    (s : State) : Host.Outcome State Fault Refusal :=
  .next (s.issueAlu y .sub wide rep d a)

/-- SBC (R214): subtracts the operand and borrow from D. -/
def execSbc (y : YokeId) (wide : Bool) (rep : Rep) (d : Gpr) (a : AluArg)
    (s : State) : Host.Outcome State Fault Refusal :=
  .next (s.issueAlu y .sbc wide rep d a)

/-- AND (R161): bitwise AND into D, setting Z and N. -/
def execAnd (y : YokeId) (wide : Bool) (rep : Rep) (d : Gpr) (a : AluArg)
    (s : State) : Host.Outcome State Fault Refusal :=
  .next (s.issueAlu y .and wide rep d a)

/-- OR (R161): bitwise OR into D, setting Z and N. -/
def execOr (y : YokeId) (wide : Bool) (rep : Rep) (d : Gpr) (a : AluArg)
    (s : State) : Host.Outcome State Fault Refusal :=
  .next (s.issueAlu y .or wide rep d a)

/-- XOR (R161): bitwise XOR into D, setting Z and N. -/
def execXor (y : YokeId) (wide : Bool) (rep : Rep) (d : Gpr) (a : AluArg)
    (s : State) : Host.Outcome State Fault Refusal :=
  .next (s.issueAlu y .xor wide rep d a)

/-- ANDN (R161): D AND NOT operand into D, setting Z and N. -/
def execAndn (y : YokeId) (wide : Bool) (rep : Rep) (d : Gpr) (a : AluArg)
    (s : State) : Host.Outcome State Fault Refusal :=
  .next (s.issueAlu y .andn wide rep d a)

/-- SHL (R181): shifts D left, C the last bit out. -/
def execShl (y : YokeId) (wide : Bool) (rep : Rep) (d : Gpr) (a : AluArg)
    (s : State) : Host.Outcome State Fault Refusal :=
  .next (s.issueAlu y .shl wide rep d a)

/-- SHR (R181): shifts D right with zero fill. -/
def execShr (y : YokeId) (wide : Bool) (rep : Rep) (d : Gpr) (a : AluArg)
    (s : State) : Host.Outcome State Fault Refusal :=
  .next (s.issueAlu y .shr wide rep d a)

/-- SAR (R181): shifts D right with sign fill. -/
def execSar (y : YokeId) (wide : Bool) (rep : Rep) (d : Gpr) (a : AluArg)
    (s : State) : Host.Outcome State Fault Refusal :=
  .next (s.issueAlu y .sar wide rep d a)

/-- CMP (R214): sets the flags of D minus the operand. -/
def execCmp (y : YokeId) (wide : Bool) (rep : Rep) (d : Gpr) (a : AluArg)
    (s : State) : Host.Outcome State Fault Refusal :=
  .next (s.issueAlu y .cmp wide rep d a)

/-- TST (R161): sets Z and N of D AND operand. -/
def execTst (y : YokeId) (wide : Bool) (rep : Rep) (d : Gpr) (a : AluArg)
    (s : State) : Host.Outcome State Fault Refusal :=
  .next (s.issueAlu y .tst wide rep d a)

/-- MOV (R161): writes the operand to D. -/
def execMov (y : YokeId) (wide : Bool) (rep : Rep) (d : Gpr) (a : AluArg)
    (s : State) : Host.Outcome State Fault Refusal :=
  .next (s.issueAlu y .mov wide rep d a)

/-- NOP (R204): does nothing for 1 fc. -/
def execNop (y : YokeId) (s : State) : Host.Outcome State Fault Refusal :=
  .next (s.issue y .nop)

/-- MULS (R182): signed multiply, low 32 bits, V on overflow, early-ending latency. -/
def execMuls (y : YokeId) (d : Gpr) (src : Gpr) (s : State) : Host.Outcome State Fault Refusal :=
  .next (s.issueMul y .muls d src)

/-- MULU (R182): unsigned multiply, low 32 bits, V on overflow. -/
def execMulu (y : YokeId) (d : Gpr) (src : Gpr) (s : State) : Host.Outcome State Fault Refusal :=
  .next (s.issueMul y .mulu d src)

/-- MULWS (R182): signed 64-bit product into a register pair. -/
def execMulws (y : YokeId) (d : Gpr) (src : Gpr) (s : State) : Host.Outcome State Fault Refusal :=
  .next (s.issueMul y .mulws d src)

/-- MULWU (R182): unsigned 64-bit product into a register pair. -/
def execMulwu (y : YokeId) (d : Gpr) (src : Gpr) (s : State) : Host.Outcome State Fault Refusal :=
  .next (s.issueMul y .mulwu d src)

/-- DSTEP (R219): one unsigned division step on a register pair. -/
def execDstep (y : YokeId) (rep : Rep) (d : Gpr) (src : Gpr) (s : State) : Host.Outcome State Fault Refusal :=
  .next (s.issueDstep y false rep d src)

/-- DSTEPS (R220): one signed division step on a register pair. -/
def execDsteps (y : YokeId) (rep : Rep) (d : Gpr) (src : Gpr) (s : State) : Host.Outcome State Fault Refusal :=
  .next (s.issueDstep y true rep d src)

/-- DFIX (R221): sign correction of quotient and remainder after the division steps. -/
def execDfix (y : YokeId) (d : Gpr) (src : Gpr) (s : State) : Host.Outcome State Fault Refusal :=
  .next (if divLegal d src then s.issue y (.dfix d src) else s.illegal y)

/-- NEG (R214): D := 0 − S with flags as SUB. -/
def execNeg (y : YokeId) (d : Gpr) (src : Gpr) (s : State) : Host.Outcome State Fault Refusal :=
  .next (s.issue y (.un .neg d src))

/-- NOT (R162): D := NOT S. -/
def execNot (y : YokeId) (d : Gpr) (src : Gpr) (s : State) : Host.Outcome State Fault Refusal :=
  .next (s.issue y (.un .not d src))

/-- EXTB (R162): sign-extends byte S into D. -/
def execExtb (y : YokeId) (d : Gpr) (src : Gpr) (s : State) : Host.Outcome State Fault Refusal :=
  .next (s.issue y (.un .extb d src))

/-- EXTH (R162): sign-extends halfword S into D. -/
def execExth (y : YokeId) (d : Gpr) (src : Gpr) (s : State) : Host.Outcome State Fault Refusal :=
  .next (s.issue y (.un .exth d src))

/-- CLZ (R162): counts leading zero bits of S into D. -/
def execClz (y : YokeId) (d : Gpr) (src : Gpr) (s : State) : Host.Outcome State Fault Refusal :=
  .next (s.issue y (.un .clz d src))

end Sys2Proof.Machine
end

