-- ==== Sys2Proof/Machine/Control.lean ====
section
/-! DEFINITION. Meanings of the control transfer and system instructions (chapters 5 and 7). -/

namespace Sys2Proof.Machine

/-- BR (R154): branches to the target. -/
def execBr (y : YokeId) (t : BrTarget) (s : State) : Host.Outcome State Fault Refusal :=
  .next (s.issueBranch y (.br t))

/-- BCC (R155): conditional branch on the flags, statically predicted. -/
def execBcc (y : YokeId) (cond : BitVec 4) (t : BrTarget) (s : State) : Host.Outcome State Fault Refusal :=
  .next (if cond = 15 then s.illegal y else s.issueBranch y (.bcc cond t))

/-- BRL (R164): writes the return address to g15 and branches. -/
def execBrl (y : YokeId) (t : BrTarget) (s : State) : Host.Outcome State Fault Refusal :=
  .next (s.issueBranch y (.brl t))

/-- JR (R199): jumps to g[S]. -/
def execJr (y : YokeId) (src : Gpr) (s : State) : Host.Outcome State Fault Refusal :=
  .next (s.issueBranch y (.jr src))

/-- JRL (R199): jumps to g[S] and links in g15. -/
def execJrl (y : YokeId) (src : Gpr) (s : State) : Host.Outcome State Fault Refusal :=
  .next (s.issueBranch y (.jrl src))

/-- RET (R199): jumps to g15. -/
def execRet (y : YokeId) (s : State) : Host.Outcome State Fault Refusal :=
  .next (s.issueBranch y .ret)

/-- GATE (R264): enters a handler through gate descriptor n after the ordered checks. -/
def execGate (y : YokeId) (n : Byte) (s : State) : Host.Outcome State Fault Refusal :=
  .next (s.issueCall y .gate n)

/-- TRAP (R264): raises vector n through a trap descriptor. -/
def execTrap (y : YokeId) (n : Byte) (s : State) : Host.Outcome State Fault Refusal :=
  .next (s.issueCall y .trapIns n)

/-- IRET (R266): restores PC, ST, stack pointer, g14 and shadow from the frame as one step. -/
def execIret (y : YokeId) (s : State) : Host.Outcome State Fault Refusal :=
  .next (s.issueIret y)

/-- SYSC (R200): writes a 16-byte service request record to the fold's mailbox through the write-hold buffer. -/
def execSysc (y : YokeId) (n : Byte) (s : State) : Host.Outcome State Fault Refusal :=
  .next (s.issueSysc y n)

/-- LOOP (R199): decrements CT and branches while it is not zero. -/
def execLoop (y : YokeId) (disp : Half) (s : State) : Host.Outcome State Fault Refusal :=
  .next (s.issueBranch y (.loop (.rel disp)))

/-- SYSRD (R144): reads a system register, subject to ring and range checks. -/
def execSysrd (y : YokeId) (d : Gpr) (num : BitVec 12) (s : State) : Host.Outcome State Fault Refusal :=
  .next (s.issueSysrd y d num)

/-- SYSWR (R201): writes a system register; slip-collapsing where it acts outside the yoke. -/
def execSyswr (y : YokeId) (num : BitVec 12) (src : Gpr) (s : State) : Host.Outcome State Fault Refusal :=
  .next (s.issueSyswr y num src)

/-- FENCE (R206): checkpoints and waits for visibility; with C = 1 also refetches code. -/
def execFence (y : YokeId) (code : Bool) (s : State) : Host.Outcome State Fault Refusal :=
  .next (s.issueTask y 2 .none fun _ => .fence code)

/-- CKPT (R205): takes a checkpoint without collapsing the slip. -/
def execCkpt (y : YokeId) (s : State) : Host.Outcome State Fault Refusal :=
  .next (s.issueCkpt y)

/-- WAIT (R207): suspends the task until an event of the set or the timeout. -/
def execWait (y : YokeId) (d : Gpr) (src : Gpr) (s : State) : Host.Outcome State Fault Refusal :=
  .next (s.issueTask y 2 (.operand src) fun c => .wait d (c.rd src))

/-- WAIT_TIMEOUT (R208): A WAIT's timeout expires and D receives 0xFFFF_FFFF. -/
def execWaitTimeout (y : YokeId) (s : State) : Host.Outcome State Fault Refusal :=
  .next (s.waitTimeout y)

/-- SAMPLE (R209): returns the agreed value of an input pair from the two cores' sampler readings. -/
def execSample (y : YokeId) (d : Gpr) (pair : Byte) (s : State) : Host.Outcome State Fault Refusal :=
  .next (s.issueSample y d pair)

/-- MASK (R203): sets ST.M. -/
def execMask (y : YokeId) (s : State) : Host.Outcome State Fault Refusal :=
  .next (s.issueMask y true)

/-- UNMASK (R203): clears ST.M; a pending event is taken at the next boundary. -/
def execUnmask (y : YokeId) (s : State) : Host.Outcome State Fault Refusal :=
  .next (s.issueMask y false)

/-- BKLD (R204): loads BK from the immediate. -/
def execBkld (y : YokeId) (b : Byte) (s : State) : Host.Outcome State Fault Refusal :=
  .next (s.issue y (.bkld b))

/-- BRK (R199): raises vector 0x0A. -/
def execBrk (y : YokeId) (s : State) : Host.Outcome State Fault Refusal :=
  .next (s.issueBrk y)

/-- ST_WRITE (R137): SYSWR to ST writes the permitted fields, M only in rings 0 and 1. -/
def execStWrite (y : YokeId) (src : Gpr) (s : State) : Host.Outcome State Fault Refusal :=
  .next (s.issueSyswr y 0x000 src)

/-- FCSR_WRITE (R243): SYSWR to FCSR waits for earlier float instructions then takes effect. -/
def execFcsrWrite (y : YokeId) (src : Gpr) (s : State) : Host.Outcome State Fault Refusal :=
  .next (s.issueSyswr y 0x003 src)

/-- OEPOCH_WRITE (R111): SYSWR to OEPOCH accepts a value within the serial-number range, else raises vector 0x0C. -/
def execOepochWrite (y : YokeId) (src : Gpr) (s : State) : Host.Outcome State Fault Refusal :=
  .next (s.issueSyswr y 0x040 src)

/-- ESP_WRITE (R282): SYSWR to ESP is refused while an escalation slot is in use. -/
def execEspWrite (y : YokeId) (src : Gpr) (s : State) : Host.Outcome State Fault Refusal :=
  .next (s.issueSyswr y 0x012 src)

/-- SKSZ_WRITE (R283): SYSWR to SKSZ is refused with a K field outside 8 to 20. -/
def execSkszWrite (y : YokeId) (src : Gpr) (s : State) : Host.Outcome State Fault Refusal :=
  .next (s.issueSyswr y 0x013 src)

/-- CHBASE_WRITE (R312): SYSWR to CHBASE of the selected channel, refused while open. -/
def execChbaseWrite (y : YokeId) (src : Gpr) (s : State) : Host.Outcome State Fault Refusal :=
  .next (s.issueSyswr y 0x031 src)

/-- CHCFG_WRITE (R312): SYSWR to CHCFG opens or closes a channel or sets its depth, with checks. -/
def execChcfgWrite (y : YokeId) (src : Gpr) (s : State) : Host.Outcome State Fault Refusal :=
  .next (s.issueSyswr y 0x032 src)

end Sys2Proof.Machine
end

