-- ==== Sys2Proof/Machine/DmaRun.lean ====
section
/-! DEFINITION. Running a DMA channel (R372 to R399): reading its program, the instructions, bursts, waits, completion and
errors. -/

namespace Sys2Proof.Machine

/-- An error stops the channel (R393). -/
def State.dmaError (s : State) (c : DmaId) (code : Byte) : State :=
  let d := s.dmaCh c
  let s1 := s.setDma c { d with state := .error, err := code, xfer := none, wait := none }
  let es := s1.reg rDmaEngstat 0
  let es1 := setField es 15 0 (satNat 0xFFFF (fieldNat es 15 0 + 1))
  let es2 := if code = 0x0B then setField es1 31 16 (satNat 0xFFFF (fieldNat es1 31 16 + 1)) else es1
  let s2 := s1.setReg rDmaEngstat es2
  let s3 := match s.dmaFold c with
    | some f => s2.edge f 0x12 0 (BitVec.ofNat 32 (c.val + 0xFF00)) false
    | none => s2
  (s3.reportU 0x16 .dma c.val 0).retainAfter c

/-- A word a yoke's confirmed entry is about to change, accepted by its bank or still on its way (R358, R359, R379). -/
def State.heldAny (s : State) (a : Nat) : Bool :=
  s.yokes.any fun p => p.2.whb.any fun e => decide (e.phys / 16 = a / 16) && (match e.phase with
    | .accepted _ => true
    | .released => true
    | _ => false)

/-- The bank of a channel access is one Table 10.1 lists for memory. -/
def dmaMemBank (a : Word) (program : Bool) : Bool :=
  let b := fieldNat a 31 24
  (decide (0x80 ≤ b) && decide (b < 0xC0)) || (!program && decide (0x10 ≤ b) && decide (b < 0x50))

/-- The physical address of a channel's access of `n` bytes, when permitted (R372). -/
def State.dmaPhys (s : State) (f : FoldId) (d : Dma) (a : Word) (n : Nat) (need : Need) (program : Bool) : Option Nat :=
  if dmaMemBank a program && dmaMemBank (a + BitVec.ofNat 32 (n - 1)) program then
    match s.check f 0 d.ring a n need, s.check f 0 d.ring (a + BitVec.ofNat 32 (n - 1)) 1 need with
    | some (.mem p), some (.mem _) => some p
    | _, _ => none
  else none

/-- Read `n` bytes for a channel: the state with its error counts, and the bytes or the error code. -/
def State.dmaRead (s : State) (f : FoldId) (d : Dma) (a : Word) (n : Nat) (program : Bool) : State × (List Byte ⊕ Byte) :=
  match s.dmaPhys f d a n Need.read program with
  | none => (s, .inr 0x02)
  | some p =>
    let r := s.decodeAccess p n
    match r.2 with
    | .busError _ => (r.1, .inr 0x03)
    | _ => (r.1, .inl (memRead r.1.mem p n))

/-- A word of a channel's read holds an accepted value that is not yet visible: the read waits (R358). -/
def State.dmaHeld (s : State) (f : FoldId) (d : Dma) (a : Word) (n : Nat) (program : Bool) : Bool :=
  match s.dmaPhys f d a n Need.read program with
  | none => false
  | some p => (List.range ((p + n - 1) / 16 + 1 - p / 16)).any fun i => s.heldAny ((p / 16 + i) * 16)

/-- A word of a byte list. -/
def wordAt (bs : List Byte) (i : Nat) : Word := BitVec.ofNat 32 (leValue ((bs.drop i).take 4))

/-- A channel instruction (Table 10.2). -/
inductive DmaIns
  | move (df ind : Bool) (v : Word)
  | gather (df : Bool) (n : Nat) (list : Word)
  | scatter (n : Nat) (list : Word)
  | loop (n back : Nat)
  | wait (kind tmo : Nat) (addr : Word)
  | signal (v e : Bool) (code : Byte) (target : Byte)
  | check (ind clr : Bool) (v : Word)
  | endIns (sig : Bool)
deriving DecidableEq, Repr

/-- Decode the 8 bytes of a channel instruction; none is error 0x01 (R373). -/
def dmaDecode (bs : List Byte) : Option DmaIns :=
  let b (i : Nat) : Nat := (bs.getD i 0).toNat
  let h2 := b 2 + 256 * b 3
  let w := wordAt bs 4
  match b 0 with
  | 1 =>
    if b 1 ≥ 4 ∨ h2 ≠ 0 then none
    else
      let ind := decide (b 1 / 2 = 1)
      if !ind && decide (w.toNat < 1 ∨ w.toNat > 1048576) then none else some (.move (decide (b 1 % 2 = 1)) ind w)
  | 2 => if b 1 ≥ 2 ∨ h2 < 1 ∨ h2 > 4096 then none else some (.gather (decide (b 1 = 1)) h2 w)
  | 3 => if b 1 ≠ 0 ∨ h2 < 1 ∨ h2 > 4096 then none else some (.scatter h2 w)
  | 4 =>
    let back := b 4 + 256 * b 5
    if b 1 ≠ 0 ∨ h2 < 1 ∨ back < 1 ∨ back > 1023 ∨ b 6 ≠ 0 ∨ b 7 ≠ 0 then none else some (.loop h2 back)
  | 5 =>
    if b 1 < 1 ∨ b 1 > 4 then none
    else if b 1 ≠ 4 ∧ w ≠ 0 then none
    else some (.wait (b 1) h2 w)
  | 6 =>
    if b 1 ≥ 4 ∨ b 2 > 0xEF ∨ w ≠ 0 ∨ (b 1 < 2 ∧ b 3 ≠ 0) then none
    else some (.signal (decide (b 1 % 2 = 1)) (decide (b 1 / 2 = 1)) (BitVec.ofNat 8 (b 2)) (BitVec.ofNat 8 (b 3)))
  | 7 => if b 1 ≥ 4 ∨ h2 ≠ 0 then none else some (.check (decide (b 1 % 2 = 1)) (decide (b 1 / 2 = 1)) w)
  | 8 => if b 1 ≥ 2 ∨ h2 ≠ 0 ∨ w ≠ 0 then none else some (.endIns (decide (b 1 = 1)))
  | _ => none

/-- The next instruction of a running channel: read at CPC as data (R372, R373). -/
def State.dmaFetch (s : State) (f : FoldId) (d : Dma) : State × (DmaIns ⊕ Byte) :=
  if d.cpc.toNat % 8 ≠ 0 then (s, .inr 0x02)
  else
    let r := s.dmaRead f d d.cpc 8 true
    match r.2 with
    | .inr e => (r.1, .inr e)
    | .inl bs =>
      match dmaDecode bs with
      | some i => (r.1, .inl i)
      | none => (r.1, .inr 0x01)

/-- The destination's bank takes outputs (Table 10.1). -/
def isQueueBank (a : Word) : Bool := decide (0xF0 ≤ fieldNat a 31 24) && decide (fieldNat a 31 24 ≤ 0xF4)

/-- A channel ends its instruction: CPC advances by 8 (R374). -/
def Dma.advance (d : Dma) (now : Nat) : Dma := { d with cpc := d.cpc + 8, xfer := none, wait := none, entry := 0, wdFrom := now }

/-- Begin the next entry of a list, or end the instruction when the list is done (R374, R375). -/
def State.dmaNextEntry (s : State) (c : DmaId) (f : FoldId) (x : DmaXfer) : State :=
  let d := s.dmaCh c
  if x.next ≥ x.entries then s.setDma c (d.advance s.now)
  else
    let a := x.list + BitVec.ofNat 32 (8 * x.next)
    if s.dmaHeld f d a 8 false then s
    else
      let r := s.dmaRead f d a 8 false
      match r.2 with
      | .inr e => r.1.dmaError c e
      | .inl bs =>
        let len := (wordAt bs 4).toNat
        if len < 1 ∨ len > 1048576 then r.1.dmaError c 0x01
        else
          r.1.setDma c { d with
            xfer := some { x with next := x.next + 1, left := len, addr := wordAt bs 0 }, entry := BitVec.ofNat 12 x.next }

/-- DF is 1 for the queue banks and 0 elsewhere (R374). -/
def dfOk (dst : Word) (df : Bool) : Bool := df == isQueueBank dst

/-- The fold that owns a slot of the plan in effect (R412). -/
def State.slotFold (s : State) (i : Nat) : Option FoldId := ownerOf (kget s.slotPlan 0 i)
/-- The channel watchdog has expired in an earlier fabric cycle, so that a burst now is late (R388, R397). -/
def Dma.wdOver (d : Dma) (clk : Clock) : Bool :=
  (d.state == .running || d.state == .stopping) && decide (d.wdt ≠ 0) && clk.cyclePast (d.wdFrom + d.wdt * 1000)

/-- Bytes of the next burst (R385): at most 256, within a 256-byte boundary of source and, without DF, destination. -/
def burstLen (src dst : Word) (df : Bool) (left : Nat) : Nat :=
  let a := 256 - src.toNat % 256
  let b := if df then 256 else 256 - dst.toNat % 256
  min left (min a b)

/-- The source address of a channel's next burst. -/
def Dma.burstSrc (d : Dma) (x : DmaXfer) : Word := if x.op = 2 then x.addr else d.csrc
/-- The destination address of a channel's next burst. -/
def Dma.burstDst (d : Dma) (x : DmaXfer) : Word := if x.op = 3 then x.addr else d.cdst

/-- The channel has a burst to issue, and nothing holds its source back (R358, R386). -/
def State.dmaReady (s : State) (c : DmaId) : Bool :=
  let d := s.dmaCh c
  match d.xfer, s.dmaFold c with
  | some x, some f =>
    (d.state == .running || d.state == .stopping) && decide (x.left ≠ 0) &&
      !s.dmaHeld f d (d.burstSrc x) (burstLen (d.burstSrc x) (d.burstDst x) x.df x.left) false
  | _, _ => false

/-- The slot now running, counted from reset; slot `i mod 48` of its frame (R412). -/
def State.slotNow (s : State) : Nat := s.clk.fc / 2

/-- A transaction of the channel waits for a slot: a burst, a read of its program or of a list, a reading of a wait's word, or the read-back
of a stop (R371, R390). -/
def State.dmaWants (s : State) (c : DmaId) : Bool :=
  let d := s.dmaCh c
  (s.dmaFold c).isSome && (match d.state, d.xfer with
    | .running, some x => decide (x.left = 0) || s.dmaReady c
    | .running, none => true
    | .stopping, some x => (decide (x.left = 0) && d.lastWrite.isSome) || s.dmaReady c
    | .stopping, none => d.lastWrite.isSome
    | .waiting, _ => (match d.wait with
      | some w => decide (w.kind = 4) && decide (w.nextRead ≤ s.clk.fc)
      | none => false)
    | _, _ => false)

/-- A fold has a transaction waiting at an access point of the DMA engine. -/
def State.foldWants (s : State) (ap : Nat) (f : FoldId) : Bool :=
  (List.finRange 64).any fun c => decide (c.val / 8 = ap) && s.dmaFold c == some f && s.dmaWants c

/-- The fold an access point offers an unused slot to: the first with a transaction waiting, in rotating order after the fold that took
the last (R415). -/
def State.slotOffer (s : State) (ap : Nat) : Option FoldId :=
  let start := (kget s.slotLent 15 ap).val + 1
  ((List.range 16).map fun i => (Fin.ofNat 16 (start + i) : FoldId)).find? fun f => s.foldWants ap f

/-- The slot now running is offered to other folds at an access point: under ISO = 0 one of slots 0 to 46 that has no owner, or whose
owner has no transaction waiting there (R415). -/
def State.slotIdle (s : State) (ap : Nat) : Bool :=
  decide (s.slotNow % 48 ≠ 47) && !bit s.fmgrCtl 0 && (match s.slotFold (s.slotNow % 48) with
    | none => true
    | some g => !s.foldWants ap g)

/-- A transaction of the channel may enter in the slot now running: its fold's, or one offered to its fold, in which the access point has
issued none (R371, R386, R413, R415). -/
def State.dmaSlot (s : State) (c : DmaId) : Bool :=
  (s.slotFold (s.slotNow % 48) == s.dmaFold c || (s.slotIdle (c.val / 8) && s.slotOffer (c.val / 8) == s.dmaFold c)) &&
    (List.finRange 64).all fun b => decide (b.val / 8 ≠ c.val / 8) || (s.dmaCh b).slotAt != some s.slotNow

/-- The channel's transaction takes the slot; those that one command issues enter in one slot (log entry 64). -/
def State.dmaTake (s : State) (c : DmaId) : State :=
  let s1 := s.setDma c { s.dmaCh c with slotAt := some s.slotNow }
  match s.dmaFold c with
  | some f => if s.slotFold (s.slotNow % 48) = some f then s1 else { s1 with slotLent := kset s1.slotLent (c.val / 8) f }
  | none => s1

/-- What a busy channel does, unless its watchdog has expired, its sequencers disagree or its data path has a parity error
(R388, R395). -/
def State.dmaRuns (s : State) (c : DmaId) (flt : DmaFault) (act : FoldId → State) : State :=
  match s.dmaFold c with
  | none => s
  | some f =>
    if !(s.dmaCh c).busy then s
    else match flt with
      | .sequencer => s.dmaError c 0x0B
      | .parity => s.dmaError c 0x03
      | _ => if (s.dmaCh c).wdOver s.clk then s.dmaError c 0x09 else act f

/-- Act on an instruction fetched in the slot now running; the row's own instruction only. -/
def State.dmaAct (s : State) (c : DmaId) (flt : DmaFault) (want : DmaIns → Bool)
    (act : State → FoldId → Dma → DmaIns → State) : State :=
  s.dmaRuns c flt fun f =>
    let d := s.dmaCh c
    if d.state ≠ .running ∨ d.xfer.isSome = true ∨ s.dmaSlot c = false ∨ s.dmaHeld f d d.cpc 8 true = true then s
    else
      let r := (s.dmaTake c).dmaFetch f d
      match r.2 with
      | .inr e => r.1.dmaError c e
      | .inl i => if want i then act r.1 f { r.1.dmaCh c with wdFrom := s.now } i else s

/-- The channel's earlier transfers are complete (R389, R390): the last word it wrote is read back, and a difference, which `flt`
may bring about, is error 0x06. -/
def State.dmaComplete (s : State) (c : DmaId) (flt : DmaFault) (act : State → State) : State :=
  match (s.dmaCh c).lastWrite with
  | none => act s
  | some (w, bs) =>
    if s.heldAny (16 * w) then s
    else
      let r := s.decodeAccess (16 * w) 16
      match r.2 with
      | .busError _ => r.1.dmaError c 0x03
      | _ =>
        if flt = .readBack ∨ (bs.any fun b => memGet r.1.mem b.1 != b.2) = true then r.1.dmaError c 0x06
        else act (r.1.setDma c { (r.1.dmaCh c) with lastWrite := none })

/-- DMA_MOVE: the instruction begins; with IND = 1 its block is loaded first (R374). -/
def State.dmaMove (s : State) (c : DmaId) (flt : DmaFault) : State :=
  s.dmaAct c flt (fun i => match i with
    | .move .. => true
    | _ => false) fun s f d i =>
    match i with
    | .move df ind v =>
      if ind then
        if v.toNat % 16 ≠ 0 then s.dmaError c 0x02
        else if s.dmaHeld f d v 16 false then s
        else
          let r := s.dmaRead f d v 16 false
          match r.2 with
          | .inr e => r.1.dmaError c e
          | .inl bs =>
            let len := (wordAt bs 8).toNat
            if len < 1 ∨ len > 1048576 ∨ wordAt bs 12 ≠ 0 then r.1.dmaError c 0x01
            else if !dfOk (wordAt bs 4) df then r.1.dmaError c 0x02
            else r.1.setDma c { d with csrc := wordAt bs 0, cdst := wordAt bs 4, xfer := some ⟨1, 0, 0, 0, len, 0, df⟩ }
      else if !dfOk d.cdst df then s.dmaError c 0x02
      else s.setDma c { d with xfer := some ⟨1, 0, 0, 0, v.toNat, 0, df⟩ }
    | _ => s

/-- DMA_GATHER: begins at the list entry CLOOP.ENTRY names (R374, R384). -/
def State.dmaGather (s : State) (c : DmaId) (flt : DmaFault) : State :=
  s.dmaAct c flt (fun i => match i with
    | .gather .. => true
    | _ => false) fun s f d i =>
    match i with
    | .gather df n list =>
      if list.toNat % 8 ≠ 0 ∨ dfOk d.cdst df = false then s.dmaError c 0x02
      else if decide (d.entry.toNat < n) && s.dmaHeld f d (list + BitVec.ofNat 32 (8 * d.entry.toNat)) 8 false then s
      else (s.setDma c d).dmaNextEntry c f ⟨2, list, n, d.entry.toNat, 0, 0, df⟩
    | _ => s

/-- DMA_SCATTER (R374, R384). -/
def State.dmaScatter (s : State) (c : DmaId) (flt : DmaFault) : State :=
  s.dmaAct c flt (fun i => match i with
    | .scatter .. => true
    | _ => false) fun s f d i =>
    match i with
    | .scatter n list =>
      if list.toNat % 8 ≠ 0 then s.dmaError c 0x02
      else if decide (d.entry.toNat < n) && s.dmaHeld f d (list + BitVec.ofNat 32 (8 * d.entry.toNat)) 8 false then s
      else (s.setDma c d).dmaNextEntry c f ⟨3, list, n, d.entry.toNat, 0, 0, false⟩
    | _ => s

/-- DMA_LOOP (R376). -/
def State.dmaLoop (s : State) (c : DmaId) (flt : DmaFault) : State :=
  s.dmaAct c flt (fun i => match i with
    | .loop .. => true
    | _ => false) fun s _ d i =>
    match i with
    | .loop n back =>
      if d.loopAct && d.lpc != d.cpc then s.dmaError c 0x0A
      else
        let cnt := if d.loopAct then d.lcnt - 1 else BitVec.ofNat 16 (n - 1)
        let d1 := { d with loopAct := true, lcnt := cnt, lpc := d.cpc }
        s.setDma c (if cnt ≠ 0 then { d1 with cpc := d.cpc - BitVec.ofNat 32 (8 * back) }
          else { d1 with loopAct := false, cpc := d.cpc + 8 })
    | _ => s

/-- A reading of a wait's word for kind 0x04, once every 64 fc (Table 10.4): the state with the time of the next reading, and
whether the word is not zero. It waits for a slot, which `slot` gives (R371). -/
def State.dmaWaitRead (s : State) (c : DmaId) (f : FoldId) (d : Dma) (w : DmaWait) (slot : Bool) : State × (Bool ⊕ Byte) :=
  if s.clk.fc < w.nextRead ∨ slot = false ∨ s.dmaHeld f d w.addr 4 false = true then (s, .inl false)
  else
    let next := w.nextRead + 64 * ((s.clk.fc - w.nextRead) / 64 + 1)
    let s0 := s.dmaTake c
    let s1 := s0.setDma c { s0.dmaCh c with wait := some { w with nextRead := next } }
    let r := s1.dmaRead f d w.addr 4 false
    match r.2 with
    | .inr e => (r.1, .inr e)
    | .inl bs => (r.1, .inl (wordAt bs 0 != 0))

/-- The event of a wait has arrived in time: the state after looking, and whether it ends (Table 10.4, R396). -/
def State.dmaWaitDone (s : State) (c : DmaId) (f : FoldId) (d : Dma) (w : DmaWait) (slot : Bool) : State × (Bool ⊕ Byte) :=
  if w.kind = 4 ∧ w.late s.clk = false then s.dmaWaitRead c f d w slot else (s, .inl w.seen)

/-- End a wait by its event; kind 0x02 clears CEVT.EV. -/
def State.dmaEndWait (s : State) (c : DmaId) (w : DmaWait) : State :=
  let d := s.dmaCh c
  let d1 := { (d.advance s.now) with ev := if w.kind = 2 then false else d.ev }
  s.setDma c { d1 with state := if d.state = .waiting then .running else d.state }

/-- DMA_WAIT: the wait begins; a level condition that holds ends it at once (R377). -/
def State.dmaWait (s : State) (c : DmaId) (flt : DmaFault) : State :=
  s.dmaAct c flt (fun i => match i with
    | .wait .. => true
    | _ => false) fun s f d i =>
    match i with
    | .wait kind tmo addr =>
      if kind = 4 ∧ addr.toNat % 4 ≠ 0 then s.dmaError c 0x02
      else
        let w : DmaWait := ⟨kind, s.now, tmo, addr, kind == 2 && d.ev, s.clk.fc⟩
        let d1 := { d with state := .waiting, wait := some w }
        let r := (s.setDma c d1).dmaWaitDone c f d1 w true
        match r.2 with
        | .inr e => r.1.dmaError c e
        | .inl true => r.1.dmaEndWait c w
        | .inl false => r.1
    | _ => s

/-- DMA_WAIT_END (R377): the wait ends when its event has come before the expiry or in its fabric cycle. -/
def State.dmaWaitEnd (s : State) (c : DmaId) (flt : DmaFault) : State :=
  s.dmaRuns c flt fun f =>
    let d := s.dmaCh c
    match d.wait with
    | some w =>
      if d.state ≠ .waiting then s
      else
        let r := s.dmaWaitDone c f d w (s.dmaSlot c)
        match r.2 with
        | .inr e => r.1.dmaError c e
        | .inl true => r.1.dmaEndWait c w
        | .inl false => r.1
    | none => s

/-- DMA_WAIT_TIMEOUT: when the fabric cycle of the expiry is over and no event came in time (R377, R396; log entry 62). -/
def State.dmaWaitTimeout (s : State) (c : DmaId) : State :=
  let d := s.dmaCh c
  match d.wait with
  | some w =>
    if d.state ≠ .waiting ∨ (s.dmaFold c).isNone = true ∨ w.late s.clk = false then s
    else if w.seen then s.dmaEndWait c w
    else s.dmaError c 0x07
  | none => s

/-- An edge event reaches the waiting channels of a fold, or of every fold (Table 10.4). -/
def State.dmaEdge (s : State) (kind : Nat) (f : Option FoldId) : State :=
  { s with dma := s.dma.map fun p =>
      if f.isNone = true ∨ s.dmaFold p.1 = f then (p.1, p.2.arrives kind s.clk) else p }

/-- DMA_SIGNAL: after the earlier transfers are complete; `flt` is what the read-back meets (R374, R389, R390). -/
def State.dmaSignal (s : State) (c : DmaId) (flt : DmaFault) : State :=
  s.dmaAct c flt (fun i => match i with
    | .signal .. => true
    | _ => false) fun s f d i =>
    match i with
    | .signal v e code target =>
      s.dmaComplete c flt fun s =>
        let t : DmaId := Fin.ofNat 64 target.toNat
        if e && (decide (target.toNat ≥ 64) || s.dmaFold t != some f) then s.dmaError c 0x02
        else
          let s1 := s.setDma c ({ d with lastWrite := none }.advance s.now)
          let s2 := if e then s1.setDma t ((s1.dmaCh t).setEv s.clk) else s1
          if v then s2.edge f 0x12 0 (BitVec.ofNat 32 (c.val + 256 * code.toNat)) false else s2
    | _ => s

/-- DMA_CHECK (R374, R378). -/
def State.dmaCheck (s : State) (c : DmaId) (flt : DmaFault) : State :=
  s.dmaAct c flt (fun i => match i with
    | .check .. => true
    | _ => false) fun s f d i =>
    match i with
    | .check ind clr v =>
      if ind && s.dmaHeld f d v 4 false then s
      else
      let r : State × (Word ⊕ Byte) :=
        if ind then
          if v.toNat % 4 ≠ 0 then (s, .inr 0x02)
          else
            let q := s.dmaRead f d v 4 false
            match q.2 with
            | .inl bs => (q.1, .inl (wordAt bs 0))
            | .inr e => (q.1, .inr e)
        else (s, .inl v)
      match r.2 with
      | .inr e => r.1.dmaError c e
      | .inl exp =>
        if exp ≠ d.crc ^^^ 0xFFFFFFFF then r.1.dmaError c 0x08
        else r.1.setDma c ((if clr then { d with crc := 0xFFFFFFFF } else d).advance s.now)
    | _ => s

/-- DMA_END (R374, R384, R389): also when a stop came in the same fabric cycle, and then only END acts. -/
def State.dmaEnd (s : State) (c : DmaId) (flt : DmaFault) : State :=
  s.dmaRuns c flt fun f =>
    let d := s.dmaCh c
    let stopped := d.state == .stopping && decide (d.stopAt = s.clk.fc / 2)
    if !(d.state == .running || stopped) || d.xfer.isSome || !s.dmaSlot c || s.dmaHeld f d d.cpc 8 true then s
    else
      let r := (s.dmaTake c).dmaFetch f d
      match r.2 with
      | .inr e => if stopped then s else r.1.dmaError c e
      | .inl (.endIns sig) =>
        r.1.dmaComplete c flt fun s =>
          let s1 := s.setDma c { ({ s.dmaCh c with lastWrite := none }.advance s.now) with state := .done }
          (if sig then s1.edge f 0x12 0 (BitVec.ofNat 32 (c.val + 0xF000)) false else s1).retainAfter c
      | .inl _ => s

/-- The channel is at a boundary (R384). -/
def Dma.atBoundary (d : Dma) : Bool :=
  match d.xfer with
  | none => true
  | some x => x.op != 1 && decide (x.left = 0)

/-- DMA_STOP_EFFECT: at a boundary, its transfers complete, the channel enters stopped (R384, R389). What the channel wrote last is read
back in a slot (R371). -/
def State.dmaStopEffect (s : State) (c : DmaId) (flt : DmaFault) : State :=
  s.dmaRuns c flt fun _ =>
    let d := s.dmaCh c
    if d.state = .stopping ∧ d.atBoundary = true ∧ (d.lastWrite.isNone || s.dmaSlot c) = true then
      (if d.lastWrite.isSome then s.dmaTake c else s).dmaComplete c flt fun s =>
        (s.setDma c { s.dmaCh c with state := .stopped, xfer := none, wait := none, lastWrite := none }).retainAfter c
    else s

/-- The access point issues this channel's burst next (R371, R386): no ready channel of its fold there has a higher
priority, and none of equal priority was served less recently, the lower number first. -/
def State.dmaFirst (s : State) (c : DmaId) : Bool :=
  let d := s.dmaCh c
  s.dmaReady c && (List.finRange 64).all fun b =>
    let e := s.dmaCh b
    decide (b = c) || decide (b.val / 8 ≠ c.val / 8) || s.dmaFold b != s.dmaFold c || !s.dmaReady b ||
      decide (e.prio.toNat < d.prio.toNat) ||
      (e.prio == d.prio && (decide (d.served < e.served) || (d.served == e.served && decide (c < b))))

/-- The order number of the burst now issued (R386). -/
def State.dmaServed (s : State) : Nat := s.dma.foldl (fun n e => max n e.2.served) 0 + 1

/-- The bytes of a written range by address, which lie in its last 16-byte word, after those of an earlier write of the word that it
leaves (R389). -/
def lastWord (old : Option (Nat × List (Nat × Byte))) (p : Nat) (bs : List Byte) : Option (Nat × List (Nat × Byte)) :=
  let w := (p + bs.length - 1) / 16
  let new := (bs.zipIdx.map fun b => (p + b.2, b.1)).filter fun b => decide (b.1 / 16 = w)
  match old with
  | some (v, l) => if v = w then some (w, (l.filter fun b => !(new.any fun n => n.1 == b.1)) ++ new) else some (w, new)
  | none => some (w, new)

/-- A channel after a burst of `n` bytes (R374, R385, R388, R401): the instruction ends with its last byte, and a list entry that has
ended leaves the next one's index in CLOOP.ENTRY. -/
def Dma.bursted (d : Dma) (x : DmaXfer) (bs : List Byte) (now : Nat) : Dma :=
  let n := bs.length
  let inc := BitVec.ofNat 32 n
  let d1 := { d with
    crc := crc32cRun d.crc bs, wdFrom := now,
    csrc := if x.op = 2 then d.csrc else d.csrc + inc,
    cdst := if x.op = 3 ∨ x.df = true then d.cdst else d.cdst + inc,
    entry := if x.op ≠ 1 ∧ x.left = n then BitVec.ofNat 12 x.next else d.entry,
    xfer := some { x with left := x.left - n, addr := if x.op = 1 then 0 else x.addr + inc } }
  if x.left = n ∧ (x.op = 1 ∨ x.next ≥ x.entries) then d1.advance now else d1

/-- The bytes of a burst reach their destination: a queue of the fold, or memory (R374, R392, R398). `d1` is the channel after the
burst; a burst that fails leaves the channel at its instruction with the CRC of the bytes it read, and served (R386). -/
def State.dmaDeliver (s : State) (c : DmaId) (f : FoldId) (d d1 : Dma) (x : DmaXfer) (bs : List Byte) : State :=
  let dst := d.burstDst x
  let n := bs.length
  let crc := crc32cRun d.crc bs
  if isQueueBank dst then
    let bank := fieldNat dst 31 24
    let off := fieldNat dst 23 0
    if x.op = 3 ∨ s.isTxWindow f bank off = false ∨ (s.check f 0 d.ring dst n Need.write).isNone = true then s.dmaError c 0x02
    else
      let q := s.enterOutput f (outputDest bank off) bs false d.oepoch ⟨d.cpc, some (c, d1.seq)⟩
      if !q.2 then (q.1.setDma c { d with crc := crc }).dmaError c 0x05
      else q.1.setDma c (if bank = 0xF4 then { d1 with seq := d1.seq + 1 } else d1)
  else
    match s.dmaPhys f d dst n Need.write false with
    | none => s.dmaError c 0x02
    | some p =>
      let w := s.bankWrite p (bs.zipIdx.map fun b => (b.2, b.1))
      if w.2 then w.1.setDma c { d1 with lastWrite := lastWord d.lastWrite p bs }
      else (w.1.setDma c { d with crc := crc }).dmaError c 0x04

/-- DMA_BURST: one burst of the channel's transfer in a slot of its fold (R385, R386, R389, R392, R395, R398). -/
def State.dmaBurst (s : State) (c : DmaId) (flt : DmaFault) : State :=
  s.dmaRuns c flt fun f =>
    let d := s.dmaCh c
    match d.xfer with
    | none => s
    | some x =>
      if d.state = .waiting then s
      else if x.left = 0 then
        if d.state = .stopping ∨ s.dmaSlot c = false then s else (s.dmaTake c).dmaNextEntry c f x
      else if !s.dmaFirst c || !s.dmaSlot c then s
      else
        let d1 := { d with served := s.dmaServed, slotAt := some s.slotNow }
        let r := ((s.dmaTake c).setDma c d1).dmaRead f d1 (d.burstSrc x) (burstLen (d.burstSrc x) (d.burstDst x) x.df x.left) false
        match r.2 with
        | .inr e => r.1.dmaError c e
        | .inl bs => r.1.dmaDeliver c f d1 (d1.bursted x bs s.now) x bs

/-- DMA_WATCHDOG_EXPIRY (R388, R397): paused while waiting; a burst of the fabric cycle of the expiry wins. -/
def State.dmaWatchdog (s : State) (c : DmaId) : State := if (s.dmaCh c).wdOver s.clk then s.dmaError c 0x09 else s

/-- DMA_BULK_STOP: STOPLO or STOPHI (R402). -/
def State.dmaBulkStop (s : State) (hi : Bool) (v : Word) : State :=
  (List.range 32).foldl (fun s i =>
    let c : DmaId := Fin.ofNat 64 (i + (if hi then 32 else 0))
    if bit v i then s.setDma c ((s.dmaCh c).stop s.clk) else s) s

/-- A posted write of fold `f` formed from a channel's burst was not delivered (R399): vector 0x0E for the fold; the number is latched
in CDEFER while the channel is still the fold's (log entry 63). -/
def State.dmaDefer (s : State) (f : FoldId) (c : DmaId) (seq : Half) (pc : Word) : State :=
  let d := s.dmaCh c
  let d1 := if d.defValid then { d with defOvr := true } else { d with defValid := true, defSeq := seq }
  let s1 := if s.dmaFold c = some f then s.setDma c d1 else s
  s1.pendEvent f 0x0E pc (BitVec.ofNat 32 (seq.toNat + c.val * 65536))

/-- A store of CCTL or CEVT takes effect for a channel of the fold (R379). -/
def State.dmaStore (s : State) (c : DmaId) (off : Nat) (v : Word) (ring : BitVec 2) (oepoch : Word) : State :=
  if (s.dmaFold c).isSome then s.setDma c ((s.dmaCh c).write off v ring oepoch s.clk) else s

end Sys2Proof.Machine
end

