-- ==== Sys2Proof/Machine/DmaEvents.lean ====
section
/-! DEFINITION. Meanings of the DMA commands and events (chapter 10). -/

namespace Sys2Proof.Machine

/-- DMA_START (R382): A confirmed store of CCTL.START starts a channel, recording ring and OEPOCH. -/
def execDmaStart (c : DmaId) (v : Word) (ring : BitVec 2) (oepoch : Word)
    (s : State) : Host.Outcome State Fault Refusal :=
  .next (s.dmaStore c 0x00 ((v ||| 0x80000000) &&& 0xBFFFFFFF) ring oepoch)

/-- DMA_STOP (R384): A store of CCTL.STOP requests a stop at the channel's next boundary. -/
def execDmaStop (c : DmaId) (s : State) : Host.Outcome State Fault Refusal :=
  .next (s.dmaStore c 0x00 0x40000000 0 0)

/-- DMA_STOP_EFFECT (R384): at its next boundary and after completion the channel enters stopped. -/
def execDmaStopEffect (c : DmaId) (flt : DmaFault) (s : State) : Host.Outcome State Fault Refusal :=
  .next (s.dmaStopEffect c flt)

/-- DMA_BULK_STOP (R402): A Drover write of DMA.STOPLO or STOPHI stops each selected channel. -/
def execDmaBulkStop (hi : Bool) (v : Word) (s : State) : Host.Outcome State Fault Refusal :=
  .next (s.whenFirmware fun s => s.dmaBulkStop hi v)

/-- DMA_MOVE (R374): channel instruction copying a length from CSRC to CDST. -/
def execDmaMove (c : DmaId) (flt : DmaFault) (s : State) : Host.Outcome State Fault Refusal :=
  .next (s.dmaMove c flt)

/-- DMA_GATHER (R374): channel instruction copying list entries to CDST. -/
def execDmaGather (c : DmaId) (flt : DmaFault) (s : State) : Host.Outcome State Fault Refusal :=
  .next (s.dmaGather c flt)

/-- DMA_SCATTER (R374): channel instruction copying from CSRC to list entries. -/
def execDmaScatter (c : DmaId) (flt : DmaFault) (s : State) : Host.Outcome State Fault Refusal :=
  .next (s.dmaScatter c flt)

/-- DMA_LOOP (R376): channel instruction repeating the preceding B instructions N times. -/
def execDmaLoop (c : DmaId) (flt : DmaFault) (s : State) : Host.Outcome State Fault Refusal :=
  .next (s.dmaLoop c flt)

/-- DMA_WAIT (R377): channel instruction waiting for an event kind or timeout. -/
def execDmaWait (c : DmaId) (flt : DmaFault) (s : State) : Host.Outcome State Fault Refusal :=
  .next (s.dmaWait c flt)

/-- DMA_WAIT_END (R377): the awaited event arrives and the channel wait ends. -/
def execDmaWaitEnd (c : DmaId) (flt : DmaFault) (s : State) : Host.Outcome State Fault Refusal :=
  .next (s.dmaWaitEnd c flt)

/-- DMA_WAIT_TIMEOUT (R377): A channel wait's timeout expires and stops the channel with error 0x07. -/
def execDmaWaitTimeout (c : DmaId) (s : State) : Host.Outcome State Fault Refusal :=
  .next (s.dmaWaitTimeout c)

/-- DMA_SIGNAL (R374): channel instruction raising vector 0x12 or setting another channel's CEVT after completion. -/
def execDmaSignal (c : DmaId) (flt : DmaFault) (s : State) : Host.Outcome State Fault Refusal :=
  .next (s.dmaSignal c flt)

/-- DMA_CHECK (R378): channel instruction comparing the running CRC-32C with an expected value. -/
def execDmaCheck (c : DmaId) (flt : DmaFault) (s : State) : Host.Outcome State Fault Refusal :=
  .next (s.dmaCheck c flt)

/-- DMA_END (R374): channel instruction setting the channel done once its transfers are complete. -/
def execDmaEnd (c : DmaId) (flt : DmaFault) (s : State) : Host.Outcome State Fault Refusal :=
  .next (s.dmaEnd c flt)

/-- DMA_BURST (R385): an access point issues a channel's next burst in one of the fold's slots. -/
def execDmaBurst (c : DmaId) (flt : DmaFault) (s : State) : Host.Outcome State Fault Refusal :=
  .next (s.dmaBurst c flt)

/-- DMA_WATCHDOG_EXPIRY (R388): WDT µs pass without a restart and the channel stops with error 0x09. -/
def execDmaWatchdogExpiry (c : DmaId) (s : State) : Host.Outcome State Fault Refusal :=
  .next (s.dmaWatchdog c)

/-- CEVT_SET (R401): A store to CEVT.EV sets the channel event flag. -/
def execCevtSet (c : DmaId) (s : State) : Host.Outcome State Fault Refusal :=
  .next (s.dmaStore c 0x1C 1 0 0)

end Sys2Proof.Machine
end

