-- ==== Sys2Proof/Machine/Crypto.lean ====
section
/-! DEFINITION. The cryptographic functions the device names by their standards: AES-256 (FIPS 197), GCM and GMAC
(SP 800-38D), SHA-384 (FIPS 180-4), ECDSA over P-384 (FIPS 186-5). The spec names the standards; their contents are PRESUMED
(log entry 20). -/

namespace Sys2Proof.Machine

/-- Multiplication by x in the field of AES. -/
def gfDouble (b : Byte) : Byte := if b.msb then (b <<< 1) ^^^ 0x1B else b <<< 1

/-- Multiplication in the field of AES, `n` bits of `a`. -/
def gfMul (a b : Byte) (n : Nat) : Byte :=
  match n with
  | 0 => 0
  | k + 1 => (if a.getLsbD 0 then b else 0) ^^^ gfMul (a >>> 1) (gfDouble b) k

/-- The 2^n-th power. -/
def gfSquares (a : Byte) (n : Nat) : Byte :=
  match n with
  | 0 => a
  | k + 1 => let s := gfMul a a 8; gfSquares s k

/-- The inverse, a to the power 254. -/
def gfInv (a : Byte) : Byte := (List.range 7).foldl (fun r i => gfMul r (gfSquares a (i + 1)) 8) 1

/-- The S-box. -/
def sbox (a : Byte) : Byte :=
  let x := gfInv a
  x ^^^ x.rotateLeft 1 ^^^ x.rotateLeft 2 ^^^ x.rotateLeft 3 ^^^ x.rotateLeft 4 ^^^ 0x63

/-- A 32-bit word through the S-box. -/
def subWord (w : Word) : Word :=
  sbox (w.extractLsb' 24 8) ++ sbox (w.extractLsb' 16 8) ++ sbox (w.extractLsb' 8 8) ++ sbox (w.extractLsb' 0 8)

/-- The round constant. -/
def rcon (n : Nat) : Byte :=
  match n with
  | 0 => 1
  | k + 1 => gfDouble (rcon k)

/-- One step of the key expansion: the words so far, newest first. -/
def expandStep (ws : List Word) (i : Nat) : List Word :=
  let t := ws.headD 0
  let t' := if i % 8 = 0 then subWord (t.rotateLeft 8) ^^^ ((rcon (i / 8 - 1)).zeroExtend 32 <<< 24)
    else if i % 8 = 4 then subWord t else t
  ((ws.getD 7 0) ^^^ t') :: ws

/-- The 60 words of the key schedule; the key's first byte is the highest of its first word. -/
def aesSchedule (key : List Byte) : List Word :=
  let k := (List.range 8).map fun i =>
    (key.getD (4 * i) 0) ++ (key.getD (4 * i + 1) 0) ++ (key.getD (4 * i + 2) 0) ++ (key.getD (4 * i + 3) 0)
  ((List.range 52).foldl (fun ws i => expandStep ws (i + 8)) k.reverse).reverse

/-- A round key as 16 bytes. -/
def roundKey (ws : List Word) (r : Nat) : List Byte :=
  (List.range 16).map fun i => (ws.getD (4 * r + i / 4) 0).extractLsb' (24 - 8 * (i % 4)) 8

/-- Bytes xored in pairs. -/
def xorBytes (a b : List Byte) : List Byte := (a.zip b).map fun p => p.1 ^^^ p.2

/-- SubBytes and ShiftRows. -/
def subShift (s : List Byte) : List Byte :=
  (List.range 16).map fun i => sbox (s.getD ((i + 4 * (i % 4)) % 16) 0)

/-- MixColumns. -/
def mixColumns (s : List Byte) : List Byte :=
  (List.range 16).map fun i =>
    let c := i / 4 * 4
    let b (j : Nat) : Byte := s.getD (c + (i + j) % 4) 0
    gfDouble (b 0) ^^^ (gfDouble (b 1) ^^^ b 1) ^^^ b 2 ^^^ b 3

/-- AES-256 encryption of one block of 16 bytes. -/
def aesBlock (ws : List Word) (s : List Byte) : List Byte :=
  let s0 := xorBytes s (roundKey ws 0)
  let s13 := (List.range 13).foldl (fun s r => xorBytes (mixColumns (subShift s)) (roundKey ws (r + 1))) s0
  xorBytes (subShift s13) (roundKey ws 14)

/-- A number from bytes, the first the highest. -/
def beValue (bs : List Byte) : Nat := bs.foldl (fun n b => n * 256 + b.toNat) 0

/-- `n` bytes of a number, the highest first. -/
def beBytes (v n : Nat) : List Byte := (leBytes v n).reverse

/-- Multiplication in the field of GHASH, `n` bits of `x` from the highest. -/
def ghashMul (x v : QWord) (n : Nat) : QWord :=
  match n with
  | 0 => 0
  | k + 1 =>
    (if x.msb then v else 0) ^^^
      ghashMul (x <<< 1) (if v.getLsbD 0 then (v >>> 1) ^^^ (0xE1 : QWord) <<< 120 else v >>> 1) k

/-- Cut bytes into blocks of 16, the last filled with zeros; `n` bounds the number of blocks. -/
def blocks16 (bs : List Byte) (n : Nat) : List QWord :=
  match n with
  | 0 => []
  | k + 1 =>
    if bs.isEmpty then []
    else BitVec.ofNat 128 (beValue (bs.take 16 ++ List.replicate (16 - (bs.take 16).length) 0)) :: blocks16 (bs.drop 16) k

/-- GHASH of additional data and ciphertext. -/
def ghash (h : QWord) (aad ct : List Byte) : QWord :=
  let lens : QWord := BitVec.ofNat 128 (aad.length * 8 * 2 ^ 64 + ct.length * 8)
  (blocks16 aad aad.length ++ blocks16 ct ct.length ++ [lens]).foldl (fun y x => ghashMul (y ^^^ x) h 128) 0

/-- The key stream of GCM for counter block `c` onward. -/
def gctr (ws : List Word) (iv : List Byte) (c : Nat) (bs : List Byte) (n : Nat) : List Byte :=
  match n with
  | 0 => []
  | k + 1 =>
    if bs.isEmpty then []
    else xorBytes (bs.take 16) (aesBlock ws (iv ++ beBytes c 4)) ++ gctr ws iv (c + 1) (bs.drop 16) k

/-- The tag of AES-256-GCM for a 96-bit IV. -/
def gcmTag (key iv aad ct : List Byte) : List Byte :=
  let ws := aesSchedule key
  let h : QWord := BitVec.ofNat 128 (beValue (aesBlock ws (List.replicate 16 0)))
  xorBytes (beBytes (ghash h aad ct).toNat 16) (aesBlock ws (iv ++ beBytes 1 4))

/-- AES-256-GCM in counter mode; encryption and decryption are the same. -/
def gcmCrypt (key iv bs : List Byte) : List Byte := gctr (aesSchedule key) iv 2 bs bs.length

/-- The constants of SHA-384's rounds. -/
def shaK : List DWord :=
  [0x428A2F98D728AE22, 0x7137449123EF65CD, 0xB5C0FBCFEC4D3B2F, 0xE9B5DBA58189DBBC,
    0x3956C25BF348B538, 0x59F111F1B605D019, 0x923F82A4AF194F9B, 0xAB1C5ED5DA6D8118,
    0xD807AA98A3030242, 0x12835B0145706FBE, 0x243185BE4EE4B28C, 0x550C7DC3D5FFB4E2,
    0x72BE5D74F27B896F, 0x80DEB1FE3B1696B1, 0x9BDC06A725C71235, 0xC19BF174CF692694] ++
  [0xE49B69C19EF14AD2, 0xEFBE4786384F25E3, 0x0FC19DC68B8CD5B5, 0x240CA1CC77AC9C65,
    0x2DE92C6F592B0275, 0x4A7484AA6EA6E483, 0x5CB0A9DCBD41FBD4, 0x76F988DA831153B5,
    0x983E5152EE66DFAB, 0xA831C66D2DB43210, 0xB00327C898FB213F, 0xBF597FC7BEEF0EE4,
    0xC6E00BF33DA88FC2, 0xD5A79147930AA725, 0x06CA6351E003826F, 0x142929670A0E6E70] ++
  [0x27B70A8546D22FFC, 0x2E1B21385C26C926, 0x4D2C6DFC5AC42AED, 0x53380D139D95B3DF,
    0x650A73548BAF63DE, 0x766A0ABB3C77B2A8, 0x81C2C92E47EDAEE6, 0x92722C851482353B,
    0xA2BFE8A14CF10364, 0xA81A664BBC423001, 0xC24B8B70D0F89791, 0xC76C51A30654BE30,
    0xD192E819D6EF5218, 0xD69906245565A910, 0xF40E35855771202A, 0x106AA07032BBD1B8] ++
  [0x19A4C116B8D2D0C8, 0x1E376C085141AB53, 0x2748774CDF8EEB99, 0x34B0BCB5E19B48A8,
    0x391C0CB3C5C95A63, 0x4ED8AA4AE3418ACB, 0x5B9CCA4F7763E373, 0x682E6FF3D6B2B8A3,
    0x748F82EE5DEFB2FC, 0x78A5636F43172F60, 0x84C87814A1F0AB72, 0x8CC702081A6439EC,
    0x90BEFFFA23631E28, 0xA4506CEBDE82BDE9, 0xBEF9A3F7B2C67915, 0xC67178F2E372532B] ++
  [0xCA273ECEEA26619C, 0xD186B8C721C0C207, 0xEADA7DD6CDE0EB1E, 0xF57D4F7FEE6ED178,
    0x06F067AA72176FBA, 0x0A637DC5A2C898A6, 0x113F9804BEF90DAE, 0x1B710B35131C471B,
    0x28DB77F523047D84, 0x32CAAB7B40C72493, 0x3C9EBE0A15C9BEBC, 0x431D67C49C100D4C,
    0x4CC5D4BECB3E42B6, 0x597F299CFC657E2A, 0x5FCB6FAB3AD6FAEC, 0x6C44198C4A475817]

/-- The initial hash value of SHA-384. -/
def sha384Init : List DWord :=
  [0xCBBB9D5DC1059ED8, 0x629A292A367CD507, 0x9159015A3070DD17, 0x152FECD8F70E5939,
    0x67332667FFC00B31, 0x8EB44A8768581511, 0xDB0C2E0D64F98FA7, 0x47B5481DBEFA4FA4]

/-- The message with its padding. -/
def shaPad (bs : List Byte) : List Byte :=
  let z := (239 - bs.length % 128) % 128
  bs ++ [0x80] ++ List.replicate z 0 ++ beBytes (bs.length * 8) 16

/-- The message schedule, newest word first. -/
def shaSchedule (ws : List DWord) (n : Nat) : List DWord :=
  match n with
  | 0 => ws
  | k + 1 =>
    let w (i : Nat) : DWord := ws.getD (i - 1) 0
    let s0 := (w 15).rotateRight 1 ^^^ (w 15).rotateRight 8 ^^^ (w 15) >>> 7
    let s1 := (w 2).rotateRight 19 ^^^ (w 2).rotateRight 61 ^^^ (w 2) >>> 6
    shaSchedule ((w 16 + s0 + w 7 + s1) :: ws) k

/-- One round on the working variables a to h. -/
def shaRound (v : List DWord) (kw : DWord) : List DWord :=
  let g (i : Nat) : DWord := v.getD i 0
  let s1 := (g 4).rotateRight 14 ^^^ (g 4).rotateRight 18 ^^^ (g 4).rotateRight 41
  let ch := (g 4 &&& g 5) ^^^ (~~~(g 4) &&& g 6)
  let t1 := g 7 + s1 + ch + kw
  let s0 := (g 0).rotateRight 28 ^^^ (g 0).rotateRight 34 ^^^ (g 0).rotateRight 39
  let mj := (g 0 &&& g 1) ^^^ (g 0 &&& g 2) ^^^ (g 1 &&& g 2)
  [t1 + s0 + mj, g 0, g 1, g 2, g 3 + t1, g 4, g 5, g 6]

/-- The hash over blocks of 128 bytes, at most `n` of them. -/
def shaBlocks (h : List DWord) (bs : List Byte) (n : Nat) : List DWord :=
  match n with
  | 0 => h
  | k + 1 =>
    if bs.isEmpty then h
    else
      let m := (List.range 16).map fun i => BitVec.ofNat 64 (beValue ((bs.drop (8 * i)).take 8))
      let ws := (shaSchedule m.reverse 64).reverse
      let v := ((shaK.zip ws).map fun p => p.1 + p.2).foldl shaRound h
      shaBlocks ((h.zip v).map fun p => p.1 + p.2) (bs.drop 128) k

/-- SHA-384: 48 bytes. -/
def sha384 (bs : List Byte) : List Byte :=
  ((shaBlocks sha384Init (shaPad bs) (bs.length / 128 + 2)).take 6).flatMap fun w => beBytes w.toNat 8

/-- The prime of the curve P-384. -/
def p384 : Nat := 2 ^ 384 - 2 ^ 128 - 2 ^ 96 + 2 ^ 32 - 1
/-- The order of P-384's base point. -/
def n384 : Nat := 0xFFFFFFFFFFFFFFFFFFFFFFFFFFFFFFFFFFFFFFFFFFFFFFFFC7634D81F4372DDF581A0DB248B0A77AECEC196ACCC52973
/-- The coefficient b of P-384. -/
def b384 : Nat := 0xB3312FA7E23EE7E4988E056BE3F82D19181D9C6EFE8141120314088F5013875AC656398D8A2ED19D2A85C8EDD3EC2AEF
/-- The base point of P-384. -/
def g384 : Nat × Nat :=
  (0xAA87CA22BE8B05378EB1C71EF320AD746E1D3B628BA79B9859F741E082542A385502F25DBF55296C3A545E3872760AB7,
    0x3617DE4A96262C6F5D9E98BF9292DC29F8F41DBD289A147CE9DA3113B5F0B8C00A60B1CE1D7E819D7A431D7C90EA0E5F)

/-- Power modulo `m` over `n` bits of the exponent. -/
def powMod (a e m n : Nat) : Nat :=
  match n with
  | 0 => 1 % m
  | k + 1 => let r := powMod (a * a % m) (e / 2) m k; if e % 2 = 1 then a * r % m else r

/-- The inverse modulo a prime. -/
def invMod (a m : Nat) : Nat := powMod (a % m) (m - 2) m 384

/-- Addition on P-384; none is the point at infinity. -/
def ecAdd (p q : Option (Nat × Nat)) : Option (Nat × Nat) :=
  match p, q with
  | none, q => q
  | p, none => p
  | some (x1, y1), some (x2, y2) =>
    if x1 = x2 ∧ (y1 + y2) % p384 = 0 then none
    else
      let l := if x1 = x2 then (3 * x1 * x1 + (p384 - 3)) * invMod (2 * y1) p384 % p384
        else (y2 + p384 - y1) * invMod (x2 + p384 - x1) p384 % p384
      let x3 := (l * l + 2 * p384 - x1 - x2) % p384
      some (x3, (l * (x1 + p384 - x3) + p384 - y1) % p384)

/-- Multiplication of a point over `n` bits of the scalar. -/
def ecMul (k : Nat) (p : Option (Nat × Nat)) (n : Nat) : Option (Nat × Nat) :=
  match n with
  | 0 => none
  | m + 1 => let r := ecMul (k / 2) (ecAdd p p) m; if k % 2 = 1 then ecAdd p r else r

/-- ECDSA verification over P-384: public key (x, y), hash as a number, signature (r, s). -/
def ecdsaVerify (x y z r s : Nat) : Bool :=
  decide (x < p384) && decide (y < p384) && decide (y * y % p384 = (x * x * x + (p384 - 3) * x + b384) % p384) &&
    decide (1 ≤ r) && decide (r < n384) && decide (1 ≤ s) && decide (s < n384) &&
    (let w := invMod s n384
     match ecAdd (ecMul (z * w % n384) (some g384) 384) (ecMul (r * w % n384) (some (x, y)) 384) with
     | some (px, _) => decide (px % n384 = r)
     | none => false)

end Sys2Proof.Machine
end

