-- ==== Sys2Proof/Machine/RegSpec.lean ====
section
/-! DEFINITION. How a control register takes a write (R16, R17): which bits are written, written once locked, set or
cleared by a 1. Bits in none of the masks are read-only or read 0. -/

namespace Sys2Proof.Machine

/-- Access of one register. `rwl` bits are written while the LOCK bit `lock` of the register reads 0. -/
structure RegSpec where
  reset : Word
  rw : Word
  rwl : Word
  lock : Nat
  w1s : Word
  w1c : Word
deriving DecidableEq, Repr

/-- A register that only hardware changes. -/
def RegSpec.ro (reset : Word) : RegSpec := ⟨reset, 0, 0, 0, 0, 0⟩
/-- A register written in the bits of a mask. -/
def RegSpec.mk_rw (reset rw : Word) : RegSpec := ⟨reset, rw, 0, 0, 0, 0⟩
/-- A register whose bits are cleared by a 1. -/
def RegSpec.mk_w1c (reset w1c : Word) : RegSpec := ⟨reset, 0, 0, 0, 0, w1c⟩
/-- A lockable register: LOCK is bit 31. -/
def RegSpec.locked (reset rw rwl : Word) : RegSpec := ⟨reset, rw, rwl, 31, 0x80000000, 0⟩

/-- The register after a write of `v` (R17). -/
def RegSpec.write (r : RegSpec) (old v : Word) : Word :=
  let m := r.rw ||| (if old.getLsbD r.lock then 0 else r.rwl)
  (((old &&& ~~~m) ||| (v &&& m)) ||| (v &&& r.w1s)) &&& ~~~(v &&& r.w1c)

/-- A write outside a register's range or below a minimum: source 0x0E (Table 12.2). -/
def State.badWrite (s : State) : State := s.reportU 0x0E .device 0 0

/-- The span and offset of an address in the span control blocks (Table 1.6). -/
def spanBlock (a : Nat) : Option (SpanId × Nat) :=
  if 0x030000 ≤ a ∧ a < 0x070000 then some (Fin.ofNat 64 ((a - 0x030000) / 0x1000), a % 0x1000) else none

/-- A span's yokes as a bit mask. -/
def State.yokeMask (s : State) (sp : SpanId) (p : Yoke → Bool) : Nat :=
  (List.finRange 16).foldl (fun m i => m + (p (s.yoke (yokeAt sp i))).toNat * 2 ^ i.val) 0

/-- The registers of the checker, the scheduler and the memories in a span control block (Tables 2.11, 8.17, 9.11). -/
def yokeRegSpec (off : Nat) : Option RegSpec :=
  if off = 0x100 then some (RegSpec.locked 0x10 0x000F0000 0x7F)
  else if off = 0x104 then some (RegSpec.ro 0)
  else if 0x200 ≤ off ∧ off < 0x300 then
    if off % 16 = 0 then some (RegSpec.mk_w1c 0 0x80000000) else some (RegSpec.ro 0)
  else if off = 0x300 then some (RegSpec.locked 1 0 0x301)
  else if off = 0x304 ∨ off = 0x308 ∨ (0x310 ≤ off ∧ off < 0x320) then some (RegSpec.ro 0)
  else if off = 0x400 ∨ off = 0x404 ∨ off = 0x408 then some (RegSpec.ro 0)
  else if off = 0x40C then some (RegSpec.locked 0x18 0 0xFF)
  else if off = 0x410 then some (RegSpec.ro memstatReset)
  else if off = 0x414 then some (RegSpec.mk_w1c 0 0x80000000)
  else none

/-- SPAN.YKSTAT (Table 2.15). -/
def Yoke.stateWord (k : Yoke) : Word :=
  let st : Nat := match k.stalled, k.bist, k.replaying with
    | true, _, _ => 2
    | false, .testing _, _ => 3
    | false, _, true => 1
    | _, _, _ => 0
  BitVec.ofNat 32 (st * 2 ^ 30 + k.unchecked.toNat * 2 ^ 29 + k.mcount.toNat)

/-- Registers of a span control block that are views of other state. -/
def State.yokeRegRead (s : State) (sp : SpanId) (off : Nat) : Option Word :=
  let ks := s.span sp
  if off = 0x104 then
    some (BitVec.ofNat 32 (s.yokeMask sp (fun k => k.replaying) * 65536 + s.yokeMask sp fun k => k.stalled))
  else if 0x200 ≤ off ∧ off < 0x300 ∧ off % 16 = 12 then
    some (s.yoke (yokeAt sp (Fin.ofNat 16 ((off - 0x200) / 16)))).stateWord
  else if off = 0x304 then some (BitVec.ofNat 32 (ks.overflow.length * 65536 + ks.slots.length))
  else if off = 0x308 then some (ks.stealRemote ++ ks.stealLocal)
  else if 0x310 ≤ off ∧ off < 0x320 then
    let q := (off - 0x310) / 4
    let d (j : Nat) : Nat := (s.yoke (yokeAt sp (Fin.ofNat 16 (4 * q + j)))).deque.length
    some (BitVec.ofNat 32 (d 0 + d 1 * 256 + d 2 * 65536 + d 3 * 16777216))
  else none

/-- A write of SPAN.CKCTL (R90): the slip target, its lock, a test injection. -/
def State.writeCkctl (s : State) (sp : SpanId) (v : Word) : State :=
  let a := rCkctl sp
  let old := s.reg a 0x10
  let slip := fieldNat v 6 0
  let locked := bit old 31
  let bad := !locked && decide (slip < 4 ∨ slip > 64)
  let spec := RegSpec.locked 0x10 0x000F0000 0x7F
  let v' := if bad then setField v 6 0 (fieldNat old 6 0) else v
  let s1 := s.setReg a (spec.write old v')
  let s2 := if bad then s1.badWrite else s1
  if bit v 20 then
    let y := yokeAt sp (Fin.ofNat 16 (fieldNat v 19 16))
    let k := s2.yoke y
    if k.stalled || k.unchecked then s2 else s2.setYoke y { k with inj := true }
  else s2

/-- A write of SPAN.SCHCTL (R324): SFM 0b11 is ignored. -/
def State.writeSchctl (s : State) (sp : SpanId) (v : Word) : State :=
  let a := rSchctl sp
  let old := s.reg a 1
  let v' := if fieldNat v 9 8 = 3 then setField v 9 8 (fieldNat old 9 8) else v
  s.setReg a ((RegSpec.locked 1 0 0x301).write old v')

/-- A write of SPAN.MEMCTL (Table 9.14): scrub period, lock, and CLR. -/
def State.writeMemctl (s : State) (sp : SpanId) (v : Word) : State :=
  let s1 := s.setReg (rMemctl sp) ((RegSpec.locked 0x18 0 0xFF).write (s.reg (rMemctl sp) 0x18) v)
  if bit v 8 then ((s1.setReg (rSpecc sp) 0).setReg (rGrecc sp) 0).setReg (rSpLinkcnt sp) 0 else s1

/-- The wipe of a fold memory group ends (R349). -/
def State.groupWipeDone (s : State) (g : GroupId) : State :=
  let a := physGroup g 0
  let w := s.reg (rMemstat g) memstatReset
  if bit w 31 then
    { s.setReg (rMemstat g) (setBit w 31 false) with
      mem := memWipe s.mem a 0x100000,
      memErr := s.memErr.filter fun e => decide (e.1 < a / 8) || decide (e.1 ≥ (a + 0x100000) / 8) }
  else s

/-- TALLY.RET[s] (Table 15.14). -/
def rTallyRet (sp : SpanId) : Nat := 0x0A011C + 0x20 * sp.val

/-- The span's scratchpad is held in the wipe state (R578, R579, R583). -/
def State.spanHeld (s : State) (sp : SpanId) : Bool := bit (s.reg (rTallyRet sp) 0) 31 || s.pwr.held.contains sp

/-- The wipe of a span scratchpad ends (R350), its log buffer with it (R292), unless the span is held in it. -/
def State.spanWipeDone (s : State) (sp : SpanId) : State :=
  let a := physScratch sp 0
  let w := s.reg (rMemstat sp) memstatReset
  if bit w 30 && !s.spanHeld sp then
    { s.setReg (rMemstat sp) (setBit w 30 false) with
      mem := memWipe s.mem a 0x200000,
      memErr := s.memErr.filter fun e => decide (e.1 < a / 8) || decide (e.1 ≥ (a + 0x200000) / 8),
      spans := kset s.spans sp { s.span sp with log := [] } }
  else s

/-- Physical address of an offset in a scratchpad or a group. -/
def memPhysOf (kind : MemKind) (n : SpanId) (off : Nat) : Nat :=
  match kind with
  | .scratch => physScratch n (off % 0x200000)
  | .group => physGroup n (off % 0x100000)

/-- The patrol scrubber reads one word (R344, R345). An uncorrectable codeword is source 0x08. A memory
in retention serves no read (R560). -/
def State.patrolScrub (s : State) (kind : MemKind) (n : SpanId) (off : Nat) (e0 e1 : CwFlip) : State :=
  let a := memPhysOf kind n (off / 16 * 16)
  if fieldNat (s.reg (rMemctl n) 0x18) 7 0 = 0 ∨ s.wiping a = true ∨ s.retained a = true then s
  else
    let s0 := (s.flip (a / 8) e0).flip (a / 8 + 1) e1
    let s1 := (s0.misread (a / 8) e0.other).misread (a / 8 + 1) e1.other
    ([a / 8, a / 8 + 1].foldl (fun s cw =>
      match s.cwEcc cw with
      | .uncorrectable => s.countEcc cw .uncorrectable 0x08
      | _ => s.decodeWord cw) s1).asStored s0

/-- A corrected codeword is written back at its bank's idle cycle (Table 9.7). -/
def State.eccWriteback (s : State) (kind : MemKind) (n : SpanId) (off : Nat) : State :=
  let cw := memPhysOf kind n off / 8
  if s.writeback.contains cw then
    { s with
      writeback := s.writeback.filter (· ≠ cw),
      memErr := match s.cwEcc cw with
        | .uncorrectable => s.memErr
        | _ => kdel s.memErr cw }
  else s

end Sys2Proof.Machine
end

