-- ==== Sys2Proof/Machine/SchedEvents.lean ====
section
/-! DEFINITION. How idle yokes take tasks (R295 to R300, R319), deferred overflow pushes, and debug access to yokes (R85,
R618). -/

namespace Sys2Proof.Machine

/-- An idle yoke that may take a task: working, its span in Run and owned by a running fold (R297). -/
def State.mayTake (s : State) (y : YokeId) : Bool :=
  let k := s.yoke y
  k.run == .idle && k.working && k.debug != .halted && (s.span (spanOf y)).power == .run &&
    (match s.foldOf y with
      | some f => (s.fold f).phase == .running
      | none => false)

/-- Run a source of R297 for an idle yoke when no earlier source yields a task. -/
def State.take (s : State) (y : YokeId) (earlier : List (State → Option State)) (src : State → Option State) : State :=
  if s.mayTake y && s.mayStart (spanOf y) && earlier.all fun e => (e s).isNone then (src s).getD s else s

/-- The span a cross-span steal of a span targets (R299). -/
def State.nextSpan (s : State) (f : FoldId) (sp : SpanId) : Option SpanId :=
  let l := s.foldSpans f
  if l.length ≤ 1 then none else l[((l.takeWhile (· ≠ sp)).length + 1) % l.length]?

/-- The portable entries of a deque. -/
def Yoke.portable (k : Yoke) : List TaskDesc := k.deque.filter fun d => attrPort d.attr

/-- The deque with the most portable entries in a span, ties to the lowest yoke index (R299). -/
def State.portableVictim (s : State) (sp : SpanId) : Option YokeId :=
  (List.finRange 16).foldl (fun best i =>
    let v := yokeAt sp i
    let k := s.yoke v
    let more : Bool := match best with
      | none => true
      | some b => decide (k.portable.length > (s.yoke b).portable.length)
    if k.working && !k.portable.isEmpty && more then some v else best) none

/-- Count a cross-span steal. -/
def State.countRemote (s : State) (sp : SpanId) : State :=
  let k := s.span sp
  s.setSpan sp { k with stealRemote := satInc k.stealRemote }

/-- A cross-span steal (R299). -/
def State.crossSteal (s : State) (y : YokeId) : Option State :=
  match s.foldOf y with
  | none => none
  | some f =>
    match s.nextSpan f (spanOf y) with
    | none => none
    | some t =>
      let ks := s.span t
      match bestOverflow (ks.overflow.filter fun e => !e.resumeClass) (fun e => e.portable) with
      | some e => some (((s.setSpan t { ks with overflow := ks.overflow.erase e, quietFc := s.clk.fc }).countRemote (spanOf y)).startEntry y t e)
      | none =>
        match s.portableVictim t with
        | none => none
        | some v =>
          match (s.yoke v).portable with
          | [] => none
          | d :: _ =>
            some (((s.setYoke v { (s.yoke v) with deque := (s.yoke v).deque.erase d }).countRemote (spanOf y)).startTask y d)

/-- The cross-span steal is due: idle for 256 fc, every 64 fc, with XSTEAL set (R297). -/
def State.crossDue (s : State) (y : YokeId) : Bool :=
  let idle := s.clk.fc - max (s.yoke y).idleFc (s.span (spanOf y)).runFc
  decide (idle ≥ 256) && decide ((idle - 256) % 64 = 0) && bit (s.reg (rSchctl (spanOf y)) 1) 0

/-- A push that waited enters the overflow queue when an entry is free (R295): first the scheduler's waiting entries, then
the deque of a stalled or tested yoke, lowest index first. -/
def State.deferredPush (s : State) (sp : SpanId) : State :=
  let k := s.span sp
  if k.overflow.length ≥ 1535 then s
  else
    match k.waitPush with
    | e :: rest => ((s.setSpan sp { k with waitPush := rest }).pushOverflow sp 1535 e).1
    | [] =>
      match (List.finRange 16).find? fun i => let q := s.yoke (yokeAt sp i); !q.working && !q.deque.isEmpty with
      | none => s
      | some i =>
        let y := yokeAt sp i
        match (s.yoke y).deque with
        | [] => s
        | d :: t => ((s.setYoke y { (s.yoke y) with deque := t }).pushOverflow sp 1535 (freshEntry d)).1

/-- FOLLOW_TASK_START (R319). -/
def State.followStart (s : State) (y : YokeId) : State :=
  if s.mayTake y && decide (s.sfm (spanOf y) = 2) then
    match s.followTake y with
    | some t => t
    | none => s
  else s

/-- The yoke that runs a named task (R85, R618). -/
def State.yokeOfTask (s : State) (f : FoldId) (id : Word) : Option YokeId :=
  (s.foldYokes f).find? fun y => let k := s.yoke y; k.run != .idle && k.lead.task.ident == id

/-- DEBUG_HALT: at its next instruction boundary (R618). -/
def State.debugHaltTask (s : State) (f : FoldId) (id : Word) : State :=
  if !s.debugger then s
  else
    match s.yokeOfTask f id with
    | none => s
    | some y =>
      let k := s.yoke y
      if k.debug = .halted ∨ k.collapse.isSome = true ∨ k.branch.isSome = true ∨ k.loads ≠ [] ∨ k.floatActive = true then s
      else s.debugHalt y 0

/-- DEBUG_RESUME and DEBUG_STEP. -/
def State.debugGo (s : State) (y : YokeId) (d : YokeDebug) : State :=
  let k := s.yoke y
  if s.debugger && k.debug == .halted then s.setYoke y { k with debug := d, bpSkip := true } else s

/-- Registers of a halted leading core, numbered as in Table 2.14: 0 to 15 g, 16 ST, 17 BK, 18 CT, 19 to 22 SP, 23 PC;
24 to 39 f0 to f15, 40 FCSR (the model's own numbering beyond Table 2.14). -/
def State.debugRegWrite (s : State) (y : YokeId) (n : Nat) (v : DWord) : State :=
  let k := s.yoke y
  let w : Word := v.setWidth 32
  if !(s.debugger && k.debug == .halted) then s
  else
    let c := k.lead
    let put (c : Core) : State := s.setYoke y { k with lead := c }
    if n < 16 then put (c.wr (gpr n) w)
    else if n = 16 then put { c with st := (w &&& 0x00000B7F) ||| 0x00000400 }
    else if n = 17 then put { c with bk := w.setWidth 8 }
    else if n = 18 then put { c with ct := w }
    else if h : 19 ≤ n ∧ n ≤ 22 then put { c with sp := c.sp.set (n - 19) w }
    else if n = 23 then put { c with pc := w }
    else if h : 24 ≤ n ∧ n < 40 then s.setYoke y { k with fpu := { k.fpu with f := k.fpu.f.set (n - 24) v } }
    else if n = 40 then s.setYoke y { k with fpu := { k.fpu with fcsr := w &&& 0x00031F1F } }
    else s

/-- The value of a register of a halted leading core. -/
def State.debugRegRead (s : State) (y : YokeId) (n : Nat) : DWord :=
  let k := s.yoke y
  let c := k.lead
  if n < 16 then (c.g[gpr n]).zeroExtend 64
  else if n = 16 then c.stWord.zeroExtend 64
  else if n = 17 then c.bk.zeroExtend 64
  else if n = 18 then c.ct.zeroExtend 64
  else if h : 19 ≤ n ∧ n ≤ 22 then (c.sp[n - 19]).zeroExtend 64
  else if n = 23 then c.pc.zeroExtend 64
  else if h : 24 ≤ n ∧ n < 40 then k.fpu.f[n - 24]
  else if n = 40 then k.fpu.fcsr.zeroExtend 64
  else 0

end Sys2Proof.Machine
end

