-- ==== Sys2Proof/Machine/FoldOps.lean ====
section
/-! DEFINITION. The fold manager (chapter 11): refusals, ownership, windows, slots, cross-fold channels, fold states and
admission; and what making a fold safe does, step by step (R443). -/

namespace Sys2Proof.Machine

/-- A refusal is recorded (R411, Table 11.13). -/
def State.refuse (s : State) (code fold index : Nat) : State :=
  let w := s.reg rRefuse 0
  let w' : Word := if bit w 31 then setBit w 30 true else
    BitVec.ofNat 32 (2 ^ 31 + code * 2 ^ 16 + fold * 2 ^ 12 + index)
  (s.setReg rRefuse w').reportU 0x0D .device 0 0

/-- The fold is in RUN. -/
def State.running (s : State) (f : FoldId) : Bool := (s.fold f).phase == .running

/-- Any fold is in RUN (FOLDMGR.STAT.RUNMAP). -/
def State.runMap (s : State) : Nat := (List.finRange 16).foldl (fun n f => n + (s.running f).toNat * 2 ^ f.val) 0

/-- The resource's ownership register. -/
def Resource.addr (r : Resource) : Nat :=
  match r with
  | .span i => rSpanown i
  | .group g => rGrpown g
  | .dma c => rDmaown c
  | .queue p q => rPqown p.val q.val

/-- The resource's index in REFUSE (R428). -/
def Resource.index (r : Resource) : Nat :=
  match r with
  | .span i => i.val
  | .group g => g.val
  | .dma c => c.val
  | .queue p q => p.val * 64 + q.val

/-- Bank ranges of a window meet. -/
def Window.meets (w v : Window) : Bool :=
  decide (w.size ≠ 0) && decide (v.size ≠ 0) && decide (w.blo.toNat ≤ v.bhi.toNat) && decide (v.blo.toNat ≤ w.bhi.toNat) &&
    decide (w.obase.toNat * 0x1000 < v.obase.toNat * 0x1000 + 2 ^ v.size) &&
    decide (v.obase.toNat * 0x1000 < w.obase.toNat * 0x1000 + 2 ^ w.size)

/-- The offsets of a bank that a window may cover: populated, no hardware page, no reserved area (R292, R325, R333). -/
def State.coverable (s : State) (f : FoldId) (bank : Nat) : Nat × Nat :=
  let n := (s.foldSpans f).length
  let m := (s.foldGroups f).length
  if bank = 0 then (0x4000, if m > 0 then 0x100000 else 0)
  else if bank = 1 then (0, 0x1C0000)
  else if 0x10 ≤ bank ∧ bank < 0x50 then (0, if bank - 0x10 < n then 0x1C0000 else 0)
  else if 0x80 ≤ bank ∧ bank < 0xC0 then (0, min 0x1000000 ((m - 16 * (bank - 0x80)) * 0x100000))
  else if 0xC0 ≤ bank ∧ bank < 0xC8 then (0, if bank % 4 < m then 0x100000 else 0)
  else if 0xF0 ≤ bank ∧ bank ≤ 0xF8 then (0, 0x10000)
  else (0, 0)

/-- The parts of fold memory a window covers, as (first, past last) of the packed group space. -/
def Window.groupParts (w : Window) : List (Nat × Nat) :=
  let lo := w.obase.toNat * 0x1000
  let hi := lo + 2 ^ w.size
  if w.size = 0 then []
  else
    (List.range (w.bhi.toNat + 1 - w.blo.toNat)).filterMap fun i =>
      let b := w.blo.toNat + i
      if b = 0 then some (lo, hi)
      else if 0x80 ≤ b ∧ b < 0xC0 then some ((b - 0x80) * 0x1000000 + lo, (b - 0x80) * 0x1000000 + hi)
      else if 0xC0 ≤ b ∧ b < 0xC8 then some ((b % 4) * 0x100000 + lo, (b % 4) * 0x100000 + hi)
      else none

/-- The group index of a group within its fold (R326). -/
def State.groupIndex (s : State) (f : FoldId) (g : GroupId) : Nat := ((s.foldGroups f).takeWhile (· ≠ g)).length

/-- The holding area in the packed group space of its fold, when one is described (R112). -/
def State.holdingPart (s : State) (f : FoldId) : Option (Nat × Nat) :=
  let b := (s.reg (rFhbase f) 0).toNat
  let n := (s.reg (rFhsize f) 0).toNat
  if n = 0 then none
  else
    let lo := s.groupIndex f (Fin.ofNat 64 (b / 0x100000)) * 0x100000 + b % 0x100000
    some (lo, lo + n)

/-- Two half-open ranges meet. -/
def rangesMeet (a b : Nat × Nat) : Bool := decide (a.1 < b.2) && decide (b.1 < a.2)

/-- A window entry that the hardware accepts for window `w` of a fold (R36, R112, R292, R333). -/
def State.windowOk (s : State) (f : FoldId) (w : Nat) (e : Window) : Bool :=
  let lo := e.obase.toNat * 0x1000
  let perm (r b : Nat) : Bool := e.perm.getLsbD (3 * r + b)
  let covers (p : Nat → Bool) : Bool := (List.range (e.bhi.toNat + 1 - e.blo.toNat)).any fun i => p (e.blo.toNat + i)
  decide (e.blo.toNat ≤ e.bhi.toNat) &&
    (decide (e.size = 0) ||
      (decide (12 ≤ e.size) && decide (e.size ≤ 24) && decide (lo % 2 ^ e.size = 0) &&
        !((s.fold f).windows.any fun v => decide (v.1 ≠ w) && e.meets v.2) &&
        !(covers fun b => let c := s.coverable f b; decide (lo < c.1) || decide (lo + 2 ^ e.size > c.2)) &&
        !(decide (e.blo = 0) && decide (e.perm.toNat / 8 ≠ 0)) &&
        !([1, 2, 3].any fun r => perm r 1 && perm r 2) &&
        !(covers (fun b => decide (0xC0 ≤ b) && decide (b < 0xC8)) && [0, 1, 2, 3].any fun r => perm r 0 || perm r 2) &&
        !(covers (fun b => decide (0xF0 ≤ b)) && [0, 1, 2, 3].any fun r => perm r 2) &&
        !(match s.holdingPart f with
          | some h => e.groupParts.any (rangesMeet h)
          | none => false)))

/-- The entry three window words spell (Table 9.5). -/
def windowOf (a b c : Word) : Window :=
  ⟨BitVec.ofNat 8 (fieldNat a 31 24), BitVec.ofNat 8 (fieldNat a 23 16), fieldNat a 4 0, BitVec.ofNat 12 (fieldNat b 23 12),
    BitVec.ofNat 12 (fieldNat c 11 0)⟩

/-- WINDOW_COMMIT: a write of WINC (R332 to R334). -/
def State.windowCommit (s : State) (f : FoldId) (w : Fin 64) (v : Word) : State :=
  let e := windowOf (s.reg (rWindow f w.val 0) 0) (s.reg (rWindow f w.val 1) 0) v
  if s.windowOk f w.val e then
    let s1 := s.setReg (rWindow f w.val 2) (v &&& 0xFFF)
    let fo := s1.fold f
    s1.setFold f { fo with windows := kset fo.windows w.val e, winchg := fo.winchg + 1 }
  else s.refuse 0x06 f.val w.val

/-- The scheduler of a span holds nothing, and no yoke of it holds a task (Table 11.5). -/
def State.spanFree (s : State) (sp : SpanId) : Bool :=
  let k := s.span sp
  k.overflow.isEmpty && k.waitPush.isEmpty && k.slots.isEmpty &&
    (List.finRange 16).all fun i => let y := s.yoke (yokeAt sp i); y.run == .idle && y.deque.isEmpty

/-- Why a release of a resource from its fold is refused (Table 11.5). -/
def State.releaseRefused (s : State) (r : Resource) (f : FoldId) : Option Nat :=
  match r with
  | .span i =>
    if s.running f && (decide ((s.foldSpans f).getLast? ≠ some i) || decide ((s.foldSpans f).length = 1)) then some 0x03
    else if s.spanFree i then none else some 0x04
  | .group g =>
    if s.running f && decide ((s.foldGroups f).getLast? ≠ some g) then some 0x03
    else
      let lo := s.groupIndex f g * 0x100000
      let part := (lo, lo + 0x100000)
      let held := match s.holdingPart f with
        | some h => rangesMeet h part
        | none => false
      if held || (s.fold f).windows.any fun w => w.2.groupParts.any (rangesMeet part) then some 0x04 else none
  | .dma c => if (s.dmaCh c).busy then some 0x04 else none
  | .queue _ _ => none

/-- Why an assignment of a resource to a fold is refused, the first row of Table 11.5 deciding. -/
def State.assignRefused (s : State) (r : Resource) (f : FoldId) (old : Option FoldId) : Option Nat :=
  let above : Bool := match r with
    | .span i => (s.foldSpans f).all fun j => decide (j < i)
    | .group g => (s.foldGroups f).all fun j => decide (j < g)
    | _ => true
  let wiping : Bool := match r with
    | .span i => s.power.bist || bit (s.reg (rMemstat i) memstatReset) 30
    | .group _ => s.power.bist
    | _ => false
  if old.isSome then some 0x01
  else if wiping then some 0x02
  else if s.running f && !above then some 0x03
  else match (s.fold f).phase with
    | .empty => some 0x05
    | .safe => some 0x05
    | _ => none

/-- An accepted release: the register's new value, the wipe of a group or scratchpad (R349, R350), an idle channel (R369, R370). A
group's release waits for the stores it has accepted (R348). -/
def State.releaseOwn (s : State) (r : Resource) (v : Word) : State :=
  match r with
  | .span i => (s.setReg r.addr v).setReg (rMemstat i) (setBit (s.reg (rMemstat i) memstatReset) 30 true)
  | .group g => if s.groupDrained g then s.releaseGroup g v else { s with releasing := kset s.releasing g v }
  | .dma c => (s.setReg r.addr v).setDma c Dma.reset
  | .queue _ _ => s.setReg r.addr v

/-- A memory that comes to a fold which does not rest, or brings it a span that does not, ends the retention and the memory tests of
the fold's memories (R361, R362). Where the fold still rests its memories are retained (R574), and the test of one that is not, of a span
in Doze, is abandoned: an owned bank is under test in retention alone (R582). -/
def State.joinMemory (s : State) (f : FoldId) : State :=
  if s.foldRests f then (s.retainFold f).abandonOnline f else (s.unretainFold f).abandonFoldTests f

/-- What an accepted assignment prepares: memories out of retention, channel registers and queues at their values for a new owner. -/
def State.afterAssign (s : State) (r : Resource) (f : FoldId) : State :=
  match r with
  | .span _ => s.joinMemory f
  | .group _ => s.joinMemory f
  | .dma c => s.setDma c Dma.reset
  | .queue p q => let k := s.queue p.val q.val; s.setQueue p.val q.val { k with rx := [], wait := [], under := false, lost := 0, tx := [] }

/-- A write of an ownership register (R409, R410). Until the wipe of R351, which ends startup BIST, no scratchpad and no group can be
assigned: such a write is refused with code 0x02 (log entry 68). -/
def State.writeOwn (s : State) (r : Resource) (v : Word) : State :=
  let old := s.reg r.addr 0
  let new := v &&& 0x8000000F
  let f : FoldId := Fin.ofNat 16 (fieldNat v 3 0)
  if new = old then s
  else if bit v 31 then
    match s.assignRefused r f (ownerOf old) with
    | some c => s.refuse c f.val r.index
    | none => (s.setReg r.addr new).afterAssign r f
  else
    match ownerOf old with
    | none => s.setReg r.addr new
    | some g =>
      match s.releaseRefused r g with
      | some c => s.refuse c f.val r.index
      | none => s.releaseOwn r new

/-- The slots a fold owns in the plan as written (R412). -/
def State.slotCount (s : State) (f : FoldId) : Nat :=
  ((List.range 47).filter fun i => ownerOf (s.reg (rSlot i) 0) == some f).length

/-- A write of FOLDMGR.SLOT[i] (R412, R414). -/
def State.writeSlot (s : State) (i : Fin 48) (v : Word) : State :=
  let old := s.reg (rSlot i.val) 0
  let new := v &&& 0x8000000F
  let f : FoldId := Fin.ofNat 16 (fieldNat v 3 0)
  if i.val = 47 then s
  else if bit v 31 && (s.fold f).phase == .empty then s.refuse 0x08 f.val i.val
  else
    let lost : Bool := match ownerOf old with
      | some g => s.running g && decide (ownerOf new ≠ some g) && decide (s.slotCount g = 1)
      | none => false
    if lost then s.refuse 0x08 f.val i.val else s.setReg (rSlot i.val) new

/-- FABRIC_FRAME_START (R412, R414): a frame of 96 fc begins and the plan as written takes effect. -/
def State.frameStart (s : State) : State :=
  if s.clk.fc % 96 = 0 then
    { s with slotPlan := (List.range 47).map fun i => (i, s.reg (rSlot i) 0) }
  else s

/-- The depth of a channel as declared, 0 when it is not. -/
def xchDepth (w : Word) : Nat := if bit w 31 then 2 ^ fieldNat w 18 16 else 0

/-- A write of FOLDMGR.XCHOWN[x] (R419): declare, change or release. -/
def State.writeXch (s : State) (x : Fin 256) (v : Word) : State :=
  let a := rXchown x.val
  let old := s.reg a 0
  let new := v &&& 0x80070F0F
  let tx (w : Word) : FoldId := Fin.ofNat 16 (fieldNat w 3 0)
  let rx (w : Word) : FoldId := Fin.ofNat 16 (fieldNat w 11 8)
  let total := (List.range 256).foldl (fun n i => n + if i = x.val then xchDepth new else xchDepth (s.reg (rXchown i) 0)) 0
  let no := s.refuse 0x09 (tx v).val x.val
  if new = old then s
  else if bit old 31 && s.running (tx old) then no
  else if bit new 31 then
    if decide (tx new = rx new) || decide (fieldNat new 18 16 > 6) || decide (total > 4096) || s.running (tx new) ||
        (bit old 31 && s.running (rx old)) then no
    else { s.setReg a new with xch := kset s.xch x.val XchQueue.reset }
  else { s.setReg a new with xch := kset s.xch x.val XchQueue.reset }

/-- A write of FOLDMGR.FPWR[f] (R423): BUDGET, and EXC cleared by a 1. -/
def State.writeFpwr (s : State) (f : FoldId) (v : Word) : State :=
  let b := fieldNat v 10 0
  if b > 1650 ∨ (b = 0 ∧ s.running f = true ∧ bit s.fmgrCtl 1 = false) then s.refuse 0x0A f.val f.val
  else s.setReg (rFpwr f) ((RegSpec.write ⟨0, 0x7FF, 0, 0, 0, 0x80000000⟩) (s.reg (rFpwr f) 0) v)

/-- Base and size describe an area within one group the fold owns (R112). A size of 0 checks the base alone. -/
def State.areaOk (s : State) (f : FoldId) (base size : Nat) : Bool :=
  decide (base % 0x10000 = 0) && decide (base < 0x4000000) && decide (s.groupFold (Fin.ofNat 64 (base / 0x100000)) = some f) &&
    decide (size % 0x10000 = 0) && decide (base % 0x100000 + size ≤ 0x100000)

/-- HOLDING_AREA_WRITE: EPOCH.FHBASE, or FHSIZE (R112), read-only while ACTIVE is 1. A size may be written first, before
any base has been given: it is then checked for its own range. -/
def State.writeHolding (s : State) (f : FoldId) (isSize : Bool) (v : Word) : State :=
  let base := (s.reg (rFhbase f) 0).toNat
  let size := (s.reg (rFhsize f) 0).toNat
  if s.running f then s
  else if isSize then
    let n := v.toNat
    if decide (n = 0) || (decide (n % 0x10000 = 0) && decide (base % 0x100000 + n ≤ 0x100000) &&
        (decide (base = 0) || s.areaOk f base n)) then
      s.setReg (rFhsize f) v
    else s.refuse 0x07 f.val f.val
  else if s.areaOk f v.toNat size then s.setReg (rFhbase f) v
  else s.refuse 0x07 f.val f.val

/-- FSTATE of a fold. -/
def FoldPhase.code (p : FoldPhase) : Nat :=
  match p with
  | .empty => 0 | .build => 1 | .running => 2 | .safe => 3

/-- The fold owns nothing (Table 11.3, R408, R419). -/
def State.ownsNothing (s : State) (f : FoldId) : Bool :=
  (s.foldSpans f).isEmpty && (s.foldGroups f).isEmpty && (List.finRange 64).all (fun c => decide (s.dmaFold c ≠ some f)) &&
    decide (s.slotCount f = 0) &&
    (List.range 256).all (fun i => decide (ownerOf (s.reg (rPqown (i / 64) (i % 64)) 0) ≠ some f)) &&
    (List.range 256).all fun x => !s.sends f x && !s.receives f x

/-- The checks of R406, and of R446, R596 and R604. -/
def State.admissible (s : State) (f : FoldId) : Bool :=
  let cfg := s.reg (rFcfg f) 0x00030000
  let period := 2 ^ fieldNat cfg 19 16 * (fieldNat cfg 9 0 + 1)
  !(s.foldSpans f).isEmpty && decide (s.slotCount f > 0) && decide ((s.reg (rFhsize f) 0).toNat ≠ 0) &&
    s.areaOk f (s.reg (rFhbase f) 0).toNat (s.reg (rFhsize f) 0).toNat &&
    (decide (fieldNat (s.reg (rFpwr f) 0) 10 0 ≠ 0) || bit s.fmgrCtl 1) &&
    (s.foldSpans f).all (fun i => !bit (s.reg (rMemstat i) memstatReset) 30) &&
    (s.foldGroups f).all (fun g => !bit (s.reg (rMemstat g) memstatReset) 31) &&
    decide (250 ≤ period) && decide (period ≤ 10000) && !s.fm.dsafe && !s.sec.pend && s.sec.mok

/-- The fold's queues (R514, R550): entries and read status at their values for an admission. -/
def State.clearQueues (s : State) (f : FoldId) : State :=
  { s with
    queues := s.queues.map fun e =>
      if s.queueFold (e.1 / 128) (e.1 % 128) = some f then
        (e.1, { e.2 with rx := [], wait := [], under := false, lost := 0, tx := [], tseq := 0, frer := none })
      else e
    xch := s.xch.map fun e => if s.receives f e.1 then (e.1, XchQueue.reset) else e
    dma := s.dma.map fun e => if s.dmaFold e.1 = some f then (e.1, Dma.reset) else e
    pcie := { s.pcie with
      reads := s.pcie.reads.filter (·.fold ≠ f), unacked := s.pcie.unacked.filter (·.1 ≠ f),
      undelivered := s.pcie.undelivered.filter (·.1 ≠ f) } }

/-- The task of R407 at a fold's admission. -/
def State.firstTask (s : State) (f : FoldId) : State :=
  match s.foldSpans f with
  | [] => s
  | sp :: _ =>
    let r := s.newIdent f
    let d : TaskDesc := {
      entry := s.reg (rFentry f) 0, g1 := 0, g2 := 0, g3 := 0, g4 := 0, joinref := 0,
      oepoch := BitVec.ofNat 32 (s.curEpoch f), attr := BitVec.ofNat 32 (f.val * 2 ^ 28), sp := (Vector.replicate 4 0).set 0 (s.reg (rFstack f) 0),
      ident := r.2, parent := 0 }
    (r.1.pushOverflow sp 1536 (freshEntry d)).1

/-- PWR.FEST[f]. -/
def rFest (f : FoldId) : Nat := 0x090020 + 4 * f.val

/-- Admission (R406, R407, R589): the fold's registers at their admission values, the watchdog loaded (R449), its first task. -/
def State.admitFold (s : State) (f : FoldId) : State :=
  let old := s.fold f
  let e := s.clk.time / s.epochNs f
  let cfg := s.reg (rFwdcfg f) 0
  let fo : Fold := { Fold.reset with
    phase := .running, windows := old.windows, epoch := BitVec.ofNat 64 e, fstart := BitVec.ofNat 64 (e + 1),
    wdRun := bit cfg 31, wdVal := fieldNat cfg 29 15, wdFrom := s.clk.time / 1000 }
  let s0 := { s with twins := kset s.twins f TwinFold.reset }
  let s1 := (((s0.setFold f fo).setReg (rEpFstat f) 0).setReg (0x0C0180 + 4 * f.val) 0).clearQueues f
  let s2 := (s1.foldSpans f).foldl (fun s sp => s.setSpan sp { (s.span sp) with stealLocal := 0, stealRemote := 0 }) s1
  let s3 := s2.setReg (rFest f) (setField (s2.reg (rFest f) 0) 26 16 0)
  s3.firstTask f

/-- Step 1 of R443: SAFE, ACTIVE 0, virtual function disabled. -/
def State.safePhase (s : State) (f : FoldId) : State :=
  { s.setFold f { (s.fold f) with phase := .safe } with twins := kset s.twins f TwinFold.reset }

/-- Step 3 of R443: nothing held is released, and no signature record is sent. -/
def State.dropHeld (s : State) (f : FoldId) : State := s.setFold f { (s.fold f) with held := [], marks := [] }

/-- A yoke discards its task (steps 1 and 2 of Table 2.6) and its deque. -/
def Yoke.discard (k : Yoke) (fc : Nat) : Yoke :=
  { (k.toIdle fc) with whb := k.whb.filter (fun e => e.phase != .open), deque := [] }

/-- Step 5 of R443. -/
def State.discardTasks (s : State) (f : FoldId) : State :=
  let s1 := (s.foldYokes f).foldl (fun s y => s.setYoke y ((s.yoke y).discard s.clk.fc)) s
  let s2 := (s1.foldSpans f).foldl (fun s sp => s.setSpan sp { (s.span sp) with overflow := [], waitPush := [], slots := [] }) s1
  s2.setFold f { (s2.fold f) with joins := [], chans := [] }

/-- Step 6 of R443: watchdog stopped, events cleared, spans into Doze. -/
def State.quietFold (s : State) (f : FoldId) : State :=
  let fo := s.fold f
  let s1 := s.setFold f { fo with wdRun := false, wdVal := s.wdRem f, events := [] }
  (s1.foldSpans f).foldl (fun s sp =>
    let k := s.span sp
    match k.power with
    | .run => s.setSpan sp { k with power := .entering false s.clk.fc }
    | .waking .. => s.setSpan sp { k with power := .entering false s.clk.fc }
    | _ => s) s1

/-- Steps 1 and 2 of R443, then steps 3 to 6. -/
def State.safeFirst (s : State) (f : FoldId) : State := (s.safePhase f).deenergise (some f)
/-- Steps 3 to 6 of R443. -/
def State.safeRest (s : State) (f : FoldId) : State := (((s.dropHeld f).emptyTx f).discardTasks f).quietFold f

/-- A write of FOLDMGR.FSTATE[f] (R405, R406, R408). A write of the state the fold is in is none that Table 11.3 permits. -/
def State.writeFstate (s : State) (f : FoldId) (v : Word) : State :=
  let no := s.refuse 0x05 f.val f.val
  let go (p : FoldPhase) : State := s.setFold f { (s.fold f) with phase := p }
  match (s.fold f).phase, fieldNat v 1 0 with
  | .empty, 1 => go .build
  | .build, 0 => if s.ownsNothing f then (go .empty).setReg (rFwdcfg f) (setBit (s.reg (rFwdcfg f) 0) 30 false) else no
  | .build, 2 => if s.admissible f then s.admitFold f else no
  | .running, 3 => (s.safeFirst f).safeRest f
  | .safe, 0 => if s.ownsNothing f then (go .empty).setReg (rFwdcfg f) (setBit (s.reg (rFwdcfg f) 0) 30 false) else no
  | _, _ => no

end Sys2Proof.Machine
end

