-- ==== Sys2Proof/Machine/Boot.lean ====
section
/-! DEFINITION. OTP and life cycle (R591 to R596), and the checks of the Drover ROM (R597 to R599). -/

namespace Sys2Proof.Machine

/-- A byte of OTP. -/
def State.otpByte (s : State) (i : Nat) : Byte := kget s.sec.otp 0 i
/-- Bytes of OTP. -/
def State.otpBytes (s : State) (i n : Nat) : List Byte := (List.range n).map fun k => s.otpByte (i + k)
/-- Program bits of an OTP byte: a bit goes from 0 to 1 and never back (R591). -/
def State.otpSet (s : State) (i : Nat) (v : Byte) : State :=
  { s with sec := { s.sec with otp := kset s.sec.otp i (s.otpByte i ||| v) } }
/-- The unique device number (Table 16.1, R42). -/
def State.uid (s : State) : DWord := BitVec.ofNat 64 (leValue (s.otpBytes 8 8))

/-- Base of Drover's memory in `mem`: the model's own place for a memory without a device physical address (R35). -/
def droverBase : Nat := 0x0600000000
/-- Bytes of Drover's memory. -/
def State.droverRead (s : State) (off n : Nat) : List Byte := memRead s.mem (droverBase + off) n
/-- Write Drover's memory. -/
def State.droverWrite (s : State) (off : Nat) (bs : List Byte) : State :=
  { s with mem := memWrite s.mem (droverBase + off) bs }

/-- A customer key hash slot is programmed: not all zeros (R591). `base` is 0x020 for firmware, 0x0E0 for manifests. -/
def State.slotProgrammed (s : State) (base i : Nat) : Bool := (s.otpBytes (base + 48 * i) 48).any (· ≠ 0)
/-- A key slot is revoked (Table 16.1): firmware in bits 3:0, manifests in bits 7:4. -/
def State.slotRevoked (s : State) (base i : Nat) : Bool := (s.otpByte 4).getLsbD (if base = 0x020 then i else 4 + i)

/-- Check 3 of R598: the slot is not revoked, and the key's hash is one that Table 16.2 accepts. -/
def State.keyAccepted (s : State) (base i : Nat) (key : List Byte) : Bool :=
  let h := sha384 key
  let slot := decide (h = s.otpBytes (base + 48 * i) 48) && s.slotProgrammed base i
  let mfg := decide (h = s.otpBytes 0x1F0 48) && (s.otpBytes 0x1F0 48).any (· ≠ 0)
  let st := s.sec.lc.toNat
  !s.slotRevoked base i &&
    (if st = 0 then mfg
     else if st = 1 then slot || (mfg && (List.range 4).all fun j => !s.slotProgrammed base j)
     else if st = 5 then false else slot)

/-- A signature over a hash: key is the uncompressed point of 97 bytes, signature r then s (R598). -/
def signatureOk (key hash sig : List Byte) : Bool :=
  decide (key.take 1 = [4]) &&
    ecdsaVerify (beValue ((key.drop 1).take 48)) (beValue ((key.drop 49).take 48)) (beValue hash)
      (beValue (sig.take 48)) (beValue ((sig.drop 48).take 48))

/-- A little-endian field of an image. -/
def imageField (im : List Byte) (off n : Nat) : Nat := leValue ((im.drop off).take n)

/-- Ones of a thermometer counter of 8 bytes in OTP. -/
def State.otpCounter (s : State) (off : Nat) : Nat :=
  (s.otpBytes off 8).foldl (fun n b => n + popCount b 8) 0

/-- The parts of a header that R598 and R603 share: MAGIC, HVER and the zero fields. -/
def headerShape (im : List Byte) (magic : Nat) : Bool :=
  decide (imageField im 0 4 = magic) && decide (imageField im 4 2 = 1) && decide (imageField im 0x1C 4 < 4) &&
    ((im.drop 0xB1).take 15).all (· == 0) && ((im.drop 0x120).take 224).all (· == 0)

/-- Checks 3 to 6 of R598: key, signature, hash of the body, version; the code of Table 16.6. -/
def State.proofCode (s : State) (im body : List Byte) (base counter : Nat) : Nat :=
  let key := (im.drop 0x50).take 97
  if !s.keyAccepted base (imageField im 0x1C 4) key then 4
  else if !signatureOk key (sha384 (im.take 0xC0)) ((im.drop 0xC0).take 96) then 5
  else if sha384 body ≠ (im.drop 0x20).take 48 then 6
  else if imageField im 6 2 < counter then 7
  else 0

/-- The ROM's checks of one image in the order of R598; the code of Table 16.6, 0 where it passes. -/
def State.imageCode (s : State) (image : Option (List Byte)) : Nat :=
  match image with
  | none => 1
  | some im =>
    let off := imageField im 8 4
    let len := imageField im 0xC 4
    let mn := imageField im 0x18 4
    if !headerShape im 0x4A464248 then 2
    else if imageField im 6 2 > 64 ∨ off % 16 ≠ 0 ∨ len < 16 ∨ len > 393216 ∨ len % 16 ≠ 0 ∨ imageField im 0x10 4 ≥ len ∨
        mn < 512 ∨ mn > 98304 then 3
    else s.proofCode im ((im.drop off).take len) 0x020 (s.otpCounter 0x10)

/-- An image that passed: its firmware stands in Drover's memory from offset 0 (R601), and BOOTSTAT names its source. -/
def State.bootFrom (s : State) (set ea eb : Nat) (image : Option (List Byte)) : State :=
  let im := image.getD []
  let s1 := s.droverWrite 0 ((im.drop (imageField im 8 4)).take (imageField im 0xC 4))
  { s1 with sec := { s.sec with
      bootstat := BitVec.ofNat 32 (set * 2 ^ 30 + ea * 65536 + eb * 256), fwsvn := imageField im 6 2 } }

/-- No image passed (R599): the ROM stops with the codes of the sets tried. -/
def State.bootStops (s : State) (ea eb : Nat) : State :=
  { s with sec := { s.sec with bootstat := BitVec.ofNat 32 (3 * 2 ^ 30 + ea * 65536 + eb * 256), fwsvn := 0 } }

/-- The Drover ROM boots (R597 to R599). -/
def State.bootRom (s : State) : State :=
  let sel := fieldNat s.straps 2 1
  let how := if sel ≠ 3 ∧ (s.otpByte 3).getLsbD 2 = true then 2 else sel
  let ca := s.imageCode s.flash.setA
  let cb := s.imageCode s.flash.setB
  let ct := s.imageCode s.flash.tap
  if s.sec.lc = lcVoid then s.bootStops 0x0A 0
  else if how = 3 then
    if s.sec.lc.toNat > 2 then s.bootStops 8 0
    else if ct = 0 then s.bootFrom 2 0 0 s.flash.tap
    else s.bootStops ct 0
  else if how = 1 then
    if cb = 0 then s.bootFrom 1 0 0 s.flash.setB
    else if ca = 0 then s.bootFrom 0 0 cb s.flash.setA
    else s.bootStops ca cb
  else if ca = 0 then s.bootFrom 0 0 0 s.flash.setA
  else if how = 2 then s.bootStops ca 0
  else if cb = 0 then s.bootFrom 1 ca 0 s.flash.setB
  else s.bootStops ca cb

end Sys2Proof.Machine
end

