-- ==== Sys2Proof/Machine/Reset.lean ====
section
/-! DEFINITION. Resets of the main domain (R447, R640 to R646), deep standby and its wake (R572, R573). -/

namespace Sys2Proof.Machine

/-- AON.RSTCAUSE. -/
def rRstcause : Nat := 0x080114
/-- BELL.WAKESRC. -/
def rWakesrc : Nat := 0x080018

/-- A register that a reset of the main domain leaves as it is: the always-on domain's, the Tally band counts, and while
the rails stay, the counts since power-on (R447, R460, R467, R577). -/
def keptReg (powerOn : Bool) (a : Nat) : Bool :=
  (decide (0x080000 ≤ a) && decide (a < 0x090000)) ||
    (decide (0x0A0100 ≤ a) && decide (a < 0x0A0900) && decide (0x0C ≤ a % 0x20) && decide (a % 0x20 < 0x1C)) ||
    (!powerOn && decide (0x010010 ≤ a) && decide (a < 0x01005C) && decide (a ≠ 0x010030) && decide (a ≠ 0x010034))

/-- The yokes after a reset that is no power-on: MCOUNT alone is kept (Table 2.15). -/
def keptCounts (l : KMap YokeId Yoke) : KMap YokeId Yoke :=
  (l.filter fun e => e.2.mcount != 0).map fun e => (e.1, { Yoke.reset with mcount := e.2.mcount })

/-- The 32 bytes of a key of the always-on key area, 0 to 7, as its codewords read (R342). -/
def State.keyLoad (s : State) (i : Nat) : List Byte :=
  (List.range 32).map fun b => (kget s.sec.aonKeys [] (248 + i)).getD b 0 ^^^ memGet s.mem (0x0300100040 + 32 * i + b)

/-- The disturbed codewords of the key area, all of which a reset reads (R611). -/
def State.keyWords (s : State) : List Nat :=
  (s.memErr.map (·.1)).filter fun cw => decide (0x0300100040 / 8 ≤ cw) && decide (cw < 0x0300100140 / 8)

/-- The key slots that a reset loads from the always-on key area (R611). A key with an uncorrectable codeword is loaded as it reads. -/
def State.keysLoaded (s : State) : KMap Nat (List Byte) :=
  (List.range 8).foldl (fun m i =>
    let k := s.keyLoad i
    if (kget s.sec.aonKeys [] (248 + i)).isEmpty && k.all (· == 0) then m else kset m (248 + i) k) []

/-- The main domain is put into its After reset state; the queue of commands and the model's own records stay. `powerOn`
tells that the main rails were absent. -/
def State.resetMain (s : State) (powerOn : Bool) (power : Power) : State :=
  let sec := { Sec.boot s.sec.otp s.sec.aonKeys s.sec.lockBt s.sec.tstat with keys := s.keysLoaded }
  let s := ({ s with reports := [] }).vaultDecode s.keyWords
  let clk : Clock := { s.clk with
      inc := 0x140000000, corrAt := 0, time := if powerOn then 0 else s.clk.time, frac := if powerOn then 0 else s.clk.frac }
  let fr := if powerOn then { Recorder.reset with armFc := s.clk.fc } else s.fr.afterReset
  let regs := s.regs.filter fun e => keptReg powerOn e.1
  let mem := s.mem.filter fun c => match physRegion c.1 with
    | .retained _ => true
    | _ => false
  let r := State.boot sec clk s.aon fr regs mem power s.straps
  { r with
    memErr := s.memErr.filter fun e => match physRegion (8 * e.1) with
      | .retained _ => true
      | _ => false
    reports := s.reports,
    pending := s.pending, wire := s.wire, stamp := s.stamp, freeN := s.freeN, flash := s.flash,
    yokes := if powerOn then [] else keptCounts s.yokes,
    fm := { FaultMgr.reset with next := if powerOn then 0 else s.fm.next },
    service := { s.service with tap := .idcode },
    pcie := { Pcie.reset with perst := s.pcie.perst, peclk := s.pcie.peclk },
    pwr := { PwrMgr.reset with failed := if powerOn then [] else s.pwr.failed } }

/-- AON.RSTCAUSE records a reset (Table 12.22). -/
def State.rstCause (s : State) (cause src : Nat) : State := s.setReg rRstcause (BitVec.ofNat 32 (2 ^ 31 + src * 256 + cause))

/-- The reset of a C6 reaction (R447): nSAFE stays asserted, the always-on domain and the recorder are kept. -/
def State.deviceReset (s : State) (src : Byte) : State :=
  ((s.resetMain false { s.power with main := true, bist := true }).bootRom).rstCause 0x04 src.toNat

/-- A wake source occurs (R573): its bit is set in BELL.WAKESRC, and in deep standby MAINEN is driven high. -/
def State.wakeDevice (s : State) (n : Nat) : State :=
  let s1 := s.setReg rWakesrc (setBit (s.reg rWakesrc 0) n true)
  if s.power.standby.isSome then { s1 with power := { s1.power with mainen := true, woken := true } } else s1

/-- The main domain leaves reset when rails, references and nRESET allow (R640): from a wake, from nRESET, or from
power-on. The straps are latched (R600) and the ROM boots (R597). While nRESET is low the rails alone are good, VDDIO among them (R545). -/
def State.powerGood (s : State) (straps : Word) (flash : Flash) : State :=
  let p := s.power
  if p.main || !p.mainen || (p.standby.isSome && !p.woken) then s
  else if p.nreset then { s with power := { p with vddio := true } }
  else
    let first := !p.rails
    let wake := p.standby.isSome
    let s0 := s.resetMain (first || wake) { p with
        rails := true, vddio := true, main := true, standby := none, woken := false, c6 := false, bist := true }
    let s1 := { s0 with flash := flash }
    let s2 := ({ s1 with straps := if first || wake then straps &&& 0x7 else s1.straps }).bootRom
    if p.c6 then s2.rstCause 0x04 0x2A
    else if wake then s2.rstCause 0x02 0
    else s2

/-- NRESET_ASSERT (R642). -/
def State.nresetAssert (s : State) : State :=
  let s1 := s.resetMain false { s.power with nreset := true, main := false, bist := false }
  if s.power.main then s1.rstCause 0x03 0 else s1

/-- NRESET_RELEASE (R642, R643): the straps are sampled. -/
def State.nresetRelease (s : State) (straps : Word) : State :=
  if s.power.nreset then { s with power := { s.power with nreset := false }, straps := straps &&& 0x7 } else s

/-- VAON_POWER_ON (R646): every always-on register at its After reset value, the main domain off. -/
def State.vaonOn (s : State) : State :=
  let hw := (kget s.sec.otp 0 3).getLsbD 0
  let r := State.boot (Sec.boot s.sec.otp [] 0 0) { s.clk with bt := 0, btAcc := 0, time := 0, frac := 0 }
    { AonWd.reset with hwstart := hw, en := hw } Recorder.reset [] [] ⟨true, false, false, false, s.power.nreset, false, none, false, false, false, false, 0, 0, false⟩ 0
  ({ r with pending := s.pending, wire := s.wire, stamp := s.stamp, freeN := s.freeN, flash := s.flash }).rstCause 0x01 0

/-- CRYSTAL_READY (R646): MAINEN rises, the Bell starts at 0, and the AON watchdog counts from PERIOD (R455, R646). -/
def State.crystalReady (s : State) : State :=
  if s.power.vaon && !s.power.crystal && !s.power.dead then
    { s with
      power := { s.power with crystal := true, mainen := true }, clk := { s.clk with bt := 0, btAcc := 0 },
      aon := { s.aon with val := s.aon.period, since := 0 } }
  else s

/-- CRYSTAL_TIMEOUT (R646): MAINEN stays low and the main domain does not start. -/
def State.crystalTimeout (s : State) : State :=
  if s.power.vaon && !s.power.crystal then { s with power := { s.power with dead := true, mainen := false } } else s

/-- VAON_POWER_LOSS (R460, R577): the always-on domain loses its state, and with it the device stops. -/
def State.vaonLoss (s : State) : State :=
  let r := State.boot (Sec.boot s.sec.otp [] 0 0) { s.clk with bt := 0, btAcc := 0, time := 0, frac := 0 } AonWd.reset Recorder.reset [] []
    ⟨false, false, false, false, s.power.nreset, false, none, false, false, false, false, 0, 0, false⟩ 0
  { r with pending := s.pending, wire := s.wire, stamp := s.stamp, freeN := s.freeN, flash := s.flash }

/-- DEEP_STANDBY_REQUEST: a write of PWR.DSCTL (R572). The main domain goes on to the end of the bt. -/
def State.standbyRequest (s : State) (v : Word) : State :=
  if v = 0x0000D5B7 ∧ s.runMap = 0 then { s with power := { s.power with standby := some s.clk.bt, woken := false } } else s.badWrite

/-- From the next bt the always-on domain holds the main domain in reset (R572). -/
def State.standbyHold (s : State) : State :=
  if s.power.main && s.power.standby.any fun b => decide (s.clk.bt > b) then
    s.resetMain false { s.power with main := false, bist := false }
  else s

/-- MAINEN_LOW (R572): 2 bt after the request; the board then removes the rails. -/
def State.mainenLow (s : State) : State :=
  match s.power.standby with
  | some b =>
    if s.clk.bt ≥ b + 3 ∧ s.power.woken = false then
      { s with power := { s.power with mainen := false, rails := false, vddio := false }, service := Service.reset }
    else s
  | none => s

end Sys2Proof.Machine
end

