-- ==== Sys2Proof/Machine/FaultOps.lean ====
section
/-! DEFINITION. The fault manager (chapter 12): reports become incidents, incidents have reactions; watchdogs. -/

namespace Sys2Proof.Machine

/-- The minimum class of a source (Table 12.2). -/
def srcMin (c : Byte) : Nat :=
  match c.toNat with
  | 0x01 => 2 | 0x02 => 3 | 0x03 => 4 | 0x04 => 4 | 0x05 => 4 | 0x08 => 1 | 0x10 => 1 | 0x11 => 4 | 0x12 => 4 | 0x13 => 4
  | 0x14 => 4 | 0x15 => 4 | 0x19 => 4 | 0x1B => 1 | 0x1C => 1 | 0x1D => 4 | 0x1E => 4 | 0x1F => 3 | 0x20 => 5 | 0x23 => 5
  | 0x24 => 5 | 0x25 => 5 | 0x26 => 5 | 0x27 => 5 | 0x28 => 5 | 0x29 => 5 | 0x2A => 6 | 0x2B => 5
  | _ => 0

/-- A source of Table 12.2. -/
def srcExists (c : Byte) : Bool := decide (1 ≤ c.toNat) && decide (c.toNat ≤ 0x2D)

/-- The region kinds in which a source is reported (Table 12.2). -/
def srcKinds (c : Byte) : List RegionKind :=
  match c.toNat with
  | 0x01 => [.span] | 0x02 => [.span] | 0x03 => [.span] | 0x04 => [.span] | 0x05 => [.span] | 0x06 => [.span, .group]
  | 0x07 => [.span, .group] | 0x08 => [.span, .group] | 0x09 => [.node] | 0x0A => [.node] | 0x0B => [.node] | 0x10 => [.fold]
  | 0x11 => [.fold] | 0x12 => [.fold] | 0x13 => [.fold] | 0x14 => [.fold] | 0x15 => [.fold] | 0x16 => [.dma]
  | 0x17 => [.dma, .port, .span] | 0x18 => [.fold] | 0x19 => [.fold] | 0x1A => [.port] | 0x1B => [.fold] | 0x1D => [.fold]
  | 0x1E => [.span, .group] | 0x1F => [.span] | 0x2C => [.fold, .device] | 0x2D => [.span]
  | _ => [.device]

/-- The sources whose detectors no other command stands for (log entry 72): a router's duplicated control (R501), scheduler SRAM,
recorder SRAM, Drover's cores. -/
def srcExternal (c : Byte) : Bool := c == 0x03 || c == 0x05 || c == 0x21 || c == 0x22 || c == 0x23

/-- A report such a detector can send: its source's region kind, the one device or a span's yoke, a Drover core (Table 12.1). -/
def Report.external (r : Report) : Bool :=
  srcExternal r.src && (srcKinds r.src).contains r.kind &&
    match r.kind with
    | .span => decide (r.region < 64) && decide (r.unit < 16)
    | _ => decide (r.region = 0) && decide (r.unit < if r.src = 0x22 then 3 else 64)

/-- FM.SRCCFG after reset (Table 12.12). -/
def srccfgReset (c : Byte) : Word := if srcExists c then BitVec.ofNat 32 (17 * srcMin c) else 0

/-- FM.SRCCFG of a source. -/
def State.srccfg (s : State) (c : Byte) : Word := s.reg (rSrccfg c) (srccfgReset c)

/-- The class of a report (R433, R468). -/
def State.classOf (s : State) (r : Report) : BitVec 3 := r.cls.getD (BitVec.ofNat 3 (fieldNat (s.srccfg r.src) 2 0))

/-- The fold an incident of this region belongs to (R430). -/
def State.scopeOf (s : State) (r : Report) : Option FoldId :=
  match r.kind with
  | .span => s.spanFold (Fin.ofNat 64 r.region)
  | .group => s.groupFold (Fin.ofNat 64 r.region)
  | .fold => some (Fin.ofNat 16 r.region)
  | .dma => s.dmaFold (Fin.ofNat 64 r.region)
  | .port =>
    if r.region < 4 then s.queueFold r.region r.unit
    else if r.region = 4 ∧ 1 ≤ r.unit ∧ r.unit ≤ 16 then some (Fin.ofNat 16 (r.unit - 1))
    else none
  | _ => none

/-- The order of first reports of R432. -/
def Report.before (a b : Report) : Bool :=
  decide (a.src < b.src) || (decide (a.src = b.src) && (decide (a.unit < b.unit) ||
    (decide (a.unit = b.unit) && decide (a.detail < b.detail))))

/-- The report that comes first (R432). -/
def firstReport (r : Report) (rs : List Report) : Report := rs.foldl (fun a b => if b.before a then b else a) r

/-- Bits of the units of reports. -/
def unitMap (rs : List Report) : DWord := rs.foldl (fun m r => setBit m (r.unit % 64) true) 0

/-- The coalescing window of an incident is open (R431). -/
def Incident.windowOpen (i : Incident) (fc : Nat) : Bool := decide (fc ≤ i.openFc + 4095)

/-- A report joins this incident (R431). -/
def Incident.takes (i : Incident) (r : Report) (cls : BitVec 3) (fc : Nat) : Bool :=
  decide (i.cls = cls) && decide (i.kind = r.kind) && decide (i.region = r.region) && i.windowOpen fc

/-- Replace the incident of a place in the opening order. -/
def FaultMgr.update (m : FaultMgr) (ord : Nat) (f : Incident → Incident) : FaultMgr :=
  { m with
    queue := m.queue.map fun i => if i.ord = ord then f i else i
    extra := m.extra.map fun i => if i.ord = ord then f i else i }

/-- A join record (FR.CTL.COAL, Table 12.6). -/
def State.coalRecord (s : State) (i : Incident) : State :=
  if bit (s.reg rFrCtl frCtlReset) 24 then s.record (i.record s.now 2) false else s

/-- One report joins an incident (R431). -/
def State.join (s : State) (i : Incident) (r : Report) : State :=
  let i' := { i with count := satNat 65535 (i.count + 1), map := setBit i.map (r.unit % 64) true }
  ({ s with fm := s.fm.update i.ord fun _ => i' }).coalRecord i'

/-- The records of FR.CTL.TCLASS trigger a capture (R463). -/
def State.triggers (s : State) (cls : BitVec 3) : Bool :=
  let t := fieldNat (s.reg rFrCtl frCtlReset) 18 16
  decide (t ≠ 7) && decide (cls.toNat ≥ t)

/-- The incident a group of reports opens (R432), without its number. -/
def State.newIncident (s : State) (first : Report) (rs : List Report) (cls : BitVec 3) : Incident :=
  let i : Incident := {
    num := s.fm.next, cls := cls, kind := first.kind, region := first.region, fold := s.scopeOf first, src := first.src,
    detail := first.detail, count := satNat 65535 rs.length, map := unitMap rs, openFc := s.clk.fc, openTime := s.now,
    opening := [], begun := false, done := false, ord := s.fm.ord, safed := false }
  { i with opening := i.record s.now 1 }

/-- An incident enters the queue with its opening record. -/
def State.enqueue (s : State) (i : Incident) : State :=
  ({ s with fm := { s.fm with queue := s.fm.queue ++ [i], next := s.fm.next + 1, ord := s.fm.ord + 1 } }).record i.opening
    (s.triggers i.cls)

/-- A fold-scoped incident merges into its fold's newest (R425). Where that raises its class, the reaction waits again as
though the incident had just opened (R438); one that was complete begins anew, and the fold it made safe is then not in RUN (R440). -/
def State.merge (s : State) (i : Incident) (cls : BitVec 3) : State :=
  let up := decide (i.cls < cls)
  let i' := { i with
    cls := if up then cls else i.cls, count := satNat 65535 (i.count + 1), begun := if up then false else i.begun,
    done := if up then false else i.done, ord := if up then s.fm.ord else i.ord,
    safed := if up && i.done then false else i.safed }
  let m := s.fm.update i.ord fun _ => i'
  let cur := if up ∧ m.cur = some i.ord then none else m.cur
  ({ s with fm := { m with cur := cur, ord := if up then m.ord + 1 else m.ord } }).coalRecord i'

/-- The queue is full: the opening record is kept as a lost report, and the reaction to source 0x2B is due (R439). The
number of a report that opens no incident is not stated (log entry 3). -/
def State.overflowed (s : State) (i : Incident) : State :=
  let lost := { i with num := (Config.freeWord s.freeN).setWidth 16 }
  let s1 := ({ s with freeN := s.freeN + 1, fm := { s.fm with ovf := true } }).record (lost.record s.now 9) false
  match s1.fm.extra with
  | some _ => s1
  | none =>
    let r : Report := ⟨0x2B, .device, 0, 0, 0, none, s1.clk.time⟩
    let x := s1.newIncident r [r] (s1.classOf r)
    ({ s1 with fm := { s1.fm with extra := some x, next := s1.fm.next + 1, ord := s1.fm.ord + 1 } }).record x.opening
      (s1.triggers x.cls)

/-- A group of reports of one class and region that joined nothing. -/
def State.openGroup (s : State) (g : List Report) (cls : BitVec 3) : State :=
  match g with
  | [] => s
  | r :: rs =>
    let first := firstReport r rs
    let i := s.newIncident first g cls
    let mine (s : State) : List Incident := s.fm.queue.filter fun x => x.fold.isSome && decide (x.fold = i.fold)
    if (mine s).length ≥ 3 then g.foldl (fun s _ => match (mine s).getLast? with
      | some n => s.merge n cls
      | none => s) s
    else if s.fm.queue.length ≥ 64 then s.overflowed i
    else s.enqueue i

/-- Reports of one class and region. -/
def sameGroup (a b : BitVec 3 × Report) : Bool := decide (a.1 = b.1) && decide (a.2.kind = b.2.kind) && decide (a.2.region = b.2.region)

/-- Group reports by class and region, each group led by one report. -/
def groups (rs : List (BitVec 3 × Report)) : List (BitVec 3 × List Report) :=
  rs.foldl (fun acc x =>
    if acc.any fun g => match g.2 with
        | r :: _ => sameGroup (g.1, r) x
        | [] => false
    then acc.map fun g => match g.2 with
      | r :: _ => if sameGroup (g.1, r) x then (g.1, g.2 ++ [x.2]) else g
      | [] => g
    else acc ++ [(x.1, [x.2])]) []

/-- The numbering order of incidents that open in one fc (R432). -/
def groupBefore (a b : BitVec 3 × List Report) : Bool :=
  match a.2, b.2 with
  | r :: rs, q :: qs =>
    let x := firstReport r rs
    let y := firstReport q qs
    decide (x.src < y.src) || (decide (x.src = y.src) && (decide (x.kind.code < y.kind.code) ||
      (decide (x.kind.code = y.kind.code) && decide (x.region < y.region))))
  | _, _ => false

/-- Insert a group at its place. -/
def insertGroup (g : BitVec 3 × List Report) (l : List (BitVec 3 × List Report)) : List (BitVec 3 × List Report) :=
  match l with
  | [] => [g]
  | h :: t => if groupBefore g h then g :: h :: t else h :: insertGroup g t

/-- Reports that arrive in one fc (R431, R432). -/
def State.arriveReports (s : State) (rs : List Report) : State :=
  let tagged := rs.map fun r => (s.classOf r, r)
  let r := tagged.foldl (fun (p : State × List (BitVec 3 × Report)) x =>
    match p.1.fm.queue.find? fun i => i.takes x.2 x.1 s.clk.fc with
    | some i => (p.1.join i x.2, p.2)
    | none => (p.1, p.2 ++ [x])) (s, [])
  ((groups r.2).foldl (fun l g => insertGroup g l) []).foldl (fun s g => s.openGroup g.2 g.1) r.1

/-- Every yoke of a span is stalled (Table 12.2, sources 0x04 and 0x05). -/
def State.stallSpan (s : State) (sp : SpanId) : State :=
  (List.finRange 16).foldl (fun s i => let y := yokeAt sp i; s.setYoke y
    { (((s.yoke y).discard s.clk.fc).dropStart) with stalled := true, deque := (s.yoke y).deque }) s

/-- The two copies of a router's control disagree (R501): it forwards transit traffic and disconnects its endpoints. Span `sp` is lost
with every yoke of it, and what reaches for its memory or the group's over the fabric ends with a bus error (DESIGN CHOICE, log
entry 87). -/
def State.routerCut (s : State) (sp : SpanId) : State :=
  let s1 := s.stallSpan sp
  { s1 with cutNodes := if s1.cutNodes.contains sp then s1.cutNodes else s1.cutNodes ++ [sp] }

/-- The action at detection of a detector outside the rest of the model (Table 12.2). -/
def State.detected (s : State) (r : Report) : State :=
  match r.src.toNat with
  | 0x03 => s.routerCut (Fin.ofNat 64 r.region)
  | 0x05 => s.stallSpan (Fin.ofNat 64 r.region)
  | 0x22 => { s with bist := { s.bist with outvoted := some (Fin.ofNat 3 r.unit) } }
  | 0x21 => { s with fr := { s.fr with rue := true } }
  | _ => s

/-- Drover's core under test (R584), for at most 60 ms. -/
def State.droverTested (s : State) : Bool := s.bist.drover.any fun t => decide (s.clk.fc < t.2 + 96000000)

/-- What a detector outside the rest of the model sends: a disagreement of Drover's cores while one is under test is source 0x23
(R584), and a router's disagreement at node s, source 0x03 for the span, comes with source 0x1E for the group (R501). -/
def State.sent (s : State) (r : Report) : List Report :=
  if r.src = 0x22 ∧ s.droverTested = true then [{ r with src := 0x23, unit := 0, cls := none }]
  else if r.src = 0x03 then [{ r with cls := none }, { r with src := 0x1E, kind := .group, unit := 0, cls := none }]
  else [{ r with cls := none }]

/-- FAULT_REPORT (R429): the `n` oldest reports on their way reach the fault manager, with reports of the detectors no other
command stands for. Only FM.REQ names a class itself (R433). -/
def State.faultReport (s : State) (n : Nat) (ext : List Report) : State :=
  let ext' := (ext.filter Report.external).flatMap s.sent
  let batch := s.reports.take n ++ ext'
  (ext'.foldl State.detected { s with reports := s.reports.drop n }).arriveReports batch

/-- A fault notice to a fold (R442). -/
def State.notice (s : State) (i : Incident) (f : FoldId) : State :=
  if s.running f then
    let fo := s.fold f
    (s.setFold f { fo with
      fninc := BitVec.ofNat 32 (i.src.toNat * 2 ^ 24 + i.cls.toNat * 2 ^ 16 + i.num.toNat), fncnt := satInc fo.fncnt }).edge f 0x19 0
      (i.num.zeroExtend 32) true
  else s

/-- Notices to the incident's fold, or to every fold (Table 12.3). -/
def State.notices (s : State) (i : Incident) : State :=
  match i.fold with
  | some f => s.notice i f
  | none => (List.finRange 16).foldl (fun s f => s.notice i f) s

/-- C0's actions (Table 12.3). -/
def State.reactNote (s : State) (i : Incident) : State :=
  let a := rFmCnt i.cls.toNat
  let s1 := s.setReg a (satInc (s.reg a 0))
  let s2 := (List.range 8).foldl (fun s j => s.setReg (rFmLast j) (i.opening.getD j 0)) s1
  if i.cls.toNat ≥ fieldNat (s.reg rFmCtl 1) 2 0 then { s2 with droverIrq := s2.droverIrq ++ [(1, i.num.toNat)] } else s2

/-- Device safe state begins (step 1 of R445). -/
def State.deviceSafeFirst (s : State) : State :=
  let s1 := { s with
    fm := { s.fm with dsafe := true, nsafe := true },
    service := { s.service with alert := if s.fm.dsafe then s.service.alert else s.service.alert ||| 1 } }
  s1.deenergise none

/-- What a reaction does at its beginning: C0, notices, and the steps that come first (R441 to R445). -/
def State.reactFirst (s : State) (i : Incident) : State :=
  let s1 := s.reactNote i
  match i.cls.toNat with
  | 0 => s1
  | 1 => s1.notices i
  | 2 => if bit (s1.srccfg i.src) 8 then s1.notices i else s1
  | 3 => if bit (s1.srccfg i.src) 8 then s1.notices i else s1
  | 4 => match i.fold with
    | some f => if s1.running f then s1.safeFirst f else s1
    | none => s1
  | _ => s1.deviceSafeFirst

/-- Steps 3 to 6 of R443 on the fold that this reaction has put in SAFE. -/
def State.reactFold (s : State) (i : Incident) : State :=
  match i.safed, i.fold with
  | true, some f => if (s.fold f).phase = .safe then s.safeRest f else s
  | _, _ => s

/-- Steps 1 and 3 to 6 of R443 on every fold in RUN (R440, R445). -/
def State.reactFolds (s : State) : State :=
  (List.finRange 16).foldl (fun s f => if s.running f then (s.safePhase f).safeRest f else s) s

/-- The remaining steps (R443, R445). -/
def State.reactRest (s : State) (i : Incident) : State :=
  if i.cls.toNat < 4 then s else if i.cls.toNat = 4 then s.reactFold i else (s.reactFold i).reactFolds

/-- Incidents whose reaction is not complete, the one of R439 among them. -/
def FaultMgr.waiting (m : FaultMgr) : List Incident :=
  (m.queue ++ m.extra.toList).filter fun i => !i.done

/-- The reaction that begins next: highest class, then order of opening (R436). -/
def FaultMgr.best (m : FaultMgr) : Option Incident :=
  m.waiting.foldl (fun b i => match b with
    | none => some i
    | some x => if x.cls < i.cls ∨ (x.cls = i.cls ∧ i.ord < x.ord) then some i else b) none

/-- The incident whose reaction is in progress. -/
def FaultMgr.current (m : FaultMgr) : Option Incident :=
  match m.cur with
  | none => none
  | some o => (m.queue ++ m.extra.toList).find? fun i => i.ord == o

/-- REACTION_BEGIN (R436, R437): the best waiting reaction begins or resumes when none of equal or higher class runs; a
lower one is preempted. -/
def State.reactionBegin (s : State) : State :=
  match s.fm.best with
  | none => s
  | some i =>
    let go (s : State) : State :=
      let safes := decide (i.cls = 4) && i.fold.any fun f => s.running f
      let s1 := ({ s with fm := { (s.fm.update i.ord fun x => { x with begun := true, safed := x.safed || (!i.begun && safes) }) with
        cur := some i.ord } }).record (i.record s.now 3) false
      if i.begun then s1 else s1.reactFirst i
    match s.fm.current with
    | none => go s
    | some c => if c.cls < i.cls then go (s.record (c.record s.now 4) false) else s

/-- An incident leaves the queue (R435). -/
def State.leave (s : State) (ord : Nat) : State :=
  match s.fm.queue.find? fun i => i.ord == ord with
  | none => s
  | some i =>
    if i.done && !i.windowOpen s.clk.fc then
      ({ s with fm := { s.fm with queue := s.fm.queue.filter fun x => x.ord != ord } }).record (i.record s.now 6) false
    else s

/-- REACTION_COMPLETE (R441, R447). -/
def State.reactionComplete (s : State) : State :=
  match s.fm.current with
  | none => s
  | some i =>
    let s1 := s.reactRest i
    let s2 := { s1 with fm := { (s1.fm.update i.ord fun x => { x with done := true }) with cur := none } }
    let s3 := { s2 with fm := { s2.fm with extra := s2.fm.extra.filter fun x => !x.done } }
    let s4 := (s3.record (i.record s.now 5) false).leave i.ord
    if i.cls = 6 then
      ({ s4 with fr := s4.fr.freeze (s4.reg rFrCtl frCtlReset) s4.now i.opening }).deviceReset i.src
    else s4

/-- INCIDENT_WINDOW_CLOSE (R431, R435): the oldest incident with this number whose window is over and whose reaction is
complete leaves the queue. -/
def State.windowClose (s : State) (num : Half) : State :=
  match s.fm.queue.find? fun i => i.num == num && i.done && !i.windowOpen s.clk.fc with
  | some i => s.leave i.ord
  | none => s

/-- FM_REQUEST (R468). -/
def State.fmRequest (s : State) (v : Word) : State :=
  let cls := fieldNat v 26 24
  let det : Word := v &&& 0xFFFF
  if cls = 7 then s.badWrite
  else if cls = 6 ∧ det ≠ 0x5A06 then s
  else
    let kind : RegionKind := if bit v 27 then .fold else .device
    s.arriveReports [⟨0x2C, kind, if bit v 27 then fieldNat v 31 28 else 0, 0, det, some (BitVec.ofNat 3 cls), s.clk.time⟩]

/-- NSAFE_RELEASE (R448, Table 16.2: never in OPENED). -/
def State.nsafeRelease (s : State) : State := if s.fm.dsafe || s.sec.lc == lcOpened then s else { s with fm := { s.fm with nsafe := false } }

/-- SOURCE_CLASS_WRITE (R433, Table 12.12): FM.CTL.LOCK makes the register read-only. -/
def State.writeSrccfg (s : State) (c : Byte) (v : Word) : State :=
  if !srcExists c || bit (s.reg rFmCtl 1) 31 then s
  else
    let cls := fieldNat v 2 0
    let old := s.srccfg c
    let w := setBit old 8 (bit v 8)
    if cls = 7 ∨ cls < srcMin c then (s.setReg (rSrccfg c) w).badWrite else s.setReg (rSrccfg c) (setField w 2 0 cls)

/-- FWDCFG_WRITE (R449, R453, R468). Setting EN while the fold runs loads PERIOD and starts the count; clearing it stops
the count. -/
def State.writeFwdcfg (s : State) (f : FoldId) (v : Word) : State :=
  let period := fieldNat v 29 15
  let warn := fieldNat v 13 0
  let old := s.reg (rFwdcfg f) 0
  if (bit v 31 = true ∧ period = 0) ∨ (warn ≠ 0 ∧ warn ≥ period) then s.badWrite
  else
    let new : Word := setBit (v &&& 0xBFFFBFFF) 30 (bit old 30 || bit v 30)
    let s1 := s.setReg (rFwdcfg f) new
    let fo := s1.fold f
    if !s.running f then s1
    else if bit new 31 && !bit old 31 then
      s1.setFold f { fo with wdRun := true, wdVal := period, wdFrom := s.now / 1000 }
    else if !bit new 31 then s1.setFold f { fo with wdRun := false, wdVal := s.wdRem f }
    else s1

/-- The µs in which a fold watchdog's count reaches `n` is over, so that no service of that µs can come any more (R452). -/
def State.wdPast (s : State) (f : FoldId) (n : Nat) : Bool :=
  let fo := s.fold f
  fo.wdRun && !fo.wdPaused && decide (s.now / 1000 - fo.wdFrom + n > fo.wdVal)

/-- FOLD_WATCHDOG_WARN (R451, R452). -/
def State.wdWarn (s : State) (f : FoldId) : State :=
  let fo := s.fold f
  let warn := fieldNat (s.reg (rFwdcfg f) 0) 13 0
  if !fo.wdWrn && decide (warn ≠ 0) && s.wdPast f warn then
    ((s.setFold f { fo with wdWrn := true }).pendEvent f 0x0B 0 (BitVec.ofNat 32 warn)).record (foldRecord s.now 7 f 0) false
  else s

/-- FOLD_WATCHDOG_EXPIRY (R451, R452). -/
def State.wdExpiry (s : State) (f : FoldId) : State := if s.wdPast f 0 then s.wdExpire f else s

/-- The fold watchdog pauses while every span of the fold is in Nap, and resumes with the first that leaves it (R450). -/
def State.wdPause (s : State) (f : FoldId) : State :=
  let fo := s.fold f
  let all := !(s.foldSpans f).isEmpty && (s.foldSpans f).all fun sp => (s.span sp).power == .rest true
  if all == fo.wdPaused then s
  else if all then s.setFold f { fo with wdPaused := true, wdVal := s.wdRem f }
  else s.setFold f { fo with wdPaused := false, wdFrom := s.now / 1000 }

/-- The AON watchdog's remaining bt (R454). -/
def State.aonRem (s : State) : Nat := if s.aon.en then s.aon.val - (s.clk.bt - s.aon.since) else s.aon.val

/-- Reload PERIOD. -/
def AonWd.reload (a : AonWd) (bt : Nat) : AonWd := { a with val := a.period, since := bt }

/-- An expiry (R457) at bt `bt`. -/
def State.aonExpire (s : State) (bt : Nat) : State :=
  let a := s.aon.reload bt
  let s0 := if s.power.main then s.record (plainRecord s.now 7 2) false else s
  if s.aon.exp then
    let s1 := { s0 with aon := { a with count := satInc a.count } }
    if s.power.main then s1.reportU 0x2A .device 0 0 else { s1 with power := { s1.power with c6 := true } }
  else
    let s1 := { s0 with aon := { a with exp := true } }
    if s.power.main then s1.reportU 0x29 .device 0 0 else if s.power.standby.isSome then s1.wakeDevice 2 else s1

/-- AON_WATCHDOG_EXPIRY (R457): the bt in which the count reached 0 is over, so that no service of that bt can come any more (R458). -/
def State.aonExpiry (s : State) : State :=
  if s.aon.en && decide (s.clk.bt - s.aon.since > s.aon.val) then s.aonExpire (s.aon.since + s.aon.val) else s

/-- A write of AON.WDCTL (R455, Table 12.19). -/
def State.writeWdctl (s : State) (v : Word) : State :=
  let a := s.aon
  let p := fieldNat v 23 0
  let a1 := { a with period := if a.lock || decide (p = 0) then a.period else p, lock := a.lock || bit v 31 }
  { s with aon := if bit v 29 && !a.en then { a1 with en := true, since := s.clk.bt } else a1 }

/-- AON_WATCHDOG_SERVICE (R456, R458). A wrong value counts as an expiry, of a stopped watchdog too (log
entry 28). -/
def State.aonService (s : State) (v : Word) : State :=
  if v = 0x6C3A95D1 then { s with aon := { (s.aon.reload s.clk.bt) with exp := false } }
  else s.aonExpire s.clk.bt

/-- AON_WATCHDOG_KEY (R459). -/
def State.aonKey (s : State) (v : Word) : State :=
  let a := s.aon
  let k := fieldNat v 15 0
  if a.hwstart || a.lock then s
  else if a.keyed && decide (k = 0xE530) then { s with aon := { a with keyed := false, en := false, val := s.aonRem, exp := false } }
  else { s with aon := { a with keyed := decide (k = 0x1ACF) } }

/-- AON_WDCOUNT_CLEAR (R460). -/
def State.aonCountClear (s : State) (v : Word) : State := if bit v 31 then { s with aon := { s.aon with count := 0 } } else s

/-- A write of FR.CTL (Table 12.24): fields, then ARM (R462), then TRIG (R463). -/
def State.writeFrCtl (s : State) (v : Word) : State :=
  let s1 := s.setReg rFrCtl (v &&& 0x0107000F)
  let s2 := if bit v 31 then { s1 with fr := s1.fr.arm s1.clk.fc } else s1
  if bit v 30 then s2.record (plainRecord s2.now 8 0) true else s2

/-- RECORDER_ARMED (R462). -/
def State.recorderArmed (s : State) : State := { s with fr := s.fr.armed s.clk.fc }

/-- RECORDER_MARK (R461). -/
def State.recorderMark (s : State) (v : Word) : State := s.record (plainRecord s.now 8 v) false

end Sys2Proof.Machine
end

