-- ==== Sys2Proof/Machine/PortTx.lean ====
section
/-! DEFINITION. The transmit side of the ports: port events, the parsing of released writes into records, transmission under
the gate control list, and the frames and safety PDUs that leave (R506 to R513, R525 to R527, R541). -/

namespace Sys2Proof.Machine

/-- Two bytes of a header, lowest first. -/
def le16 (h : List Byte) (i : Nat) : Nat := leValue ((h.drop i).take 2)

/-- The port's vector (R541). -/
def portVec (p : Nat) : Byte := BitVec.ofNat 8 (0x13 + p)

/-- The queue number a port event names: on P4 the number of the fold's own function queue. -/
def eventQueue (p q : Nat) : Nat := if p = 4 then q % 8 else q

/-- The unit index of a report about a queue: the queue, or on P4 the number of its function (Table 12.1). -/
def portUnit (p q : Nat) : Nat := if p = 4 then q / 8 + 1 else q

/-- A port event of a queue (R541, Table 14.10). -/
def State.portEvent (s : State) (p q kind : Nat) : State :=
  match s.queueFold p q with
  | some f => if s.running f then s.edge f (portVec p) 0 (BitVec.ofNat 32 (eventQueue p q + kind * 256)) false else s
  | none => s

/-- The folds in RUN with a queue on a port. -/
def State.portFolds (s : State) (p : Nat) : List FoldId :=
  (List.finRange 16).filter fun f => s.running f && (decide (p = 4) || (List.range 64).any fun q => s.queueFold p q == some f)

/-- A port event that names no queue. -/
def State.portEventAll (s : State) (p kind : Nat) : State :=
  (s.portFolds p).foldl (fun s f => s.edge f (portVec p) 0 (BitVec.ofNat 32 (kind * 256)) false) s

/-- A queue's QCFG. -/
def State.qcfg (s : State) (p q : Nat) : Word := s.reg (rQcfg p q) 0

/-- A configured transmit connection of a queue (Tables 14.4, 14.16). -/
def State.txConn (s : State) (p q n : Nat) : Bool :=
  let c := s.conn n
  decide (n < 4096) && bit c.w0 31 && bit c.w0 30 && decide (fieldNat c.w0 28 26 = p) && decide (fieldNat c.w0 25 20 = q)

/-- Bytes of a safety PDU's TAG. -/
def tagLen (c : Conn) : Nat := if bit c.w0 29 then 16 else 0

/-- How a header is taken: a record, a broken record of known length, or the rest of the release (R509). -/
inductive HdrKind
  | good
  | broken
  | rest
deriving DecidableEq, Repr

/-- The header of P0 to P3 (Table 14.4). -/
def State.ethHdr (s : State) (p q : Nat) (h : List Byte) : HdrKind :=
  let len := le16 h 0
  let fl := (h.getD 2 0).toNat
  let sf := fl % 2 = 1
  let frer := fl / 2 % 2 = 1
  let pm := (h.getD 3 0).toNat
  let range := if sf then len ≤ 1456 else 8 ≤ len ∧ len ≤ 1508
  let ok := fl < 4 ∧ (if frer then pm < 16 ∧ pm.testBit p = true else pm = 0 ∧ le16 h 6 = 0) ∧
    (if sf then s.txConn p q (le16 h 4) = true else le16 h 4 = 0 ∧ leValue ((h.drop 8).take 4) = 0) ∧ leValue (h.drop 12) = 0
  if range then (if ok then .good else .broken) else .rest

/-- The header of P4 (Table 14.7). A posted write that would cross a 4 KiB boundary breaks the table too (R523). -/
def State.pcieHdr (s : State) (q : Nat) (h : List Byte) : HdrKind :=
  let len := le16 h 0
  let kind := (h.getD 2 0).toNat
  let arg := le16 h 4
  let addr := leValue (h.drop 8)
  let zeros := (h.getD 3 0).toNat = 0 ∧ le16 h 6 = 0
  let range := if kind = 1 then 1 ≤ len ∧ len ≤ 512 else if kind = 4 then 4 ≤ len ∧ len ≤ 460 else len = 0
  let ok := zeros ∧
    (if kind = 1 then arg = 0 ∧ addr % 4096 + len ≤ 4096
     else if kind = 2 then 1 ≤ arg ∧ arg ≤ 512
     else if kind = 3 then arg < 16 ∧ addr = 0
     else s.txConn 4 q arg = true ∧ addr % 4096 + 20 + (len - 4) + tagLen (s.conn arg) + 4 ≤ 4096)
  if kind = 0 ∨ kind > 4 then .rest else if range then (if ok then .good else .broken) else .rest

/-- Parse a release's stream into records; `none` is a discarded one. `fuel` bounds the records. -/
def State.parseTx (s : State) (p q time : Nat) (st : List (Byte × Origin)) (fuel : Nat) : List (Option TxRec) :=
  match fuel with
  | 0 => []
  | k + 1 =>
    if st.isEmpty then []
    else if st.length < 16 then [none]
    else
      let h := (st.take 16).map (·.1)
      let n := 16 + (le16 h 0 + 15) / 16 * 16
      let kind := if p = 4 then s.pcieHdr q h else s.ethHdr p q h
      match kind with
      | .rest => [none]
      | .broken => if st.length < n then [none] else none :: s.parseTx p q time (st.drop n) k
      | .good =>
        if st.length < n then [none]
        else
          let body := st.take n
          let o := ((body.take (16 + le16 h 0)).getLast?.map (·.2)).getD ⟨0, none⟩
          some ⟨if p = 4 then (h.getD 2 0).toNat else 0, h, ((body.drop 16).take (le16 h 0)).map (·.1), time, 0, o⟩
            :: s.parseTx p q time (st.drop n) k

/-- Bytes a record takes in its buffer. -/
def TxRec.bytes (r : TxRec) : Nat := 16 + (r.data.length + 15) / 16 * 16

/-- A discarded record (R509). -/
def State.txError (s : State) (p q : Nat) : State :=
  let k := s.queue p q
  (s.setQueue p q { k with txerr := satInc k.txerr }).portEvent p q 2

/-- A record dropped from a transmit buffer (R512). -/
def State.txDropped (s : State) (p q : Nat) : State :=
  let k := s.queue p q
  s.setQueue p q { k with txdrop := satInc k.txdrop }

/-- Place a record in a queue's transmit buffer (R512). -/
def State.placeTx (s : State) (p q : Nat) (r : TxRec) : State :=
  let k := s.queue p q
  let used := k.tx.foldl (fun n x => n + x.bytes) 0
  if used + r.bytes ≤ fieldNat (s.qcfg p q) 5 0 * 1024 then s.setQueue p q { k with tx := k.tx ++ [r] }
  else (s.txDropped p q).portEvent p q 2

/-- A parsed record of a release enters its queue: replicated under FRER (R510), numbered on P4 (R525). -/
def State.releaseRecord (s : State) (f : FoldId) (p q : Nat) (r : Option TxRec) : State :=
  match r with
  | none => s.txError p q
  | some r =>
    if p = 4 then
      let k := s.queue p q
      if r.kind = 1 ∨ r.kind = 4 then (s.setQueue p q { k with tseq := k.tseq + 1 }).placeTx p q { r with tseq := k.tseq }
      else s.placeTx p q r
    else
      let pm := (r.hdr.getD 3 0).toNat
      if pm = 0 then s.placeTx p q r
      else
        let ports := (List.range 4).filter fun x => pm.testBit x
        if ports.all fun x => s.queueFold x q == some f then ports.foldl (fun s x => s.placeTx x q r) s else s.txError p q

/-- Release the writes of one queue, joined into a stream (R509, R515). -/
def State.releaseQueue (s : State) (f : FoldId) (p q time : Nat) (st : List (Byte × Origin)) : State :=
  (s.parseTx p q time st (st.length + 1)).foldl (fun s r => s.releaseRecord f p q r) s

/-- IDENT.STRAP.SIDE (Table 1.11). -/
def State.sideB (s : State) : Bool := bit s.straps 0

/-- A key slot as the crypto engine and the ports read it. -/
def State.keyOf (s : State) (n : Nat) : List Byte := kget s.sec.keys (List.replicate 32 0) n

/-- The safety PDU of a record (Table 14.8, R526, R527). -/
def State.safetyPdu (s : State) (n seq time : Nat) (payload : List Byte) : List Byte :=
  let c := s.conn n
  let auth := bit c.w0 29
  let head := beBytes (0x1000 + s.sideB.toNat * 0x800 + auth.toNat * 0x400) 2 ++ beBytes (fieldNat (s.reg (rSio 0) 0) 15 0) 2
    ++ beBytes (fieldNat c.w0 15 0) 2 ++ beBytes payload.length 2 ++ beBytes seq 4 ++ beBytes time 8 ++ payload
  let tagged := if auth then head ++ gcmTag (s.keyOf (fieldNat c.w1 15 8)) (head.take 12) head [] else head
  tagged ++ beBytes (crc32c tagged).toNat 4

/-- The frame check sequence of IEEE 802.3, in the order it is sent. -/
def ethFcs (bs : List Byte) : List Byte := leBytes (crcRefl (0xEDB88320 : Word) 0xFFFFFFFF bs ^^^ 0xFFFFFFFF).toNat 4

/-- A station address of 48 bits on the wire (R655). -/
def macBytes (hi lo : Word) : List Byte := beBytes (fieldNat hi 15 0 * 2 ^ 32 + lo.toNat) 6

/-- The frame of a record (R511). -/
def State.ethFrame (s : State) (p q : Nat) (r : TxRec) : List Byte :=
  let cfg := s.qcfg p q
  let sf := (r.hdr.getD 2 0).toNat % 2 = 1
  let frer := (r.hdr.getD 2 0).toNat / 2 % 2 = 1
  let n := le16 r.hdr 4
  let c := s.conn n
  let da := if sf then beBytes (fieldNat c.w3 31 16 * 2 ^ 32 + c.w2.toNat) 6 else r.data.take 6
  let body := if sf then beBytes (fieldNat (s.reg (rPort p 0x10) 0x88B5) 15 0) 2
      ++ s.safetyPdu n (leValue ((r.hdr.drop 8).take 4)) r.time r.data
    else r.data.drop 6
  let vlan := if fieldNat cfg 23 12 = 0 then [] else beBytes 0x8100 2 ++ beBytes (fieldNat cfg 26 24 * 0x2000 + fieldNat cfg 23 12) 2
  let rtag := if frer then beBytes 0xF1C1 2 ++ beBytes 0 2 ++ beBytes (le16 r.hdr 6) 2 else []
  let f := da ++ macBytes (s.reg (rPort p 0xC) 0) (s.reg (rPort p 8) 0) ++ vlan ++ rtag ++ body
  let g := f ++ List.replicate (60 - f.length) 0
  g ++ ethFcs g

/-- Gate control list entry `i` of a port, kept beyond the control space. -/
def rGcl (p i : Nat) : Nat := 0x1000000 + p * 0x1000 + i
/-- Word `w` of stream filter `i` of a port. -/
def rSfWord (p i w : Nat) : Nat := 0x1100000 + p * 0x1000 + i * 4 + w

/-- The gate list of a port runs (GCLCFG.ENABLE). -/
def State.gclOn (s : State) (p : Nat) : Bool := bit (s.reg (rPort p 0x608) 0) 0
/-- GCLCFG entries in use. -/
def State.gclLen (s : State) (p : Nat) : Nat := fieldNat (s.reg (rPort p 0x608) 0) 24 16
/-- GCLCYC in ns. -/
def State.gclCycle (s : State) (p : Nat) : Nat := (s.reg (rPort p 0x60C) 0).toNat
/-- The base time of the gate list. -/
def State.gclBase (s : State) (p : Nat) : Nat := (s.reg (rPort p 0x610) 0).toNat + (s.reg (rPort p 0x614) 0).toNat * 2 ^ 32
/-- The start of the gate cycle that holds an instant. -/
def State.gclStart (s : State) (p t : Nat) : Nat := s.gclBase p + (t - s.gclBase p) / max 1 (s.gclCycle p) * max 1 (s.gclCycle p)

/-- The end of the entry in force: its interval, cut at the cycle's end; the last entry stands until then. -/
def State.gclEntryEnd (s : State) (p i start : Nat) : Nat :=
  let cyc := s.gclStart p start + max 1 (s.gclCycle p)
  if i + 1 ≥ s.gclLen p then cyc else min cyc (start + fieldNat (s.reg (rGcl p i) 0) 23 0 * 8)

/-- GATE_LIST_ADVANCE (R513): the entry in force ends, or the list begins at its base time. -/
def State.gateAdvance (s : State) (p : Nat) : State :=
  if !s.gclOn p || decide (s.gclLen p = 0) then s
  else match (s.gateAt.find? fun e => e.1 == p) with
  | none => if s.now < s.gclBase p then s else { s with gateAt := kset s.gateAt p (0, s.gclStart p s.now) }
  | some (_, i, start) =>
    let e := s.gclEntryEnd p i start
    if s.now < e then s
    else if e = s.gclStart p start + max 1 (s.gclCycle p) then { s with gateAt := kset s.gateAt p (0, e) }
    else { s with gateAt := kset s.gateAt p (i + 1, e) }

/-- FOLDMGR.CTL.ISO. -/
def State.iso (s : State) : Bool := bit s.fmgrCtl 0

/-- A gate list entry opens queues of more than one fold (R417). -/
def State.gateMixed (s : State) (p : Nat) (e : Word) : Bool :=
  let fs := (List.range 64).filterMap fun q => if bit e (24 + fieldNat (s.qcfg p q) 29 27) then s.queueFold p q else none
  decide (fs.dedup.length > 1)

/-- The gates a list entry opens. Isolation mode refuses an entry that opens queues of more than one fold whenever it became
so: it opens nothing while it stands (R11, R417, log entry 71). -/
def State.gateOpens (s : State) (p : Nat) (e : Word) (cls : Nat) : Bool := bit e (24 + cls) && !(s.iso && s.gateMixed p e)

/-- The instant at which a class's gate closes, walking at most `fuel` entries on from the one in force; nothing when no
entry closes it. -/
def State.gateCloses (s : State) (p cls i start fuel : Nat) : Option Nat :=
  match fuel with
  | 0 => none
  | k + 1 =>
    if !s.gateOpens p (s.reg (rGcl p i) 0) cls then some start
    else
      let e := s.gclEntryEnd p i start
      if e = s.gclStart p start + max 1 (s.gclCycle p) then s.gateCloses p cls 0 e k else s.gateCloses p cls (i + 1) e k

/-- A class may start a frame that lasts `ns` (R513). Without a running list every gate is open, as one entry would have
it (log entries 40 and 71). -/
def State.classOpen (s : State) (p cls ns : Nat) : Bool :=
  let all := s.gateOpens p 0xFF000000 cls
  if !s.gclOn p then all
  else match (s.gateAt.find? fun e => e.1 == p) with
  | none => all
  | some (_, i, start) =>
    match s.gateCloses p cls i start (s.gclLen p + 1) with
    | none => true
    | some t => decide (s.now + ns ≤ t)

/-- Nanoseconds of a frame on the line, with preamble and inter-frame gap; MODE in use gives the rate (Table 14.1). -/
def frameNs (mode bytes : Nat) : Nat :=
  let bits := (bytes + 20) * 8
  if mode = 1 then bits else if mode = 4 then (bits * 2 + 49) / 50 else (bits + 9) / 10

/-- The physical layer in use, kept by the link's training (PORT.STAT). -/
def rPortStat (p : Nat) : Nat := rPort p 4

/-- The queues of a class with records, from the one after the queue served last. -/
def State.classQueues (s : State) (p cls : Nat) : List Nat :=
  let qs := (List.range 64).filter fun q => decide (fieldNat (s.qcfg p q) 29 27 = cls) && !(s.queue p q).tx.isEmpty
  match (s.served.find? fun e => e.1 == 8 * p + cls) with
  | none => qs
  | some (_, l) => (qs.filter fun q => decide (l < q)) ++ qs.filter fun q => decide (q ≤ l)

/-- The queue that sends next: of the highest class whose gate is open and whose next frame ends before it closes. -/
def State.nextTx (s : State) (p : Nat) : Option (Nat × Nat × TxRec) :=
  ([7, 6, 5, 4, 3, 2, 1, 0].filterMap fun cls =>
    match s.classQueues p cls with
    | q :: _ =>
      match (s.queue p q).tx with
      | r :: _ => if s.classOpen p cls (frameNs (fieldNat (s.reg (rPortStat p) 0) 2 0) (s.ethFrame p q r).length) then some (cls, q, r) else none
      | [] => none
    | [] => none).head?

/-- ETH_FRAME_TRANSMIT (R513). -/
def State.ethTransmit (s : State) (p : Nat) : State :=
  if s.linkUp.contains p && !s.fm.dsafe then
    match s.nextTx p with
    | some (cls, q, r) =>
      let k := s.queue p q
      ({ (s.setQueue p q { k with tx := k.tx.drop 1 }) with served := kset s.served (8 * p + cls) q }).emit (.eth p (s.ethFrame p q r))
    | none => s
  else s

/-- Records in a port's transmit buffers are discarded and counted (R512). -/
def State.dropTx (s : State) (p : Nat) : State :=
  { s with queues := s.queues.map fun e =>
      if e.1 / 128 = p then (e.1, { e.2 with tx := [], txdrop := BitVec.ofNat 8 (satNat 255 (e.2.txdrop.toNat + e.2.tx.length)) }) else e }

/-- ETH_LINK_UP (R656): training has completed in a physical layer. -/
def State.ethUp (s : State) (p : Nat) (mode : Nat) : State :=
  let m := fieldNat (s.reg (rPort p 0) 0) 2 0
  if s.linkUp.contains p || decide (m = 0) || decide (mode = 0) || decide (mode > 4) || decide (m ≤ 4 ∧ mode ≠ m) then s
  else (({ s with linkUp := s.linkUp ++ [p] }).setReg (rPortStat p) (BitVec.ofNat 32 mode)).portEventAll p 4

/-- The link of a port goes down (R512, R656). -/
def State.ethDown (s : State) (p : Nat) : State :=
  if s.linkUp.contains p then
    (({ s with linkUp := s.linkUp.filter (· ≠ p) }.setReg (rPortStat p) 0).portEventAll p 3).dropTx p
  else s

/-- A write of PORT.CTL (R506, R548, R656): LOCK, and MODE unless reserved or locked. -/
def State.writePortCtl (s : State) (p : Nat) (v : Word) : State :=
  let a := rPort p 0
  let old := s.reg a 0
  let m := fieldNat v 2 0
  let cur := fieldNat old 2 0
  let new := if bit old 31 || decide (m ≥ 6) || decide (p = 4) then cur else m
  let s1 := s.setReg a (setBit (setField old 2 0 new) 31 (bit old 31 || bit v 31))
  if new ≠ cur then s1.ethDown p else s1

end Sys2Proof.Machine
end

