-- ==== Sys2Proof/Machine/PortRx.lean ====
section
/-! DEFINITION. The receive side of the ports: filters, duplicate elimination, safety checks, receive entries, the digest
entries of R484, connections (R514 to R517, R528 to R530, R552). -/

namespace Sys2Proof.Machine

/-- The twin part of a fold. -/
def State.twinFold (s : State) (f : FoldId) : TwinFold := kget s.twins TwinFold.reset f
/-- Replace the twin part of a fold. -/
def State.setTwinFold (s : State) (f : FoldId) (t : TwinFold) : State := { s with twins := kset s.twins f t }

/-- What becomes visible to the fold is agreed (Table 13.4): in XFER only from the cut boundary, at which the fold enters CROSS. -/
def TwinFold.agrees (t : TwinFold) : Bool := t.mode == 1 || t.mode == 4

/-- The fold exchanges digests and seals: in CROSS, XFER and SHADOW (R484), and while CROSS awaits its boundary, whose inputs are
agreed in the window before it (R495). -/
def TwinFold.exchanges (t : TwinFold) : Bool := t.mode == 1 || t.mode == 3 || t.mode == 4 || t.next == some 1

/-- The identity proof has succeeded and the link is up: SIG and STATE traffic of folds passes (R492). -/
def State.twinPasses (s : State) : Bool := s.twin.link == 2 && s.sec.twinOk

/-- This device takes part in the agreement of a fold's inputs: the fold exchanges them here, or is in SINGLE here and in
XFER or SHADOW on the partner (R484, R494, R498). -/
def State.participates (s : State) (f : FoldId) : Bool :=
  let t := s.twinFold f
  s.twinPasses && (t.exchanges || (t.mode == 2 && (match s.twin.partner with
    | some p => p.modes.getD f.val 0 == 3 || p.modes.getD f.val 0 == 4
    | none => false)))

/-- The destination code that names a queue of the fold (Table 3.2). -/
def queueDest (p q : Nat) : Half :=
  if p = 4 then BitVec.ofNat 16 (0x1400 + q % 8) else BitVec.ofNat 16 (0x1000 + p * 0x100 + q)

/-- The digest entry of an input (R484). -/
def digestOf (dest : Half) (content : List Byte) : Digest := ⟨dest, content.length, crc32c content⟩

/-- The virtual channel of a kind of traffic (Table 13.3). This model numbers what it sends to the partner: 1 heartbeat,
2 digest, 3 seal, 4 forwarded input, 5 signature record, 6 state page, 7 register image, 8 log, 9 detach notice (log entry 81). -/
def twinVc (kind : Nat) : Fin 4 := if 6 ≤ kind ∧ kind ≤ 8 then 3 else 2

/-- Pieces of at most `w` bytes. -/
def pieces (w : Nat) (data : List Byte) (n : Nat) : List (List Byte) :=
  match n with
  | 0 => []
  | k + 1 => data.take w :: pieces w (data.drop w) k

/-- How many pieces of `w` bytes data fills, at least one. -/
def pieceCount (w : Nat) (data : List Byte) : Nat := max 1 ((data.length + (w - 1)) / w)

/-- A flit's payload: 232 bytes, zeros behind what fills it (Table 13.1). -/
def payloadOf (bs : List Byte) : List Byte := (bs ++ List.replicate (232 - bs.length) 0).take 232

/-- The number of a fold in a message, 0xFF for none. -/
def foldByte (f : Option FoldId) : Byte := match f with
  | some f => BitVec.ofNat 8 f.val
  | none => 0xFF

/-- The flits of a message outside STATE: kind, fold and length, then its data. -/
def sigFlits (kind : Nat) (f : Option FoldId) (data : List Byte) : List OutFlit :=
  let m := [BitVec.ofNat 8 kind, foldByte f] ++ leBytes data.length 2 ++ data
  (pieces 232 m (pieceCount 232 m)).map fun p => ⟨twinVc kind, kind, f, payloadOf p⟩

/-- The flits of a STATE message, each with its 8-byte header and 224 data bytes (R476): kind, fold, four bytes that name what is
sent, and the piece's number. -/
def stateFlits (kind : Nat) (f : FoldId) (name data : List Byte) : List OutFlit :=
  (pieces 224 data (pieceCount 224 data)).zipIdx.map fun p =>
    ⟨twinVc kind, kind, some f,
      payloadOf ([BitVec.ofNat 8 kind, foldByte (some f)] ++ (name ++ [0, 0, 0, 0]).take 4 ++ leBytes p.2 2 ++ p.1)⟩

/-- MARK: the position with odd parity in bit 7 (Table 13.1). -/
def markByte (p : Nat) : Byte :=
  let ones := ((List.range 7).filter fun i => p.testBit i).length
  BitVec.ofNat 8 (p % 128 + if ones % 2 = 0 then 128 else 0)

/-- Bytes 1 to 235 of a flit. -/
def flitBody (vc creditVc : Fin 4) (credits : Nat) (seq ack : Byte) (payload : List Byte) : List Byte :=
  [BitVec.ofNat 8 (vc.val + creditVc.val * 4 + credits * 16), seq, ack] ++ payload

/-- The 256 bytes of a flit (Table 13.1). The spec names neither field polynomial nor generator of the RS code: its parity is free
(log entry 81). -/
def flitBytes (mark : Byte) (body : List Byte) : List Byte :=
  let b := body ++ leBytes (crc32c body).toNat 4
  mark :: b ++ leBytes (Config.rsParity b).toNat 16

/-- The position in the slot cycle that device time has reached, counted from the cycle's beginning: 9.102 ns each (R473). -/
def State.slotPos (s : State) : Nat := (s.clk.time - s.twin.beatAt) * 1000 / 9102

/-- The VC that is owed most credits. -/
def mostOwed (o : Vector Nat 4) : Fin 4 := (List.finRange 4).foldl (fun b v => if o[b] < o[v] then v else b) 0

/-- Send a flit at a position: a credit is spent, credits owed return in its HDR, and it is kept until acknowledged (R475, R477). -/
def State.flitGo (s : State) (m : OutFlit) (pos : Nat) : State :=
  let t := s.twin
  let v := mostOwed t.owed
  let n := min 15 t.owed[v]
  let u : SentFlit := ⟨t.sendSeq, m.vc, v, n, s.clk.time, m.payload⟩
  ({ s with twin := { t with
      sendSeq := t.sendSeq + 1, unacked := t.unacked ++ [u], credits := t.credits.set m.vc (t.credits[m.vc] - 1)
      owed := t.owed.set v (t.owed[v] - n) } }).emit
    (.flit (flitBytes (markByte pos) (flitBody m.vc v n t.sendSeq t.recvSeq m.payload)))

/-- A flit may go: a credit of its VC and room among the 64 kept flits. -/
def Twin.mayGo (t : Twin) (vc : Fin 4) : Bool := decide (0 < t.credits[vc]) && decide (t.unacked.length < 64)

/-- The first flit that waits on a VC. -/
def Twin.first (t : Twin) (vc : Fin 4) : Option OutFlit := t.waiting.find? fun m => m.vc == vc

/-- A waiting flit goes at a position. -/
def State.flitTake (s : State) (m : OutFlit) (pos : Nat) : State :=
  ({ s with twin := { s.twin with waiting := s.twin.waiting.erase m } }).flitGo m pos

/-- What may go at an even position (Table 13.2): SIG first, then RSP, then REQ. -/
def Twin.evenNext (t : Twin) : Option OutFlit :=
  ([2, 1, 0] : List (Fin 4)).findSome? fun vc => if t.mayGo vc then t.first vc else none

/-- Send what may go at the next even positions; `n` bounds the flits. -/
def State.evenDrain (s : State) (n : Nat) : State :=
  match n with
  | 0 => s
  | k + 1 => match s.twin.evenNext with
    | none => s
    | some m =>
      let p := max s.twin.evenAt ((s.slotPos + 1) / 2 * 2)
      (({ s with twin := { s.twin with evenAt := p + 2 } }).flitTake m p).evenDrain k

/-- Flits wait for the link, then what may go at even positions goes. -/
def State.flitsQueue (s : State) (l : List OutFlit) : State :=
  let w := s.twin.waiting ++ l
  ({ s with twin := { s.twin with waiting := w } }).evenDrain w.length

/-- Send a message outside STATE to the partner. Traffic of a fold needs the identity proof (R492). -/
def State.twinSend (s : State) (kind : Nat) (f : Option FoldId) (data : List Byte) : State :=
  if s.twin.link != 2 || (f.isSome && !s.twinPasses) then s else s.flitsQueue (sigFlits kind f data)

/-- An 8-byte digest entry on SIG. -/
def Digest.bytes (d : Digest) : List Byte := leBytes d.dest.toNat 2 ++ leBytes d.len 2 ++ leBytes d.crc.toNat 4

/-- The receive header of Table 14.5. -/
def rxHeader (len kind status index vid addr : Nat) : List Byte :=
  leBytes len 2 ++ leBytes kind 1 ++ leBytes status 1 ++ leBytes index 2 ++ leBytes vid 2 ++ leBytes addr 8

/-- An input is received into a queue: it waits for the boundary that makes it visible (R103, R105, R516). -/
def State.receive (s : State) (p q kind status index vid addr : Nat) (content : List Byte) : State :=
  match s.queueFold p q with
  | none => s
  | some f =>
    if !s.running f then s
    else
      let k := s.queue p q
      let bs := rxHeader content.length kind status index vid addr ++ content
      let e : RxEntry := ⟨s.windowEpoch f s.now, bs ++ List.replicate ((16 - bs.length % 16) % 16) 0, content⟩
      let s1 := s.setQueue p q { k with wait := k.wait ++ [e] }
      if s.participates f then s1.twinSend 2 (some f) (digestOf (queueDest p q) content).bytes else s1

/-- PORT.RXBAD counts a discarded frame. -/
def State.rxBad (s : State) (p : Nat) : State := s.setReg (rPort p 0x20) (satInc (s.reg (rPort p 0x20) 0))

/-- A safety count of a port: register offset, and whether the upper half counts (Table 14.11). -/
def State.sfCount (s : State) (p off : Nat) (hi : Bool) : State :=
  let w := s.reg (rPort p off) 0
  let l := if hi then 16 else 0
  s.setReg (rPort p off) (setField w (l + 15) l (satNat 0xFFFF (fieldNat w (l + 15) l + 1)))

/-- The valid receive connection a PDU names (R529, step 2). -/
def State.rxConn (s : State) (p q node conn : Nat) : Option Nat :=
  (s.conns.find? fun e =>
    let c := s.conn e.1
    bit c.w0 31 && !bit c.w0 30 && decide (fieldNat c.w0 28 26 = p) && decide (fieldNat c.w0 25 20 = q) &&
      decide (fieldNat c.w0 15 0 = conn) && decide (fieldNat c.w1 31 16 = node)).map (·.1)

/-- A safety PDU reaches a queue with QCFG.SF = 1 (R529): the six checks in order, then its entry. A PDU whose length is not what its LEN
says has no CRC where one belongs, so it fails step 3 (DEDUCED, log entry 82). -/
def State.safetyReceive (s : State) (p q vid : Nat) (pdu : List Byte) : State :=
  let be (i n : Nat) : Nat := beValue ((pdu.drop i).take n)
  let vf := be 0 2
  let auth := vf / 1024 % 2 = 1
  let len := be 6 2
  let n := 20 + len + (if auth then 16 else 0)
  let limit := if p = 4 then 456 else 1456
  if vf / 4096 ≠ 1 ∨ vf % 1024 ≠ 0 then
    s.sfCount p 0x24 false
  else match s.rxConn p q (be 2 2) (be 4 2) with
  | none => s.sfCount p 0x28 false
  | some i =>
    let c := s.conn i
    let body := pdu.take n
    let seq : Word := BitVec.ofNat 32 (be 8 4)
    let time := be 12 8
    let payload := (pdu.drop 20).take len
    let d := seq - c.last
    if limit < len ∨ pdu.length < n + 4 ∨ (p = 4 ∧ pdu.length ≠ n + 4) ∨ (crc32c body).toNat ≠ be n 4 then (s.sfCount p 0x24 true).reportU 0x1A .port p (portUnit p q)
    else if bit c.w0 29 && !(decide auth && (gcmTag (s.keyOf (fieldNat c.w1 15 8)) (pdu.take 12) (pdu.take (20 + len)) []
        == (pdu.drop (20 + len)).take 16)) then
      (s.sfCount p 0x28 true).reportU 0x1A .port p (portUnit p q)
    else if d = 0 ∨ d.toNat ≥ 2 ^ 31 then s.sfCount p 0x2C true
    else if (s.now - time) + (time - s.now) > fieldNat c.w3 15 0 * 10000 then s.sfCount p 0x2C false
    else
      let s1 := { s with conns := kset s.conns i { c with last := seq, payload := payload, heard := true, since := s.now, stale := false } }
      s1.receive p q 2 0 i vid 0 (leBytes seq.toNat 4 ++ [0, 0, 0, 0] ++ leBytes time 8 ++ payload)

/-- Vector recovery of IEEE 802.1CB with a history of 32 (R515): whether the frame is new, and the state after. -/
def frerRecover (h : Option (Half × Word)) (seq : Half) : Bool × (Half × Word) :=
  match h with
  | none => (true, (seq, 1))
  | some (l, w) =>
    let d := (seq - l).toNat
    if d = 0 then (false, (l, w))
    else if d < 32768 then (decide (d < 32), if d < 32 then (seq, (w <<< d) ||| 1) else (l, w))
    else
      let b := (l - seq).toNat
      if b ≥ 32 then (false, (l, w)) else if w.getLsbD b then (false, (l, w)) else (true, (l, setBit w b true))

/-- The words of stream filter `i`. -/
def State.filterWords (s : State) (p i : Nat) : List Word := (List.range 4).map fun w => s.reg (rSfWord p i w) 0

/-- Place a frame that has passed its filter (R514, R515): `mac` is destination and source, `rest` begins at the R-tag or
EtherType. -/
def State.framePassed (s : State) (p idx vid : Nat) (q : Nat) (mac rest : List Byte) : State :=
  match s.queueFold p q with
  | none => s.rxBad p
  | some f =>
    if !s.running f then s.rxBad p
    else
      let cfg := s.qcfg p q
      let go (s : State) (rest : List Byte) : State :=
        if bit cfg 31 then
          if beValue (rest.take 2) = fieldNat (s.reg (rPort p 0x10) 0x88B5) 15 0 then s.safetyReceive p q vid (rest.drop 2)
          else s.sfCount p 0x24 false
        else s.receive p q 1 0 idx vid 0 (mac ++ rest)
      if bit cfg 30 && decide (beValue (rest.take 2) = 0xF1C1) then
        let k := s.queue p q
        let r := frerRecover k.frer (BitVec.ofNat 16 (beValue ((rest.drop 4).take 2)))
        let s1 := s.setQueue p q { k with frer := some r.2 }
        if r.1 then go s1 (rest.drop 6) else s1
      else go s rest

/-- ETH_FRAME_RECEIVE (R507, R514): the frame from its destination MAC address to its frame check sequence. PAUSE (0x8808), S-VLAN (0x88A8)
and stacked tags, and the redundancy tag 0x892F, are discarded; R507 names them without their EtherTypes (PRESUMED, log entry 82). -/
def State.ethReceive (s : State) (p : Nat) (frame : List Byte) : State :=
  let n := frame.length
  if !s.linkUp.contains p then s
  else if n < 64 ∨ n > 2000 ∨ ethFcs (frame.take (n - 4)) ≠ frame.drop (n - 4) then s.rxBad p
  else
    let f := frame.take (n - 4)
    let ty (i : Nat) : Nat := beValue ((f.drop i).take 2)
    let tagged := ty 12 = 0x8100
    let e := if tagged then ty 16 else ty 12
    if e = 0x8808 ∨ e = 0x88A8 ∨ e = 0x892F ∨ ty 12 = 0x88A8 ∨ (tagged ∧ e = 0x8100) then s.rxBad p
    else
      let vid := if tagged then ty 14 % 4096 else 0
      let rest := if tagged then f.drop 16 else f.drop 12
      let hit := (List.range 128).find? fun i =>
        let w := s.filterWords p i
        Config.sfUsed w && decide (Config.sfMac w = beValue (f.take 6)) && decide (Config.sfVid w = vid) && Config.sfGateOpen w s.now
      match hit with
      | none => s.rxBad p
      | some i =>
        let w := s.filterWords p i
        let s1 := { s with freeN := s.freeN + 1 }
        if rest.length - 2 > Config.sfMaxSdu w ∨ Config.sfGreen s.freeN w s.now n = false then s1.rxBad p
        else s1.framePassed p i vid (Config.sfQueue w).val (f.take 12) rest

/-- CONNECTION_STALE (R530): silence of MAXAGE since the last acceptance, or since the connection was committed. -/
def State.connStale (s : State) (i : Nat) : State :=
  let c := s.conn i
  let age := fieldNat c.w3 15 0 * 10000
  if bit c.w0 31 && !bit c.w0 30 && !c.stale && decide (s.now ≥ c.since + age) then
    ({ s with conns := kset s.conns i { c with stale := true } }).portEvent (fieldNat c.w0 28 26) (fieldNat c.w0 25 20) 5
  else s

/-- SIO.CONNW0 to W2 as written, before a commit. -/
def rConnw (w : Nat) : Nat := rSio (0x14 + 4 * w)
/-- SIO.CONNIDX. -/
def rConnidx : Nat := rSio 0x10

/-- CONNECTION_COMMIT: a write of CONNW3 (R528, R552). The queue of P4 is 8 × fold + function queue. -/
def State.connCommit (s : State) (v : Word) : State :=
  let i := fieldNat (s.reg rConnidx 0) 11 0
  let w0 := s.reg (rConnw 0) 0 &&& 0xFFF0FFFF
  let w1 := s.reg (rConnw 1) 0 &&& 0xFFFFFF00
  let p := fieldNat w0 28 26
  let q := fieldNat w0 25 20
  let owner := if p < 4 then s.queueFold p q else if p = 4 then some (Fin.ofNat 16 (q / 8)) else none
  let other := !bit w0 30 && (s.conns.any fun e =>
    let c := s.conn e.1
    decide (e.1 ≠ i) && bit c.w0 31 && !bit c.w0 30 && decide (fieldNat c.w0 28 26 = p) &&
      decide (fieldNat c.w0 15 0 = fieldNat w0 15 0) && decide (fieldNat c.w1 31 16 = fieldNat w1 31 16))
  if bit w0 31 && (owner.isNone || other) then
    s.refuse 0x0B ((owner.map (·.val)).getD 0) i
  else
    let c := s.conn i
    { s with conns := kset s.conns i { c with
        w0 := w0, w1 := w1, w2 := s.reg (rConnw 2) 0, w3 := v, since := s.now, stale := false,
        heard := c.heard && bit w0 31, payload := if bit w0 31 then c.payload else [] } }

/-- A queue's entries of the window that closed become visible (R105, R517): those that do not fit are counted LOST. -/
def State.bindQueue (s : State) (p q : Nat) (now : List RxEntry) (wait : List RxEntry) : State :=
  let s1 := s.setQueue p q { (s.queue p q) with wait := wait }
  now.foldl (fun s e =>
    let k := s.queue p q
    let used := k.rx.foldl (fun n x => n + x.bytes.length) 0
    if used + e.bytes.length ≤ fieldNat (s.qcfg p q) 11 6 * 1024 then
      let s2 := s.setQueue p q { k with rx := k.rx ++ [e] }
      if (e.bytes.getD 2 0) = 4 ∧ (e.bytes.getD 3 0) ≠ 0 then s2.portEvent p q 6 else s2
    else (s.setQueue p q { k with lost := satInc k.lost }).portEvent p q 1) s1

end Sys2Proof.Machine
end

