-- ==== Sys2Proof/Machine/PcieOps.lean ====
section
/-! DEFINITION. P4, the PCI Express endpoint (R518 to R525). -/

namespace Sys2Proof.Machine

/-- FOLDMGR.FSTATE[f].VF: the fold's virtual function serves requests (R418, R520). -/
def State.vfOn (s : State) (f : FoldId) : Bool := s.running f

/-- P4's link is up. -/
def State.pcieUp (s : State) : Bool := s.linkUp.contains 4

/-- An error goes to AER with its header log (R518, R519): `at_` and `len` are what the command tells of the TLP's header. -/
def State.aer (s : State) (f : Option FoldId) (kind at_ len : Nat) : State :=
  { s with pcie := { s.pcie with aer := s.pcie.aer ++ [⟨f, kind, Config.tlpHeader kind (f.map (·.val)) at_ len⟩] } }

/-- A request completes, or is handled, as an unsupported request. -/
def State.unsupported (s : State) (f : FoldId) (at_ len : Nat) : State := (s.aer (some f) 2 at_ len).emit (.unsupported f)

/-- PCIE_WRITE_RECEIVE (R519, R520, R522): a host posted write at an offset of a function's BAR. -/
def State.pcieWrite (s : State) (f : FoldId) (off : Nat) (data : List Byte) (ecrc : Bool) : State :=
  if !s.pcieUp then s
  else if !ecrc then s.aer (some f) 1 off data.length
  else if !s.pcie.vfEnable || !s.vfOn f || s.pcie.flr.contains f.val then s.unsupported f off data.length
  else if data.isEmpty || decide (data.length > 512) || decide (off + data.length > 0x10000) ||
      decide (off / 0x2000 ≠ (off + data.length - 1) / 0x2000) then s.unsupported f off data.length
  else
    let q := 8 * f.val + off / 0x2000
    if bit (s.qcfg 4 q) 31 then s.safetyReceive 4 q 0 data else s.receive 4 q 3 0 0 0 (off % 0x2000) data

/-- PCIE_READ_RECEIVE (R522). -/
def State.pcieRead (s : State) (f : FoldId) (ecrc : Bool) : State :=
  if !s.pcieUp then s else if !ecrc then s.aer (some f) 1 0 0 else s.unsupported f 0 0

/-- The request a tag names. -/
def State.hostRead (s : State) (tag : Nat) : Option HostRead := s.pcie.reads.find? fun r => r.parts.any fun p => p.tag == tag

/-- The bytes a request's completions have brought, in the order of its TLPs. -/
def HostRead.data (r : HostRead) : List Byte := r.parts.flatMap fun p => p.got.take p.len

/-- Every completion of a request has come. -/
def HostRead.complete (r : HostRead) : Bool := r.parts.all fun p => decide (p.len ≤ p.got.length)

/-- A read request ends with an entry of KIND 0x04 (R523, Table 14.5). -/
def State.readDone (s : State) (r : HostRead) (status : Nat) (data : List Byte) : State :=
  ({ s with pcie := { s.pcie with reads := s.pcie.reads.erase r } }).receive 4 r.queue 4 status 0 0 r.addr data

/-- PCIE_COMPLETION_RECEIVE (R519, R523): one completion of a request; the last one forms the entry. STATUS as in
Table 14.5. -/
def State.pcieCompletion (s : State) (tag status : Nat) (data : List Byte) (ecrc : Bool) : State :=
  if !s.pcieUp then s
  else if !ecrc then s.aer none 1 tag data.length
  else match s.hostRead tag with
  | none => s
  | some r =>
    let r1 : HostRead := { r with parts := r.parts.map fun (p : ReadPart) => if p.tag = tag then { p with got := p.got ++ data } else p }
    if status = 1 ∨ status = 2 then s.readDone r status []
    else if status = 4 then s.readDone r 4 (r1.parts.flatMap (·.got))
    else if r1.complete then s.readDone r 0 r1.data
    else { s with pcie := { s.pcie with reads := s.pcie.reads.map fun x => if x = r then r1 else x } }

/-- The completion timeout in ns (Table 14.6): 10 ms after reset; the host may select a range of Device Control 2, whose least value it is
then (PRESUMED from PCI Express, log entry 82). -/
def Pcie.timeoutNs (p : Pcie) : Nat :=
  match p.range with
  | 1 => 50000
  | 2 => 1000000
  | 5 => 16000000
  | 6 => 65000000
  | _ => 10000000

/-- PCIE_COMPLETION_TIMEOUT (R518, R523): the entry has STATUS 0x03 and no data. -/
def State.pcieTimeout (s : State) (tag : Nat) : State :=
  match s.hostRead tag with
  | none => s
  | some r => if s.now < r.since + s.pcie.timeoutNs then s else (s.readDone r 3 []).aer (some r.fold) 3 tag 0

/-- An MSI-X vector of a function. -/
def State.msixVec (s : State) (f : FoldId) (v : Nat) : MsixVec := kget s.pcie.msix MsixVec.reset (16 * f.val + v)

/-- Replace an MSI-X vector. -/
def State.setMsix (s : State) (f : FoldId) (v : Nat) (x : MsixVec) : State :=
  { s with pcie := { s.pcie with msix := kset s.pcie.msix (16 * f.val + v) x } }

/-- A function's MSI-X message goes, or stays pending while its vector or the function is masked; with MSI-X disabled there is none
(R518). -/
def State.msixSend (s : State) (f : FoldId) (v : Nat) : State :=
  let x := s.msixVec f v
  if !s.pcie.msixOn.contains f.val then s
  else if x.masked || s.pcie.msixHeld.contains f.val then s.setMsix f v { x with pending := true }
  else (s.setMsix f v { x with pending := false }).emit (.msix f v x.addr x.data)

/-- The pending messages of a function go once nothing masks them. -/
def State.msixUnmask (s : State) (f : FoldId) : State :=
  (List.range 16).foldl (fun s v => if (s.msixVec f v).pending then s.msixSend f v else s) s

/-- PCIE_CONFIG_REQUEST (R518 to R520, R525). -/
def State.pcieConfig (s : State) (c : PcieConfig) (ecrc : Bool) : State :=
  if !s.pcieUp then s
  else if !ecrc then s.aer none 1 0 0
  else match c with
  | .vfEnable true => { s with pcie := { s.pcie with vfEnable := true } }
  | .vfEnable false => { s with pcie := { s.pcie with vfEnable := false, bme := [], flr := [] } }
  | .busMaster f on =>
    let l := s.pcie.bme.filter (· ≠ f.val)
    if s.pcie.vfEnable then { s with pcie := { s.pcie with bme := if on then l ++ [f.val] else l } } else s
  | .functionReset f =>
    { s with pcie := { s.pcie with
        bme := s.pcie.bme.filter (· ≠ f.val), flr := s.pcie.flr.filter (· ≠ f.val) ++ [f.val]
        msixOn := s.pcie.msixOn.filter (· ≠ f.val), msixHeld := s.pcie.msixHeld.filter (· ≠ f.val)
        msix := s.pcie.msix.filter fun e => decide (e.1 / 16 ≠ f.val), bars := s.pcie.bars.filter fun e => decide (e.1 ≠ f) } }
  | .functionReady f => { s with pcie := { s.pcie with flr := s.pcie.flr.filter (· ≠ f.val) } }
  | .bar f base => { s with pcie := { s.pcie with bars := kset s.pcie.bars f base } }
  | .maxPayload n => { s with pcie := { s.pcie with mps := n } }
  | .maxRead n => { s with pcie := { s.pcie with mrrs := n } }
  | .timeoutRange n => { s with pcie := { s.pcie with range := n } }
  | .msixControl f on masked =>
    let put (l : List Nat) (b : Bool) : List Nat := if b then l.filter (· ≠ f.val) ++ [f.val] else l.filter (· ≠ f.val)
    ({ s with pcie := { s.pcie with msixOn := put s.pcie.msixOn on, msixHeld := put s.pcie.msixHeld masked } }).msixUnmask f
  | .msixVector f v addr data masked =>
    (s.setMsix f v.val { s.msixVec f v.val with addr := addr, data := data, masked := masked }).msixUnmask f

/-- P4 may send for a function (R525). -/
def State.mayPost (s : State) (f : FoldId) : Bool :=
  s.pcie.vfEnable && s.pcie.bme.contains f.val && !s.pcie.flr.contains f.val

/-- A record is a posted write (R525). -/
def TxRec.posted (r : TxRec) : Bool := r.kind == 1 || r.kind == 4

/-- The first queue of a function with a record, in ascending number (R524). -/
def State.pcieQueue (s : State) (f : FoldId) : Option (Nat × TxRec) :=
  ((List.range 8).filterMap fun j => match (s.queue 4 (8 * f.val + j)).tx with
    | r :: _ => some (8 * f.val + j, r)
    | [] => none).head?

/-- P4 sends, or discards, one record (R518, R523 to R525): a posted write in TLPs of at most Max_Payload_Size, a safety PDU as one write,
a read request in TLPs of at most Max_Read_Request_Size. -/
def State.pcieSend (s0 : State) (f : FoldId) (q : Nat) (r : TxRec) : State :=
  let k := s0.queue 4 q
  let s := s0.setQueue 4 q { k with tx := k.tx.drop 1 }
  let addr := leValue (r.hdr.drop 8)
  let arg := le16 r.hdr 4
  if !s.mayPost f then
    if r.posted then { s with pcie := { s.pcie with undelivered := s.pcie.undelivered ++ [(f, q, r)] } } else s
  else if r.posted then
    let s1 := { s with pcie := { s.pcie with unacked := s.pcie.unacked ++ [(f, q, r)] } }
    if r.kind = 4 then s1.emit (.posted f addr (s.safetyPdu arg (leValue (r.data.take 4)) r.time (r.data.drop 4)))
    else (pieces s.pcie.mps r.data (pieceCount s.pcie.mps r.data)).zipIdx.foldl (fun s p =>
      s.emit (.posted f (addr + s.pcie.mps * p.2) p.1)) s1
  else if r.kind = 2 then
    let n := (arg + (s.pcie.mrrs - 1)) / s.pcie.mrrs
    let parts := (List.range n).map fun i => ReadPart.mk (s.pcie.tag + i) (min s.pcie.mrrs (arg - s.pcie.mrrs * i)) []
    let s1 := { s with pcie := { s.pcie with tag := s.pcie.tag + n, reads := s.pcie.reads ++ [HostRead.mk f q addr s.now parts] } }
    parts.zipIdx.foldl (fun s p => s.emit (.hostRead f p.1.tag (addr + s.pcie.mrrs * p.2) p.1.len)) s1
  else s.msixSend f arg

/-- PORT.FSHARE[f]. -/
def State.fshare (s : State) (f : FoldId) : Nat := fieldNat (s.reg (rPort 4 (0x500 + 4 * f.val)) 0) 6 0

/-- The record that a function has for its share: none while FOLDMGR.FSTATE[f].VF = 0, when it sends nothing (R520). -/
def State.shareRecord (s : State) (f : FoldId) : Option (Nat × TxRec) := if s.vfOn f then s.pcieQueue f else none

/-- Shares of a function already used in the frame in progress (R524). -/
def State.sharesUsed (s : State) (f : FoldId) : Nat := if s.pcie.frame = s.now / 8192 then kget s.pcie.used 0 f else 0

/-- A share of function `owner` passes (R524). -/
def State.useShare (s : State) (owner : FoldId) : State :=
  let used := if s.pcie.frame = s.now / 8192 then s.pcie.used else []
  { s with pcie := { s.pcie with
      shareAt := s.now / 128 + 1, frame := s.now / 8192, used := kset used owner (s.sharesUsed owner + 1) } }

/-- PCIE_TLP_TRANSMIT (R524): a share of function `owner`, of the 128 ns now passing and of those the frame still gives it. With ISO = 0
an idle share passes to the other functions in ascending order. -/
def State.pcieTransmit (s : State) (owner : FoldId) : State :=
  if !s.pcieUp || s.fm.dsafe || decide (s.fshare owner ≤ s.sharesUsed owner) || decide (s.now / 128 < s.pcie.shareAt) then s
  else match s.shareRecord owner with
  | some (q, r) => (s.useShare owner).pcieSend owner q r
  | none =>
    if bit s.fmgrCtl 0 then s
    else match (List.finRange 16).find? fun f => (s.shareRecord f).isSome with
    | none => s
    | some f => match s.shareRecord f with
      | some (q, r) => (s.useShare owner).pcieSend f q r
      | none => s

/-- PCIE_TLP_ACK (R525): the data link layer acknowledges the oldest posted writes. -/
def State.pcieAck (s : State) (n : Nat) : State := { s with pcie := { s.pcie with unacked := s.pcie.unacked.drop n } }

/-- The posted writes that stand in P4's transmit buffers. -/
def State.bufferedPosts (s : State) : List (FoldId × Nat × TxRec) :=
  (List.range 128).flatMap fun q => ((s.queue 4 q).tx.filter (·.posted)).map fun r => (Fin.ofNat 16 (q / 8), q, r)

/-- P4's link leaves DL_Active (R521, R525): released posted writes not acknowledged count as not delivered, and buffered
records are discarded. -/
def State.pcieLost (s : State) : State :=
  ({ s with
    linkUp := s.linkUp.filter (· ≠ 4)
    pcie := { s.pcie with undelivered := s.pcie.undelivered ++ s.pcie.unacked ++ s.bufferedPosts, unacked := [] } }.dropTx 4).portEventAll 4 3

/-- PCIE_LINK_DOWN. -/
def State.pcieDown (s : State) : State := if s.pcieUp then s.pcieLost else s

/-- PERST_ASSERT (R521): every configuration, AER, MSI-X and BAR register returns to its default. -/
def State.perstAssert (s : State) : State :=
  if s.pcie.perst then s
  else if s.power.main then
    let s1 := s.pcieLost
    { s1 with pcie := { Pcie.reset with
        perst := true, peclk := s1.pcie.peclk, undelivered := s1.pcie.undelivered, reads := s1.pcie.reads, tag := s1.pcie.tag
        shareAt := s1.pcie.shareAt, frame := s1.pcie.frame, used := s1.pcie.used } }
  else { s with pcie := { s.pcie with perst := true } }

/-- PERST_RELEASE (R521). -/
def State.perstRelease (s : State) : State := { s with pcie := { s.pcie with perst := false } }

/-- PCIE_LINK_UP (R518, R521): training completes, which PECLK's presence allows, at one of the speeds 2.5, 5.0, 8.0, 16.0 and
32.0 GT/s and one of the widths ×1, ×2, ×4 and ×8. -/
def State.pcieTrained (s : State) (speed : Fin 5) (width : Fin 4) : State :=
  if s.pcieUp || s.pcie.perst || !s.power.main then s
  else ({ s with linkUp := s.linkUp ++ [4], pcie := { s.pcie with peclk := true, speed := speed.val, width := width.val } }).portEventAll 4 4

/-- PECLK_LOSS (R649). -/
def State.peclkLoss (s : State) : State :=
  let s1 := s.pcieDown
  { s1 with pcie := { s1.pcie with peclk := false } }

/-- POSTED_WRITE_UNDELIVERED (R399, R525): the deferred write error of the oldest write found not delivered; its vector is raised in a
fold in RUN. -/
def State.postUndelivered (s : State) : State :=
  match s.pcie.undelivered with
  | [] => s
  | (f, q, r) :: t =>
    let s1 := { s with pcie := { s.pcie with undelivered := t } }
    match r.origin.dma with
    | some (c, seq) => (s1.dmaDefer f c seq r.origin.pc).reportU 0x17 .dma c.val 0
    | none =>
      let s2 := if s1.running f then s1.pendEvent f 0x0E r.origin.pc (BitVec.ofNat 32 (r.tseq.toNat + q % 8 * 2 ^ 16 + 2 ^ 22)) else s1
      s2.reportU 0x17 .port 4 (portUnit 4 q)

end Sys2Proof.Machine
end

