-- ==== Sys2Proof/Machine/SafeIoOps.lean ====
section
/-! DEFINITION. The pair-input unit and the safe output stage (R531 to R540, R551 to R554). -/

namespace Sys2Proof.Machine

/-- Device time in µs. -/
def State.us (s : State) : Nat := s.now / 1000

/-- Replace an input pair. -/
def State.setInPair (s : State) (i : Nat) (p : InPair) : State := { s with inPairs := kset s.inPairs i p }
/-- SIO.IPCFG of a pair. -/
def State.ipcfg (s : State) (i : Nat) : Word := s.reg (rIpcfg i) ipcfgReset
/-- SIO.OPCFG of a pair. -/
def State.opcfg (s : State) (k : Nat) : Word := s.reg (rOpcfg k) opcfgReset
/-- The fold of an input pair (R531). -/
def State.pairFold (s : State) (i : Nat) : Option FoldId :=
  if bit (s.ipcfg i) 31 then some (Fin.ofNat 16 (fieldNat (s.ipcfg i) 29 26)) else none
/-- The fold of an output pair (R537). -/
def State.outFold (s : State) (k : Nat) : Option FoldId :=
  if bit (s.opcfg k) 31 then some (Fin.ofNat 16 (fieldNat (s.opcfg k) 30 27)) else none

/-- SIO.TPCFG. -/
def rTpcfg : Nat := rSio 4
/-- SIO.TPCFG after reset: TPP 10 ms, TPW 100 µs, the least of its ranges; the spec states no value (log entry 21). -/
def tpcfgReset : Word := 0x000A0064
/-- TPW in µs. -/
def State.tpw (s : State) : Nat := fieldNat (s.reg rTpcfg tpcfgReset) 9 0
/-- TPP in ms. -/
def State.tpp (s : State) : Nat := fieldNat (s.reg rTpcfg tpcfgReset) 25 16

/-- One sample of a channel (R532); a held channel keeps its filtered value (R533). -/
def InChan.take (c : InChan) (level : Bool) (filt : Nat) (held : Bool) : InChan :=
  let run := if level = c.sample then satNat 256 (c.run + 1) else 1
  ⟨level, run, if run > filt && !held then level else c.value⟩

/-- A channel's value is held: during a pulse and for TPW after it (R533). -/
def pulseHolds (pulse : Option Nat) (tpw us : Nat) : Bool :=
  match pulse with
  | some t => decide (us < t + 2 * tpw)
  | none => false

/-- The last 10 µs of a pulse (R533). -/
def pulseLate (pulse : Option Nat) (tpw us : Nat) : Bool :=
  match pulse with
  | some t => decide (us < t + tpw) && decide (t + tpw ≤ us + 10)
  | none => false

/-- A discrepancy fault of a pair: DFAULT, vector 0x0F with the pair in SYN, source 0x18 (R534). -/
def State.discrepancy (s : State) (i : Nat) : State :=
  match s.pairFold i with
  | none => s
  | some f =>
    let p := s.inPair i
    let s1 := (s.setInPair i { p with dfault := true, timer := 0 }).reportU 0x18 .fold f.val 0
    if s1.running f then s1.pendEvent f 0x0F 0 (BitVec.ofNat 32 i) else s1

/-- One pin pair at a sample instant. -/
def State.samplePair (s : State) (i : Nat) (a b : Bool) : State :=
  let cfg := s.ipcfg i
  let tp := bit cfg 30
  let p := s.inPair i
  let s1 := s.setInPair i { p with
    a := p.a.take a (fieldNat cfg 25 18) (tp && pulseHolds s.inUnit.tpa s.tpw s.us)
    b := p.b.take b (fieldNat cfg 25 18) (tp && pulseHolds s.inUnit.tpb s.tpw s.us) }
  let late := (a && pulseLate s.inUnit.tpa s.tpw s.us) || (b && pulseLate s.inUnit.tpb s.tpw s.us)
  if tp && late && !p.dfault then s1.discrepancy i else s1

/-- INPUT_SAMPLE (R532): the levels at SIA and SIB at a multiple of 1 µs. -/
def State.inputSample (s : State) (a b : Half) : State :=
  if s.us > s.inUnit.sampled then
    let s1 := (List.range 16).foldl (fun s i => s.samplePair i (bit a i) (bit b i)) s
    { s1 with inUnit := { s1.inUnit with sampled := s.us } }
  else s

/-- A channel of a network-bound pair (R532): a bit of the payload accepted last, 0 while the connection is silent. -/
def State.netChannel (s : State) (conn bitNo : Nat) : Bool :=
  let c := s.conn conn
  c.heard && decide (s.now < c.since + fieldNat c.w3 15 0 * 10000) && ((c.payload.getD (bitNo / 8) 0).getLsbD (bitNo % 8))

/-- SIO.IPNET of a pair. -/
def State.ipnet (s : State) (i : Nat) : Word := s.reg (rIpnet i) 0
/-- SIO.IPBIT of a pair. -/
def rIpbit (i : Nat) : Nat := rSio (0x400 + 4 * i)

/-- The filtered values of a pair's channels. -/
def State.channels (s : State) (i : Nat) : Bool × Bool :=
  if i < 16 then ((s.inPair i).a.value, (s.inPair i).b.value)
  else
    let n := s.ipnet i
    let b := s.reg (rIpbit i) 0
    (s.netChannel (fieldNat n 31 20) (fieldNat b 26 16), s.netChannel (fieldNat n 15 4) (fieldNat b 10 0))

/-- One pair at a tick (R531, R534). -/
def State.tickPair (s : State) (i : Nat) : State :=
  let p := s.inPair i
  let v := s.channels i
  if (s.pairFold i).isNone then s.setInPair i { p with timer := 0, dfault := false }
  else if p.dfault then s.setInPair i { p with dfault := v.1 || v.2, timer := 0 }
  else if v.1 = v.2 then s.setInPair i { p with timer := 0 }
  else if p.timer + 1 ≥ fieldNat (s.ipcfg i) 17 0 then s.discrepancy i
  else s.setInPair i { p with timer := p.timer + 1 }

/-- A tick is due: a multiple of 10 µs not yet evaluated. -/
def State.tickDue (s : State) : Bool := decide (s.us / 10 > s.inUnit.ticked)

/-- The sample of the same instant as a due tick has been taken (R532). -/
def State.tickSampled (s : State) : Bool := decide (s.us / 10 * 10 ≤ s.inUnit.sampled)

/-- PAIR_TICK (R532, R534): the due tick, which uses the sample taken at the same instant. -/
def State.pairTick (s : State) : State :=
  if s.tickDue && s.tickSampled then
    let s1 := (List.range 64).foldl (fun s i => s.tickPair i) s
    { s1 with inUnit := { s1.inUnit with ticked := s.us / 10 } }
  else s

/-- DISCREPANCY_FAULT (R534): the due tick finds the limit reached for one pair. -/
def State.discrepancyDue (s : State) (i : Fin 64) : State :=
  let p := s.inPair i.val
  let v := s.channels i.val
  if s.tickDue && s.tickSampled && !p.dfault && v.1 != v.2 && decide (p.timer + 1 ≥ fieldNat (s.ipcfg i.val) 17 0) then s.discrepancy i.val else s

/-- TEST_PULSE (R533): a pulse begins on TPA every TPP ms, on TPB half a period after. A pulse stands from its place in that schedule,
counted from the first pulse on TPA, so the two are never low together. -/
def State.testPulse (s : State) (onB : Bool) : State :=
  let u := s.inUnit
  let period := s.tpp * 1000
  match u.tpa with
  | none => if onB then s else { s with inUnit := { u with tpa := some s.us } }
  | some t =>
    if onB then
      let b := t + period / 2
      if decide (b ≤ s.us) && decide (s.us < t + period) && u.tpb != some b then { s with inUnit := { u with tpb := some b } } else s
    else if t + period ≤ s.us then { s with inUnit := { u with tpa := some (t + (s.us - t) / period * period) } }
    else s

/-- The values of a fold's pairs at this instant (R106, R535). -/
def State.frozenNow (s : State) (f : FoldId) : KMap Nat FrozenPair :=
  ((List.range 64).filter fun i => s.pairOf f i).map fun i => (i, ⟨(s.channels i).1, (s.channels i).2, (s.inPair i).dfault⟩)

/-- A seal's bytes: the epoch, then three bytes for each pair, its number, and A, B and DFAULT in bits 0 to 2. -/
def sealBytes (n : Nat) (m : KMap Nat FrozenPair) : List Byte :=
  leBytes n 8 ++ m.flatMap fun e => [BitVec.ofNat 8 e.1, BitVec.ofNat 8 (e.2.a.toNat + 2 * e.2.b.toNat + 4 * e.2.dfault.toNat)]

/-- INPUT_FREEZE (R106, R484, R535): the freeze instant of the next epoch, after a tick due at the same device time; in a twin pair the
seal of the epoch that ends at its boundary is sent. -/
def State.inputFreeze (s : State) (f : FoldId) : State :=
  let m := s.windowEpoch f s.now
  let fo := s.fold f
  let fresh := match fo.freeze with
    | some (e, _) => decide (e < m)
    | none => decide (s.curEpoch f < m)
  if s.running f && fresh && !s.tickDue then
    let v := s.frozenNow f
    let s1 := s.setFold f { fo with freeze := some (m, v) }
    if s.participates f then s1.twinSend 3 (some f) (sealBytes (m - 1) v) else s1
  else s

/-- Energise a pair: SOB at once, SOA 10 µs later (R538). -/
def OutPair.energise (o : OutPair) (us : Nat) : OutPair :=
  if o.on then o
  else { o with on := true, dra := false, drb := true, soaAt := some (us + 10), test := none, changed := us }

/-- The released values of a pair take effect (R537, R538), none energising in device safe state (R445), each with the unchecked
flag of its epoch. -/
def State.applyOutput (s : State) (f : FoldId) (k : Nat) (vals : List (Word × Bool)) : State :=
  let step (o : OutPair × Option Bool) (v : Word × Bool) : OutPair × Option Bool :=
    if s.outFold k ≠ some f then ({ o.1 with refused := satInc o.1.refused }, o.2)
    else
      let bad := decide (v.1.toNat ≥ 2)
      let o1 := { o.1 with req := v.1.getLsbD 0, badval := if bad then satInc o.1.badval else o.1.badval }
      let want := v.1.getLsbD 0 && !bad
      let no := want && v.2 && s.sec.lc == lcField
      ({ o1 with refused := if no then satInc o1.refused else o1.refused }, some (want && !no))
  let r := vals.foldl step (s.outPair k, none)
  let never := s.sec.lc == lcOpened || s.sec.lc == lcVoid || s.fm.dsafe
  match r.2 with
  | none => s.setOutPair k r.1
  | some want =>
    if want && !never && !r.1.ofault then s.setOutPair k (r.1.energise s.us)
    else if r.1.on || r.1.dra || r.1.drb then s.setOutPair k (r.1.off s.us)
    else s.setOutPair k r.1

/-- SAFE_OUTPUT_SOA_ON (R538). -/
def State.soaOn (s : State) (k : Fin 8) : State :=
  let o := s.outPair k.val
  match o.soaAt with
  | some t => if s.us ≥ t then s.setOutPair k.val { o with dra := true, soaAt := none, changed := s.us } else s
  | none => s

/-- READBACK_FAULT (R539): two consecutive samples of SOAFB and SOBFB, the older first, both after the settle time. -/
def State.readback (s : State) (k : Fin 8) (a0 b0 a1 b1 : Bool) : State :=
  let o := { s.outPair k.val with fba := a1, fbb := b1 }
  let wrong := (a0 != o.dra && a1 != o.dra) || (b0 != o.drb && b1 != o.drb)
  match s.outFold k.val with
  | some f =>
    if wrong && !o.ofault && decide (s.us ≥ o.changed + fieldNat (s.opcfg k.val) 6 0 + 1) then
      (s.setOutPair k.val { (o.off s.us) with ofault := true }).reportU 0x19 .fold f.val 0
    else s.setOutPair k.val o
  | none => s.setOutPair k.val o

/-- The stage may turn a switch of the pair on or off at all: not with nSAFE asserted, in device safe state or once its fold is safe
(R443, R445, R540). -/
def State.outLive (s : State) (k : Nat) : Bool :=
  !s.fm.nsafe && !s.fm.dsafe && (match s.outFold k with
    | some f => (s.fold f).phase != .safe
    | none => false)

/-- OUTPUT_TEST (R540): the half period that has begun tests A or B; the pair is not tested while it energises. -/
def State.outputTest (s : State) (k : Fin 8) : State :=
  let o := s.outPair k.val
  let cfg := s.opcfg k.val
  let h := s.us / (fieldNat cfg 26 17 * 500)
  if s.outLive k.val && !o.ofault && o.soaAt.isNone && o.test.isNone && decide (h > o.tests) then
    let onB := decide (h % 2 = 1)
    s.setOutPair k.val { o with
      test := some ⟨onB, s.us⟩, tests := h, changed := s.us,
      dra := if onB then o.on else !o.on, drb := if onB then !o.on else o.on }
  else s

/-- OUTPUT_TEST_END (R540). -/
def State.outputTestEnd (s : State) (k : Fin 8) : State :=
  let o := s.outPair k.val
  match o.test with
  | some t =>
    if s.us ≥ t.since + fieldNat (s.opcfg k.val) 16 8 then
      s.setOutPair k.val { o with test := none, dra := o.on, drb := o.on, changed := s.us }
    else s
  | none => s

/-- OUTPUT_CONFIG_WRITE (R551, R554). The half periods of the tests count on from now at the OTP written (R540). -/
def State.writeOpcfg (s : State) (k : Fin 8) (v : Word) : State :=
  let locked := match s.outFold k.val with
    | some f => s.running f
    | none => false
  let otp := fieldNat v 26 17
  let otw := fieldNat v 16 8
  let ost := fieldNat v 6 0
  if locked then s
  else if otw ≤ ost ∨ otw > 500 ∨ otp < 10 ∨ otp > 1000 ∨ ost < 1 ∨ ost > 100 then s.badWrite
  else
    let s1 := s.setReg (rOpcfg k.val) (v &&& 0xFFFFFF7F)
    let o := { s1.outPair k.val with tests := s.us / (otp * 500) }
    s1.setOutPair k.val (if bit v 31 then o else { o with ofault := false })

/-- INPUT_CONFIG_WRITE (R531, R551, R553). -/
def State.writeIpcfg (s : State) (i : Fin 64) (v : Word) : State :=
  let locked := match s.pairFold i.val with
    | some f => s.running f
    | none => false
  let d := fieldNat v 17 0
  if locked then s
  else if d < 10 ∨ d > 200000 then s.badWrite
  else
    let new := if i.val < 16 then v else v &&& 0xBC03FFFF
    let s1 := s.setReg (rIpcfg i.val) new
    if bit new 31 && bit (s.ipcfg i.val) 31 then s1
    else s1.setInPair i.val { s1.inPair i.val with timer := 0, dfault := false }

/-- IPNET_WRITE (R532, R551): both channels must name different connections. -/
def State.writeIpnet (s : State) (i : Fin 64) (v : Word) : State :=
  let locked := match s.pairFold i.val with
    | some f => s.running f
    | none => false
  if locked || decide (i.val < 16) then s
  else if fieldNat v 31 20 = fieldNat v 15 4 then s.badWrite
  else s.setReg (rIpnet i.val) (v &&& 0xFFF0FFF0)

end Sys2Proof.Machine
end

