-- ==== Sys2Proof/Machine/SchedLayout.lean ====
section
/-! DEFINITION. The reserved area of a span scratchpad as bytes: overflow queue, save slots and log buffer (R287, R292, R309, Tables
8.1, 8.3, 8.8, 8.13). The scheduler holds them as structured state. -/

namespace Sys2Proof.Machine

/-- A log record's 16 bytes (Table 8.13); where the kind and the words stand in them is this model's choice (log entry 70). -/
def LogRec.bytes (r : LogRec) : List Byte :=
  match r with
  | .start n id => leBytes n 4 ++ leBytes id.toNat 4 ++ leBytes 0 4 ++ leBytes 1 4
  | .serial p t c => leBytes p.toNat 4 ++ leBytes t.toNat 4 ++ leBytes c.toNat 4 ++ leBytes 2 4
  | .atom a id n => leBytes a.toNat 4 ++ leBytes id.toNat 4 ++ leBytes n.toNat 4 ++ leBytes 3 4

/-- The bytes of words, lowest first. -/
def wordBytes (ws : List Word) : List Byte := ws.flatMap fun w => leBytes w.toNat 4

/-- A descriptor's 64 bytes (Table 8.1). -/
def TaskDesc.bytes (d : TaskDesc) : List Byte :=
  wordBytes ([d.entry, d.g1, d.g2, d.g3, d.g4, d.joinref, d.oepoch, d.attr] ++ d.sp.toList ++ [d.ident, d.parent, 0, 0])

/-- An overflow queue entry's 64 bytes: a resume descriptor carries RES = 1 and its slot in SLOT (Tables 8.1, 8.2). -/
def OvfEntry.bytes (e : OvfEntry) : List Byte :=
  match e.body with
  | .fresh d => d.bytes
  | .resume n => wordBytes ((List.replicate 16 (0 : Word)).set 7 1 |>.set 14 (BitVec.ofNat 32 n))

/-- The words of 4-byte groups. -/
def wordsOf (bs : List Byte) (n : Nat) : List Word := (List.range n).map fun i => BitVec.ofNat 32 (leValue ((bs.drop (4 * i)).take 4))

/-- The entry that 64 bytes spell. -/
def OvfEntry.ofBytes (bs : List Byte) : OvfEntry :=
  let w (i : Nat) : Word := (wordsOf bs 16).getD i 0
  if bit (w 7) 0 then resumeEntry ((w 14).toNat % 288)
  else freshEntry {
    entry := w 0, g1 := w 1, g2 := w 2, g3 := w 3, g4 := w 4, joinref := w 5, oepoch := w 6, attr := w 7,
    sp := #v[w 8, w 9, w 10, w 11], ident := w 12, parent := w 13 }

/-- A save slot's 128 words (Table 8.8). -/
def SavedTask.words (t : SavedTask) : List Word :=
  let c := t.ck.core
  let old (i : Nat) : Word := match c.shadow with
    | none => 0
    | some h => h.old.getD i 0
  c.g.toList ++ [c.pc, c.stWord, c.bk.zeroExtend 32, c.ct] ++ c.sp.toList ++
    [c.task.oepoch, c.task.tattr, c.task.tjoin, c.task.tparent, c.task.tspn, BitVec.ofNat 32 c.task.tlist.length, c.task.ident] ++
    [lsInfo c.shadow, old 0, old 1, old 2, old 3] ++ (List.range 8).map (fun i => c.task.tlist.getD i 0) ++ [t.ck.fcsr, 0, 0, 0] ++
    t.ck.f.toList.flatMap (fun (d : DWord) => [d.setWidth 32, (d >>> 32).setWidth 32]) ++ c.task.dbg.toList ++ List.replicate 32 0

/-- The saved task that a slot's bytes spell; what the layout does not hold stays. -/
def SavedTask.ofBytes (t : SavedTask) (bs : List Byte) : SavedTask :=
  let w (i : Nat) : Word := (wordsOf bs 128).getD i 0
  let c := t.ck.core
  let ls := w 31
  let n := match fieldNat ls 5 4 with
    | 0 => 1
    | 1 => 2
    | _ => 4
  let c1 : Core := { c with
    g := Vector.ofFn fun i => w i.val
    pc := w 16
    st := setBit (w 17 &&& 0xFFF) 7 false
    bk := (w 18).setWidth 8
    ct := w 19
    sp := Vector.ofFn fun i => w (20 + i.val)
    shadow := if bit (w 17) 7 then some ⟨gpr (fieldNat ls 3 0), [w 32, w 33, w 34, w 35].take n⟩ else none
    task := { c.task with
      oepoch := w 24, tattr := w 25, tjoin := w 26, tparent := w 27, tspn := w 28, ident := w 30
      tlist := ((List.range 8).map fun i => w (36 + i)).take (fieldNat (w 29) 3 0)
      dbg := Vector.ofFn fun i => w (80 + i.val) } }
  { t with ck := ⟨c1, Vector.ofFn fun i => w (49 + 2 * i.val) ++ w (48 + 2 * i.val), w 44⟩ }

/-- The log record that 16 bytes spell. -/
def LogRec.ofBytes (bs : List Byte) : LogRec :=
  let w (i : Nat) : Word := (wordsOf bs 4).getD i 0
  if w 3 = 3 then .atom (w 0) (w 1) (w 2)
  else if w 3 = 2 then .serial (w 0) (w 1) (w 2)
  else .start (w 0).toNat (w 1)

/-- The record of the reserved area at an offset of the scratchpad: its bytes and the offset within it. Entries and records stand in
the order of their queue (log entry 70). -/
def Span.recordAt (k : Span) (off : Nat) : Option (List Byte × Nat) :=
  if 0x1C0000 ≤ off ∧ off < 0x1D8000 then k.overflow[(off - 0x1C0000) / 64]?.map fun e => (e.bytes, off % 64)
  else if 0x1D8000 ≤ off ∧ off < 0x1FC000 then
    (k.slots.find? fun e => e.1 == (off - 0x1D8000) / 512).map fun e => (wordBytes e.2.words, (off - 0x1D8000) % 512)
  else if 0x1FC000 ≤ off ∧ off < 0x200000 then k.log[(off - 0x1FC000) / 16]?.map fun r => (r.2.bytes, off % 16)
  else none

/-- A byte of the always-on retained area as Drover reads it (Table 16.15): the bytes behind WDCOUNT, RSTCAUSE and the tamper record,
which have no layout (log entry 84), keys that read 0, the firmware log, and the band counts, low byte first. Where a hardware part is
concerned memory lists the bits by which an uncorrectable codeword reads otherwise than the register behind it. -/
def State.retainedByte (s : State) (off : Nat) : Byte :=
  let d := memGet s.mem (0x0300100000 + off)
  if off < 0x40 then Config.retainedHead off s.aon.count (s.reg 0x080114 0) s.sec.tstat ^^^ d
  else if off < 0x140 then 0
  else if off < 0x400 then d
  else byteOf ((s.reg (0x0A010C + 0x20 * ((off - 0x400) / 16) + (off - 0x400) % 16 / 4 * 4) 0).zeroExtend 128) (off % 4) ^^^ d

/-- A byte of memory as an access by device physical address sees it. -/
def State.viewByte (s : State) (a : Nat) : Byte :=
  match physRegion a with
  | .scratch sp off =>
    (match (s.span sp).recordAt off with
      | some (bs, i) => bs.getD i 0
      | none => memGet s.mem a)
  | .retained off => s.retainedByte off
  | _ => memGet s.mem a

/-- `n` bytes as such an access sees them. -/
def State.viewRead (s : State) (a n : Nat) : List Byte := (List.range n).map fun i => s.viewByte (a + i)

/-- A record's bytes with some replaced from an index on. -/
def patched (old : List Byte) (i : Nat) (bs : List Byte) : List Byte := old.take i ++ bs ++ old.drop (i + bs.length)

/-- Bytes of one aligned access reach the record of the reserved area that stands there. -/
def Span.recordWrite (k : Span) (off : Nat) (bs : List Byte) : Span :=
  match k.recordAt off with
  | none => k
  | some (old, i) =>
    let new := patched old i bs
    if off < 0x1D8000 then { k with overflow := k.overflow.set ((off - 0x1C0000) / 64) (OvfEntry.ofBytes new) }
    else if off < 0x1FC000 then
      { k with slots := k.slots.map fun e => if e.1 = (off - 0x1D8000) / 512 then (e.1, e.2.ofBytes new) else e }
    else { k with log := k.log.modify ((off - 0x1FC000) / 16) fun e => (e.1, LogRec.ofBytes new) }

/-- The scheduler's records follow a write by device physical address (R292, R309). -/
def State.viewWrite (s : State) (a : Nat) (bs : List Byte) : State :=
  match physRegion a with
  | .scratch sp off => s.setSpan sp ((s.span sp).recordWrite off bs)
  | _ => s

end Sys2Proof.Machine
end

