-- ==== Sys2Proof/Machine/TwinOps.lean ====
section
/-! DEFINITION. The twin pair (chapter 13): link, roles and time, twin modes, input agreement, signatures, transfer. -/

namespace Sys2Proof.Machine

/-- TWIN.CTL. -/
def rTwinCtl : Nat := 0x0C0000
/-- TWIN.LINKCNT. -/
def rTwinLinkcnt : Nat := 0x0C0020
/-- TWIN.FCTL[f]; this model keeps FWDMAX there. -/
def rFctl (f : FoldId) : Nat := 0x0C0100 + 4 * f.val
/-- TWIN.FHEP[f]. -/
def rFhep (f : FoldId) : Nat := 0x0C0140 + 4 * f.val
/-- TWIN.FSTAT[f]. -/
def rTwinFstat (f : FoldId) : Nat := 0x0C0180 + 4 * f.val
/-- TWIN.STSLOT[i]. -/
def rStslot (i : Nat) : Nat := 0x0C0200 + 4 * i

/-- Roles of TWIN.STAT (Table 13.12). -/
abbrev roleNone : BitVec 2 := 0
/-- LEAD. -/
abbrev roleLead : BitVec 2 := 1
/-- FOLLOW. -/
abbrev roleFollow : BitVec 2 := 2

/-- HSCORE (R490). -/
def State.hscore (s : State) : Word :=
  let safe := ((List.finRange 16).filter fun f => (s.fold f).phase == .safe).length
  let lost := ((List.finRange 64).filter fun sp => (List.finRange 16).all fun i => (s.yoke (yokeAt sp i)).stalled).length
  let stalled := ((List.finRange 1024).filter fun y => (s.yoke y).stalled).length
  BitVec.ofNat 32 (s.fm.dsafe.toNat * 2 ^ 31 + safe * 2 ^ 26 + lost * 2 ^ 19 + stalled * 2 ^ 8)

/-- A twin event (R503, Table 13.9). -/
def State.twinEvent (s : State) (kind : Nat) (f : Option FoldId) : State :=
  let s1 := s.reportU 0x1C .device 0 0
  match f with
  | some f => if s1.running f then s1.edge f 0x18 0 (BitVec.ofNat 32 (kind + f.val * 256)) false else s1
  | none => ((List.finRange 16).filter fun f => s1.running f).foldl (fun s f => s.edge f 0x18 0 (BitVec.ofNat 32 kind) false) s1

/-- This device's role changes (Table 13.9, ROLE). -/
def State.setRole (s : State) (r : BitVec 2) : State :=
  if s.twin.role = r then s else ({ s with twin := { s.twin with role := r } }).twinEvent 3 none

/-- The nominal increment of 1.25 ns in units of 2^-32 ns (R96). -/
def incNominal : Nat := 0x140000000

/-- EPOCH.RATE and the increment from a correction in ppb, within 500 ppm (R98). -/
def State.setRate (s : State) (ppb : Int) : State :=
  let r : Int := max (-500000) (min 500000 ppb)
  let d : Int := ((incNominal : Int) * r).tdiv 1000000000
  { s.setReg rEpRate (BitVec.ofInt 32 r) with clk := { s.clk with inc := (incNominal + d).toNat } }

/-- A steering correction toward an offset in ns, the sender's time less ours: its size is a free value, its sign that of the
offset (R97, R98; log entry 22). -/
def State.steer (s : State) (offset : Int) : State :=
  let m : Int := ((Config.freeWord s.freeN).toNat % 500001 : Nat)
  { s.setRate (if offset > 0 then m else if offset < 0 then -m else 0) with freeN := s.freeN + 1 }

/-- The offset as TWIN.TOFS shows it. -/
def offsetField (o : Int) : BitVec 24 := BitVec.ofInt 24 (max (-8388608) (min 8388607 o))

/-- A valid correction: EPOCH.SYNC shows the offset and leaves holdover, and the increment is steered (R97, R99, R128). -/
def State.corrected (s : State) (offset : Int) : State :=
  let locked := decide (offset ≤ 1000 ∧ -1000 ≤ offset)
  let w : Word := (offsetField offset).setWidth 32
  let s1 := s.setReg rEpSync (setBit w 31 locked)
  ({ s1 with clk := { s1.clk with corrAt := s1.clk.time } }).steer offset

/-- Device time is loaded (R98, R482). What counts device time from an instant begins anew there. -/
def State.loadTime (s : State) (t : Nat) : State :=
  let us := t / 1000
  { s with
    clk := { s.clk with time := t, frac := 0, corrAt := t }
    inUnit := ⟨us, us / 10, none, none⟩
    outPairs := s.outPairs.map fun e => (e.1, { e.2 with changed := us, tests := us / (fieldNat (s.opcfg e.1) 26 17 * 500) })
    conns := s.conns.map fun e => (e.1, { e.2 with since := t })
    pwr := { s.pwr with tempAt := us / 10 }
    dma := s.dma.map fun e => (e.1, { e.2 with wdFrom := t })
    gateAt := []
    pcie := { s.pcie with shareAt := t / 128, frame := t / 8192, used := [], reads := s.pcie.reads.map fun r => { r with since := t } }
    twin := { s.twin with
      lastFlit := t, beatAt := t, evenAt := 0, beatFrom := none, unacked := s.twin.unacked.map fun (u : SentFlit) => { u with time := t } } }

/-- A fold leaves CROSS for SINGLE (R486, R487, R489). A disagreement stays: uncompared epochs do not break the sequence (R488). -/
def State.toSingle (s : State) (f : FoldId) : State :=
  let t := s.twinFold f
  if t.mode = 1 then (s.setTwinFold f { t with mode := 2, next := none, own := [], partner := [] }).twinEvent 4 (some f)
  else s

/-- Any fold of the device is admitted. -/
def State.anyAdmitted (s : State) : Bool := decide (s.runMap ≠ 0)

/-- The increment of a device that follows no source but its own crystal. -/
def State.ownTime (s : State) : State :=
  if fieldNat (s.reg rEpCtl 0) 7 6 = 0 then s.setRate 0 else s

/-- The link goes down (R489, R493): the identity proof is void (R614), every fold in CROSS goes to SINGLE, the event, and a
Follow device becomes LEAD. -/
def State.linkGone (s : State) (event : Option Nat) : State :=
  let s1 := (List.finRange 16).foldl (fun s f => s.toSingle f)
    { s with
      sec := { s.sec with twinOk := false }
      twin := { s.twin with
        link := if bit (s.reg rTwinCtl 0) 0 then 1 else 0, tlock := false, unacked := [], waiting := [], partner := none, beatFrom := none, detach := false } }
  let s2 := match event with
    | some k => s1.twinEvent k none
    | none => s1
  if s2.twin.role = roleFollow then (s2.setRole roleLead).ownTime else s2

/-- TWIN_LINK_LOSS (R489): no intact flit for 10 µs, or lane alignment has failed. -/
def State.twinLinkLoss (s : State) (lanes : Bool) : State :=
  if s.twin.link = 2 ∧ (lanes = true ∨ s.now ≥ s.twin.lastFlit + 10000) then s.linkGone (some 1) else s

/-- The role that the claims give this device (R480). -/
def State.resolve (s : State) (h : Heartbeat) : BitVec 2 :=
  let claim := bit (s.reg rTwinCtl 0) 1
  match claim, h.claim with
  | true, false => roleLead
  | false, true => roleFollow
  | false, false => roleNone
  | true, true =>
    if h.hscore < s.hscore then roleFollow
    else if s.hscore < h.hscore then roleLead
    else if s.sideB then roleFollow else roleLead

/-- The partner's device time less ours, once a time message has made its round trip: the link delay is half of what the trip
took beyond the time the partner held it (R481). -/
def State.beatOffset (s : State) (h : Heartbeat) : Option Int :=
  h.echo.map fun e => (h.time : Int) + (s.clk.time - e.1 - e.2 : Nat) / 2 - s.clk.time

/-- What a heartbeat tells of the partner (R481, R504). Until a round trip is complete there is no measured offset: TLOCK reads 0. -/
def State.partnerSays (s : State) (h : Heartbeat) : State :=
  let s1 := { s with twin := { s.twin with
    partner := some h, phealth := h.hscore, puid := h.uid, pdsafe := h.dsafe, beatFrom := some (h.time, s.clk.time)
    tofs := match s.beatOffset h with
      | some o => offsetField o
      | none => s.twin.tofs
    tlock := match s.beatOffset h with
      | some o => decide (o ≤ 100 ∧ -100 ≤ o)
      | none => false } }
  if h.dsafe && !s.twin.pdsafe then s1.twinEvent 0x0A none else s1

/-- TWIN_LINK_UP (R479, R480, R482, R491), with the partner's first heartbeat. -/
def State.twinLinkUp (s : State) (h : Heartbeat) : State :=
  if !bit (s.reg rTwinCtl 0) 0 || s.twin.link == 2 then s
  else if h.sideB == s.sideB then { s with twin := { s.twin with link := 1, sideErr := true } }
  else
    let bothLead := s.twin.role == roleLead && h.role == roleLead
    let role := s.resolve h
    let s1 := { s with twin := { s.twin with
      link := 2, sideErr := false, sendSeq := 0, recvSeq := 0xFF, unacked := [], waiting := [], credits := twinBuffers,
      owed := #v[0, 0, 0, 0], inbox := [], lastFlit := s.now, beatAt := s.now, evenAt := 0, detach := false } }
    let s2 := ((s1.partnerSays h).twinEvent 2 none).setRole role
    if role ≠ roleFollow then s2
    else if !s2.anyAdmitted then s2.loadTime h.time
    else if bothLead then
      (List.finRange 16).foldl (fun s f =>
        let t := s.twinFold f
        if s.running f && t.mode != 1 then
          s.setTwinFold f { t with
              mode := 3, next := none, authTo := some 0, phase := .none, sent := [], dirty := [], cutDone := false, recv := false, image := none }
        else s) s2
    else s2

/-- A flit goes again at the next even position: the same bytes but for MARK and ACK, so it returns no credit twice (R475). -/
def State.resend (s : State) (u : SentFlit) : State :=
  let p := max s.twin.evenAt ((s.slotPos + 1) / 2 * 2)
  ({ s with twin := { s.twin with evenAt := p + 2 } }).emit
    (.flit (flitBytes (markByte p) (flitBody u.vc u.creditVc u.credits u.seq s.twin.recvSeq u.payload)))

/-- FLIT_RESEND (R475): the oldest flit kept has waited 1 µs; it and every later one are sent again. -/
def State.flitResend (s : State) : State :=
  match s.twin.unacked with
  | [] => s
  | x :: _ =>
    if s.twin.link = 2 ∧ s.now ≥ x.time + 1000 then
      let w := s.reg rTwinLinkcnt 0
      let s1 := { s with twin := { s.twin with unacked := s.twin.unacked.map fun (u : SentFlit) => { u with time := s.now } } }
      (s.twin.unacked.foldl (fun s u => s.resend u) s1).setReg rTwinLinkcnt (setField w 15 0 (satNat 0xFFFF (fieldNat w 15 0 + 1)))
    else s

/-- Slots of the STATE channel that a fold owns (Table 13.10). -/
def State.stateSlots (s : State) (f : FoldId) : Nat :=
  ((List.range 64).filter fun i => ownerOf (s.reg (rStslot i) 0) == some f).length

/-- The epoch that FHEP names, nearest to the current one. -/
def State.fhepEpoch (s : State) (f : FoldId) : Nat :=
  let e := s.curEpoch f
  let d := (s.reg (rFhep f) 0 - BitVec.ofNat 32 e).toInt
  ((e : Int) + d).toNat

/-- A fold is quiescent: no task, no parked task, no running DMA channel (R494). -/
def State.quiescent (s : State) (f : FoldId) : Bool :=
  (s.foldSpans f).all (fun sp => s.spanFree sp && ((s.span sp).waitPush.isEmpty)) &&
    (List.finRange 64).all fun c => decide (s.dmaFold c ≠ some f) || !(s.dmaCh c).busy

/-- The decision that stands first in the logs of a fold's Lead spans, with its span (R318). -/
def State.firstLog (s : State) (f : FoldId) : Option (SpanId × Nat × LogRec) :=
  (s.foldSpans f).foldl (fun b sp => match (s.span sp).log with
    | [] => b
    | e :: _ => match b with
      | some x => if x.2.1 < e.1 then b else some (sp, e)
      | none => some (sp, e)) none

/-- Take up to `n` records off the logs of a fold, in the order of the decisions. -/
def State.takeLogs (s : State) (f : FoldId) (n : Nat) : State × List LogRec :=
  match n with
  | 0 => (s, [])
  | k + 1 => match s.firstLog f with
    | none => (s, [])
    | some (sp, e) =>
      let r := (s.setSpan sp { s.span sp with log := (s.span sp).log.drop 1 }).takeLogs f k
      (r.1, e.2 :: r.2)

/-- A flit of a fold and one of these kinds of traffic waits for its position. -/
def State.flitWaits (s : State) (f : FoldId) (kinds : List Nat) : Bool :=
  s.twin.waiting.any fun m => m.fold == some f && kinds.contains m.kind

/-- The fold's Lead spans put log records into its STATE slots: 14 in each slot of the cycle, in the order of the decisions
(R318, R478), before what a transfer has waiting. -/
def State.sendLogs (s : State) (f : FoldId) : State :=
  if !s.twinPasses || s.flitWaits f [8] then s
  else
    let r := s.takeLogs f (14 * s.stateSlots f)
    if r.2.isEmpty then s
    else { r.1 with twin := { r.1.twin with waiting := stateFlits 8 f [] (r.2.flatMap LogRec.bytes) ++ r.1.twin.waiting } }

/-- One STATE slot of the cycle (Table 13.2): a flit of the fold it belongs to; with FOLDMGR.CTL.ISO = 0 RSP and then REQ may use what
the fold leaves idle. -/
def State.stateSlot (s : State) (i : Nat) : State :=
  match ownerOf (s.reg (rStslot i) 0) with
  | none => s
  | some f =>
    match if s.twin.mayGo 3 then s.twin.waiting.find? (fun m => m.vc == 3 && m.fold == some f) else none with
    | some m => s.flitTake m (2 * i + 1)
    | none =>
      if s.iso then s
      else match ([1, 0] : List (Fin 4)).findSome? fun vc => if s.twin.mayGo vc then s.twin.first vc else none with
        | some m => s.flitTake m (2 * i + 1)
        | none => s

/-- A heartbeat's bytes: ROLE, CLAIM and DSAFE, HSCORE, the modes, the time message, FSTART of every fold (R481, R102; log entry 81). -/
def State.beatBytes (s : State) : List Byte :=
  leBytes (s.twin.role.toNat + (bit (s.reg rTwinCtl 0) 1).toNat * 4 + s.fm.dsafe.toNat * 8 + s.sideB.toNat * 16 + s.twin.beatFrom.isSome.toNat * 32) 1 ++
    leBytes s.hscore.toNat 4 ++ (List.finRange 16).map (fun f => ((s.twinFold f).mode.setWidth 8 : Byte)) ++ leBytes s.now 8 ++
    (match s.twin.beatFrom with
      | some e => leBytes e.1 8 ++ leBytes (s.now - e.2) 4
      | none => List.replicate 12 0) ++ (List.finRange 16).flatMap (fun f => leBytes (s.fold f).fstart.toNat 8)

/-- The cut that FHEP names can still be finished: 4 µs before its boundary (R494). -/
def State.cutOpen (s : State) (f : FoldId) : Bool :=
  let b := s.fhepEpoch f
  decide (s.curEpoch f < b) && decide (s.now + 4000 ≤ b * s.epochNs f) &&
    decide ((b - (s.fold f).fstart.toNat) % s.frameK f = 0) && s.quiescent f

/-- A register image that has not left in time does not go: the transfer waits for the next quiescent frame start (R494). -/
def State.cutMissed (s : State) (f : FoldId) : State :=
  let t := s.twinFold f
  match t.phase with
  | .image _ =>
    if t.cutDone || s.cutOpen f then s
    else
      let s1 := s.setTwinFold f { t with phase := .delta t.dirty, dirty := [] }
      { s1 with twin := { s1.twin with waiting := s1.twin.waiting.filter fun m => !(m.fold == some f && m.kind == 7) } }
  | _ => s

/-- TWIN_HEARTBEAT (R476, R481): a slot cycle of 1.165 µs begins with a heartbeat, and its 64 STATE slots follow in the order of
TWIN.STSLOT. -/
def State.twinHeartbeat (s : State) : State :=
  if s.twin.link = 2 ∧ s.now ≥ s.twin.beatAt + 1165 then
    let s1 := ({ s with twin := { s.twin with beatAt := s.now, evenAt := s.twin.evenAt - 128 } }).twinSend 1 none s.beatBytes
    let s2 := (List.finRange 16).foldl (fun s f => (s.cutMissed f).sendLogs f) s1
    (List.range 64).foldl (fun s i => s.stateSlot i) s2
  else s

/-- The partner's fold has left CROSS, as its heartbeat shows: SINGLE, at a time after the boundary at which the fold entered CROSS
(R486). -/
def State.partnerLeft (s : State) (h : Heartbeat) (f : FoldId) : Bool :=
  h.modes.getD f.val 0 == 2 && decide ((s.twinFold f).crossFrom * s.epochNs f < h.time)

/-- TWIN_HEARTBEAT_RECEIVE (R481, R482, R486). A Follow device steers its time; a fold whose partner has left CROSS goes to
SINGLE. -/
def State.twinBeat (s : State) (h : Heartbeat) : State :=
  if s.twin.link ≠ 2 then s
  else
    let s1 := s.partnerSays h
    let s2 := (List.finRange 16).foldl (fun s f => if s.partnerLeft h f then s.toSingle f else s) s1
    match s.beatOffset h with
    | some o => if s2.twin.role = roleFollow then s2.corrected o else s2
    | none => s2

/-- MARK has odd parity (Table 13.1). -/
def markGood (m : Byte) : Bool := markByte (m.toNat % 128) == m

/-- Flits of a VC that its receive buffer holds (R477). -/
def Twin.buffered (t : Twin) (vc : Fin 4) : Nat := (t.inbox.filter fun m => m.1 == vc).length

/-- Drover firmware takes RSP messages, and REQ messages while an RSP flit could answer one; each buffer freed is a credit to
return (R477). -/
def Twin.unload (t : Twin) : Twin :=
  let take := t.inbox.filter fun m => m.1 == 1 || t.credits[(1 : Fin 4)] != 0
  { t with
    inbox := t.inbox.filter fun m => !(m.1 == 1 || t.credits[(1 : Fin 4)] != 0)
    firm := t.firm ++ take
    owed := take.foldl (fun o m => o.set m.1 (o[m.1] + 1)) t.owed }

/-- The detach notice has left: the link goes down (R493). -/
def State.detachDone (s : State) : State :=
  if s.twin.detach && !s.twin.waiting.any fun m => m.kind == 9 then
    let s1 := s.linkGone none
    { s1 with twin := { s1.twin with link := 0 } }
  else s

/-- TWIN_FLIT_RECEIVE (R473 to R477): `errs` byte errors in the codeword. A flit that stays intact acknowledges; the next in sequence
returns credits and brings the next message of its VC: REQ and RSP messages fill the receive buffers, SIG and STATE are handed on at
once and their buffers freed. A MARK of wrong parity counts as damage (the model's choice, log entry 81). -/
def State.twinFlit (s : State) (x : Flit) (errs : Nat) : State :=
  if s.twin.link ≠ 2 then s
  else
    let hdr : Byte := BitVec.ofNat 8 (x.vc.val + x.creditVc.val * 4 + x.credits.toNat * 16)
    let good := markGood x.mark && decide (errs ≤ 8) && crc32c ([hdr, x.seq, x.ack] ++ x.payload) == x.crc
    if !good then
      let w := s.reg rTwinLinkcnt 0
      s.setReg rTwinLinkcnt (setField w 31 16 (satNat 0xFFFF (fieldNat w 31 16 + 1)))
    else
      let t := s.twin
      let known := t.unacked.any fun u => u.seq == x.ack
      let rest := if known then (t.unacked.dropWhile fun u => u.seq != x.ack).drop 1 else t.unacked
      let t1 := { t with lastFlit := s.now, unacked := rest }
      let next := decide (x.seq = t.recvSeq + 1) && decide (t.buffered x.vc < twinBuffers[x.vc])
      let t2 := if next then
          { t1 with
            recvSeq := x.seq, credits := t1.credits.set x.creditVc (t1.credits[x.creditVc] + x.credits.toNat)
            owed := if x.vc.val < 2 then t1.owed else t1.owed.set x.vc (t1.owed[x.vc] + 1)
            inbox := if x.vc.val < 2 then t1.inbox ++ [(x.vc, x.payload)] else t1.inbox }
        else t1
      (({ s with twin := t2.unload }).evenDrain t2.waiting.length).detachDone

/-- Elements of the first list that the second does not match, with multiplicity (R484). -/
def digestSub (a b : List Digest) : List Digest := b.foldl (fun l d => l.erase d) a

/-- The queues of a fold, by port and number. -/
def State.foldQueues (s : State) (f : FoldId) : List (Nat × Nat) :=
  ((List.range 4).flatMap fun p => ((List.range 64).filter fun q => s.queueFold p q == some f).map fun q => (p, q)) ++
    (List.range 8).map fun j => (4, 8 * f.val + j)

/-- The entries of a queue received in the windows before epoch `n`. -/
def State.windowEntries (s : State) (p q n : Nat) : List RxEntry := (s.queue p q).wait.filter fun e => decide (e.epoch < n)

/-- The partner's digests of a queue for the window that closes before epoch `n`. -/
def TwinFold.digests (t : TwinFold) (n : Nat) (dest : Half) : List Digest :=
  (t.theirs.filter fun d => decide (d.1 = n) && decide (d.2.dest = dest)).map (·.2)

/-- The forwarding limit of a fold in bytes (Table 13.13). -/
def State.fwdMax (s : State) (f : FoldId) : Nat := 16 * fieldNat (s.reg (rFctl f) 0) 9 0

/-- The entries of a list that fit a budget, and those left out. -/
def cutBudget (ds : List Digest) (room : Nat) : List Digest × List Digest :=
  match ds with
  | [] => ([], [])
  | d :: t => if d.len ≤ room then let r := cutBudget t (room - d.len); (d :: r.1, r.2) else ([], d :: t)

/-- The agreement of a fold for epoch `n`: for each queue the agreed digests; what this device forwards; what is left out
(R484). -/
structure Agreement where
  lists : List ((Nat × Nat) × List Digest)
  sends : List Digest
  left : Nat
deriving DecidableEq, Repr

/-- Form the agreed lists (R484, steps 3 and 4). -/
def State.agree (s : State) (f : FoldId) (n : Nat) : Agreement :=
  let t := s.twinFold f
  let own (pq : Nat × Nat) : List Digest := (s.windowEntries pq.1 pq.2 n).map fun e => digestOf (queueDest pq.1 pq.2) e.content
  let theirs (pq : Nat × Nat) : List Digest := t.digests n (queueDest pq.1 pq.2)
  let qs := s.foldQueues f
  let mine := cutBudget (qs.flatMap fun pq => digestSub (own pq) (theirs pq)) (s.fwdMax f)
  let other := cutBudget (qs.flatMap fun pq => digestSub (theirs pq) (own pq)) (s.fwdMax f)
  let out := mine.2 ++ other.2
  let lead := s.twin.role == roleLead
  { lists := qs.map fun pq =>
      let l := if lead then own pq ++ digestSub (theirs pq) (own pq) else theirs pq ++ digestSub (own pq) (theirs pq)
      (pq, (digestSub l.reverse out).reverse)
    sends := mine.1
    left := out.length }

/-- TWIN_DIGEST_RECEIVE (R484): the entry belongs to the window that the partner's next seal closes. -/
def State.twinDigest (s : State) (f : FoldId) (d : Digest) : State :=
  let t := s.twinFold f
  if s.participates f then s.setTwinFold f { t with theirs := t.theirs ++ [(0, d)] } else s

/-- TWIN_SEAL_RECEIVE (R484, R485): the partner's seal for epoch `e`, whose inputs become visible at the boundary that opens e + 1;
the agreed lists are formed, and this device forwards what the partner lacks. -/
def State.twinSeal (s : State) (f : FoldId) (e : Nat) (v : KMap Nat FrozenPair) : State :=
  let n := e + 1
  let t := s.twinFold f
  if !s.participates f then s
  else
    let t1 := { t with sealed := some (e, v), theirs := t.theirs.map fun d => if d.1 = 0 then (n, d.2) else d }
    let s1 := s.setTwinFold f t1
    let a := s1.agree f n
    let entries := (s1.foldQueues f).flatMap fun pq => (s1.windowEntries pq.1 pq.2 n).map fun e => (queueDest pq.1 pq.2, e)
    let s2 := a.sends.foldl (fun s d =>
      match entries.find? fun e => digestOf e.1 e.2.content == d with
      | some e => s.twinSend 4 (some f) (leBytes e.1.toNat 2 ++ e.2.bytes)
      | none => s) s1
    if a.left = 0 then s2
    else
      let w := s2.reg (rTwinFstat f) 0
      (s2.setReg (rTwinFstat f) (setField w 15 0 (satNat 0xFFFF (fieldNat w 15 0 + a.left)))).twinEvent 9 (some f)

/-- TWIN_FORWARD_RECEIVE (R484): an entry this device lacks. -/
def State.twinForward (s : State) (f : FoldId) (dest : Half) (bytes content : List Byte) : State :=
  let t := s.twinFold f
  if s.participates f then s.setTwinFold f { t with fwd := t.fwd ++ [(dest, ⟨0, bytes, content⟩)] } else s

/-- Take the entry of a digest from the device's own entries or the forwarded ones. -/
def takeEntry (dest : Half) (d : Digest) (own fwd : List RxEntry) : Option (RxEntry × List RxEntry × List RxEntry) :=
  match own.find? fun e => digestOf dest e.content == d with
  | some e => some (e, own.erase e, fwd)
  | none => match fwd.find? fun e => digestOf dest e.content == d with
    | some e => some (e, own, fwd.erase e)
    | none => none

/-- The entries of an agreed list; nothing when one is missing. -/
def agreedEntries (dest : Half) (ds : List Digest) (own fwd : List RxEntry) : Option (List RxEntry) :=
  match ds with
  | [] => some []
  | d :: t => match takeEntry dest d own fwd with
    | none => none
    | some (e, own', fwd') => (agreedEntries dest t own' fwd').map (e :: ·)

/-- The agreed entries of every queue of a fold for epoch `n`, when the seal and every forwarded entry have arrived. -/
def State.agreed (s : State) (f : FoldId) (n : Nat) : Option (List ((Nat × Nat) × List RxEntry)) :=
  let t := s.twinFold f
  match t.sealed with
  | some (m, _) =>
    if m + 1 ≠ n then none
    else (s.agree f n).lists.foldr (fun x acc => match acc with
      | none => none
      | some l =>
        let dest := queueDest x.1.1 x.1.2
        (agreedEntries dest x.2 (s.windowEntries x.1.1 x.1.2 n) ((t.fwd.filter fun e => e.1 == dest).map (·.2))).map fun es => (x.1, es) :: l)
      (some [])
  | none => none

/-- The samples of the epoch that opens, from the freeze for it (R106, R485, R535). -/
def State.samplesFor (s : State) (f : FoldId) (n : Nat) (joined : Bool) : KMap Nat SampleVal :=
  let t := s.twinFold f
  match (s.fold f).freeze with
  | some (m, own) =>
    if m ≠ n then []
    else own.map fun e => (e.1, SampleVal.mk e.2 (match joined, t.sealed with
      | true, some (_, v) => (v.find? fun x => x.1 == e.1).map (·.2)
      | _, _ => none))
  | none => []

/-- INPUT_BINDING (R105, R107, R484, R486): the inputs received before the window of epoch `n` become visible. -/
def State.bindInputs (s : State) (f : FoldId) (n : Nat) : State :=
  let t := s.twinFold f
  let own (s : State) : State :=
    (s.foldQueues f).foldl (fun s pq => s.bindQueue pq.1 pq.2 (s.windowEntries pq.1 pq.2 n)
      ((s.queue pq.1 pq.2).wait.filter fun e => decide (n ≤ e.epoch))) s
  let samples (s : State) (j : Bool) : State := s.setFold f { (s.fold f) with frozen := s.samplesFor f n j }
  if !t.agrees && !s.participates f then samples (own s) false
  else
    let s1 := if !t.agrees then samples (own s) false else match s.agreed f n with
      | some ls => samples (ls.foldl (fun (s : State) (x : (Nat × Nat) × List RxEntry) => s.bindQueue x.1.1 x.1.2 x.2
          ((s.queue x.1.1 x.1.2).wait.filter fun e => decide (n ≤ e.epoch))) s) true
      | none => ((samples (own s) false).toSingle f).twinEvent 8 (some f)
    let t1 := s1.twinFold f
    s1.setTwinFold f { t1 with theirs := t1.theirs.filter fun d => decide (d.1 = 0 ∨ n < d.1), fwd := [], sealed := none }

/-- The SIG message of a signature record (Table 3.4). -/
def SigRecord.bytes (r : SigRecord) : List Byte :=
  let b := leBytes r.epoch.toNat 8 ++ leBytes r.sig.toNat 8 ++ [r.fold, r.flags, 0, 0] ++ leBytes r.nsigned.toNat 4 ++ leBytes r.nlocal.toNat 4
  b ++ leBytes (crc32c b).toNat 4

/-- The late flag of a record. -/
def SigRecord.late (r : SigRecord) : Bool := bit r.flags 1

/-- Two records agree (R487). -/
def SigRecord.agrees (a b : SigRecord) : Bool := a.sig == b.sig && a.nsigned == b.nsigned && bit a.flags 0 == bit b.flags 0

/-- Compare the records of one epoch when both are there (R487, R488). -/
def State.compareSig (s : State) (f : FoldId) (epoch : DWord) : State :=
  let t := s.twinFold f
  match t.own.find? (fun r => r.epoch == epoch), t.partner.find? (fun r => r.epoch == epoch) with
  | some a, some b =>
    let t1 := { t with own := t.own.filter fun r => r.epoch != epoch, partner := t.partner.filter fun r => r.epoch != epoch }
    if a.late || b.late then s.setTwinFold f t1
    else if a.agrees b then s.setTwinFold f { t1 with disagreed := false }
    else
      let w := s.reg (rTwinFstat f) 0
      let s1 := (((s.setTwinFold f { t1 with disagreed := true }).setReg (rTwinFstat f)
        (setField w 31 24 (satNat 0xFF (fieldNat w 31 24 + 1)))).twinEvent 6 (some f))
      if t.disagreed then s1.reportU 0x1D .fold f.val 0 else s1
  | _, _ => s

/-- TWIN_SIGNATURE_RECEIVE (R487). -/
def State.twinSignature (s : State) (f : FoldId) (r : SigRecord) : State :=
  let t := s.twinFold f
  if s.twinPasses && t.mode == 1 && decide (t.crossFrom ≤ r.epoch.toNat) then
    (s.setTwinFold f { t with partner := t.partner ++ [r] }).compareSig f r.epoch
  else s

/-- At the next boundary after a record's release the partner's is missing (R487). -/
def State.sigMissing (s : State) (f : FoldId) : State :=
  let t := s.twinFold f
  if t.mode = 1 ∧ t.own ≠ [] then
    let w := s.reg (rTwinFstat f) 0
    ((s.setReg (rTwinFstat f) (setField w 23 16 (satNat 0xFF (fieldNat w 23 16 + 1)))).twinEvent 7 (some f)).toSingle f
  else s

/-- A record is sent to the partner and, when the fold is cross-checked, awaits its comparison (R120, R487). In SINGLE and
SHADOW it is sent and not compared, in ALONE and XFER it is not sent (Table 13.4). -/
def State.recordSent (s : State) (f : FoldId) (r : SigRecord) : State :=
  let t := s.twinFold f
  if t.mode = 1 ∧ t.crossFrom ≤ r.epoch.toNat then
    ((s.setTwinFold f { t with own := t.own ++ [r] }).twinSend 5 (some f) r.bytes).compareSig f r.epoch
  else if t.mode = 1 ∨ t.mode = 2 ∨ t.mode = 4 then s.twinSend 5 (some f) r.bytes
  else s

/-- The register image of a fold (Table 13.6), with the watchdog's count as it remains at the cut boundary. -/
def State.imageOf (s : State) (f : FoldId) : FoldImage :=
  let fo := s.fold f
  { fstart := fo.fstart, fstat := s.reg (rEpFstat f) 0, serial := fo.serial, dtb := fo.dtb, escv := fo.escv, esp := fo.esp,
    sksz := fo.sksz, ien := fo.ien, entryf := fo.entryf, etotal := fo.etotal, chans := fo.chans, joins := fo.joins,
    dma := ((List.finRange 64).filter fun c => s.dmaFold c == some f).map fun c => (c, s.dmaCh c),
    queues := (s.foldQueues f).map fun pq => (qKey pq.1 pq.2, (s.queue pq.1 pq.2).rx),
    xch := ((List.range 256).filter fun x => s.receives f x).map fun x => (x, (s.xchQ x).items),
    fwdcfg := s.reg (rFwdcfg f) 0
    wdLeft := if bit (s.reg (rFwdcfg f) 0) 31 then s.wdRem f - (s.fhepEpoch f * s.epochNs f / 1000 - s.us) else s.wdRem f }

/-- The receiving device's fold takes the sender's state at the cut boundary (R495). -/
def State.applyImage (s : State) (f : FoldId) (m : FoldImage) : State :=
  let s0 := s.discardTasks f
  let fo := s0.fold f
  let s1 := ((s0.setFold f { fo with
      fstart := m.fstart, serial := m.serial, dtb := m.dtb, escv := m.escv, esp := m.esp, sksz := m.sksz, ien := m.ien,
      entryf := m.entryf, etotal := m.etotal, chans := m.chans, joins := m.joins,
      wdRun := bit m.fwdcfg 31, wdVal := m.wdLeft, wdFrom := s.us, rootIdent := none }).setReg (rEpFstat f) m.fstat).setReg (rFwdcfg f) m.fwdcfg
  let s2 := m.dma.foldl (fun s e => if s.dmaFold e.1 = some f then s.setDma e.1 e.2 else s) s1
  let s3 := m.queues.foldl (fun s e =>
    if s.queueFold (e.1 / 128) (e.1 % 128) = some f then
      s.setQueue (e.1 / 128) (e.1 % 128) { s.queue (e.1 / 128) (e.1 % 128) with rx := e.2 } else s) s2
  m.xch.foldl (fun s e => if s.receives f e.1 then { s with xch := kset s.xch e.1 { s.xchQ e.1 with items := e.2 } } else s) s3

/-- The pages of a fold that a transfer sends: its scratchpads, reserved areas included, and its groups but for the
holding area, by physical page number (R494). -/
def State.foldPages (s : State) (f : FoldId) : List Nat :=
  let spans := (s.foldSpans f).flatMap fun sp => (List.range 512).map fun i => physScratch sp 0 / 4096 + i
  let hb := 0x0200000000 + (s.reg (rFhbase f) 0).toNat
  let hs := (s.reg (rFhsize f) 0).toNat
  let grps := (s.foldGroups f).flatMap fun g => (List.range 256).map fun i => physGroup g 0 / 4096 + i
  spans ++ grps.filter fun n => decide (n * 4096 < hb ∨ hb + hs ≤ n * 4096)

/-- The fold-relative name of a page, which the partner's fold shares: kind, span or group index, page. -/
def State.pageName (s : State) (f : FoldId) (n : Nat) : List Byte :=
  let a := n * 4096
  if a < 0x0200000000 then
    let sp : SpanId := Fin.ofNat 64 ((a - 0x0100000000) / 0x200000)
    [0, BitVec.ofNat 8 ((s.foldSpans f).takeWhile (· ≠ sp)).length] ++ leBytes (a % 0x200000 / 4096) 2
  else
    let g : GroupId := Fin.ofNat 64 ((a - 0x0200000000) / 0x100000)
    [1, BitVec.ofNat 8 (s.groupIndex f g)] ++ leBytes (a % 0x100000 / 4096) 2

/-- Send one page (R494), each codeword decoded and corrected as a read decodes it (R344); a page that cannot be read
or that lies in a memory in retention (R560), is sent in a later round. From now on its writes mark it dirty. -/
def State.sendPage (s : State) (f : FoldId) (n : Nat) : State :=
  let t := s.twinFold f
  let s1 := s.setTwinFold f { t with sent := if t.sent.contains n then t.sent else t.sent ++ [n] }
  let r := if s.retained (n * 4096) then (s1, .busError 4) else s1.decodeAccess (n * 4096) 4096
  match r.2 with
  | .busError _ => r.1.setTwinFold f { r.1.twinFold f with dirty := (r.1.twinFold f).dirty ++ [n] }
  | _ => r.1.flitsQueue (stateFlits 6 f (s.pageName f n) (r.1.viewRead (n * 4096) 4096))

/-- The fold is being transferred to the partner: SINGLE here, XFER there, with a STATE slot (R494). -/
def State.sending (s : State) (f : FoldId) : Bool :=
  s.twinPasses && s.running f && (s.twinFold f).mode == 2 && decide (s.stateSlots f > 0) &&
    (match s.twin.partner with
      | some p => p.modes.getD f.val 0 == 3
      | none => false)

/-- Numbers of 8 bytes each. -/
def numBytes (l : List Nat) : List Byte := l.flatMap fun n => leBytes n 8

/-- A list of records, its length first. -/
def listBytes {α : Type} (g : α → List Byte) (l : List α) : List Byte := leBytes l.length 4 ++ l.flatMap g

/-- A task channel: its registers and its state (R310). -/
def Channel.bytes (c : Channel) : List Byte :=
  let ref (r : Option ParkRef) : List Nat := match r with
    | some r => [1, r.span.val, r.slot]
    | none => [0, 0, 0]
  numBytes ([c.base.toNat, c.isOpen.toNat, c.dpow.toNat, c.head, c.count] ++ ref c.pput ++ ref c.pget)

/-- An entry of the join registry (R306). -/
def JoinEntry.bytes (j : JoinEntry) : List Byte := numBytes [j.phys, j.ref.span.val, j.ref.slot]

/-- The registers of a DMA channel (Table 10.8). -/
def Dma.bytes (d : Dma) : List Byte :=
  numBytes [d.serr.toNat, d.err.toNat, d.ring.toNat, d.oepoch.toNat, d.wdt, d.prio.toNat, d.cpc.toNat, d.csrc.toNat, d.cdst.toNat,
    d.crc.toNat, d.loopAct.toNat, d.lcnt.toNat, d.lpc.toNat, d.entry.toNat, d.ev.toNat, d.seq.toNat, d.defValid.toNat, d.defOvr.toNat,
    d.defSeq.toNat] ++ [match d.state with
      | .idle => (0 : Byte)
      | .running => 1
      | .waiting => 2
      | .stopping => 3
      | .done => 4
      | .stopped => 5
      | .error => 6]

/-- An image's bytes as sent, all parts of Table 13.6 in its order; their layout is this model's choice (log entry 81). -/
def FoldImage.bytes (m : FoldImage) : List Byte :=
  numBytes [m.fstart.toNat, m.fstat.toNat, m.serial.toNat, m.dtb.toNat, m.escv.toNat, m.esp.toNat, m.sksz.toNat, m.ien.toNat,
      m.entryf.toNat, m.etotal.toNat] ++
    listBytes (fun e => numBytes [e.1] ++ e.2.bytes) m.chans ++ listBytes JoinEntry.bytes m.joins ++
    listBytes (fun e => numBytes [e.1.val] ++ e.2.bytes) m.dma ++
    listBytes (fun e => numBytes [e.1] ++ listBytes (fun x => listBytes (fun b => [b]) x.bytes) e.2) m.queues ++
    listBytes (fun e => numBytes [e.1] ++ listBytes (fun x => leBytes x.toNat 16) e.2) m.xch ++ numBytes [m.fwdcfg.toNat, m.wdLeft]

/-- The next part of a transfer (R494): a page, or at the end of the cut the register image. What becomes dirty or changes during the cut is
sent again before the cut is complete. -/
def State.pagePart (s : State) (f : FoldId) : State :=
  let t := s.twinFold f
  match t.phase with
  | .none => match s.foldPages f with
    | [] => s.setTwinFold f { t with phase := .delta [], sent := [], dirty := [], cutDone := false }
    | n :: r => (s.setTwinFold f { t with phase := .bulk r, sent := [], dirty := [], cutDone := false }).sendPage f n
  | .bulk (n :: r) => (s.setTwinFold f { t with phase := .bulk r }).sendPage f n
  | .bulk [] => s.setTwinFold f { t with phase := .delta t.dirty, dirty := [] }
  | .delta (n :: r) => (s.setTwinFold f { t with phase := .delta r }).sendPage f n
  | .delta [] =>
    if s.cutOpen f then s.setTwinFold f { t with phase := .cut t.dirty, dirty := [] }
    else s.setTwinFold f { t with phase := .delta t.dirty, dirty := [] }
  | .cut l =>
    if !s.cutOpen f then s.setTwinFold f { t with phase := .delta (l ++ t.dirty), dirty := [] }
    else match l, t.dirty with
      | n :: r, _ => (s.setTwinFold f { t with phase := .cut r }).sendPage f n
      | [], n :: r => s.setTwinFold f { t with phase := .cut (n :: r), dirty := [] }
      | [], [] => (s.setTwinFold f { t with phase := .image (s.imageOf f) }).flitsQueue (stateFlits 7 f [] (s.imageOf f).bytes)
  | .image m =>
    if !s.cutOpen f then if t.cutDone then s else s.setTwinFold f { t with phase := .delta t.dirty, dirty := [] }
    else if t.dirty.isEmpty && s.imageOf f == m then s.setTwinFold f { t with cutDone := true }
    else s.setTwinFold f { t with phase := .cut t.dirty, dirty := [], cutDone := false }

/-- TWIN_PAGE_SEND (R494): the next part goes once the fold's STATE slots have taken the one before. -/
def State.twinPageSend (s : State) (f : FoldId) : State :=
  if !s.sending f || s.flitWaits f [6, 7] then s else s.pagePart f

/-- A page that arrives in a STATE slot (R494), named as the fold names it. -/
def State.pageReceive (s : State) (f : FoldId) (kind : MemKind) (ix page : Nat) (data : List Byte) : State :=
  if s.twinPasses && (s.twinFold f).mode == 3 && decide (data.length = 4096) then
    let place : Option Nat := match kind with
      | .scratch => ((s.foldSpans f)[ix]?).map fun sp => physScratch sp (page % 512 * 4096)
      | .group => ((s.foldGroups f)[ix]?).map fun g => physGroup g (page % 256 * 4096)
    match place with
    | none => s
    | some a =>
      let s1 := s.setTwinFold f { s.twinFold f with recv := true }
      (s1.bankWrite a (data.zipIdx.map fun b => (b.2, b.1))).1
  else s

/-- The register image arrives: the cut is complete on the receiving side (R494, R496). -/
def State.imageReceive (s : State) (f : FoldId) (m : FoldImage) : State :=
  let t := s.twinFold f
  if s.twinPasses && t.mode == 3 then s.setTwinFold f { t with image := some m, cutDone := true, recv := true } else s

/-- One record arrives at a Follow span, behind those that came before it. -/
def State.followRec (s : State) (sp : SpanId) (r : LogRec) : State :=
  let k := s.span sp
  { s.setSpan sp { k with follow := k.follow ++ [(s.stamp, r)] } with stamp := s.stamp + 1 }

/-- TWIN_LOG_RECEIVE (R318, R319). -/
def State.twinLog (s : State) (sp : SpanId) (rs : List LogRec) : State :=
  if s.twinPasses && decide (s.sfm sp = 2) then rs.foldl (fun s r => s.followRec sp r) s else s

/-- A transfer of the fold is in progress (XACT, Table 13.13): parts of it have been sent, or have arrived. -/
def State.transferring (s : State) (f : FoldId) : Bool :=
  let t := s.twinFold f
  (s.sending f && t.phase != .none) ||
    (s.twinPasses && t.mode == 3 && t.recv && (match s.twin.partner with
      | some p => p.modes.getD f.val 0 == 2
      | none => false))

/-- Every fold to SINGLE (R493). -/
def State.allSingle (s : State) : State :=
  (List.finRange 16).foldl (fun s f =>
    let t := s.twinFold f
    if !s.running f then s
    else if t.mode = 1 then s.toSingle f
    else s.setTwinFold f { t with mode := 2, next := none, authTo := none }) s

/-- A write of TWIN.CTL (R493, Table 13.11). A detach sends its notice, which may wait for a credit, sets every fold to SINGLE and takes
the link down when the notice has left. Clearing EN takes the link down. -/
def State.writeTwinCtl (s : State) (v : Word) : State :=
  let s1 := s.setReg rTwinCtl (v &&& 3)
  if bit v 2 then
    if s.twin.link = 2 then
      let s2 := (s1.twinSend 9 none []).allSingle
      ({ s2 with twin := { s2.twin with detach := true } }).detachDone
    else
      let s2 := s1.allSingle
      { s2 with twin := { s2.twin with link := 0, sideErr := false } }
  else if !bit v 0 then (if s1.twin.link = 2 then s1.linkGone (some 1) else { s1 with twin := { s1.twin with link := 0, sideErr := false } })
  else if s1.twin.link = 0 then { s1 with twin := { s1.twin with link := 1 } }
  else s1

/-- TWIN_DETACH_RECEIVE (R493): as a loss of the link, with DETACHED in place of LINKLOST. -/
def State.twinDetached (s : State) : State := if s.twin.link = 2 then s.linkGone (some 0x0C) else s

/-- The outputs of tag `n` are released (Table 13.4, R495, R499). -/
def TwinFold.releases (t : TwinFold) (n : Nat) : Bool :=
  decide (t.authFrom ≤ n) && (match t.authTo with
    | none => true
    | some h => decide (n < h))

/-- A Follow device takes FSTART of a fold that enters CROSS without a transfer from the Lead's heartbeat (R102, log entry 81). -/
def State.leadStart (s : State) (f : FoldId) : State :=
  match s.twin.partner, s.twin.role == roleFollow with
  | some h, true => s.setFold f { s.fold f with fstart := h.fstart.getD f.val (s.fold f).fstart }
  | _, _ => s

/-- A mode takes effect at the boundary that opens epoch `n` (R483, R495, R499). -/
def State.enterMode (s : State) (f : FoldId) (m : BitVec 3) (n : Nat) : State :=
  let t := s.twinFold f
  let idle := { t with next := none, phase := .none, sent := [], dirty := [] }
  match m.toNat with
  | 1 =>
    let s1 := match t.mode, t.image with
      | 3, some x => s.applyImage f x
      | 3, none => s
      | _, _ => s.leadStart f
    let t1 := { idle with
      mode := 1, authFrom := if t.mode = 3 then n else t.authFrom, authTo := none, crossFrom := n, cutDone := false, recv := false, image := none,
      own := [], partner := [] }
    (s1.setTwinFold f t1).twinEvent 5 (some f)
  | 2 =>
    if t.mode = 4 then (s.setTwinFold f { idle with mode := 2, authFrom := n, authTo := none }).twinEvent 0x0B (some f)
    else if t.mode = 1 then s.toSingle f
    else s.setTwinFold f { idle with mode := 2, authFrom := if t.mode = 3 then n else t.authFrom, authTo := none }
  | 4 =>
    let s1 := s.setTwinFold f { idle with mode := 4, authTo := if t.mode = 3 then some 0 else some n }
    if t.mode = 2 then s1.twinEvent 0x0B (some f) else if t.mode = 1 then s1.twinEvent 4 (some f) else s1
  | _ => s

/-- The mode change that is due at the boundary that opens epoch `n` (R483). -/
def State.modeAtBoundary (s : State) (f : FoldId) (n : Nat) : State :=
  match (s.twinFold f).next with
  | some m => if serialGe (BitVec.ofNat 32 n) (s.reg (rFhep f) 0) then s.enterMode f m n else s
  | none => s

/-- The conditions of R496. -/
def State.crossAllowed (s : State) (f : FoldId) : Bool :=
  let t := s.twinFold f
  s.twin.role != roleNone && s.twin.tlock && s.twinPasses && (t.mode != 3 || t.cutDone)

/-- A write of TWIN.FCTL[f].MODE (R483, Table 13.4, R496). CROSS, SINGLE and SHADOW wait for their boundary; ALONE, from
SINGLE only, and XFER take effect at once. Other writes are refused. -/
def State.writeMode (s : State) (f : FoldId) (m : BitVec 3) : State :=
  let t := s.twinFold f
  if !s.running f then (if m = 0 then s else s.badWrite)
  else if m = t.mode then s.setTwinFold f { t with next := none }
  else match m.toNat with
  | 0 => if t.mode = 2 then s.setTwinFold f { t with mode := 0, next := none } else s.badWrite
  | 1 => if t.mode ≠ 4 ∧ s.crossAllowed f = true then s.setTwinFold f { t with next := some 1 } else s.badWrite
  | 2 => s.setTwinFold f { t with next := some 2 }
  | 3 =>
    let s1 := s.setTwinFold f { t with
      mode := 3, next := none, authTo := some 0, phase := .none, sent := [], dirty := [], cutDone := false, recv := false
      image := none, own := [], partner := [] }
    if t.mode = 1 then s1.twinEvent 4 (some f) else s1
  | 4 => s.setTwinFold f { t with next := some 4 }
  | _ => s.badWrite

/-- A write of TWIN.FCTL[f].FWDMAX (R486): the sum over all folds is at most 8 KiB. -/
def State.writeFwdmax (s : State) (f : FoldId) (n : BitVec 10) : State :=
  let sum := (List.finRange 16).foldl (fun t g => t + if g = f then n.toNat else fieldNat (s.reg (rFctl g) 0) 9 0) 0
  if sum * 16 > 8192 then s.badWrite else s.setReg (rFctl f) (n.setWidth 32)

/-- A write of TWIN.FCTL[f]. -/
def State.writeFctl (s : State) (f : FoldId) (v : Word) : State :=
  (s.writeFwdmax f (BitVec.ofNat 10 (fieldNat v 9 0))).writeMode f (BitVec.ofNat 3 (fieldNat v 18 16))

end Sys2Proof.Machine
end

