-- ==== Sys2Proof/Machine/Epochs.lean ====
section
/-! DEFINITION. Device time, epoch boundaries, release, the commit signature, frame starts (chapter 3, R30 to R32, R407). -/

namespace Sys2Proof.Machine

/-- Insert an output after every output with a destination code that is not greater. -/
def insertOutput (o : HeldOutput) (l : List HeldOutput) : List HeldOutput :=
  match l with
  | [] => [o]
  | x :: t => if o.dest < x.dest then o :: x :: t else x :: insertOutput o t

/-- Release order: ascending destination code, then order of entry (R114). -/
def releaseOrder (l : List HeldOutput) : List HeldOutput := l.foldl (fun acc o => insertOutput o acc) []

/-- One output's part of the signature's byte stream (R118). -/
def HeldOutput.signed (o : HeldOutput) : List Byte := leBytes o.dest.toNat 2 ++ leBytes o.data.length 2 ++ [0, 0, 0, 0] ++ o.data

/-- The byte stream of an epoch (R118, R119). -/
def signStream (f : FoldId) (n : Nat) (outs : List HeldOutput) : List Byte :=
  leBytes n 8 ++ [BitVec.ofNat 8 f.val, 0, 0, 0, 0, 0, 0, 0] ++ (outs.filter fun o => !o.loc).flatMap HeldOutput.signed

/-- The commit signature: CRC-64/ECMA-182 (R117, Table 3.3). -/
def commitSignature (bs : List Byte) : DWord := crcFwd 0x42F0E1EBA9EA3693 0 bs

/-- The signature record of an epoch (Table 3.4). -/
def sigRecord (f : FoldId) (n : Nat) (outs : List HeldOutput) (late unchecked : Bool) : SigRecord :=
  let signed := (outs.filter fun o => !o.loc).length
  ⟨BitVec.ofNat 64 n, commitSignature (signStream f n outs), BitVec.ofNat 8 f.val,
    BitVec.ofNat 8 (unchecked.toNat + 2 * late.toNat + 4 * (decide (signed = 0)).toNat), BitVec.ofNat 32 signed,
    BitVec.ofNat 32 (outs.length - signed)⟩

/-- Data on a cross-fold channel reaches its receiver; `t` is the release boundary, its receive instant (R420). What finds no room is
counted at the boundary that would have made it visible (R105). -/
def State.xchDeliver (s : State) (f : FoldId) (x t : Nat) (data : List Byte) : State :=
  if !s.sends f x then s
  else
    let w := s.reg (rXchown x) 0
    let r : FoldId := Fin.ofNat 16 (fieldNat w 11 8)
    let k := s.xchQ x
    if !s.running r then s
    else if k.items.length + k.wait.length ≥ xchDepth w then
      { s with xch := kset s.xch x { k with missing := k.missing ++ [s.windowEpoch r t] } }
    else { s with xch := kset s.xch x { k with wait := k.wait ++ [(s.windowEpoch r t, BitVec.ofNat 128 (leValue data))] } }

/-- Hand the outputs of one destination over at their release (R115). -/
def State.releaseDest (s : State) (f : FoldId) (dest : Half) (t : Nat) (unchecked : Bool) (outs : List HeldOutput) : State :=
  let d := dest.toNat
  if d < 0x1000 then s.applyOutput f d (outs.map fun o => (BitVec.ofNat 32 (leValue o.data), unchecked))
  else if d < 0x2000 then
    let p := (d - 0x1000) / 0x100
    let q := if p = 4 then 8 * f.val + d % 8 else d % 0x100
    if s.queueFold p q = some f then
      s.releaseQueue f p q t (outs.flatMap fun o => o.data.map fun b => (b, o.origin))
    else s
  else outs.foldl (fun s o => s.xchDeliver f (d - 0x2000) t o.data) s

/-- The distinct destinations of outputs in release order. -/
def destsOf (l : List HeldOutput) : List Half :=
  l.foldl (fun acc o => if acc.getLast? = some o.dest then acc else acc ++ [o.dest]) []

/-- Hand over every output of a set in release order (R114). -/
def State.releaseSet (s : State) (f : FoldId) (t : Nat) (unchecked : Bool) (outs : List HeldOutput) : State :=
  (destsOf outs).foldl (fun s d => s.releaseDest f d t unchecked (outs.filter fun o => o.dest == d)) s

/-- A late mark is so old that its 32-bit tag nears the next epoch that bears it: it no longer stands for that epoch (R123). -/
def markStale (now tag : Word) : Bool := decide (2 ^ 31 - 2 ^ 16 ≤ (now - tag).toNat) && decide ((now - tag).toNat < 2 ^ 31)

/-- OUTPUT_RELEASE at the boundary that opens epoch `n`: the set tagged n − 2 with its signature record (R114, R120, R122). -/
def State.releaseAt (s : State) (f : FoldId) (n : Nat) : State :=
  let fo := s.fold f
  let t := n - 2
  if n < 2 ∨ t + 1 < fo.fstart.toNat then s
  else
    let tag : Word := BitVec.ofNat 32 t
    let outs := releaseOrder (fo.held.filter fun o => o.tag == tag)
    let m := fo.mark tag
    let r := sigRecord f t outs m.late m.unchecked
    let s1 := s.setFold f { fo with
      held := fo.held.filter (fun o => o.tag != tag),
      marks := fo.marks.filter fun x => (x.tag != tag || x.late) && !markStale tag x.tag, sigs := [r] }
    let s2 := ((s1.setReg (rFsiglo f) (r.sig.setWidth 32)).setReg (rFsighi f) ((r.sig >>> 32).setWidth 32)).setReg (rFsigep f) tag
    let s3 := if m.late || !(s.twinFold f).releases t then s2 else s2.releaseSet f (n * s.epochNs f) m.unchecked outs
    s3.recordSent f r

/-- The words of a descriptor at 16-byte steps, all of which ring 0 of the fold may read (R288, R407). -/
def State.rootBytes (s : State) (f : FoldId) : State × Option (List Byte) :=
  match s.foldSpans f with
  | [] => (s, none)
  | sp :: _ =>
    let a := s.reg (rFroot f) 0
    let chk := (List.range 4).map fun i => s.check f sp 0 (a + BitVec.ofNat 32 (16 * i)) 16 Need.read
    match chk.headD none, chk.all fun t => (t.bind Target.memPhys).isSome with
    | some (.mem p), true =>
      let r := s.decodeAccess p 64
      match r.2 with
      | .busError _ => (r.1, none)
      | _ => (r.1, some (memRead r.1.mem p 64))
    | _, _ => (s, none)

/-- The root descriptor when SPAWN in ring 0 would accept it (R288). -/
def State.rootDesc (s : State) (f : FoldId) (n : Nat) (bs : List Byte) : Option TaskDesc :=
  let attr := descWord bs 7
  let jr := descWord bs 5
  let sp : SpanId := (s.foldSpans f).headD 0
  if fieldNat attr 31 28 ≠ f.val ∨ attr &&& 0x0FFFFC1F ≠ 0 ∨ descWord bs 15 ≠ 0 then none
  else if jr ≠ 0 ∧ (jr.toNat % 4 ≠ 0 ∨ ((s.translate f sp jr).memPhys).isNone = true) then none
  else some {
    entry := descWord bs 0, g1 := descWord bs 1, g2 := descWord bs 2, g3 := descWord bs 3, g4 := descWord bs 4, joinref := jr,
    oepoch := BitVec.ofNat 32 n, attr := attr, sp := #v[descWord bs 8, descWord bs 9, descWord bs 10, descWord bs 11],
    ident := 0, parent := 0 }

/-- Every span of a fold is woken (R31, R33). -/
def State.wakeFold (s : State) (f : FoldId) : State := (s.foldSpans f).foldl (fun s sp => s.wakeSpan sp) s

/-- The root task is pushed onto the overflow queue of fold-relative span 0 and every span is woken, or source 0x12 is
reported (R31, R407). -/
def State.pushRoot (s : State) (f : FoldId) (n : Nat) : State :=
  let r := s.rootBytes f
  match r.2.bind (r.1.rootDesc f n), r.1.foldSpans f with
  | some d, sp :: _ =>
    let i := r.1.newIdent f
    let s1 := (i.1.pushOverflow sp 1536 (freshEntry { d with ident := i.2 })).1
    (s1.setFold f { (s1.fold f) with rootIdent := some i.2 }).wakeFold f
  | _, _ => r.1.reportU 0x12 .fold f.val 0

/-- An overrun (R32): the count rises; the event is raised with the epoch's. -/
def State.overrun (s : State) (f : FoldId) : State :=
  let w := s.reg (rEpFstat f) 0
  s.setReg (rEpFstat f) (setField w 15 0 (satNat 0xFFFF (fieldNat w 15 0 + 1)))

/-- The fold's cross-fold inputs received before the window of epoch `n` become visible, and those lost are counted. -/
def State.bindXch (s : State) (f : FoldId) (n : Nat) : State :=
  { s with xch := s.xch.map fun e =>
      if s.receives f e.1 then
        (e.1, { e.2 with
          items := e.2.items ++ (e.2.wait.filter fun w => decide (w.1 < n)).map (·.2)
          wait := e.2.wait.filter fun w => decide (n ≤ w.1)
          missing := e.2.missing.filter fun w => decide (n ≤ w)
          lost := (e.2.missing.filter fun w => decide (w < n)).foldl (fun c _ => satInc c) e.2.lost })
      else e }

/-- The epoch that ends was touched by an unchecked yoke (R86). -/
def State.markUnchecked (s : State) (f : FoldId) (n : Nat) : State :=
  let fo := s.fold f
  let dbg := (s.foldYokes f).any fun y => (s.yoke y).unchecked
  let fo1 := if fo.unchecked || dbg then fo.setMark { fo.mark (BitVec.ofNat 32 (n - 1)) with unchecked := true } else fo
  s.setFold f { fo1 with unchecked := dbg }

/-- EPOCH_BOUNDARY (R31, R101, R105, R114, R122): the boundary that opens the next epoch, once device time has reached it:
seal, release, modes of the twin pair, inputs, frame start, the epoch event. -/
def State.epochBoundary (s : State) (f : FoldId) : State :=
  let n := s.curEpoch f + 1
  if !s.running f || decide (s.now < n * s.epochNs f) then s
  else
    let s1 := (s.markUnchecked f n).sigMissing f
    let s2 := s1.setFold f { (s1.fold f) with epoch := BitVec.ofNat 64 n }
    let s3 := (((s2.releaseAt f n).modeAtBoundary f n).bindInputs f n).bindXch f n
    let fo := s3.fold f
    let frame := decide (fo.fstart.toNat ≤ n) && decide ((n - fo.fstart.toNat) % s3.frameK f = 0)
    let ovr := frame && fo.rootIdent.isSome
    let s4 := if ovr then s3.overrun f else if frame then s3.pushRoot f n else s3
    ((s4.edge f 0x10 (BitVec.ofNat 32 n) (BitVec.ofNat 32 ovr.toNat) ovr).dmaEdge 1 (some f)).levelWaits f

/-- A write of EPOCH.CTL (R98, R99, R127): LOCK, TSRC and TPORT, SET. Written to free-running,
LOCKED and OFFSET keep their last values (the model's choice, log entry 76). -/
def State.writeEpCtl (s : State) (v : Word) : State :=
  let old := s.reg rEpCtl 0
  let src := if bit old 31 || decide (fieldNat v 7 6 ≥ 2) then fieldNat old 7 6 else fieldNat v 7 6
  let port := if bit old 31 then fieldNat old 5 4 else fieldNat v 5 4
  let new : Word := BitVec.ofNat 32 ((bit old 31 || bit v 31).toNat * 2 ^ 31 + src * 64 + port * 16)
  let s1 := s.setReg rEpCtl new
  let s2 :=
    if src = fieldNat old 7 6 then s1
    else if src = 0 then (s1.setReg rEpSync (setBit (s1.reg rEpSync 0) 30 false)).setRate 0
    else { s1 with clk := { s1.clk with corrAt := s1.clk.time } }
  if !bit v 0 then s2
  else if s2.anyAdmitted then s2.badWrite
  else s2.loadTime ((s2.reg rEpTsetlo 0).toNat + (s2.reg rEpTsethi 0).toNat * 2 ^ 32)

/-- The device takes device time from the Lead of its pair (R97). -/
def State.follows (s : State) : Bool := s.twin.role == roleFollow && s.twin.link == 2

/-- PTP_MESSAGE_RECEIVE (R97, R99): a message on TPORT yields the offset from the grandmaster, its time less ours. -/
def State.ptpMessage (s : State) (offset : Int) : State :=
  let ctl := s.reg rEpCtl 0
  if decide (fieldNat ctl 7 6 = 1) && s.linkUp.contains (fieldNat ctl 5 4) && !s.follows then s.corrected offset else s

/-- HOLDOVER_ENTER (R99). -/
def State.holdover (s : State) : State :=
  let w := s.reg rEpSync 0
  if fieldNat (s.reg rEpCtl 0) 7 6 = 1 ∧ s.follows = false ∧ bit w 30 = false ∧ s.now ≥ s.clk.corrAt + 1000000000 then
    (s.setReg rEpSync (setBit w 30 true)).reportU 0x0F .device 0 0
  else s

/-- EPOCH_CONFIG_WRITE (R129). -/
def State.writeFcfg (s : State) (f : FoldId) (v : Word) : State :=
  if s.running f then s
  else
    let old := s.reg (rFcfg f) 0x00030000
    let j := fieldNat v 19 16
    let bad := decide (j < 3 ∨ 13 < j)
    let s1 := s.setReg (rFcfg f) (BitVec.ofNat 32 ((if bad then fieldNat old 19 16 else j) * 65536 + fieldNat v 9 0))
    if bad then s1.badWrite else s1

end Sys2Proof.Machine
end

