-- ==== Sys2Proof/Machine/PowerOps.lean ====
section
/-! DEFINITION. Power states of spans, the estimator and the policies, clocks, temperature, the Bell, Tally and BIST
(chapter 15). -/

namespace Sys2Proof.Machine

/-- SPAN.PWRCTL. -/
def rPwrctl (sp : SpanId) : Nat := rSpan sp 0x500
/-- PWR.CTL. -/
def rPwrCtl : Nat := 0x090000
/-- PWR.CTL after reset (Table 15.13). -/
def pwrCtlReset : Word := 0x0000697D
/-- PWR.CLKSTAT. -/
def rClkstat : Nat := 0x090004
/-- PWR.CLKSTAT with every clock present. -/
def clkstatReset : Word := 0xF8000000
/-- PWR.DEVEST. -/
def rDevest : Nat := 0x090010
/-- PWR.SPCLK[s]. -/
def rSpclk (sp : SpanId) : Nat := 0x090100 + 4 * sp.val
/-- PWR.TEMP[i]. -/
def rTemp (i : Nat) : Nat := 0x090200 + 4 * i
/-- TLIM in °C. -/
def State.tlim (s : State) : Nat := fieldNat (s.reg rPwrCtl pwrCtlReset) 6 0
/-- TTHR in °C. -/
def State.tthr (s : State) : Nat := fieldNat (s.reg rPwrCtl pwrCtlReset) 14 8
/-- A span's clock step in effect. -/
def State.spclk (s : State) (sp : SpanId) : Nat := fieldNat (s.reg (rSpclk sp) 0) 1 0
/-- FOLDMGR.CTL.PWRPOL. -/
def State.adaptive (s : State) : Bool := bit s.fmgrCtl 1
/-- A register of Tally for a span. -/
def rTally (sp : SpanId) (off : Nat) : Nat := 0x0A0100 + 0x20 * sp.val + off
/-- The codeword of the retained area that holds a span's band count (Table 16.15). -/
def bandWord (sp : SpanId) (i : Nat) : Nat := 0x0300100400 / 8 + 2 * sp.val + i / 2
/-- TALLY.SMIN where nothing has been measured: as a read leaves it (R590; log entry 21). -/
def sminReset : Word := 0xFFFFFFFF

/-- A yoke is idle, or its task is suspended in WAIT, and has been so for 1,024 fc (R33, R561). -/
def State.quiet (s : State) (y : YokeId) : Bool :=
  match (s.yoke y).run with
  | .idle => decide (s.clk.fc ≥ (s.yoke y).idleFc + 1024)
  | .waiting w => decide (s.clk.fc ≥ w.fc + 1024)
  | _ => false

/-- A yoke's task is suspended in WAIT. -/
def Yoke.inWait (k : Yoke) : Bool :=
  match k.run with
  | .waiting _ => true
  | _ => false

/-- The yokes of a span. -/
def spanYokes (sp : SpanId) : List YokeId := (List.finRange 16).map (yokeAt sp)

/-- SPAN_REST_ENTRY (R33, R34, R561). -/
def State.restEntry (s : State) (sp : SpanId) : State :=
  let k := s.span sp
  if k.power = .run ∧ k.overflow.isEmpty = true ∧ k.waitPush.isEmpty = true ∧ s.clk.fc ≥ k.quietFc + 1024 ∧
      ((spanYokes sp).all fun y => s.quiet y) = true then
    let nap := bit (s.reg (rPwrctl sp) 0) 0 && !((spanYokes sp).any fun y => (s.yoke y).inWait)
    s.setSpan sp { k with power := .entering nap s.clk.fc }
  else s

/-- RETENTION_ENTER (R361, R574): of the span's fold that rests; of an unowned span, its own scratchpad in Nap and an unowned group of
its node. -/
def State.retain (s : State) (sp : SpanId) : State :=
  match s.spanFold sp with
  | some f => s.retainFold f
  | none =>
    let s1 := if (s.span sp).power == .rest true then s.setRet sp 28 true else s
    if (s1.groupFold sp).isNone then s1.setRet sp 29 true else s1

/-- RETENTION_EXIT at the first wake of a span of the fold (R361). -/
def State.unretain (s : State) (sp : SpanId) : State :=
  match s.spanFold sp with
  | some f => s.unretainFold f
  | none => (s.setRet sp 28 false).setRet sp 29 (bit (s.reg (rMemstat sp) memstatReset) 29 && (s.groupFold sp).isSome)

/-- fc of one memory test (Table 15.7). -/
def testFc (unit : Word) : Nat := if bit unit 31 then 128384 else 64192

/-- A test of a bank in retention ends at least 20 µs before the owning fold's next frame start (R583). -/
def State.testFits (s : State) (unit : Word) : Bool :=
  match s.testFold unit with
  | none => true
  | some f =>
    if !s.running f then true
    else
      let k := s.frameK f
      let e := s.curEpoch f + 1
      let st := (s.fold f).fstart.toNat
      let next := if e ≤ st then st else st + (e - st + k - 1) / k * k
      decide (s.now + testFc unit * 625 / 1000 + 20000 ≤ next * s.epochNs f)

/-- Start the waiting memory tests that may start: one at a time at each node (R582, R583). -/
def State.startTests (s : State) : State :=
  let step (acc : List MemTest) (t : MemTest) : List MemTest :=
    let busy := (acc ++ s.bist.mem).any fun x => x.since.isSome && decide ((testNode x.unit).2 = (testNode t.unit).2)
    if t.since.isNone && !busy && s.testAllowed t.unit && s.testFits t.unit then acc ++ [{ t with since := some s.clk.fc }]
    else acc ++ [t]
  { s with bist := { s.bist with mem := s.bist.mem.foldl step [] } }

/-- SPAN_REST_REACHED (R450, R563, R574): Doze after 16 fc, Nap after 2 µs. -/
def State.restReached (s : State) (sp : SpanId) : State :=
  let k := s.span sp
  match k.power with
  | .entering nap since =>
    if s.clk.fc ≥ since + (if nap then 3200 else 16) then
      let s1 := (s.setSpan sp { k with power := .rest nap }).retain sp
      match s.spanFold sp with
      | some f => (s1.wdPause f).startTests
      | none => s1.startTests
    else s
  | _ => s

/-- SPAN_WAKE_DONE (R450, R560, R361). -/
def State.wakeDone (s : State) (sp : SpanId) : State :=
  let k := s.span sp
  match k.power with
  | .waking _ _ =>
    let s1 := (s.setSpan sp { k with power := .run, quietFc := s.clk.fc, runFc := s.clk.fc }).unretain sp
    match s.spanFold sp with
    | some f => s1.wdPause f
    | none => s1
  | _ => s

/-- SPAN_WAKE_COMMAND: a write of SPAN.PWRCTL (R562, Table 15.11). -/
def State.writePwrctl (s : State) (sp : SpanId) (v : Word) : State :=
  let s1 := s.setReg (rPwrctl sp) (v &&& 1)
  if bit v 8 then s1.wakeSpan sp else s1

/-- The weight of a span in units of 0.25 mW at a clock step (Table 15.3, R565). -/
def State.spanWeight (s : State) (sp : SpanId) (step : Nat) : Nat :=
  match (s.span sp).power with
  | .run =>
    let w := 1800 + 450 * ((spanYokes sp).filter fun y => (s.yoke y).run == .task).length
    if step = 0 then w else if step = 1 then w * 2 / 3 else w / 2
  | .rest true => 100
  | .rest false => 480
  | _ => 480

/-- PWR.DEVSTATE (R570). -/
def State.devstate (s : State) : Nat :=
  let all (p : SpanPower) : Bool := (List.finRange 64).all fun sp => (s.span sp).power == p
  if all (.rest false) then 1
  else if all (.rest true) && (List.finRange 64).all fun n => fieldNat (s.reg (rMemstat n) memstatReset) 29 28 == 3 then 2
  else 0

/-- A fold's power in units of 0.25 mW, its spans' steps given by `step` (Table 15.3). -/
def State.foldPower (s : State) (f : FoldId) (step : SpanId → Nat) : Nat :=
  (s.foldSpans f).foldl (fun n sp => n + s.spanWeight sp (step sp)) 0 +
    (s.foldGroups f).foldl (fun n g => n + if bit (s.reg (rMemstat g) memstatReset) 29 then 40 else 320) 0 +
    240 * ((List.finRange 64).filter fun c => s.dmaFold c == some f &&
      ((s.dmaCh c).state == .running || (s.dmaCh c).state == .waiting)).length

/-- The device's own power in units of 0.25 mW: uncore and BIST (Table 15.3). -/
def State.uncorePower (s : State) : Nat :=
  let bist := ((List.finRange 1024).filter fun y => match (s.yoke y).bist with
    | .testing _ => true
    | _ => false).length
  (match s.devstate with
    | 1 => 41200
    | 2 => 4800
    | _ => 84000) + 1260 * bist

/-- One sample of the estimator, every 1 µs (R565). -/
def State.samplePower (s : State) : State :=
  let owners := (List.finRange 16).filter fun f => !(s.foldSpans f).isEmpty || !(s.foldGroups f).isEmpty
  let add (m : KMap FoldId Nat) (step : SpanId → Nat) : KMap FoldId Nat :=
    owners.foldl (fun m f => kset m f (kget m 0 f + s.foldPower f step)) m
  { s with pwr := { s.pwr with
      acc := add s.pwr.acc s.spclk, accUp := add s.pwr.accUp fun sp => s.spclk sp - 1,
      dev := s.pwr.dev + s.uncorePower, samples := s.pwr.samples + 1 } }

/-- An average of the window in 100 mW, rounded down (R565, Table 15.12). -/
def State.average (s : State) (sum : Nat) : Nat := sum / (max 1 s.pwr.samples * 400)

/-- A span's step decided for the next window. -/
def State.wantStep (s : State) (sp : SpanId) : Nat := kget s.pwr.want (s.spclk sp) sp

/-- Decide a span's step. -/
def State.setWant (s : State) (sp : SpanId) (n : Nat) : State := { s with pwr := { s.pwr with want := kset s.pwr.want sp n } }

/-- A fold exceeds its budget in a window (R422). -/
def State.overBudget (s : State) (f : FoldId) : State :=
  (s.setReg (rFpwr f) (setBit (s.reg (rFpwr f) 0) 31 true)).reportU 0x15 .fold f.val 0

/-- The steps a span's clock is lowered for its temperature; the others are its fold's (R566, R569). -/
def State.heatStep (s : State) (sp : SpanId) : Nat := kget s.pwr.heat 0 sp

/-- The judgement of one fold at a window's end (R422, R566). -/
def State.judgeFold (s : State) (f : FoldId) : State :=
  let est := s.average (kget s.pwr.acc 0 f)
  let up := s.average (kget s.pwr.accUp 0 f)
  let old := s.reg (rFest f) 0
  let s1 := s.setReg (rFest f) (BitVec.ofNat 32 (max (fieldNat old 26 16) (satNat 2047 est) * 65536 + satNat 2047 est))
  let budget := fieldNat (s.reg (rFpwr f) 0) 10 0
  if !s.running f then s1
  else if !s.adaptive then (if est > budget then s1.overBudget f else s1)
  else if est > budget then
    if (s.foldSpans f).all fun sp => decide (s.spclk sp ≥ 2) then s1.overBudget f
    else (s.foldSpans f).foldl (fun s sp => s.setWant sp (min 2 (s.wantStep sp + 1))) s1
  else if up ≤ budget then
    (s.foldSpans f).foldl (fun s sp => if s.heatStep sp < s.wantStep sp then s.setWant sp (s.wantStep sp - 1) else s) s1
  else s1

/-- A sensor's reading in units of 0.125 °C. -/
def State.temp (s : State) (i : Nat) : Int := ((s.reg (rTemp i) 0).setWidth 16 : Half).toInt

/-- Decide a span's step and how much of it is for its temperature. -/
def State.setHeat (s : State) (sp : SpanId) (n heat : Nat) : State :=
  let s1 := s.setWant sp n
  { s1 with pwr := { s1.pwr with heat := kset s1.pwr.heat sp heat } }

/-- The fold's estimate one step higher stays within its budget (R566). -/
def State.withinBudget (s : State) (f : FoldId) : Bool :=
  decide (s.average (kget s.pwr.accUp 0 f) ≤ fieldNat (s.reg (rFpwr f) 0) 10 0)

/-- The judgement of one span's temperature at a window's end (R569). A span of a running fold is stepped back up subject to its fold's
budget, in a window in which the fold has not stepped it up (R566); any other span by its temperature alone. -/
def State.judgeHeat (s : State) (sp : SpanId) : State :=
  let n := s.wantStep sp
  let h := s.heatStep sp
  if !s.adaptive then s
  else if s.temp sp.val > (s.tthr : Int) * 8 then (if n < 2 then s.setHeat sp (n + 1) (h + 1) else s)
  else if n = 0 ∨ s.pwr.warm.contains sp = true then s
  else
    match s.spanFold sp with
    | some f =>
      if !s.running f then s.setHeat sp (n - 1) (h - 1)
      else if h > 0 ∧ n = h ∧ s.spclk sp ≤ n ∧ s.withinBudget f = true then s.setHeat sp (n - 1) (h - 1)
      else s
    | none => s.setHeat sp (n - 1) (h - 1)

/-- A step decided waits for the next checkpoint confirmation of every yoke of its span that runs a task (R564). -/
def State.awaitSteps (s : State) : State :=
  let spans := (s.pwr.want.filter fun e => e.2 != s.spclk e.1).map (·.1)
  { s with pwr := { s.pwr with wantAt := spans.foldl (fun m sp => (spanYokes sp).foldl (fun m y =>
      let k := s.yoke y
      if k.run = .idle then m else kset m y (if k.pend.isSome then k.interval else k.interval + 1)) m) s.pwr.wantAt } }

/-- POWER_WINDOW_END (R422, R565, R566, R569). -/
def State.windowEnd (s : State) : State :=
  if s.pwr.samples < 1024 then s
  else
    let total := (List.finRange 16).foldl (fun n f => n + kget s.pwr.acc 0 f) s.pwr.dev
    let s1 := s.setReg rDevest (BitVec.ofNat 32 (satNat 65535 (s.average total)))
    let s2 := (List.finRange 64).foldl (fun s sp => s.judgeHeat sp) ((List.finRange 16).foldl (fun s f => s.judgeFold f) s1)
    ({ s2 with pwr := { s2.pwr with acc := [], accUp := [], dev := 0, samples := 0, warm := [] } }).awaitSteps

/-- A yoke does not hold a decided clock step back: it runs no task, its checker is stopped, or a checkpoint has been confirmed since the
decision (R564). -/
def State.stepConfirmed (s : State) (y : YokeId) : Bool :=
  let k := s.yoke y
  match k.run with
  | .task => k.unchecked || (k.pend.isNone && decide (kget s.pwr.wantAt 0 y ≤ k.interval))
  | _ => true

/-- CLOCK_STEP_APPLY (R564): at a checkpoint confirmation of every yoke of the span. Under the fixed-frequency policy every span runs at
1.6 GHz. -/
def State.clockStep (s : State) (sp : SpanId) : State :=
  if s.adaptive && (spanYokes sp).all fun y => s.stepConfirmed y then
    { s.setReg (rSpclk sp) (BitVec.ofNat 32 (s.wantStep sp)) with pwr := { s.pwr with
        want := kdel s.pwr.want sp, wantAt := s.pwr.wantAt.filter fun e => spanOf e.1 != sp } }
  else s

/-- The fixed-frequency policy begins: every span clock runs at 1.6 GHz (R422, R564). -/
def State.fullSpeed (s : State) : State :=
  { s with
    regs := s.regs.filter fun e => decide (e.1 < 0x090100) || decide (0x090200 ≤ e.1)
    pwr := { s.pwr with want := [], wantAt := [], heat := [] } }

/-- TEMP_READING (R546, R567 to R569): the 72 sensors, in units of 0.125 °C. The report names no unit: Table 12.1 allows 64, and the spec
gives source 0x26 none. -/
def State.tempReading (s : State) (vals : List Half) : State :=
  if s.us / 10 ≤ s.pwr.tempAt then s
  else
    let lim : Int := (s.tlim : Int) * 8
    let near := lim - 80
    let cool : Int := ((s.tthr : Int) - 5) * 8
    let one (s : State) (i : Nat) : State :=
      let v := ((vals.getD i 0).toInt)
      let s1 := if decide (v ≥ near) && decide (s.temp i < near) then
          { s with service := { s.service with alert := s.service.alert ||| 4 } } else s
      let n := if v > lim then satNat 5 (kget s.pwr.hot 0 i + 1) else 0
      let s2 := s1.setReg (rTemp i) ((vals.getD i 0).setWidth 32)
      let s3 := { s2 with pwr := { s2.pwr with
        hot := kset s2.pwr.hot i n
        warm := if decide (i < 64) && decide (v ≥ cool) then Fin.ofNat 64 i :: s2.pwr.warm else s2.pwr.warm } }
      if n = 4 then s3.reportU 0x26 .device 0 0 else s3
    let s1 := (List.range 72).foldl one s
    { s1 with pwr := { s1.pwr with tempAt := s.us / 10 } }

/-- A write of PWR.CTL (R568, R569, Table 15.13): firmware can only lower TLIM, and a higher value within the range is ignored. -/
def State.writePwrCtl (s : State) (v : Word) : State :=
  let old := s.reg rPwrCtl pwrCtlReset
  if bit old 31 then s
  else
    let lim := fieldNat v 6 0
    let badLim := decide (lim < 100 ∨ 125 < lim)
    let lim' := if badLim then fieldNat old 6 0 else min lim (fieldNat old 6 0)
    let thr := fieldNat v 14 8
    let thr' := if thr ≥ lim' then fieldNat old 14 8 else thr
    let s1 := s.setReg rPwrCtl (BitVec.ofNat 32 ((bit v 31).toNat * 2 ^ 31 + thr' * 256 + lim'))
    if badLim then s1.badWrite else s1

/-- The expected count of a clock in a monitor window (R556, R564). -/
def State.expectedCount (s : State) (b : ClockBranch) : Option Nat :=
  match b with
  | .span sp => match (s.span sp).power with
    | .run => some (if s.spclk sp = 0 then 1600 else if s.spclk sp = 1 then 1067 else 800)
    | _ => none
  | .fabric => some 800
  | .aon => some 3052
  | _ => some 100

/-- CLOCK_MONITOR_WINDOW (R556): a window's count of a clock. -/
def State.clockWindow (s : State) (b : ClockBranch) (count : Nat) : State :=
  match s.expectedCount b with
  | none => s
  | some e =>
    let bad := decide (((count - e) + (e - count)) * 50 > e)
    let n := if bad then kget s.pwr.mon 0 b + 1 else 0
    let s1 := { s with pwr := { s.pwr with mon := kset s.pwr.mon b (satNat 3 n) } }
    if n = 2 then s1.reportU 0x24 .device 0 0 else s1

/-- PLL_LOCK_LOSS (R556): PLL-A, PLL-B, REFCLKA or REFCLKB, bits 31 to 28 of PWR.CLKSTAT. -/
def State.pllLoss (s : State) (n : Fin 4) : State :=
  (s.setReg rClkstat (setBit (s.reg rClkstat clkstatReset) (31 - n.val) false)).reportU 0x24 .device 0 n.val

/-- AON_CLOCK_LOSS (R556). -/
def State.aonClockLoss (s : State) : State :=
  (s.setReg rClkstat (setBit (s.reg rClkstat clkstatReset) 27 false)).reportU 0x28 .device 0 0

/-- VAON_MONITOR_FAULT (R635). -/
def State.vaonFault (s : State) : State := if s.power.main then s.reportU 0x28 .device 0 0 else s

/-- SUPPLY_FAULT (R641). -/
def State.supplyFault (s : State) : State := if s.power.main && s.power.mainen then s.reportU 0x25 .device 0 0 else s

/-- BELL.CTL. -/
def rBellCtl : Nat := 0x080010
/-- BELL.CTL after reset. -/
def bellCtlReset : Word := 0x20
/-- The alarm of BELL.ALMHI and ALMLO. -/
def State.alarm (s : State) : Nat := (s.reg 0x080008 0).toNat + fieldNat (s.reg 0x08000C 0) 15 0 * 2 ^ 32

/-- A write of BELL.CTL (Table 15.10): TICKP of 0 is ignored. -/
def State.writeBellCtl (s : State) (v : Word) : State :=
  let old := s.reg rBellCtl bellCtlReset
  let p := fieldNat v 15 0
  let p' := if bit old 31 || decide (p = 0) then fieldNat old 15 0 else p
  s.setReg rBellCtl (BitVec.ofNat 32 ((bit old 31 || bit v 31).toNat * 2 ^ 31 + (bit v 16).toNat * 65536 + p'))

/-- BELL_TICK (R558). -/
def State.bellTick (s : State) : State :=
  let p := fieldNat (s.reg rBellCtl bellCtlReset) 15 0
  if s.power.main && decide (s.clk.bt % p = 0) && decide (s.clk.bt ≠ s.power.tickBt) then
    let s1 := { s with power := { s.power with tickBt := s.clk.bt } }
    (((List.finRange 16).filter fun f => s1.running f).foldl (fun s f => s.edge f 0x11 0 0 false) s1).dmaEdge 3 none
  else s

/-- BELL_ALARM (R559, R573). -/
def State.bellAlarm (s : State) : State :=
  if bit (s.reg rBellCtl bellCtlReset) 16 && decide (s.clk.bt = s.alarm) && decide (s.clk.bt ≠ s.power.alarmBt) then
    let s1 := ({ s with power := { s.power with alarmBt := s.clk.bt } }).wakeDevice 0
    if s1.power.main then { s1 with droverIrq := s1.droverIrq ++ [(2, 0)] } else s1
  else s

/-- WAKEIN_RISE (R573). -/
def State.wakeinRise (s : State) : State := if s.power.standby.isSome then s.wakeDevice 1 else s

/-- The span is retired at the hardware floor (R578). -/
def State.hardFloor (s : State) (sp : SpanId) : State :=
  let s1 := (s.stallSpan sp).reportU 0x04 .span sp.val 0
  (s1.setReg (rTallyRet sp) 0xC0000000).setReg (rMemstat sp) (setBit (s1.reg (rMemstat sp) memstatReset) 30 true)

/-- Count the measurements of each monitor below the floor in a row; the fourth of any one retires the span (R578). -/
def State.floorCount (s : State) (sp : SpanId) (ms : List (Nat × Bool)) : State :=
  let next (m : Nat × Bool) : Nat := if m.2 then satNat 5 (kget s.pwr.floor 0 m.1 + 1) else 0
  let s1 := { s with pwr := { s.pwr with floor := ms.foldl (fun l m => kset l m.1 (next m)) s.pwr.floor } }
  if ms.any fun m => decide (next m = 4) then s1.hardFloor sp else s1

/-- TALLY_SLACK_MEASURE (R575, R578): byte m is monitor m in units of 2 ps. Measured in the span's Run time, and in startup BIST. -/
def State.tallySlack (s : State) (sp : SpanId) (v : Word) : State :=
  if (s.span sp).power ≠ .run ∧ s.power.bist = false then s
  else
  let b (w : Word) (i : Nat) : Nat := fieldNat w (8 * i + 7) (8 * i)
  let old := s.reg (rTally sp 4) sminReset
  let least := BitVec.ofNat 32 ((List.range 4).foldl (fun n i => n + min (b v i) (b old i) * 256 ^ i) 0)
  ((s.setReg (rTally sp 0) v).setReg (rTally sp 4) least).floorCount sp ((List.range 4).map fun i => (8 * sp.val + i, decide (b v i < 10)))

/-- TALLY_SRAM_MEASURE (R576, R578): margin codes of the scratchpad and of the group of the node. -/
def State.tallySram (s : State) (sp : SpanId) (scratch group : BitVec 4) : State :=
  let s1 := s.setReg (rTally sp 8) (BitVec.ofNat 32 (group.toNat * 16 + scratch.toNat))
  let s2 := if group.toNat < 2 then s1.reportU 0x1E .group sp.val 0 else s1
  s2.floorCount sp [(8 * sp.val + 4, decide (scratch.toNat < 2))]

/-- TALLY_BAND_COUNT (R577): a count of the retained area is read, and the word of an uncorrectable one stays (R342, R364). -/
def State.tallyBand (s : State) (sp : SpanId) : State :=
  if (s.span sp).power = .run then
    let t := s.temp sp.val
    let i := if t ≥ 920 then 0 else if t ≥ 760 then 1 else if t ≥ 560 then 2 else 3
    let a := rTally sp (0xC + 4 * i)
    let cw := bandWord sp i
    let s1 := s.vaultDecode [cw]
    if s.cwEcc cw = .uncorrectable then s1 else s1.setReg a (satInc (s1.reg a 0))
  else s

/-- TALLY_RETIRE (R579). -/
def State.tallyRetire (s : State) (sp : SpanId) (v : Word) : State :=
  if bit v 0 && (s.spanFold sp).isNone then
    (s.setReg (rTallyRet sp) (setBit (s.reg (rTallyRet sp) 0) 31 true)).setReg (rMemstat sp)
      (setBit (s.reg (rMemstat sp) memstatReset) 30 true)
  else s

/-- A value that Drover reads leaves on the model's record of what goes out. -/
def State.readOut (s : State) (a : Nat) (v : Word) : State := s.emit (.regRead a v)

/-- TALLY_SMIN_READ (R590). -/
def State.tallySmin (s : State) (sp : SpanId) : State :=
  let a := rTally sp 4
  (s.readOut a (s.reg a sminReset)).setReg a 0xFFFFFFFF

/-- BIST.STAT.REFUSED and its report (R580). -/
def State.bistRefused (s : State) : State := (s.setReg 0x0B000C (setBit (s.reg 0x0B000C 0) 31 true)).badWrite

/-- LOGIC_BIST_START: a write of BIST.YSTART (R580, R581). -/
def State.bistStart (s : State) (v : Word) : State :=
  let sp : SpanId := Fin.ofNat 64 (fieldNat v 13 8)
  let y := yokeAt sp (Fin.ofNat 16 (fieldNat v 3 0))
  let k := s.yoke y
  let n := ((spanYokes sp).filter fun z => (s.yoke z).bist != .none).length
  let all := ((List.finRange 1024).filter fun z => (s.yoke z).bist != .none).length
  if k.stalled || k.bist != .none then s
  else if n ≥ 2 ∨ all ≥ 32 then s.bistRefused
  else s.setYoke y { k with bist := .requested (if k.pend.isSome then k.interval else k.interval + 1) }

/-- LOGIC_BIST_BEGIN (R300, R581): after the next checkpoint confirmation of a running task, the committed state of a task goes to
a save slot, the deque to the overflow queue. -/
def State.bistBegin (s : State) (y : YokeId) : State :=
  let k := s.yoke y
  let sp := spanOf y
  let confirmed : Bool := match k.bist with
    | .requested n => k.run == .idle || (k.pend.isNone && decide (n ≤ k.interval))
    | _ => false
  if !confirmed || k.stalled || k.unchecked || k.inWait then s
  else
    let saved : Option State := match k.run with
      | .idle => ((s.span sp).freeSlot 0 272).map fun _ => s
      | _ =>
        let kp := s.span sp
        (kp.freeSlot 0 272).map fun slot =>
          (s.setSpan sp { kp with slots := kset kp.slots slot ⟨k.committed, .resume⟩ }).pushOrWait sp (resumeEntry slot)
    match saved with
    | none => s
    | some s1 =>
      let keep := k.whb.filter fun e => e.phase != .open
      let s2 := s1.setYoke y { (k.toIdle s.clk.fc) with whb := keep, bist := .testing s.clk.fc }
      (s2.offerAgain y).moveDeque y

/-- LOGIC_BIST_DONE (R581): after 1.4 ms. -/
def State.bistDone (s : State) (y : YokeId) (pass : Bool) : State :=
  let k := s.yoke y
  match k.bist with
  | .testing since =>
    if s.clk.fc ≥ since + 2240000 then
      let s1 := (s.setYoke y { k with bist := .none, idleFc := s.clk.fc, stalled := k.stalled || !pass }).setReg rBistLast
        (BitVec.ofNat 32 ((!pass).toNat * 2 ^ 31 + (spanOf y).val * 256 + y.val % 16))
      if pass then s1 else (s1.spanLost (spanOf y)).reportU 0x1F .span (spanOf y).val (y.val % 16)
    else s
  | _ => s

/-- A start of a group's test at a node, written in this fc: a start for the node's scratchpad that meets it there goes first (R590). -/
def MemTest.yields (x t : MemTest) : Bool :=
  decide (x.written = t.written) && bit x.unit 31 && !bit t.unit 31 && decide ((testNode x.unit).2 = (testNode t.unit).2)

/-- A start takes its place among those that wait, in order of arrival. -/
def insertTest (t : MemTest) (l : List MemTest) : List MemTest :=
  match l with
  | [] => [t]
  | x :: r => if x.yields t then t :: { x with since := none } :: r else x :: insertTest t r

/-- MEMORY_BIST_START: a write of BIST.MSTART (R582, R362, R590). -/
def State.memTest (s : State) (v : Word) : State :=
  ({ s with bist := { s.bist with mem := insertTest ⟨v &&& 0x80003F1F, s.clk.fc, none⟩ s.bist.mem } }).startTests

/-- A memory unit has failed (R583). -/
def State.memFailed (s : State) (unit : Word) : State :=
  let n := testNode unit
  if n.1 then
    ({ s with pwr := { s.pwr with failed := (n.2.val, fieldNat unit 3 2) :: s.pwr.failed } }).reportU 0x1E .group n.2.val (fieldNat unit 3 2)
  else
    (({ s with pwr := { s.pwr with held := n.2 :: s.pwr.held } }).setReg (rMemstat n.2)
      (setBit (s.reg (rMemstat n.2) memstatReset) 30 true)).reportU 0x1E .span n.2.val (fieldNat unit 4 0)

/-- MEMORY_BIST_DONE (R583). -/
def State.memTestDone (s : State) (unit : Word) (pass : Bool) : State :=
  match s.bist.mem.find? fun t => t.unit == unit && t.since.isSome with
  | some t =>
    if s.clk.fc ≥ t.since.getD 0 + testFc unit then
      let s1 := ({ s with bist := { s.bist with mem := s.bist.mem.erase t } }).setReg rBistLast
        ((unit &&& 0x3FFF) ||| (if pass then 0x40000000 else 0xC0000000))
      (if pass then s1 else s1.memFailed unit).startTests
    else s
  | none => s

/-- The tests of a startup BIST may be left out: after a wake with AON.RSTCAUSE.CAUSE = 0x02 alone (R586). -/
def State.mayDefer (s : State) : Bool := decide (fieldNat (s.reg rRstcause 0) 7 0 = 2)

/-- STARTUP_BIST_DONE (R351, R585): failing yokes are stalled, failing memory units as R583 says; every scratchpad and
group has been wiped. A BIST that Drover firmware deferred tests nothing, and a deferral that R586 refuses defers nothing. -/
def State.startupDone (s : State) (deferred : Bool) (yokes0 : List YokeId) (units0 : List Word) : State :=
  let yokes := if deferred && s.mayDefer then [] else yokes0
  let units := if deferred && s.mayDefer then [] else units0
  if !s.power.bist then s
  else
    let s1 := { s with power := { s.power with bist := false } }
    let s2 := yokes.foldl (fun s y =>
      ((s.setYoke y { s.yoke y with stalled := true }).spanLost (spanOf y)).reportU 0x1F .span (spanOf y).val (y.val % 16)) s1
    let s3 := units.foldl (fun s u => s.memFailed u) s2
    (List.finRange 64).foldl (fun s n => (s.groupWipeDone n).spanWipeDone n) s3

/-- DROVER_CORE_TEST (R584): one core at a time, for at most 60 ms. -/
def State.droverTest (s : State) (c : Fin 3) : State :=
  if s.droverTested || s.bist.outvoted.isSome then s else { s with bist := { s.bist with drover := some (c, s.clk.fc) } }

/-- DROVER_CORE_TEST_DONE (R584). -/
def State.droverTestDone (s : State) : State := { s with bist := { s.bist with drover := none } }

end Sys2Proof.Machine
end

