-- ==== Sys2Proof/Machine/ServiceOps.lean ====
section
/-! DEFINITION. SMBus, the test access port and debug access through it (R543 to R546, R618), and the service round (R426). -/

namespace Sys2Proof.Machine

/-- IDENT.PART (Table 1.8): read by the SMBus target too. -/
def identPart : Word := 0x53741024
/-- The highest PWR.TEMP reading, signed. -/
def State.tmax (s : State) : Half :=
  let f (m : Int) (i : Nat) : Int := if s.temp i > m then s.temp i else m
  BitVec.ofInt 16 ((List.range 72).foldl f (s.temp 0))

/-- The 32-byte status page (Table 14.21). -/
def State.statusPage (s : State) : List Byte :=
  leBytes identPart.toNat 4 ++ leBytes s.uid.toNat 8 ++
    [BitVec.ofNat 8 (s.fm.dsafe.toNat + 2 * s.fm.nsafe.toNat + 4 * s.sec.lc.toNat), s.service.alert] ++
    leBytes s.aon.count.toNat 2 ++ leBytes (s.reg rRstcause 0).toNat 4 ++ leBytes s.tmax.toNat 2 ++ List.replicate 10 0

/-- A list as exactly `n` bytes, zeros where it is shorter. -/
def padTo (n : Nat) (bs : List Byte) : List Byte := bs.take n ++ List.replicate (n - bs.length) 0

/-- Replace the ALERT byte. -/
def State.setAlert (s : State) (v : Byte) : State := { s with service := { s.service with alert := v } }

/-- The target's address byte (R544). -/
def State.smbusAddr (s : State) : Byte := if s.sideB then 0x9A else 0x98

/-- The packet error code of SMBus 3.1 over the bytes of a transaction, address bytes included (R544): x^8 + x^2 + x + 1. -/
def smbusPec (bs : List Byte) : Byte := crcFwd (0x07 : Byte) 0 bs

/-- What a Block Read returns: count, data and PEC (R544, R545). -/
def State.smbusBlock (s : State) (cmd : Byte) (data : List Byte) : WireMsg :=
  let body := BitVec.ofNat 8 data.length :: data
  .smbus (body ++ [smbusPec ([s.smbusAddr, cmd, s.smbusAddr ||| 1] ++ body)])

/-- SMBUS_STATUS_READ: served from power-good of VDDIO onward, also in reset (R545). -/
def State.smbusStatus (s : State) : State := if s.power.vddio then s.emit (s.smbusBlock 1 s.statusPage) else s

/-- SMBUS_MAILBOX_READ (R545). -/
def State.smbusRead (s : State) : State :=
  if s.power.vddio then (s.emit (s.smbusBlock 2 (padTo 64 s.service.toBoard))).setAlert (s.service.alert &&& 0xFD) else s

/-- SMBUS_MAILBOX_WRITE (R544, R545): for Drover firmware to read. Without the right PEC it is not acknowledged and writes nothing. -/
def State.smbusWrite (s : State) (bs : List Byte) (pec : Option Byte) : State :=
  if !s.power.vddio then s
  else if pec = some (smbusPec ([s.smbusAddr, 3, BitVec.ofNat 8 bs.length] ++ bs)) then
    { s with service := { s.service with toDrover := padTo 64 bs } }
  else s.emit .smbusNak

/-- SMBUS_ALERT_READ (R545). -/
def State.smbusAlert (s : State) : State :=
  if s.power.vddio then
    (s.emit (.smbus [s.service.alert, smbusPec [s.smbusAddr, 4, s.smbusAddr ||| 1, s.service.alert]])).setAlert (s.service.alert &&& 0xFA)
  else s

/-- SMBALERTn is driven low (R546). -/
def State.alertLow (s : State) : Bool := s.power.vddio && s.power.main && s.service.alert != 0

/-- SMBUS_ALERT_RESPONSE: the target's own 7-bit address, in bits 7:1 as SMBus sends it (R544, R546). -/
def State.smbusAra (s : State) : State :=
  if s.alertLow then s.emit (.smbus [s.smbusAddr, smbusPec [0x19, s.smbusAddr]]) else s

/-- SMBUS_UNKNOWN_COMMAND: not acknowledged (R545). -/
def State.smbusUnknown (s : State) : State := if s.power.vddio then s.emit .smbusNak else s

/-- The instruction that a request for `i` selects in the life-cycle state in effect (R543, Table 16.2). -/
def State.tapSelects (s : State) (i : TapIns) : TapIns :=
  let lc := s.sec.lc
  match i with
  | .bypass => .bypass
  | .idcode => .idcode
  | .sample => .sample
  | .dbgacc => if lc = lcField ∨ lc = lcVoid then .bypass else .dbgacc
  | i => if lc = lcField then .bypass else i

/-- The value the selected instruction gives the host: IDCODE (R543). -/
def tapValue (i : TapIns) : Word := if i = .idcode then 0x1102446F else 0

/-- The instructions that select the boundary register (IEEE 1149.1, IEEE 1149.6). -/
def TapIns.boundary (i : TapIns) : Bool :=
  match i with
  | .sample | .extest | .extestPulse | .extestTrain => true
  | _ => false

/-- A scan of the boundary register (R543): the pins' levels, captured as free bits since neither their order nor the levels outside are
given, leave it while `shift` enters its update stage; what an EXTEST instruction drives goes to the pins, first the bits preloaded, then
those shifted in (log entry 83). -/
def State.boundaryScan (s : State) (sel : TapIns) (shift : List Bool) : State :=
  let driven (s : State) : State := if sel = .sample then s else s.emit (.drive sel s.service.boundary)
  let s1 := (driven s).emit (.scan ((List.range shift.length).map fun n => bit (Config.freeWord (s.freeN + n)) 0))
  let s2 := { s1 with service := { s1.service with boundary := shift }, freeN := s.freeN + shift.length }
  if shift.isEmpty then driven s else driven s2

/-- A TAP instruction (R543, R618): a debugger is attached while DBGACC is selected. -/
def State.tapInstruction (s : State) (i : TapIns) (shift : List Bool) : State :=
  let sel := s.tapSelects i
  let t := { s with service := { s.service with tap := sel }, debugger := decide (sel = TapIns.dbgacc) && s.power.main }
  let t1 := t.emit (.tap sel (tapValue sel))
  if sel.boundary then t1.boundaryScan sel shift else t1

/-- SERVICE_TURN (R426, R609): the request visible at the turn's start is answered at its end with a status and a result,
DATA receives `data`; `none` where the request needs further turns. Drover firmware may write the board mailbox (R544). -/
def State.serviceTurn (s : State) (f : FoldId) (answer : Option (Word × List Byte × List Byte)) (mailbox : Option (List Byte)) : State :=
  if !s.power.main || !s.firmware then s
  else
    let s1 := match mailbox with
      | none => s
      | some bs => { s with service := { s.service with toBoard := padTo 64 bs, alert := s.service.alert ||| 2 } }
    let fo := s1.fold f
    match answer with
    | none => s1
    | some (status, result, data) =>
      if !fo.mbPend then s1
      else
        let page := memWrite fo.mbBytes 0x1100 (leBytes status.toNat 4 ++ leBytes (fieldNat fo.mbReq 31 0) 4 ++ padTo 248 result)
        let t := s1.setFold f { fo with mbBytes := memWrite page 0x1200 (data.take 0xE00), mbPend := false, mbRdy := true }
        (t.emit (.reply f (padTo 248 result))).levelWaits f

/-- MAILBOX_ACK: a write to ACK clears RDY (R608). -/
def State.mailboxAck (s : State) (f : FoldId) : State := s.setFold f { (s.fold f) with mbRdy := false }

end Sys2Proof.Machine
end

