-- ==== Sys2Proof/Machine/Security.lean ====
section
/-! DEFINITION. Security (chapter 16): OTP programming, life cycle, manifests, version counters, the crypto engine,
entropy, tamper, opening debug access. -/

namespace Sys2Proof.Machine

/-- SEC.OTPADDR. -/
def rOtpaddr : Nat := 0x120020
/-- SEC.OTPDATA. -/
def rOtpdata : Nat := 0x120024
/-- SEC.CQBASE. -/
def rCqbase : Nat := 0x120200
/-- SEC.CQSIZE. -/
def rCqsize : Nat := 0x120204
/-- SEC.CQTAIL. -/
def rCqtail : Nat := 0x12020C

/-- An OTP offset may be programmed in a life-cycle state (Table 16.1). Life-cycle bits are programmed by requests; in BLANK
bit 0 alone, through the test access port, `tap`, which reaches the register by the debug access port (R595, R618). -/
def otpProgrammable (lc : Nat) (tap : Bool) (a : Nat) (v : Byte) : Bool :=
  if a < 3 then tap && decide (lc = 0) && decide (v &&& 0xFE = 0)
  else if a = 3 then decide (lc ≤ 2)
  else if a = 4 then decide (lc ≠ 5)
  else if 8 ≤ a ∧ a < 0x10 then decide (lc = 0)
  else if 0x10 ≤ a ∧ a < 0x20 then decide (lc ≠ 5)
  else if 0x20 ≤ a ∧ a < 0x1D0 then decide (lc = 1 ∨ lc = 2)
  else if 0x1D0 ≤ a ∧ a < 0x220 then decide (lc = 0)
  else false

/-- OTP_PROGRAM: a write of SEC.OTPCMD (R592). `bad` are the bits that do not take. -/
def State.otpProgram (s : State) (v : Word) (bad : Byte) : State :=
  let s0 := if bit v 31 then { s with sec := { s.sec with otpFail := false } } else s
  if !bit v 0 then s0
  else
    let a := fieldNat (s.reg rOtpaddr 0) 10 0
    let d : Byte := BitVec.ofNat 8 (fieldNat (s.reg rOtpdata 0) 7 0)
    if !otpProgrammable s.sec.lc.toNat s.debugger a d then s0.badWrite
    else
      let t := s0.otpSet a (d &&& ~~~bad)
      if d &&& bad &&& ~~~(s.otpByte a) ≠ 0 then { t with sec := { t.sec with otpFail := true } } else t

/-- A read of SEC.OTPDATA: the device key reads 0 (R592). -/
def State.otpRead (s : State) : Byte :=
  let a := fieldNat (s.reg rOtpaddr 0) 10 0
  if 0x1D0 ≤ a ∧ a < 0x1F0 then 0 else s.otpByte a

/-- The vault's main SRAM is wiped. -/
def State.wipeVault (s : State) : State :=
  { s with
    mem := memWipe s.mem 0x0300000000 0x40000
    memErr := s.memErr.filter fun e => decide (e.1 < 0x0300000000 / 8) || decide ((0x0300000000 + 0x40000) / 8 ≤ e.1) }
/-- Bytes of the always-on key area get fresh check bits (R342). -/
def State.freshKeys (s : State) (off n : Nat) : State := s.rawWrite (0x0300100040 + off) (List.replicate n 0)

/-- Every key slot and the always-on key area are wiped. -/
def State.wipeKeys (s : State) : State := ({ s with sec := { s.sec with keys := [], aonKeys := [] } }).freshKeys 0 256

/-- The bits of a target state are programmed in the three copies (R594, R596). -/
def State.programState (s : State) (target : Nat) : State :=
  let v : Byte := BitVec.ofNat 8 (2 ^ target - 1)
  let t := ((s.otpSet 0 v).otpSet 1 v).otpSet 2 v
  { t with sec := { t.sec with pend := true } }

/-- A key hash slot of a kind is programmed and unrevoked. -/
def State.anySlot (s : State) (base : Nat) : Bool :=
  (List.range 4).any fun i => s.slotProgrammed base i && !s.slotRevoked base i

/-- A transition requested by SEC.LCREQ exists and its condition holds (Table 16.3). -/
def State.mayBecome (s : State) (target : Nat) : Bool :=
  let lc := s.sec.lc.toNat
  if target = 2 then decide (lc = 1)
  else if target = 3 then
    decide (lc = 1 ∨ lc = 2) && !(s.otpByte 3).getLsbD 1 && s.anySlot 0x020 && s.anySlot 0x0E0
  else if target = 5 then decide (lc ≠ 5)
  else false

/-- LIFECYCLE_REQUEST: a write of SEC.LCREQ (R596). -/
def State.lcRequest (s : State) (v : Word) : State :=
  let target := fieldNat v 18 16
  if fieldNat v 15 0 = 0xC1A5 ∧ s.mayBecome target = true ∧ s.runMap = 0 ∧ s.sec.pend = false then
    s.wipeVault.wipeKeys.programState target
  else s.badWrite

/-- Drover firmware writes at an offset from 0x03_0000_0000: the vault, or the retained area, whose firmware log alone takes its writes
(R364, Table 16.15). -/
def State.vaultPatch (s : State) (off : Nat) (bs : List Byte) : State :=
  if off < 0x40000 then s.vaultWrite (0x0300000000 + off) (bs.take (0x40000 - off))
  else if 0x100000 ≤ off ∧ off < 0x100400 then
    let o := max off 0x100140
    s.vaultWrite (0x0300000000 + o) ((bs.drop (o - off)).take (0x100400 - o))
  else s

/-- Writes of Drover firmware to its own memory, and with bit 31 to the vault and the retained area. -/
def State.patch (s : State) (ws : List (Word × List Byte)) : State :=
  ws.foldl (fun s w =>
    if bit w.1 31 then s.vaultPatch (fieldNat w.1 30 0) w.2
    else s.droverWrite (w.1.toNat % 0x80000) (w.2.take (0x80000 - w.1.toNat % 0x80000))) s

/-- MANIFEST_VERIFY: a write of SEC.MVER (R604), over the image Drover firmware has placed. -/
def State.manifestVerify (s : State) (v : Word) (image : List Byte) : State :=
  let t := s.patch [(v &&& 0x7FFFF, image)]
  { t with sec := { t.sec with mok := false, mbusy := true, mver := v.toNat % 0x80000 } }

/-- The device section is a sequence of entries of known types (R605). -/
def entriesKnown (bs : List Byte) (fuel : Nat) : Bool :=
  match fuel with
  | 0 => bs.isEmpty
  | n + 1 =>
    if bs.isEmpty then true
    else
      let ty := imageField bs 0 2
      let size := 4 + (imageField bs 2 2 + 3) / 4 * 4
      decide (1 ≤ ty) && decide (ty ≤ 9) && decide (size ≤ bs.length) && entriesKnown (bs.drop size) n

/-- The ranges of a manifest header (R603). -/
def manifestRanges (im : List Byte) : Bool :=
  let total := imageField im 8 4
  let n := imageField im 0xC 4
  let ds := imageField im 0x10 4
  let dl := imageField im 0x14 4
  let fr := imageField im 0x18 4
  decide (imageField im 6 2 ≤ 64) && decide (512 ≤ total) && decide (total ≤ 98304) && decide (1 ≤ n) && decide (n ≤ 16) &&
    decide (0x200 ≤ ds) && decide (ds % 4 = 0) && decide (dl % 4 = 0) && decide (fr % 16 = 0) && decide (fr ≥ ds + dl) &&
    decide (fr + n * 4096 = total)

/-- The code of Table 16.6 of a manifest; an unknown entry type fails it with a code the spec does not state (log entry 3). -/
def State.manifestCode (s : State) (off : Nat) : State × Nat :=
  let total := imageField (s.droverRead off 12) 8 4
  let im := s.droverRead off (max 512 (min total 98304))
  if !headerShape im 0x4D464248 then (s, 2)
  else if !manifestRanges im then (s, 3)
  else
    let c := s.proofCode im (im.drop 0x200) 0x0E0 (s.otpCounter 0x18)
    let ds := (im.drop (imageField im 0x10 4)).take (imageField im 0x14 4)
    if c ≠ 0 then (s, c)
    else if entriesKnown ds ds.length then (s, 0)
    else ({ s with freeN := s.freeN + 1 }, 256 + fieldNat (Config.freeWord s.freeN) 7 0)

/-- MANIFEST_VERIFY_DONE (R604). -/
def State.manifestDone (s : State) : State :=
  if !s.sec.mbusy then s
  else
    let c := s.manifestCode s.sec.mver
    let im := s.droverRead s.sec.mver 8
    { c.1 with sec := { c.1.sec with
        mbusy := false, mok := decide (c.2 = 0), merr := BitVec.ofNat 8 c.2,
        mnsvn := if c.2 = 0 then imageField im 6 2 else c.1.sec.mnsvn } }

/-- Advance a thermometer counter to `n` ones (Table 16.1, R602). -/
def State.advance (s : State) (off n : Nat) : State :=
  (List.range 8).foldl (fun s i => s.otpSet (off + i) (BitVec.ofNat 8 (2 ^ (min 8 (n - 8 * i)) - 1))) s

/-- FW_SVN_ADVANCE (R602). -/
def State.fwAdvance (s : State) (n : BitVec 7) : State :=
  if n.toNat > s.sec.fwsvn ∨ s.sec.lc = lcVoid then s.badWrite else s.advance 0x10 n.toNat

/-- MN_SVN_ADVANCE (R602). -/
def State.mnAdvance (s : State) (n : BitVec 7) : State :=
  if n.toNat > s.sec.mnsvn ∨ s.sec.lc = lcVoid then s.badWrite else s.advance 0x18 n.toNat

/-- Write a key slot (R611): slots 248 to 255 also write the always-on key area; ignored in OPENED (R624). -/
def State.setKey (s : State) (slot : Nat) (key : List Byte) : State :=
  if s.sec.lc = lcOpened then s
  else
    let s1 := { s with sec := { s.sec with
        keys := kset s.sec.keys slot key,
        aonKeys := if 248 ≤ slot then kset s.sec.aonKeys slot key else s.sec.aonKeys } }
    if 248 ≤ slot then s1.freshKeys (32 * (slot - 248)) 32 else s1

/-- `n` random bytes: free values (R613). -/
def State.random (s : State) (n : Nat) : State × List Byte :=
  ({ s with freeN := s.freeN + (n + 3) / 4 },
    (List.range n).map fun i => byteOf ((Config.freeWord (s.freeN + i / 4)).zeroExtend 128) (i % 4))

/-- A crypto job descriptor (Table 16.13), at its Drover memory offset. -/
structure Job where
  at_ : Nat
  op : Nat
  slot : Nat
  src : Nat
  dst : Nat
  len : Nat
  aad : Nat
  iv : Nat
  tag : Nat
  zero : Nat
deriving DecidableEq, Repr

/-- The number of entries of the job ring: n is 1 to 10. -/
def State.cqEntries (s : State) : Nat := 2 ^ fieldNat (s.reg rCqsize 0) 3 0

/-- The descriptor at the head of the ring, if a job waits (R612). -/
def State.jobAtHead (s : State) : Option Job :=
  if s.sec.cqHead % s.cqEntries = (s.reg rCqtail 0).toNat % s.cqEntries then none
  else
    let a := (s.reg rCqbase 0).toNat + 32 * (s.sec.cqHead % s.cqEntries)
    let d := s.droverRead a 32
    some ⟨a, imageField d 0 1, imageField d 1 1, imageField d 4 4, imageField d 8 4, imageField d 0xC 4, imageField d 0x10 4,
      imageField d 0x14 4, imageField d 0x18 4, imageField d 0x1C 4⟩

/-- Base and size of the memory a job's address lies in, and its offset: Drover memory, or the vault with bit 31 (R612). -/
def jobPlace (a : Nat) : Nat × Nat × Nat :=
  if a ≥ 2 ^ 31 then (0x0300000000, 0x40000, a - 2 ^ 31) else (droverBase, 0x80000, a)

/-- `n` bytes from a job's address lie inside that memory. -/
def jobRange (a n : Nat) : Bool := decide ((jobPlace a).2.2 + n ≤ (jobPlace a).2.1)

/-- Read at a job's address. -/
def State.jobRead (s : State) (a n : Nat) : List Byte := memRead s.mem ((jobPlace a).1 + (jobPlace a).2.2) n
/-- Write at a job's address. -/
def State.jobWrite (s : State) (a : Nat) (bs : List Byte) : State :=
  s.rawWrite ((jobPlace a).1 + (jobPlace a).2.2) bs

/-- The descriptor is valid: a known operation, zero word, every address in range. -/
def Job.valid (j : Job) : Bool :=
  decide (1 ≤ j.op) && decide (j.op ≤ 7) && decide (j.zero = 0) &&
    (match j.op with
      | 1 => jobRange j.src (j.aad + j.len) && jobRange j.dst j.len && jobRange j.iv 12 && jobRange j.tag 16
      | 2 => jobRange j.src (j.aad + j.len) && jobRange j.dst j.len && jobRange j.iv 12 && jobRange j.tag 16
      | 3 => jobRange j.src j.aad && jobRange j.iv 12 && jobRange j.tag 16
      | 4 => jobRange j.src (j.aad + j.len) && jobRange j.dst 48
      | 5 => jobRange j.src 48 && jobRange j.iv 97 && jobRange j.tag 96
      | 6 => jobRange j.iv 64
      | _ => true)

/-- The ranges a job reads. -/
def Job.reads (j : Job) : List (Nat × Nat) :=
  match j.op with
  | 1 => [(j.src, j.aad + j.len), (j.iv, 12)]
  | 2 => [(j.src, j.aad + j.len), (j.iv, 12), (j.tag, 16)]
  | 3 => [(j.src, j.aad), (j.iv, 12)]
  | 4 => [(j.src, j.aad + j.len)]
  | 5 => [(j.src, 48), (j.iv, 97), (j.tag, 96)]
  | 6 => [(j.iv, 64)]
  | _ => []

/-- The ranges a job writes. -/
def Job.writes (j : Job) : List (Nat × Nat) :=
  match j.op with
  | 1 => [(j.dst, j.len), (j.tag, 16)]
  | 2 => [(j.dst, j.len)]
  | 3 => [(j.tag, 16)]
  | 4 => [(j.dst, 48)]
  | _ => []

/-- The vault's codewords that a range at a job's address covers; with `part`, those it covers in part. -/
def vaultWords (part : Bool) (r : Nat × Nat) : List Nat :=
  let a := (jobPlace r.1).1 + (jobPlace r.1).2.2
  if r.1 < 2 ^ 31 ∨ r.2 = 0 then []
  else (codewords a r.2).filter fun cw => !part || decide (8 * cw < a) || decide (a + r.2 < 8 * cw + 8)

/-- The codewords of the vault that a job decodes: those it reads, and those it writes in part (R342, R344, R364). -/
def Job.words (j : Job) : List Nat := j.reads.flatMap (vaultWords false) ++ j.writes.flatMap (vaultWords true)

/-- A job ends: STATUS, CQHEAD, Drover's interrupt (R612). -/
def State.jobEnds (s : State) (j : Job) (status : Nat) : State :=
  let t := s.droverWrite (j.at_ + 2) (leBytes status 2)
  { t with sec := { t.sec with cqHead := (t.sec.cqHead + 1) % t.cqEntries }, droverIrq := t.droverIrq ++ [(3, status)] }

/-- Descriptors at the head that are invalid end with status 0x0003; at most `n`. -/
def State.skipInvalid (s : State) (n : Nat) : State :=
  match n with
  | 0 => s
  | k + 1 =>
    match s.jobAtHead with
    | none => s
    | some j => if j.valid then s else (s.jobEnds j 3).skipInvalid k

/-- CRYPTO_SUBMIT: a write of SEC.CQTAIL (R612), over what Drover firmware has placed in its memory, the vault and the retained area,
and over disturbances since of codewords of the vault and the retained area, numbered from 0x03_0000_0000. -/
def State.cryptoSubmit (s : State) (v : Word) (ws : List (Word × List Byte)) (flips : List (BitVec 18 × CwFlip)) : State :=
  let s1 := flips.foldl (fun s x => s.flip (0x0300000000 / 8 + x.1.toNat) x.2) (s.patch ws)
  (s1.setReg rCqtail v).skipInvalid 1024

/-- Run the job at the head if its operation is `op`. An uncorrectable codeword of the vault leaves the word as it is and reports source
0x20; the spec states no status for the job, which ends with a free one (R364, Table 12.2; log entry 3). -/
def State.runJob (s : State) (op : Nat) (f : State → Job → State × Nat) : State :=
  match s.jobAtHead with
  | none => s
  | some j =>
    if j.op = op ∧ j.valid = true ∧ s.power.main = true then
      let bad := j.words.dedup.filter fun cw => s.cwEcc cw == .uncorrectable
      if bad.isEmpty then
        let r := f (s.vaultDecode j.words) j
        (r.1.jobEnds j r.2).skipInvalid 1024
      else
        let s1 := s.vaultDecode bad
        (({ s1 with freeN := s1.freeN + 1 }).jobEnds j (fieldNat (Config.freeWord s1.freeN) 15 0)).skipInvalid 1024
    else s

/-- The key of a slot; a slot never written holds zeros. -/
def State.jobKey (s : State) (j : Job) : List Byte := s.keyOf j.slot

/-- OP 0x01: the ciphertext to the destination, the tag to its place. -/
def State.jobEncrypt (s : State) (j : Job) : State × Nat :=
  let aad := s.jobRead j.src j.aad
  let iv := s.jobRead j.iv 12
  let ct := gcmCrypt (s.jobKey j) iv (s.jobRead (j.src + j.aad) j.len)
  ((s.jobWrite j.dst ct).jobWrite j.tag (gcmTag (s.jobKey j) iv aad ct), 1)

/-- OP 0x02: a tag that fails gives no text (status 0x0002). -/
def State.jobDecrypt (s : State) (j : Job) : State × Nat :=
  let aad := s.jobRead j.src j.aad
  let iv := s.jobRead j.iv 12
  let ct := s.jobRead (j.src + j.aad) j.len
  if gcmTag (s.jobKey j) iv aad ct = s.jobRead j.tag 16 then (s.jobWrite j.dst (gcmCrypt (s.jobKey j) iv ct), 1) else (s, 2)

/-- OP 0x03: the tag over the AAD alone. -/
def State.jobGmac (s : State) (j : Job) : State × Nat :=
  (s.jobWrite j.tag (gcmTag (s.jobKey j) (s.jobRead j.iv 12) (s.jobRead j.src j.aad) []), 1)

/-- OP 0x04: the digest of the data. -/
def State.jobHash (s : State) (j : Job) : State × Nat := (s.jobWrite j.dst (sha384 (s.jobRead (j.src + j.aad) j.len)), 1)

/-- OP 0x05. -/
def State.jobVerify (s : State) (j : Job) : State × Nat :=
  (s, if signatureOk (s.jobRead j.iv 97) (s.jobRead j.src 48) (s.jobRead j.tag 96) then 1 else 2)

/-- OP 0x06 (R606): under the device key; the AAD is the unique device number and the slot byte. -/
def State.jobUnwrap (s : State) (j : Job) : State × Nat :=
  let w := s.jobRead j.iv 64
  let key := s.otpBytes 0x1D0 32
  let iv := (w.drop 4).take 12
  let ct := (w.drop 16).take 32
  if gcmTag key iv (s.otpBytes 8 8 ++ w.take 1) ct = w.drop 48 then (s.setKey (imageField w 0 1) (gcmCrypt key iv ct), 1)
  else (s, 2)

/-- OP 0x07: refused while the entropy source has failed (R613), with a status the spec does not state. -/
def State.jobRandom (s : State) (j : Job) : State × Nat :=
  if s.sec.rngFail then ({ s with freeN := s.freeN + 1 }, fieldNat (Config.freeWord s.freeN) 15 0)
  else let r := s.random 32; (r.1.setKey j.slot r.2, 1)

/-- RNG_OUTPUT (R613): 256 bits, or a failed health test. -/
def State.rngOutput (s : State) (healthy : Bool) : State :=
  if s.sec.rngFail || !s.power.main then s
  else if healthy then
    { s with
      freeN := s.freeN + 8,
      sec := { s.sec with rng := (List.range 8).map fun i => Config.freeWord (s.freeN + i) } }
  else { s with sec := { s.sec with rngFail := true, rng := [] }, droverIrq := s.droverIrq ++ [(4, 0)] }

/-- CHALLENGE_GENERATE: a write of SEC.CHALGEN (R621, R622, R613). -/
def State.challenge (s : State) : State :=
  if s.runMap ≠ 0 ∨ s.sec.rngFail = true ∨ s.clk.bt < s.sec.lockBt then s
  else
    let r := s.random 32
    { r.1 with sec := { s.sec with
        chal := r.2 ++ s.otpBytes 8 8 ++ leBytes (s.otpCounter 0x10) 4 ++ [0, 0, 0, 0], chalAt := some s.clk.bt } }

/-- The bytes of SEC.RESP. -/
def State.respBytes (s : State) (off n : Nat) : List Byte :=
  (List.range n).map fun i => byteOf ((kget s.sec.resp 0 ((off + i) / 4)).zeroExtend 128) ((off + i) % 4)

/-- What R622 checks of a request to open. -/
def State.openOk (s : State) : Bool :=
  let key := s.respBytes 0 97
  let fresh := match s.sec.chalAt with
    | some b => decide (s.clk.bt ≤ b + 19660800)
    | none => false
  let h := s.otpBytes 0x1A0 48
  fresh && decide (s.runMap = 0) && h.any (· ≠ 0) && decide (sha384 key = h) &&
    signatureOk key (sha384 s.sec.chal) (s.respBytes 0x64 96)

/-- Every scratchpad and group begins its wipe, whatever its owner (R623). -/
def State.wipeAll (s : State) : State :=
  (List.finRange 64).foldl (fun s i => s.setReg (rMemstat i) (s.reg (rMemstat i) memstatReset ||| 0xC0000000)) s

/-- DEBUG_OPEN: a write of SEC.OPEN in FIELD (R622, R623). The challenge is consumed. -/
def State.debugOpen (s : State) (v : Word) : State :=
  if fieldNat v 15 0 ≠ 0x0BE4 ∨ s.sec.lc ≠ lcField then s
  else
    let t := { s with sec := { s.sec with chal := [], chalAt := none } }
    if s.openOk then t.wipeVault.wipeKeys.wipeAll.programState 4
    else { t with sec := { t.sec with openFail := satInc s.sec.openFail, lockBt := s.clk.bt + 327680 } }

/-- TAMPER (R615, R616): kind 1 mesh, 2 voltage, 3 clock, 4 temperature. In deep standby only the sensors of the always-on
domain run. -/
def State.tamper (s : State) (kind : Fin 4) : State :=
  let k := kind.val + 1
  let asleep := s.power.standby.isSome
  if !s.power.vaon || ((asleep || !s.power.rails) && k == 3) then s
  else
    let t1 := { s with sec := { s.sec with
      tstat := if bit s.sec.tstat 31 then s.sec.tstat else BitVec.ofNat 32 (2 ^ 31 + asleep.toNat * 2 ^ 30 + k) } }
    if asleep || !s.power.rails then (({ t1 with sec := { t1.sec with aonKeys := [] } }).freshKeys 0 256).wakeDevice 3
    else
      let t2 := t1.wipeVault.wipeKeys
      if s.power.main then t2.reportU 0x27 .device 0 0 else t2

/-- TWINOK_WRITE (R614): OK is set; a link loss clears it. -/
def State.writeTwinok (s : State) (v : Word) : State :=
  if bit v 0 then { s with sec := { s.sec with twinOk := true } } else s

end Sys2Proof.Machine
end

