-- ==== Sys2Proof/Machine/RegWrite.lean ====
section
/-! DEFINITION. Writes of the device control space by address (R16, R17, R37, Table 1.6 and the register tables of the
chapters). A register with a command of its own acts here as that command does. -/

namespace Sys2Proof.Machine

/-- An access to a reserved range (R35, R37): source 0x0C. -/
def State.reservedAccess (s : State) : State := s.reportU 0x0C .device 0 0

/-- Store a register by its access codes. -/
def State.regWith (s : State) (a : Nat) (spec : RegSpec) (v : Word) : State := s.setReg a (spec.write (s.reg a spec.reset) v)

/-- The fault manager block (Table 12.7). -/
def State.writeFm (s : State) (off : Nat) (v : Word) : State :=
  if off = 0 then s.regWith rFmCtl (RegSpec.locked 1 0 7) v
  else if off = 4 ∨ off = 8 ∨ (0x10 ≤ off ∧ off < 0x30) ∨ (0x40 ≤ off ∧ off < 0x5C) then s
  else if off = 0x30 then s.fmRequest v
  else if off = 0x34 then (if bit v 0 then s.nsafeRelease else s)
  else if 0x404 ≤ off ∧ off < 0x500 then s.writeSrccfg (BitVec.ofNat 8 ((off - 0x400) / 4)) v
  else if 0x600 ≤ off ∧ off < 0x640 then s.writeFwdcfg (Fin.ofNat 16 ((off - 0x600) / 4)) v
  else s.reservedAccess

/-- A window word of the fold manager block (Table 9.5): WINA and WINB are held, WINC commits, WIND is reserved. -/
def State.writeWindow (s : State) (off : Nat) (v : Word) : State :=
  let f : FoldId := Fin.ofNat 16 (off / 0x400)
  let w : Fin 64 := Fin.ofNat 64 (off / 16)
  match off / 4 % 4 with
  | 0 => s.setReg (rWindow f w.val 0) (v &&& 0xFFFF001F)
  | 1 => s.setReg (rWindow f w.val 1) (v &&& 0x00FFF000)
  | 2 => s.windowCommit f w v
  | _ => s

/-- A write of an ownership register by Drover (R409): the fold watchdogs of the folds it concerns see whether every span naps (R450), and
waiting memory tests may start (R583). -/
def State.ownWritten (s : State) (r : Resource) (v : Word) : State :=
  let old := ownerOf (s.reg r.addr 0)
  let s1 := s.writeOwn r v
  let s2 := match old with
    | some g => s1.wdPause g
    | none => s1
  (s2.wdPause (Fin.ofNat 16 (fieldNat v 3 0))).startTests

/-- The fold manager block (Table 11.10). FROOT holds bits 31:6 of what is written (log entry 69). Under the
fixed-frequency policy every span clock runs at 1.6 GHz (R564). -/
def State.writeFm2 (s : State) (off : Nat) (v : Word) : State :=
  let a := 0x020000 + off
  if off = 0 then
    let s1 := s.setReg rFmgrCtl ((RegSpec.locked 0 0 3).write s.fmgrCtl v)
    if s1.adaptive then s1 else s1.fullSpeed
  else if off = 4 then s
  else if off = 8 then (if bit v 31 then s.setReg rRefuse (s.reg rRefuse 0 &&& 0x3FFFFFFF) else s)
  else if 0x040 ≤ off ∧ off < 0x080 then s.writeFstate (Fin.ofNat 16 ((off - 0x40) / 4)) v
  else if 0x080 ≤ off ∧ off < 0x0C0 then s.setReg a v
  else if 0x0C0 ≤ off ∧ off < 0x100 then s.setReg a (v &&& 0xFFFFFFC0)
  else if 0x100 ≤ off ∧ off < 0x200 then s.ownWritten (.span (Fin.ofNat 64 ((off - 0x100) / 4))) v
  else if 0x200 ≤ off ∧ off < 0x300 then s.ownWritten (.group (Fin.ofNat 64 ((off - 0x200) / 4))) v
  else if 0x300 ≤ off ∧ off < 0x400 then s.ownWritten (.dma (Fin.ofNat 64 ((off - 0x300) / 4))) v
  else if 0x400 ≤ off ∧ off < 0x4C0 then s.writeSlot (Fin.ofNat 48 ((off - 0x400) / 4)) v
  else if 0x500 ≤ off ∧ off < 0x900 then
    s.ownWritten (.queue (Fin.ofNat 4 ((off - 0x500) / 0x100)) (Fin.ofNat 64 (off / 4))) v
  else if 0xA00 ≤ off ∧ off < 0xE00 then s.writeXch (Fin.ofNat 256 ((off - 0xA00) / 4)) v
  else if 0xE00 ≤ off ∧ off < 0xE40 then s.writeFpwr (Fin.ofNat 16 ((off - 0xE00) / 4)) v
  else if 0xE40 ≤ off ∧ off < 0xE80 then s.setReg a v
  else if 0x4000 ≤ off ∧ off < 0x8000 then s.writeWindow (off - 0x4000) v
  else s.reservedAccess

/-- A span control block (Tables 2.11, 8.17, 9.11, 15.11). -/
def State.writeSpan (s : State) (sp : SpanId) (off : Nat) (v : Word) : State :=
  if off = 0x100 then s.writeCkctl sp v
  else if off = 0x300 then s.writeSchctl sp v
  else if off = 0x40C then s.writeMemctl sp v
  else if off = 0x500 then s.writePwrctl sp v
  else if off = 0x504 then s
  else match yokeRegSpec off with
  | some spec => s.regWith (rSpan sp off) spec v
  | none => s.reservedAccess

/-- The Bell and AON block (Tables 12.18, 15.9). -/
def State.writeBell (s : State) (off : Nat) (v : Word) : State :=
  if off = 0 ∨ off = 4 ∨ off = 0x10C then s
  else if off = 8 then s.setReg 0x080008 v
  else if off = 0xC then s.setReg 0x08000C (v &&& 0xFFFF)
  else if off = 0x10 then s.writeBellCtl v
  else if off = 0x18 then s.regWith rWakesrc (RegSpec.mk_w1c 0 0xF) v
  else if off = 0x100 then s.writeWdctl v
  else if off = 0x104 then s.aonService v
  else if off = 0x108 then s.aonKey v
  else if off = 0x110 then s.aonCountClear v
  else if off = 0x114 then s.regWith rRstcause (RegSpec.mk_w1c 0 0x80000000) v
  else s.reservedAccess

/-- The power and clock block (Table 15.12). -/
def State.writePwr (s : State) (off : Nat) (v : Word) : State :=
  if off = 0 then s.writePwrCtl v
  else if off = 0xC then s.standbyRequest v
  else if off = 4 ∨ off = 8 ∨ off = 0x10 ∨ (0x20 ≤ off ∧ off < 0x60) ∨ (0x100 ≤ off ∧ off < 0x200) ∨ (0x200 ≤ off ∧ off < 0x320) then s
  else s.reservedAccess

/-- The Tally block (Table 15.14). -/
def State.writeTally (s : State) (off : Nat) (v : Word) : State :=
  if 0x100 ≤ off ∧ off < 0x900 then
    if off % 0x20 = 0x1C then s.tallyRetire (Fin.ofNat 64 ((off - 0x100) / 0x20)) v else s
  else s.reservedAccess

/-- The BIST block (Table 15.15). -/
def State.writeBist (s : State) (off : Nat) (v : Word) : State :=
  if off = 4 then s.bistStart v
  else if off = 8 then s.memTest v
  else if off = 0xC then s.regWith 0x0B000C (RegSpec.mk_w1c 0 0x80000000) v
  else if off = 0x10 then s
  else s.reservedAccess

/-- The twin link block (Table 13.10). -/
def State.writeTwin (s : State) (off : Nat) (v : Word) : State :=
  if off = 0 then s.writeTwinCtl v
  else if (4 ≤ off ∧ off < 0x1C) ∨ off = 0x20 then s
  else if 0x100 ≤ off ∧ off < 0x140 then s.writeFctl (Fin.ofNat 16 ((off - 0x100) / 4)) v
  else if 0x140 ≤ off ∧ off < 0x180 then s.setReg (0x0C0000 + off) v
  else if 0x180 ≤ off ∧ off < 0x1C0 then s
  else if 0x200 ≤ off ∧ off < 0x300 then s.setReg (0x0C0000 + off) (v &&& 0x8000000F)
  else s.reservedAccess

/-- The fold that owns queue `q` of a port; on P4 the fold of the function (R418). -/
def State.portOwner (s : State) (p q : Nat) : Option FoldId :=
  if p = 4 then some (Fin.ofNat 16 (q / 8)) else s.queueFold p q

/-- A write of PORT.QCFG[q] (R547, R549). -/
def State.writeQcfg (s : State) (p q : Nat) (v : Word) : State :=
  let new : Word := if p = 4 then v &&& 0x80000FFF else v
  let n := if p = 4 then 128 else 64
  let sum (hi lo : Nat) : Nat := (List.range n).foldl (fun t i => t + fieldNat (if i = q then new else s.qcfg p i) hi lo) 0
  let held : Bool := match s.portOwner p q with
    | some f => s.running f
    | none => false
  if held then s
  else if sum 5 0 > 256 ∨ sum 11 6 > 256 then s.badWrite
  else s.setReg (rQcfg p q) new

/-- A gate list setting is outside what the ports support (R507, Table 14.2): over 256 entries, a cycle outside 1 µs to 1 s, or a change
while the port transmits for a fold in RUN. -/
def State.gateUnsupported (s : State) (p off : Nat) (v : Word) : Bool :=
  decide (p < 4 ∧ off ≠ 0x600) &&
    (!(s.portFolds p).isEmpty || decide (off = 0x608 ∧ 256 < fieldNat v 24 16) ||
      decide (off = 0x60C ∧ (v.toNat < 1000 ∨ 1000000000 < v.toNat)))

/-- The gate list registers of a port (R417, R507, R513, Table 14.11). On P0 to P3 isolation mode refuses an entry, or the enabling of a
list, that opens queues of more than one fold. A setting the ports do not support is ignored with source 0x0E (the model's choice, log
entry 82). -/
def State.writeGate (s : State) (p off : Nat) (v : Word) : State :=
  let mixed (e : Word) : Bool := decide (p < 4) && s.iso && s.gateMixed p e
  let restart (t : State) : State := { t with gateAt := kdel t.gateAt p }
  let i := fieldNat (s.reg (rPort p 0x600) 0) 7 0
  if s.gateUnsupported p off v then s.badWrite
  else if off = 0x600 then s.setReg (rPort p off) (v &&& 0xFF)
  else if off = 0x604 then
    if mixed v then s.reportU 0x0D .device 0 0 else restart (s.setReg (rGcl p i) v)
  else if off = 0x608 then
    if bit v 0 && (List.range (fieldNat v 24 16)).any fun j => mixed (s.reg (rGcl p j) 0) then
      s.reportU 0x0D .device 0 0
    else restart (s.setReg (rPort p off) (v &&& 0x01FF0001))
  else restart (s.setReg (rPort p off) v)

/-- A write of PORT.FSHARE[f] (R524). -/
def State.writeFshare (s : State) (f : FoldId) (v : Word) : State :=
  let sum := (List.finRange 16).foldl (fun t g => t + if g = f then fieldNat v 6 0 else s.fshare g) 0
  if sum > 64 then s.badWrite else s.setReg (rPort 4 (0x500 + 4 * f.val)) (v &&& 0x7F)

/-- A port block (Table 14.11). -/
def State.writePort (s : State) (p off : Nat) (v : Word) : State :=
  let eth := decide (p < 4)
  let locked := bit (s.reg (rPort p 0) 0) 31
  let nq := if p = 4 then 0x200 else 0x100
  if off = 0 then s.writePortCtl p v
  else if off = 4 ∨ (0x20 ≤ off ∧ off < 0x30) then s
  else if off = 8 ∨ off = 0xC ∨ off = 0x10 then
    if locked || (!eth && off != 0x10) then s else s.setReg (rPort p off) (if off = 8 then v else v &&& 0xFFFF)
  else if 0x100 ≤ off ∧ off < 0x100 + nq then s.writeQcfg p ((off - 0x100) / 4) v
  else if 0x300 ≤ off ∧ off < 0x300 + nq then s
  else if 0x500 ≤ off ∧ off < 0x540 then (if eth then s else s.writeFshare (Fin.ofNat 16 ((off - 0x500) / 4)) v)
  else if 0x600 ≤ off ∧ off < 0x618 then s.writeGate p off v
  else if off = 0x800 then s.setReg (rPort p off) (v &&& 0x7F)
  else if 0x804 ≤ off ∧ off < 0x814 then
    s.setReg (rSfWord p (fieldNat (s.reg (rPort p 0x800) 0) 6 0) ((off - 0x804) / 4)) v
  else s.reservedAccess

/-- The DMA block (Table 10.15). -/
def State.writeDmaBlock (s : State) (off : Nat) (v : Word) : State :=
  if off = 8 then s.dmaBulkStop false v
  else if off = 0xC then s.dmaBulkStop true v
  else if off = 0 ∨ (0x100 ≤ off ∧ off < 0x300) then s
  else s.reservedAccess

/-- A write of SIO.TPCFG (Table 14.15). -/
def State.writeTpcfg (s : State) (v : Word) : State :=
  let tpp := fieldNat v 25 16
  let tpw := fieldNat v 9 0
  if tpp < 10 ∨ tpp > 1000 ∨ tpw < 100 ∨ tpw > 1000 then s.badWrite else s.setReg rTpcfg (v &&& 0x03FF03FF)

/-- The safe I/O block (Table 14.15). -/
def State.writeSio (s : State) (off : Nat) (v : Word) : State :=
  if off = 0 then (if s.runMap = 0 then s.setReg (rSio 0) (v &&& 0xFFFF) else s)
  else if off = 4 then s.writeTpcfg v
  else if off = 0x10 then s.setReg rConnidx (v &&& 0xFFF)
  else if off = 0x14 ∨ off = 0x18 ∨ off = 0x1C then s.setReg (rSio off) v
  else if off = 0x20 then s.connCommit v
  else if 0x100 ≤ off ∧ off < 0x200 then s.writeIpcfg (Fin.ofNat 64 ((off - 0x100) / 4)) v
  else if 0x200 ≤ off ∧ off < 0x300 then s
  else if 0x340 ≤ off ∧ off < 0x400 then s.writeIpnet (Fin.ofNat 64 ((off - 0x300) / 4)) v
  else if 0x400 ≤ off ∧ off < 0x500 then s.setReg (rSio off) (v &&& 0x07FF07FF)
  else if 0x500 ≤ off ∧ off < 0x520 then s.writeOpcfg (Fin.ofNat 8 ((off - 0x500) / 4)) v
  else if 0x520 ≤ off ∧ off < 0x540 then s
  else s.reservedAccess

/-- The security block (Table 16.17). The low five bits of CQBASE read 0 (the model's choice, log entry 69). -/
def State.writeSec (s : State) (off : Nat) (v : Word) : State :=
  let n := fieldNat v 3 0
  if off = 4 then s.lcRequest v
  else if off = 0x10 then s.manifestVerify v []
  else if off = 0x14 then (s.fwAdvance (BitVec.ofNat 7 (fieldNat v 14 8))).mnAdvance (BitVec.ofNat 7 (fieldNat v 30 24))
  else if off = 0x18 then
    (if bit v 31 then { s with sec := { s.sec with tstat := setBit s.sec.tstat 31 false } } else s)
  else if off = 0x1C then s.writeTwinok v
  else if off = 0x20 then s.setReg rOtpaddr (v &&& 0x7FF)
  else if off = 0x24 then s.setReg rOtpdata (v &&& 0xFF)
  else if off = 0x28 then s.otpProgram v 0
  else if off = 0x80 then s.challenge
  else if off = 0x84 then s.debugOpen v
  else if 0x100 ≤ off ∧ off < 0x1C8 then { s with sec := { s.sec with resp := kset s.sec.resp ((off - 0x100) / 4) v } }
  else if off = 0x200 then s.setReg rCqbase (v &&& 0xFFFFFFE0)
  else if off = 0x204 then (if n = 0 ∨ n > 10 then s.badWrite else s.setReg rCqsize (v &&& 0xF))
  else if off = 0x20C then s.cryptoSubmit v [] []
  else if off = 0 ∨ off = 8 ∨ off = 0xC ∨ (0x40 ≤ off ∧ off < 0x70) ∨ off = 0x208 ∨ off = 0x210 ∨ off = 0x214 then s
  else s.reservedAccess

/-- The fault recorder block (Table 12.23). -/
def State.writeFr (s : State) (off : Nat) (v : Word) : State :=
  if off = 0 then s.writeFrCtl v
  else if off = 4 then { s with fr := { s.fr with rue := s.fr.rue && !bit v 29 } }
  else if off = 0x18 then
    (if bit v 31 then { s with fr := { s.fr with missedValid := false, missed := 0, mtime := 0 } } else s)
  else if off = 0x28 then s.recorderMark v
  else if off = 0x30 then s.setReg rFrRidx (v &&& 0xFFFF)
  else if (8 ≤ off ∧ off < 0x28) ∨ (0x40 ≤ off ∧ off < 0x60) then s
  else s.reservedAccess

/-- The epoch controller block (Table 3.6). -/
def State.writeEpoch (s : State) (off : Nat) (v : Word) : State :=
  if off = 0 then s.writeEpCtl v
  else if 4 ≤ off ∧ off < 0x14 then s
  else if off = 0x18 ∨ off = 0x1C then s.setReg (0x140000 + off) v
  else if 0x100 ≤ off ∧ off < 0x500 then
    let f : FoldId := Fin.ofNat 16 ((off - 0x100) / 0x40)
    let r := off % 0x40
    if r = 0 then s.writeFcfg f v
    else if r = 8 then s.writeHolding f false v
    else if r = 0xC then s.writeHolding f true v
    else if r < 0x24 then s
    else s.reservedAccess
  else s.reservedAccess

/-- REGISTER_WRITE (R17, R37): a 32-bit write of the device control space. -/
def State.writeReg (s : State) (a : Nat) (v : Word) : State :=
  if !s.power.main then s
  else if a % 4 ≠ 0 then s.reservedAccess
  else if a < 0x18 then s
  else if 0x010000 ≤ a ∧ a < 0x020000 then s.writeFm (a - 0x010000) v
  else if 0x020000 ≤ a ∧ a < 0x030000 then s.writeFm2 (a - 0x020000) v
  else if 0x030000 ≤ a ∧ a < 0x070000 then s.writeSpan (Fin.ofNat 64 ((a - 0x030000) / 0x1000)) (a % 0x1000) v
  else if 0x080000 ≤ a ∧ a < 0x090000 then s.writeBell (a - 0x080000) v
  else if 0x090000 ≤ a ∧ a < 0x0A0000 then s.writePwr (a - 0x090000) v
  else if 0x0A0000 ≤ a ∧ a < 0x0B0000 then s.writeTally (a - 0x0A0000) v
  else if 0x0B0000 ≤ a ∧ a < 0x0C0000 then s.writeBist (a - 0x0B0000) v
  else if 0x0C0000 ≤ a ∧ a < 0x0D0000 then s.writeTwin (a - 0x0C0000) v
  else if 0x0D0000 ≤ a ∧ a < 0x0DA000 then s.writePort ((a - 0x0D0000) / 0x2000) ((a - 0x0D0000) % 0x2000) v
  else if 0x100000 ≤ a ∧ a < 0x110000 then s.writeDmaBlock (a - 0x100000) v
  else if 0x110000 ≤ a ∧ a < 0x120000 then s.writeSio (a - 0x110000) v
  else if 0x120000 ≤ a ∧ a < 0x130000 then s.writeSec (a - 0x120000) v
  else if 0x130000 ≤ a ∧ a < 0x140000 then s.writeFr (a - 0x130000) v
  else if 0x140000 ≤ a ∧ a < 0x150000 then s.writeEpoch (a - 0x140000) v
  else s.reservedAccess

end Sys2Proof.Machine
end

