-- ==== Sys2Proof/Machine/RegRead.lean ====
section
/-! DEFINITION. Reads of the device control space by address (R16, R37, Table 1.6 and the register tables of the chapters),
and debug access to device physical addresses (R618). -/

namespace Sys2Proof.Machine

/-- Words of a 64-bit count. -/
def lo32 (n : Nat) : Word := BitVec.ofNat 32 n
/-- Bits 63:32. -/
def hi32 (n : Nat) : Word := BitVec.ofNat 32 (n / 2 ^ 32)

/-- FM.STAT (Table 12.9). -/
def State.fmStat (s : State) : Word :=
  let m := s.fm
  let cur := m.current.map fun i => i.cls.toNat
  BitVec.ofNat 32 (m.dsafe.toNat * 2 ^ 31 + m.ovf.toNat * 2 ^ 30 + (cur.getD 0) * 2 ^ 24 + cur.isSome.toNat * 2 ^ 23 + m.queue.length)

/-- The fault manager block (Table 12.7). -/
def State.readFm (s : State) (off : Nat) : Option Word :=
  let a := 0x010000 + off
  if off = 0 then some (s.reg a 1)
  else if off = 4 then some s.fmStat
  else if off = 8 then some (s.fm.next.zeroExtend 32)
  else if (0x10 ≤ off ∧ off < 0x30) ∨ (0x40 ≤ off ∧ off < 0x5C) then some (s.reg a 0)
  else if off = 0x30 then some 0
  else if off = 0x34 then some (setBit 0 31 s.fm.nsafe)
  else if 0x404 ≤ off ∧ off < 0x500 then some (s.srccfg (BitVec.ofNat 8 ((off - 0x400) / 4)))
  else if 0x600 ≤ off ∧ off < 0x640 then some (s.reg a 0)
  else none

/-- BUSY of an ownership register (Table 11.4): a memory that is wiping, or a channel that is not at rest. -/
def State.ownBusy (s : State) (off : Nat) : Bool :=
  if off < 0x200 then bit (s.reg (rMemstat (Fin.ofNat 64 ((off - 0x100) / 4))) memstatReset) 30
  else if off < 0x300 then bit (s.reg (rMemstat (Fin.ofNat 64 ((off - 0x200) / 4))) memstatReset) 31
  else (s.dmaCh (Fin.ofNat 64 ((off - 0x300) / 4))).busy

/-- The fold manager block (Tables 11.10 to 11.17). -/
def State.readFm2 (s : State) (off : Nat) : Option Word :=
  let a := 0x020000 + off
  if off = 0 then some s.fmgrCtl
  else if off = 4 then some (setBit (BitVec.ofNat 32 s.runMap) 31 (bit s.fmgrCtl 0 && !bit s.fmgrCtl 1 && bit s.fmgrCtl 31))
  else if 0x040 ≤ off ∧ off < 0x080 then
    let f : FoldId := Fin.ofNat 16 ((off - 0x40) / 4)
    some (BitVec.ofNat 32 ((s.vfOn f).toNat * 8 + (s.fold f).phase.code))
  else if 0x100 ≤ off ∧ off < 0x400 then some (setBit (s.reg a 0) 30 (s.ownBusy off))
  else if off = 8 ∨ (0x080 ≤ off ∧ off < 0x4C0) ∨ (0x500 ≤ off ∧ off < 0x900) ∨ (0xA00 ≤ off ∧ off < 0xE80) then some (s.reg a 0)
  else if 0x4000 ≤ off ∧ off < 0x8000 then some (s.reg a 0)
  else none

/-- SPAN.PWRSTAT (Table 15.11). -/
def SpanPower.code (p : SpanPower) : Nat :=
  match p with
  | .run => 0 | .rest false => 1 | .rest true => 2 | _ => 3

/-- A span control block. -/
def State.readSpan (s : State) (sp : SpanId) (off : Nat) : Option Word :=
  match s.yokeRegRead sp off with
  | some w => some w
  | none =>
    if off = 0x500 then some (s.reg (rPwrctl sp) 0)
    else if off = 0x504 then some (BitVec.ofNat 32 (s.span sp).power.code)
    else (yokeRegSpec off).map fun r => s.reg (rSpan sp off) r.reset

/-- The Bell and AON block: a read of CNTLO latches CNTHI (Table 15.9). -/
def State.readBell (s : State) (off : Nat) : State × Option Word :=
  let a := s.aon
  if off = 0 then (s.setReg 0x080004 (BitVec.ofNat 32 (s.clk.bt / 2 ^ 32 % 65536)), some (lo32 s.clk.bt))
  else if off = 0x10 then (s, some (s.reg rBellCtl bellCtlReset))
  else if off = 4 ∨ off = 8 ∨ off = 0xC ∨ off = 0x18 ∨ off = 0x114 then (s, some (s.reg (0x080000 + off) 0))
  else if off = 0x100 then
    (s, some (BitVec.ofNat 32 (a.lock.toNat * 2 ^ 31 + a.hwstart.toNat * 2 ^ 30 + a.en.toNat * 2 ^ 29 + a.period)))
  else if off = 0x104 ∨ off = 0x108 then (s, some 0)
  else if off = 0x10C then (s, some (BitVec.ofNat 32 (a.en.toNat * 2 ^ 31 + a.exp.toNat * 2 ^ 30 + s.aonRem)))
  else if off = 0x110 then (s, some (a.count.zeroExtend 32))
  else (s, none)

/-- The power and clock block. -/
def State.readPwr (s : State) (off : Nat) : Option Word :=
  let a := 0x090000 + off
  if off = 0 then some (s.reg a pwrCtlReset)
  else if off = 4 then some (s.reg a clkstatReset)
  else if off = 8 then some (BitVec.ofNat 32 s.devstate)
  else if off = 0xC then some 0
  else if off = 0x10 ∨ (0x20 ≤ off ∧ off < 0x60) ∨ (0x100 ≤ off ∧ off < 0x320) then some (s.reg a 0)
  else none

/-- The Tally block: a read of SMIN sets it (R590); a band count is read in the retained area (R577, R364). -/
def State.readTally (s : State) (off : Nat) : State × Option Word :=
  let a := 0x0A0000 + off
  if off < 0x100 ∨ 0x900 ≤ off then (s, none)
  else if off % 0x20 = 4 then (s.setReg a 0xFFFFFFFF, some (s.reg a sminReset))
  else if 0xC ≤ off % 0x20 ∧ off % 0x20 < 0x1C then
    let sp : SpanId := Fin.ofNat 64 ((off - 0x100) / 0x20)
    let i := (off % 0x20 - 0xC) / 4
    (s.vaultDecode [bandWord sp i], some (s.reg a 0 ^^^ BitVec.ofNat 32 (leValue (memRead s.mem (0x0300100400 + 16 * sp.val + 4 * i) 4))))
  else (s, some (s.reg a 0))

/-- The BIST block (Table 15.15). -/
def State.readBist (s : State) (off : Nat) : Option Word :=
  let a := 0x0B0000 + off
  if off = 4 ∨ off = 8 then some 0
  else if off = 0xC then
    let ys := ((List.finRange 1024).filter fun y => match (s.yoke y).bist with
      | .testing _ => true
      | _ => false).length
    some (BitVec.ofNat 32 ((bit (s.reg a 0) 31).toNat * 2 ^ 31 + ys * 2 ^ 16 + (s.bist.mem.filter fun t => t.since.isSome).length))
  else if off = 0x10 then some (s.reg a 0)
  else none

/-- The twin link block (Tables 13.10 to 13.14). Between a write of a mode and the boundary at which it takes effect MODE reads the mode
in effect, where the spec leaves open which of the two it reads (R17, R483; DESIGN CHOICE, log entry 80). -/
def State.readTwin (s : State) (off : Nat) : Option Word :=
  let a := 0x0C0000 + off
  let t := s.twin
  if off = 0 ∨ off = 0x20 then some (s.reg a 0)
  else if off = 4 then
    some (BitVec.ofNat 32 (t.link.toNat * 2 ^ 30 + t.role.toNat * 2 ^ 28 + t.tlock.toNat * 2 ^ 27 + t.sideErr.toNat * 2 ^ 26
      + s.sec.twinOk.toNat * 2 ^ 25 + t.pdsafe.toNat * 2 ^ 24))
  else if off = 8 then some s.hscore
  else if off = 0xC then some t.phealth
  else if off = 0x10 then some (t.tofs.zeroExtend 32)
  else if off = 0x14 then some (lo32 t.puid.toNat)
  else if off = 0x18 then some (hi32 t.puid.toNat)
  else if 0x100 ≤ off ∧ off < 0x140 then
    let f : FoldId := Fin.ofNat 16 ((off - 0x100) / 4)
    let x := s.twinFold f
    some (BitVec.ofNat 32 ((s.transferring f).toNat * 2 ^ 31 + x.mode.toNat * 2 ^ 16 + fieldNat (s.reg a 0) 9 0))
  else if (0x140 ≤ off ∧ off < 0x1C0) ∨ (0x200 ≤ off ∧ off < 0x300) then some (s.reg a 0)
  else none

/-- A port block (Tables 14.11 to 14.13). -/
def State.readPort (s : State) (p off : Nat) : Option Word :=
  let a := rPort p off
  let nq := if p = 4 then 0x200 else 0x100
  if off = 0 ∨ (0x20 ≤ off ∧ off < 0x30) then some (s.reg a 0)
  else if off = 4 then some (BitVec.ofNat 32 ((s.linkUp.contains p).toNat * 2 ^ 31 + fieldNat (s.reg a 0) 2 0))
  else if off = 8 ∨ off = 0xC then some (if p = 4 then 0 else s.reg a 0)
  else if off = 0x10 then some (s.reg a 0x88B5)
  else if 0x100 ≤ off ∧ off < 0x100 + nq then some (s.reg a 0)
  else if 0x300 ≤ off ∧ off < 0x300 + nq then
    let q := s.queue p ((off - 0x300) / 4)
    some (BitVec.ofNat 32 (q.txerr.toNat * 2 ^ 24 + q.txdrop.toNat * 2 ^ 16 + if p = 4 then q.tseq.toNat else 0))
  else if 0x500 ≤ off ∧ off < 0x540 then some (if p = 4 then s.reg a 0 else 0)
  else if off = 0x604 then some (s.reg (rGcl p (fieldNat (s.reg (rPort p 0x600) 0) 7 0)) 0)
  else if (0x600 ≤ off ∧ off < 0x618) ∨ off = 0x800 then some (s.reg a 0)
  else if 0x804 ≤ off ∧ off < 0x814 then
    some (s.reg (rSfWord p (fieldNat (s.reg (rPort p 0x800) 0) 6 0) ((off - 0x804) / 4)) 0)
  else none

/-- The DMA block (Table 10.15). -/
def State.readDmaBlock (s : State) (off : Nat) : Option Word :=
  if off = 0 then some (s.reg rDmaEngstat 0)
  else if off = 8 ∨ off = 0xC then some 0
  else if 0x100 ≤ off ∧ off < 0x200 then some (s.dmaCh (Fin.ofNat 64 ((off - 0x100) / 4))).cstat
  else if 0x200 ≤ off ∧ off < 0x300 then some (s.dmaCh (Fin.ofNat 64 ((off - 0x200) / 4))).cdefer
  else none

/-- The safe I/O block (Tables 14.15, 14.16). CONNW0 to CONNW2 read the committed entry, also between their write and the
commit by CONNW3 (the model's choice, log entry 74). -/
def State.readSio (s : State) (off : Nat) : Option Word :=
  let a := rSio off
  let c := s.conn (fieldNat (s.reg rConnidx 0) 11 0)
  if off = 0 ∨ off = 0x10 then some (s.reg a 0)
  else if off = 4 then some (s.reg a tpcfgReset)
  else if off = 0x14 then some c.w0
  else if off = 0x18 then some c.w1
  else if off = 0x1C then some (if bit c.w0 30 then c.w2 else c.last)
  else if off = 0x20 then some c.w3
  else if 0x100 ≤ off ∧ off < 0x200 then some (s.reg a ipcfgReset)
  else if 0x200 ≤ off ∧ off < 0x300 then
    let i := (off - 0x200) / 4
    let x := s.channels i
    let p := s.inPair i
    some (BitVec.ofNat 32 (p.dfault.toNat * 2 ^ 31 + x.1.toNat * 2 ^ 30 + x.2.toNat * 2 ^ 29 + p.timer))
  else if (0x340 ≤ off ∧ off < 0x500) then some (s.reg a 0)
  else if 0x500 ≤ off ∧ off < 0x520 then some (s.reg a opcfgReset)
  else if 0x520 ≤ off ∧ off < 0x540 then some (s.outPair ((off - 0x520) / 4)).stat
  else none

/-- SEC.LCSTAT (Table 16.18). DBGEN by the state in effect (Table 16.2). -/
def State.lcstat (s : State) : Word :=
  BitVec.ofNat 32 (s.sec.lc.toNat * 2 ^ 29 + s.sec.pend.toNat * 2 ^ 28
    + (s.sec.lc != lcField && s.sec.lc != lcVoid).toNat * 2 ^ 27 + s.sec.openFail.toNat * 2 ^ 16)

/-- The security block (Table 16.17): a read of SEC.RNG takes the next word; where none is ready the value is not stated. -/
def State.readSec (s : State) (off : Nat) : State × Option Word :=
  let c := s.sec
  if off = 0 then (s, some s.lcstat)
  else if off = 8 then (s, some c.bootstat)
  else if off = 0xC then
    (s, some (BitVec.ofNat 32 (c.mok.toNat * 2 ^ 31 + c.mbusy.toNat * 2 ^ 30 + c.merr.toNat * 2 ^ 16 + c.mnsvn)))
  else if off = 0x14 then (s, some (BitVec.ofNat 32 (s.otpCounter 0x18 * 2 ^ 16 + s.otpCounter 0x10)))
  else if off = 0x18 then (s, some c.tstat)
  else if off = 0x1C then (s, some (BitVec.ofNat 32 c.twinOk.toNat))
  else if off = 0x24 then (s, some (s.otpRead.zeroExtend 32))
  else if off = 0x28 then (s, some (setBit 0 31 c.otpFail))
  else if 0x40 ≤ off ∧ off < 0x70 then (s, some (lo32 (leValue ((c.chal.drop (off - 0x40)).take 4))))
  else if off = 0x20 ∨ off = 0x200 ∨ off = 0x204 ∨ off = 0x20C then (s, some (s.reg (0x120000 + off) 0))
  else if off = 0x208 then (s, some (BitVec.ofNat 32 c.cqHead))
  else if off = 0x210 then
    match c.rng with
    | w :: r => ({ s with sec := { c with rng := r } }, some w)
    | [] => ({ s with freeN := s.freeN + 1 }, some (Config.freeWord s.freeN))
  else if off = 0x214 then (s, some (BitVec.ofNat 32 (c.rngFail.toNat * 2 ^ 31 + (!c.rng.isEmpty).toNat)))
  else if off = 4 ∨ off = 0x10 ∨ off = 0x80 ∨ off = 0x84 ∨ (0x100 ≤ off ∧ off < 0x1C8) then (s, some 0)
  else (s, none)

/-- FR.STAT.STATE. -/
def RecState.code (r : RecState) : Nat :=
  match r with
  | .arming => 0 | .armed => 1 | .capturing => 2 | .captured => 3

/-- The fault recorder block (Tables 12.23 to 12.25). -/
def State.readFr (s : State) (off : Nat) : State × Option Word :=
  let r := s.fr
  if 0x40 ≤ off ∧ off < 0x60 then ((s.readRecord ((off - 0x40) / 4)).1, some (s.readRecord ((off - 0x40) / 4)).2)
  else (s, if off = 0 then some (s.reg rFrCtl frCtlReset)
  else if off = 4 then some (BitVec.ofNat 32 (r.state.code * 2 ^ 30 + r.rue.toNat * 2 ^ 29 + r.wptr))
  else if off = 8 then some (BitVec.ofNat 32 (r.precnt * 2 ^ 16 + r.trigIdx))
  else if off = 0xC then some (BitVec.ofNat 32 r.postcnt)
  else if off = 0x10 then some (lo32 r.ttime)
  else if off = 0x14 then some (hi32 r.ttime)
  else if off = 0x18 then some (BitVec.ofNat 32 (r.missedValid.toNat * 2 ^ 31 + r.missed.toNat))
  else if off = 0x1C then some (lo32 r.mtime)
  else if off = 0x20 then some (hi32 r.mtime)
  else if off = 0x24 then some r.drop
  else if off = 0x28 then some 0
  else if off = 0x30 then some (s.reg rFrRidx 0)
  else none)

/-- The epoch controller block (Tables 3.6 to 3.11): a read of TIMELO latches TIMEHI; occupancies in whole KiB. -/
def State.readEpoch (s : State) (off : Nat) : State × Option Word :=
  let a := 0x140000 + off
  if off = 4 then (s, some (setBit (s.reg a 0) 29 s.follows))
  else if off = 8 then (s.setReg rEpTimehi (hi32 s.now), some (lo32 s.now))
  else if off = 0 ∨ off = 0xC ∨ off = 0x10 ∨ off = 0x18 ∨ off = 0x1C then (s, some (s.reg a 0))
  else if 0x100 ≤ off ∧ off < 0x500 then
    let f : FoldId := Fin.ofNat 16 ((off - 0x100) / 0x40)
    let fo := s.fold f
    let r := off % 0x40
    if r = 0 then (s, some (setBit (s.reg a 0x00030000) 31 (s.running f)))
    else if r = 4 then (s, some (lo32 fo.fstart.toNat))
    else if r = 0x14 then (s, some (BitVec.ofNat 32 (fo.heldPeak / 1024 * 65536 + fo.heldBytes / 1024)))
    else if r < 0x24 then (s, some (s.reg a 0))
    else (s, none)
  else (s, none)

/-- A 32-bit read of the device control space: the state with what the read changes, and the value; none in a reserved range (R37). -/
def State.readControl (s : State) (a : Nat) : State × Option Word :=
  let pure (o : Option Word) : State × Option Word := (s, o)
  if a % 4 ≠ 0 then (s, none)
  else if a = 0 then pure (some identPart)
  else if a = 4 then pure (some 0x001040F6)
  else if a = 8 then pure (some 0x00000100)
  else if a = 0xC then pure (some (lo32 s.uid.toNat))
  else if a = 0x10 then pure (some (hi32 s.uid.toNat))
  else if a = 0x14 then pure (some s.straps)
  else if 0x010000 ≤ a ∧ a < 0x020000 then pure (s.readFm (a - 0x010000))
  else if 0x020000 ≤ a ∧ a < 0x030000 then pure (s.readFm2 (a - 0x020000))
  else if 0x030000 ≤ a ∧ a < 0x070000 then pure (s.readSpan (Fin.ofNat 64 ((a - 0x030000) / 0x1000)) (a % 0x1000))
  else if 0x080000 ≤ a ∧ a < 0x090000 then s.readBell (a - 0x080000)
  else if 0x090000 ≤ a ∧ a < 0x0A0000 then pure (s.readPwr (a - 0x090000))
  else if 0x0A0000 ≤ a ∧ a < 0x0B0000 then s.readTally (a - 0x0A0000)
  else if 0x0B0000 ≤ a ∧ a < 0x0C0000 then pure (s.readBist (a - 0x0B0000))
  else if 0x0C0000 ≤ a ∧ a < 0x0D0000 then pure (s.readTwin (a - 0x0C0000))
  else if 0x0D0000 ≤ a ∧ a < 0x0DA000 then pure (s.readPort ((a - 0x0D0000) / 0x2000) ((a - 0x0D0000) % 0x2000))
  else if 0x100000 ≤ a ∧ a < 0x110000 then pure (s.readDmaBlock (a - 0x100000))
  else if 0x110000 ≤ a ∧ a < 0x120000 then pure (s.readSio (a - 0x110000))
  else if 0x120000 ≤ a ∧ a < 0x130000 then s.readSec (a - 0x120000)
  else if 0x130000 ≤ a ∧ a < 0x140000 then s.readFr (a - 0x130000)
  else if 0x140000 ≤ a ∧ a < 0x150000 then s.readEpoch (a - 0x140000)
  else (s, none)

/-- A debug read in a fold's I/O region: the bank of Table 1.5 at offset `o` of the region. -/
def State.debugIo (s : State) (f : FoldId) (o n : Nat) : State × Option QWord :=
  let r := s.ioLoad f (0xF0 + o / 0x10000) (o % 0x10000) n
  (r.1, match r.2.2 with
    | .completed => some r.2.1
    | _ => none)

/-- The bank of a memory address is offline for a memory test (R362). -/
def State.bankOffline (s : State) (a : Nat) : Bool :=
  s.bist.mem.any fun t => t.since.isSome && (match physRegion a with
    | .scratch sp off => !bit t.unit 31 && decide ((testNode t.unit).2 = sp) && decide (fieldNat t.unit 4 0 = off / 16 % 32)
    | .group g off => bit t.unit 31 && decide ((testNode t.unit).2 = g) && decide (fieldNat t.unit 3 2 = off / 16 % 4)
    | _ => false)

/-- A debug read of up to 16 bytes of a device physical address: the value, or none for a bus error (R35, R344, R349); 0 in a reserved
range of the control space (R37), and so for an access of another size than 4 to a register, of which the spec states no answer (DESIGN
CHOICE, log entry 67). The vault and the retained area answer Drover alone (R364; log entry 67). `e` is a disturbance of the first
codeword. -/
def State.debugRead (s : State) (a n : Nat) (e : CwFlip) : State × Option QWord :=
  if a < 0x01000000 then
    let s := if 0x130040 ≤ a ∧ a < 0x130060 then s.flipRecord (s.recordWord ((a - 0x130040) / 4)) e else s
    let r := if n = 4 then s.readControl a else (s, none)
    match r.2 with
    | some w => (r.1, some (w.zeroExtend 128))
    | none => (s.reservedAccess, some 0)
  else if 0x0400000000 ≤ a ∧ a < 0x0401000000 then
    s.debugIo (Fin.ofNat 16 ((a - 0x0400000000) / 0x100000)) ((a - 0x0400000000) % 0x100000) n
  else match physRegion a with
  | .other => (s.reservedAccess, none)
  | .vault _ => (s.reservedAccess, none)
  | .retained _ => (s, none)
  | _ =>
    let s0 := s.flip (a / 8) e
    let r := (s0.misread (a / 8) e.other).decodeAccess a n
    (r.1.asStored s0, match r.2 with
      | .busError _ => none
      | _ => some (BitVec.ofNat 128 (leValue (r.1.viewRead a n))))

/-- A debug write of up to 16 bytes to a device physical address; false for a bus error. It is ignored in a reserved range of the
control space (R37). -/
def State.debugWrite (s : State) (a n : Nat) (v : QWord) : State × Bool :=
  let bs := (List.range n).map fun i => (i, byteOf v i)
  if a < 0x01000000 then
    if n = 4 ∧ (s.readControl a).2.isSome = true then (s.writeReg a (v.setWidth 32), true) else (s.reservedAccess, true)
  else if 0x0400000000 ≤ a ∧ a < 0x0401000000 then
    let f : FoldId := Fin.ofNat 16 ((a - 0x0400000000) / 0x100000)
    let o := (a - 0x0400000000) % 0x100000
    (s.ioStore ⟨f, 0xF0 + o / 0x10000, o % 0x10000, n, v, false, BitVec.ofNat 32 (s.curEpoch f), 0, 0⟩, true)
  else match physRegion a with
  | .other => (s.reservedAccess, false)
  | .vault _ => (s.reservedAccess, false)
  | .retained _ => (s, false)
  | _ =>
    let r := s.bankWrite a bs
    (if r.2 then r.1.viewWrite a (bs.map (·.2)) else r.1, r.2)

/-- DEBUG_MEMORY_ACCESS (R618, R412): 1, 2, 4, 8 or 16 bytes, aligned. An access to an offline bank waits (R362), and so does one to a
memory in retention, which serves none (R560; DESIGN CHOICE, log entry 85). -/
def State.debugMemory (s : State) (a : PhysAddr) (size : Fin 5) (w : Option QWord) (e : CwFlip) : State :=
  let n := 2 ^ size.val
  let at_ := a.toNat / n * n
  if !s.debugger || s.bankOffline at_ || s.retained at_ then s
  else match w with
  | some v => let r := s.debugWrite at_ n v; { r.1 with debugFailed := !r.2 }
  | none => let r := s.debugRead at_ n e; { r.1 with debugData := r.2.getD 0, debugFailed := r.2.isNone }

/-- DEBUG_REGISTER_ACCESS (R618): a read's value stands in `debugData`. -/
def State.debugRegister (s : State) (y : YokeId) (n : Nat) (w : Option DWord) : State :=
  match w with
  | some v => s.debugRegWrite y n v
  | none =>
    if s.debugger && (s.yoke y).debug == .halted then { s with debugData := (s.debugRegRead y n).zeroExtend 128 } else s

/-- TWIN_STATE_RECEIVE (R494, R495). -/
def State.stateReceive (s : State) (f : FoldId) (p : StatePart) : State :=
  match p with
  | .page kind ix page data => s.pageReceive f kind ix page data
  | .image m => s.imageReceive f m

end Sys2Proof.Machine
end

