-- ==== Sys2Proof/Machine/FaultCmds.lean ====
section
/-! DEFINITION. Meanings of the fault manager's, the watchdogs' and the fault recorder's commands and events (chapter 12). -/

namespace Sys2Proof.Machine

/-- FAULT_REPORT (R429): A detector's report reaches the fault manager. -/
def execFaultReport (n : Nat) (ext : List Report) (s : State) : Host.Outcome State Fault Refusal :=
  .next (s.whenMain fun s => s.faultReport n ext)

/-- INCIDENT_WINDOW_CLOSE (R431): an incident's 4,096 fc coalescing window closes. -/
def execIncidentWindowClose (num : Half) (s : State) : Host.Outcome State Fault Refusal :=
  .next (s.whenMain fun s => s.windowClose num)

/-- REACTION_BEGIN (R436): A waiting reaction begins or resumes when no higher reaction runs. -/
def execReactionBegin (s : State) : Host.Outcome State Fault Refusal :=
  .next (s.whenMain fun s => s.reactionBegin)

/-- REACTION_COMPLETE (R441): A reaction finishes its last step. -/
def execReactionComplete (s : State) : Host.Outcome State Fault Refusal :=
  .next (s.whenMain fun s => s.reactionComplete)

/-- FM_REQUEST (R468): A write of FM.REQ opens an incident of source 0x2C with the named class. -/
def execFmRequest (v : Word) (s : State) : Host.Outcome State Fault Refusal :=
  .next (s.whenFirmware fun s => s.fmRequest v)

/-- NSAFE_RELEASE (R448): A write of FM.SAFECTL.RELEASE deasserts nSAFE unless DSAFE is set. -/
def execNsafeRelease (s : State) : Host.Outcome State Fault Refusal :=
  .next (s.whenFirmware fun s => s.nsafeRelease)

/-- SOURCE_CLASS_WRITE (R433): A write of FM.SRCCFG sets a source's class, refused below MIN. -/
def execSourceClassWrite (c : BitVec 6) (v : Word) (s : State) : Host.Outcome State Fault Refusal :=
  .next (s.whenFirmware fun s => s.writeSrccfg (c.zeroExtend 8) v)

/-- FWDCFG_WRITE (R468): A write of FM.FWDCFG configures a fold watchdog, refused for bad values. -/
def execFwdcfgWrite (f : FoldId) (v : Word) (s : State) : Host.Outcome State Fault Refusal :=
  .next (s.whenFirmware fun s => s.writeFwdcfg f v)

/-- FOLD_WATCHDOG_WARN (R451): the fold watchdog count reaches WARN and vector 0x0B becomes pending. -/
def execFoldWatchdogWarn (f : FoldId) (s : State) : Host.Outcome State Fault Refusal :=
  .next (s.whenMain fun s => s.wdWarn f)

/-- FOLD_WATCHDOG_EXPIRY (R451): the fold watchdog reaches 0 and reports source 0x14. -/
def execFoldWatchdogExpiry (f : FoldId) (s : State) : Host.Outcome State Fault Refusal :=
  .next (s.whenMain fun s => s.wdExpiry f)

/-- FOLD_WATCHDOG_SERVICE (R452): A SYSWR to FWDSVC reloads the watchdog, or counts as expiry with a wrong value. -/
def execFoldWatchdogService (y : YokeId) (src : Gpr) (s : State) : Host.Outcome State Fault Refusal :=
  .next (s.issueSyswr y 0x090 src)

/-- FOLD_WATCHDOG_KEY (R453): A SYSWR to FWDKEY advances the disable sequence. -/
def execFoldWatchdogKey (y : YokeId) (src : Gpr) (s : State) : Host.Outcome State Fault Refusal :=
  .next (s.issueSyswr y 0x092 src)

/-- FOLD_WATCHDOG_LOCK (R453): A write of FWDCTL.LOCK locks the disable sequence. -/
def execFoldWatchdogLock (y : YokeId) (src : Gpr) (s : State) : Host.Outcome State Fault Refusal :=
  .next (s.issueSyswr y 0x091 src)

/-- AON_WATCHDOG_START (R455): A write of AON.WDCTL.EN starts the software-start watchdog. -/
def execAonWatchdogStart (v : Word) (s : State) : Host.Outcome State Fault Refusal :=
  .next (s.whenFirmware fun s => s.writeWdctl (v ||| 0x20000000))

/-- AON_WATCHDOG_EXPIRY (R457): the AON watchdog reaches 0, setting EXP or forcing C6. -/
def execAonWatchdogExpiry (s : State) : Host.Outcome State Fault Refusal :=
  .next s.aonExpiry

/-- AON_WATCHDOG_SERVICE (R456): A write of AON.WDSVC reloads the watchdog, or counts as expiry. -/
def execAonWatchdogService (v : Word) (s : State) : Host.Outcome State Fault Refusal :=
  .next (s.whenFirmware fun s => s.aonService v)

/-- AON_WATCHDOG_KEY (R459): A write of AON.WDKEY advances the stop sequence. -/
def execAonWatchdogKey (v : Word) (s : State) : Host.Outcome State Fault Refusal :=
  .next (s.whenFirmware fun s => s.aonKey v)

/-- AON_WDCOUNT_CLEAR (R460): A write of AON.WDCOUNT.CLR clears the reset count. -/
def execAonWdcountClear (v : Word) (s : State) : Host.Outcome State Fault Refusal :=
  .next (s.whenFirmware fun s => s.aonCountClear (v ||| 0x80000000))

/-- RECORDER_ARM (R462): A write of FR.CTL.ARM puts the recorder in ARMING. -/
def execRecorderArm (v : Word) (s : State) : Host.Outcome State Fault Refusal :=
  .next (s.whenFirmware fun s => s.writeFrCtl ((v ||| 0x80000000) &&& 0xBFFFFFFF))

/-- RECORDER_ARMED (R462): after 1,024 fc of ARMING the recorder becomes ARMED. -/
def execRecorderArmed (s : State) : Host.Outcome State Fault Refusal :=
  .next (s.whenMain fun s => s.recorderArmed)

/-- RECORDER_TRIGGER (R463): A write of FR.CTL.TRIG triggers capture, or counts a missed trigger. -/
def execRecorderTrigger (v : Word) (s : State) : Host.Outcome State Fault Refusal :=
  .next (s.whenFirmware fun s => s.writeFrCtl ((v ||| 0x40000000) &&& 0x7FFFFFFF))

/-- RECORDER_MARK (R461): A write of FR.MARK writes a record of kind 0x08. -/
def execRecorderMark (v : Word) (s : State) : Host.Outcome State Fault Refusal :=
  .next (s.whenFirmware fun s => s.recorderMark v)

end Sys2Proof.Machine
end

