-- ==== Sys2Proof/Machine/FloatIns.lean ====
section
/-! DEFINITION. Meanings of the float instructions (chapter 6). -/

namespace Sys2Proof.Machine

/-- ADD_D (R229): binary64 addition, correctly rounded. -/
def execAddD (y : YokeId) (rnd : Rnd) (d : Freg) (src : Freg) (b : Freg)
    (s : State) : Host.Outcome State Fault Refusal :=
  .next (s.issueFloat y (.bin .add false rnd d src b))

/-- ADD_S (R230): binary32 addition on both lanes. -/
def execAddS (y : YokeId) (rnd : Rnd) (d : Freg) (src : Freg) (b : Freg)
    (s : State) : Host.Outcome State Fault Refusal :=
  .next (s.issueFloat y (.bin .add true rnd d src b))

/-- SUB_D (R229): binary64 subtraction. -/
def execSubD (y : YokeId) (rnd : Rnd) (d : Freg) (src : Freg) (b : Freg)
    (s : State) : Host.Outcome State Fault Refusal :=
  .next (s.issueFloat y (.bin .sub false rnd d src b))

/-- SUB_S (R230): binary32 subtraction on both lanes. -/
def execSubS (y : YokeId) (rnd : Rnd) (d : Freg) (src : Freg) (b : Freg)
    (s : State) : Host.Outcome State Fault Refusal :=
  .next (s.issueFloat y (.bin .sub true rnd d src b))

/-- MUL_D (R229): binary64 multiplication. -/
def execMulD (y : YokeId) (rnd : Rnd) (d : Freg) (src : Freg) (b : Freg)
    (s : State) : Host.Outcome State Fault Refusal :=
  .next (s.issueFloat y (.bin .mul false rnd d src b))

/-- MUL_S (R230): binary32 multiplication on both lanes. -/
def execMulS (y : YokeId) (rnd : Rnd) (d : Freg) (src : Freg) (b : Freg)
    (s : State) : Host.Outcome State Fault Refusal :=
  .next (s.issueFloat y (.bin .mul true rnd d src b))

/-- DIV_D (R225): binary64 division in the iterative divider. -/
def execDivD (y : YokeId) (rnd : Rnd) (d : Freg) (src : Freg) (b : Freg)
    (s : State) : Host.Outcome State Fault Refusal :=
  .next (s.issueFloat y (.bin .div false rnd d src b))

/-- DIV_S (R225): binary32 division on both lanes. -/
def execDivS (y : YokeId) (rnd : Rnd) (d : Freg) (src : Freg) (b : Freg)
    (s : State) : Host.Outcome State Fault Refusal :=
  .next (s.issueFloat y (.bin .div true rnd d src b))

/-- SQRT_D (R225): binary64 square root in the divider. -/
def execSqrtD (y : YokeId) (rnd : Rnd) (d : Freg) (src : Freg) (s : State) : Host.Outcome State Fault Refusal :=
  .next (s.issueFloat y (.sqrt false rnd d src))

/-- SQRT_S (R225): binary32 square root on both lanes. -/
def execSqrtS (y : YokeId) (rnd : Rnd) (d : Freg) (src : Freg) (s : State) : Host.Outcome State Fault Refusal :=
  .next (s.issueFloat y (.sqrt true rnd d src))

/-- FMA_D (R229): binary64 fused multiply-add, one rounding. -/
def execFmaD (y : YokeId) (rnd : Rnd) (d : Freg) (src : Freg) (b : Freg)
    (s : State) : Host.Outcome State Fault Refusal :=
  .next (s.issueFloat y (.fused .fma false rnd d src b))

/-- FMA_S (R229): binary32 fused multiply-add. -/
def execFmaS (y : YokeId) (rnd : Rnd) (d : Freg) (src : Freg) (b : Freg)
    (s : State) : Host.Outcome State Fault Refusal :=
  .next (s.issueFloat y (.fused .fma true rnd d src b))

/-- FMS_D (R229): binary64 fused multiply-subtract. -/
def execFmsD (y : YokeId) (rnd : Rnd) (d : Freg) (src : Freg) (b : Freg)
    (s : State) : Host.Outcome State Fault Refusal :=
  .next (s.issueFloat y (.fused .fms false rnd d src b))

/-- FMS_S (R229): binary32 fused multiply-subtract. -/
def execFmsS (y : YokeId) (rnd : Rnd) (d : Freg) (src : Freg) (b : Freg)
    (s : State) : Host.Outcome State Fault Refusal :=
  .next (s.issueFloat y (.fused .fms true rnd d src b))

/-- FNMA_D (R229): binary64 negated fused multiply-add. -/
def execFnmaD (y : YokeId) (rnd : Rnd) (d : Freg) (src : Freg) (b : Freg)
    (s : State) : Host.Outcome State Fault Refusal :=
  .next (s.issueFloat y (.fused .fnma false rnd d src b))

/-- FNMA_S (R229): binary32 negated fused multiply-add. -/
def execFnmaS (y : YokeId) (rnd : Rnd) (d : Freg) (src : Freg) (b : Freg)
    (s : State) : Host.Outcome State Fault Refusal :=
  .next (s.issueFloat y (.fused .fnma true rnd d src b))

/-- FNMS_D (R229): binary64 negated fused multiply-subtract. -/
def execFnmsD (y : YokeId) (rnd : Rnd) (d : Freg) (src : Freg) (b : Freg)
    (s : State) : Host.Outcome State Fault Refusal :=
  .next (s.issueFloat y (.fused .fnms false rnd d src b))

/-- FNMS_S (R229): binary32 negated fused multiply-subtract. -/
def execFnmsS (y : YokeId) (rnd : Rnd) (d : Freg) (src : Freg) (b : Freg)
    (s : State) : Host.Outcome State Fault Refusal :=
  .next (s.issueFloat y (.fused .fnms true rnd d src b))

/-- MIN_D (R235): binary64 minimum or minimumNumber by X. -/
def execMinD (y : YokeId) (x : Bool) (d : Freg) (src : Freg) (b : Freg)
    (s : State) : Host.Outcome State Fault Refusal :=
  .next (s.issueFloat y (.minmax false false x d src b))

/-- MIN_S (R235): binary32 minimum on both lanes. -/
def execMinS (y : YokeId) (x : Bool) (d : Freg) (src : Freg) (b : Freg)
    (s : State) : Host.Outcome State Fault Refusal :=
  .next (s.issueFloat y (.minmax false true x d src b))

/-- MAX_D (R235): binary64 maximum or maximumNumber by X. -/
def execMaxD (y : YokeId) (x : Bool) (d : Freg) (src : Freg) (b : Freg)
    (s : State) : Host.Outcome State Fault Refusal :=
  .next (s.issueFloat y (.minmax true false x d src b))

/-- MAX_S (R235): binary32 maximum on both lanes. -/
def execMaxS (y : YokeId) (x : Bool) (d : Freg) (src : Freg) (b : Freg)
    (s : State) : Host.Outcome State Fault Refusal :=
  .next (s.issueFloat y (.minmax true true x d src b))

/-- CMP_D (R236): binary64 compare setting the ST flags. -/
def execCmpD (y : YokeId) (x : Bool) (src : Freg) (b : Freg) (s : State) : Host.Outcome State Fault Refusal :=
  .next (s.issueFloat y (.cmp false x src b))

/-- CMP_S (R236): binary32 compare of lane 0. -/
def execCmpS (y : YokeId) (x : Bool) (src : Freg) (b : Freg) (s : State) : Host.Outcome State Fault Refusal :=
  .next (s.issueFloat y (.cmp true x src b))

/-- CLASS_D (R237): one-hot class of a binary64 value into a general register. -/
def execClassD (y : YokeId) (d : Gpr) (src : Freg) (s : State) : Host.Outcome State Fault Refusal :=
  .next (s.issueFloat y (.cls false d src))

/-- CLASS_S (R237): one-hot classes of both binary32 lanes. -/
def execClassS (y : YokeId) (d : Gpr) (src : Freg) (s : State) : Host.Outcome State Fault Refusal :=
  .next (s.issueFloat y (.cls true d src))

/-- NEG_D (R228): inverts the binary64 sign bit. -/
def execNegD (y : YokeId) (d : Freg) (src : Freg) (s : State) : Host.Outcome State Fault Refusal :=
  .next (s.issueFloat y (.neg false d src))

/-- NEG_S (R228): inverts both binary32 sign bits. -/
def execNegS (y : YokeId) (d : Freg) (src : Freg) (s : State) : Host.Outcome State Fault Refusal :=
  .next (s.issueFloat y (.neg true d src))

/-- ABS_D (R228): clears the binary64 sign bit. -/
def execAbsD (y : YokeId) (d : Freg) (src : Freg) (s : State) : Host.Outcome State Fault Refusal :=
  .next (s.issueFloat y (.abs false d src))

/-- ABS_S (R228): clears both binary32 sign bits. -/
def execAbsS (y : YokeId) (d : Freg) (src : Freg) (s : State) : Host.Outcome State Fault Refusal :=
  .next (s.issueFloat y (.abs true d src))

/-- RINT_D (R238): rounds binary64 to an integral value. -/
def execRintD (y : YokeId) (rnd : Rnd) (x : Bool) (d : Freg) (src : Freg)
    (s : State) : Host.Outcome State Fault Refusal :=
  .next (s.issueFloat y (.rint false rnd x d src))

/-- RINT_S (R238): rounds both binary32 lanes to integral values. -/
def execRintS (y : YokeId) (rnd : Rnd) (x : Bool) (d : Freg) (src : Freg)
    (s : State) : Host.Outcome State Fault Refusal :=
  .next (s.issueFloat y (.rint true rnd x d src))

/-- FLD (R227): loads 8 or 4 bytes into a float register. -/
def execFld (y : YokeId) (x : Bool) (d : Freg) (m : MemAddr) (s : State) : Host.Outcome State Fault Refusal :=
  .next (s.issueFld y x d m)

/-- FST (R227): stores a float register after its producers complete. -/
def execFst (y : YokeId) (x : Bool) (d : Freg) (m : MemAddr) (s : State) : Host.Outcome State Fault Refusal :=
  .next (s.issueFst y x d m)

/-- FMOV (R228): copies one float register to another. -/
def execFmov (y : YokeId) (d : Freg) (src : Freg) (s : State) : Host.Outcome State Fault Refusal :=
  .next (s.issueFloat y (.fmov d src))

/-- FMVG (R228): moves half a float register to a general register. -/
def execFmvg (y : YokeId) (x : Bool) (d : Gpr) (src : Freg) (s : State) : Host.Outcome State Fault Refusal :=
  .next (s.issueFloat y (.fmvg x d src))

/-- FMVF (R228): moves a general register into half a float register. -/
def execFmvf (y : YokeId) (x : Bool) (d : Freg) (src : Gpr) (s : State) : Host.Outcome State Fault Refusal :=
  .next (s.issueFloat y (.fmvf x d src))

/-- CVTIF (R239): converts an integer to binary64 or binary32. -/
def execCvtif (y : YokeId) (rnd : Rnd) (u : Bool) (x : Bool) (d : Freg) (src : Gpr)
    (s : State) : Host.Outcome State Fault Refusal :=
  .next (s.issueFloat y (.cvtif rnd u x d src))

/-- CVTFI (R239): converts a float to a 32-bit integer, saturating on invalid. -/
def execCvtfi (y : YokeId) (rnd : Rnd) (u : Bool) (x : Bool) (d : Gpr) (src : Freg)
    (s : State) : Host.Outcome State Fault Refusal :=
  .next (s.issueFloat y (.cvtfi rnd u x d src))

/-- CVTFF (R239): narrows or widens between binary64 and binary32. -/
def execCvtff (y : YokeId) (rnd : Rnd) (x : Bool) (d : Freg) (src : Freg)
    (s : State) : Host.Outcome State Fault Refusal :=
  .next (s.issueFloat y (.cvtff rnd x d src))

/-- FLOAT_BEGIN (R225): A queued float instruction begins once its sources hold their values. -/
def execFloatBegin (y : YokeId) (s : State) : Host.Outcome State Fault Refusal :=
  .next (s.floatBegin y)

/-- FLOAT_RETIRE (R240): A float instruction retires in order, writes its register and accrues its flags. -/
def execFloatRetire (y : YokeId) (s : State) : Host.Outcome State Fault Refusal :=
  .next (s.floatRetire y)

end Sys2Proof.Machine
end

