-- ==== Sys2Proof/Machine/FoldCmds.lean ====
section
/-! DEFINITION. Meanings of the fold manager's and epoch controller's commands and events (chapters 3 and 11). -/

namespace Sys2Proof.Machine

/-- EPOCH_BOUNDARY (R114): device time reaches a boundary of a fold's epoch grid; outputs tagged two epochs back are
released and the inputs of the epoch just ended become visible. -/
def execEpochBoundary (f : FoldId) (s : State) : Host.Outcome State Fault Refusal :=
  .next (s.whenMain fun s => s.epochBoundary f)

/-- TIME_SET (R98): EPOCH.CTL.SET loads device time while no fold is admitted. -/
def execTimeSet (v : Word) (s : State) : Host.Outcome State Fault Refusal :=
  .next (s.whenFirmware fun s => s.writeEpCtl (v ||| 1))

/-- TIME_SOURCE_WRITE (R99): A write of EPOCH.CTL.TSRC selects the time source; free-running clears HOLD. -/
def execTimeSourceWrite (v : Word) (s : State) : Host.Outcome State Fault Refusal :=
  .next (s.whenFirmware fun s => s.writeEpCtl (v &&& 0xFFFFFFFE))

/-- PTP_MESSAGE_RECEIVE (R97): an IEEE 802.1AS message on TPORT yields a correction of the increment. -/
def execPtpMessageReceive (offset : Int) (s : State) : Host.Outcome State Fault Refusal :=
  .next (s.whenMain fun s => s.ptpMessage offset)

/-- HOLDOVER_ENTER (R99): after 1 s without a valid correction the controller enters holdover. -/
def execHoldoverEnter (s : State) : Host.Outcome State Fault Refusal :=
  .next (s.whenMain fun s => s.holdover)

/-- HOLDING_AREA_WRITE (R112): A write of EPOCH.FHBASE or FHSIZE is checked against the other and ownership, or
refused. -/
def execHoldingAreaWrite (f : FoldId) (isSize : Bool) (v : Word) (s : State) : Host.Outcome State Fault Refusal :=
  .next (s.whenFirmware fun s => s.writeHolding f isSize v)

/-- EPOCH_CONFIG_WRITE (R129): A write of EPOCH.FCFG sets EPOW and KM1, refused out of range or while active. -/
def execEpochConfigWrite (f : FoldId) (v : Word) (s : State) : Host.Outcome State Fault Refusal :=
  .next (s.whenFirmware fun s => s.writeFcfg f v)

/-- WINDOW_COMMIT (R332): A write to WINC commits a fold window after the refusal checks. -/
def execWindowCommit (f : FoldId) (w : Fin 64) (v : Word) (s : State) : Host.Outcome State Fault Refusal :=
  .next (s.whenFirmware fun s => s.windowCommit f w v)

/-- FOLD_BUILD (R405): A write of BUILD to FSTATE takes a fold number from EMPTY. -/
def execFoldBuild (f : FoldId) (s : State) : Host.Outcome State Fault Refusal :=
  .next (s.whenFirmware fun s => s.writeFstate f 1)

/-- FOLD_ADMIT (R406): A write of RUN to FSTATE admits the fold after the hardware checks. -/
def execFoldAdmit (f : FoldId) (s : State) : Host.Outcome State Fault Refusal :=
  .next (s.whenFirmware fun s => s.writeFstate f 2)

/-- FOLD_SAFE_WRITE (R405): A Drover write of SAFE to FSTATE takes a running fold to SAFE. -/
def execFoldSafeWrite (f : FoldId) (s : State) : Host.Outcome State Fault Refusal :=
  .next (s.whenFirmware fun s => s.writeFstate f 3)

/-- FOLD_EMPTY (R408): A write of EMPTY frees a fold number that owns nothing. -/
def execFoldEmpty (f : FoldId) (s : State) : Host.Outcome State Fault Refusal :=
  .next (s.whenFirmware fun s => s.writeFstate f 0)

/-- RESOURCE_ASSIGN (R409): an ownership write with VALID = 1 assigns a span, group, channel or queue pair. -/
def execResourceAssign (r : Resource) (f : FoldId) (s : State) : Host.Outcome State Fault Refusal :=
  .next (s.whenFirmware fun s => s.ownWritten r (BitVec.ofNat 32 (0x80000000 + f.val)))

/-- RESOURCE_RELEASE (R409): an ownership write with VALID = 0 releases a resource. -/
def execResourceRelease (r : Resource) (f : FoldId) (s : State) : Host.Outcome State Fault Refusal :=
  .next (s.whenFirmware fun s => s.ownWritten r (BitVec.ofNat 32 f.val))

/-- SLOT_WRITE (R414): A write of FOLDMGR.SLOT assigns a fabric slot from the next frame. -/
def execSlotWrite (n : Fin 48) (v : Word) (s : State) : Host.Outcome State Fault Refusal :=
  .next (s.whenFirmware fun s => s.writeSlot n v)

/-- FABRIC_FRAME_START (R414): A new 48-slot fabric frame begins and pending slot changes take effect. -/
def execFabricFrameStart (s : State) : Host.Outcome State Fault Refusal :=
  .next (s.whenMain fun s => s.frameStart)

/-- XCH_DECLARE (R419): an XCHOWN write declares a cross-fold channel, subject to refusals. -/
def execXchDeclare (x : Fin 256) (v : Word) (s : State) : Host.Outcome State Fault Refusal :=
  .next (s.whenFirmware fun s => s.writeXch x (v ||| 0x80000000))

/-- XCH_RELEASE (R419): an XCHOWN write releases a channel and empties its receive queue. -/
def execXchRelease (x : Fin 256) (v : Word) (s : State) : Host.Outcome State Fault Refusal :=
  .next (s.whenFirmware fun s => s.writeXch x (v &&& 0x7FFFFFFF))

/-- XCH_RECV (R421): an LDQ of RECV pops the oldest visible cross-fold entry or sets UNDER. -/
def execXchRecv (y : YokeId) (d : Gpr) (x : Fin 256) (s : State) : Host.Outcome State Fault Refusal :=
  .next (s.issueLoad y .q d (.long (BitVec.ofNat 32 (0xF8000080 + 0x100 * x.val))))

/-- XCH_RXSTAT_READ (R421): an LDW of RXSTAT returns the status and clears UNDER and LOST. -/
def execXchRxstatRead (y : YokeId) (d : Gpr) (x : Fin 256) (s : State) : Host.Outcome State Fault Refusal :=
  .next (s.issueLoad y .w d (.long (BitVec.ofNat 32 (0xF8000090 + 0x100 * x.val))))

/-- POWER_BUDGET_WRITE (R423): A write of FPWR.BUDGET, refused above 165 W or at 0 for a running fold. -/
def execPowerBudgetWrite (f : FoldId) (v : Word) (s : State) : Host.Outcome State Fault Refusal :=
  .next (s.whenFirmware fun s => s.writeFpwr f v)

/-- SERVICE_TURN (R426): A 4 µs turn of the Drover service round begins for the next fold number. -/
def execServiceTurn (f : FoldId) (answer : Option (Word × List Byte × List Byte)) (mailbox : Option (List Byte))
    (s : State) : Host.Outcome State Fault Refusal :=
  .next (s.serviceTurn f answer mailbox)

/-- MAILBOX_ACK (R608): A ring 0 write to ACK clears RDY. -/
def execMailboxAck (f : FoldId) (s : State) : Host.Outcome State Fault Refusal :=
  .next (s.whenMain fun s => s.mailboxAck f)

end Sys2Proof.Machine
end

