-- ==== Sys2Proof/Machine/LoadStore.lean ====
section
/-! DEFINITION. Meanings of loads, stores, EMIT, block operations and atomics (chapters 4, 5 and 9). -/

namespace Sys2Proof.Machine

/-- LDB (R156): loads a sign-extended byte with a one-instruction load delay. -/
def execLdb (y : YokeId) (d : Gpr) (m : MemAddr) (s : State) : Host.Outcome State Fault Refusal :=
  .next (s.issueLoad y .b d m)

/-- LDBU (R156): loads a zero-extended byte. -/
def execLdbu (y : YokeId) (d : Gpr) (m : MemAddr) (s : State) : Host.Outcome State Fault Refusal :=
  .next (s.issueLoad y .bu d m)

/-- LDH (R156): loads a sign-extended halfword. -/
def execLdh (y : YokeId) (d : Gpr) (m : MemAddr) (s : State) : Host.Outcome State Fault Refusal :=
  .next (s.issueLoad y .h d m)

/-- LDHU (R156): loads a zero-extended halfword. -/
def execLdhu (y : YokeId) (d : Gpr) (m : MemAddr) (s : State) : Host.Outcome State Fault Refusal :=
  .next (s.issueLoad y .hu d m)

/-- LDW (R156): loads a word; from banks 0xF0 to 0xFF it is slip-collapsing. -/
def execLdw (y : YokeId) (d : Gpr) (m : MemAddr) (s : State) : Host.Outcome State Fault Refusal :=
  .next (s.issueLoad y .w d m)

/-- LDD (R156): loads a doubleword into a register pair. -/
def execLdd (y : YokeId) (d : Gpr) (m : MemAddr) (s : State) : Host.Outcome State Fault Refusal :=
  .next (s.issueLoad y .d d m)

/-- LDQ (R156): loads 16 bytes into four registers. -/
def execLdq (y : YokeId) (d : Gpr) (m : MemAddr) (s : State) : Host.Outcome State Fault Refusal :=
  .next (s.issueLoad y .q d m)

/-- STB (R185): stores a byte into the write-hold buffer, or performs an alias store. -/
def execStb (y : YokeId) (d : Gpr) (m : MemAddr) (s : State) : Host.Outcome State Fault Refusal :=
  .next (s.issueStore y .b d m)

/-- STH (R185): stores a halfword. -/
def execSth (y : YokeId) (d : Gpr) (m : MemAddr) (s : State) : Host.Outcome State Fault Refusal :=
  .next (s.issueStore y .h d m)

/-- STW (R185): stores a word. -/
def execStw (y : YokeId) (d : Gpr) (m : MemAddr) (s : State) : Host.Outcome State Fault Refusal :=
  .next (s.issueStore y .w d m)

/-- STD (R185): stores a doubleword from a pair. -/
def execStd (y : YokeId) (d : Gpr) (m : MemAddr) (s : State) : Host.Outcome State Fault Refusal :=
  .next (s.issueStore y .d d m)

/-- STQ (R185): stores 16 bytes from four registers. -/
def execStq (y : YokeId) (d : Gpr) (m : MemAddr) (s : State) : Host.Outcome State Fault Refusal :=
  .next (s.issueStore y .q d m)

/-- XCHG (R188): atomically exchanges D with the word at the bank. -/
def execXchg (y : YokeId) (wide : Bool) (ord : Bool) (d : Gpr) (m : MemAddr)
    (s : State) : Host.Outcome State Fault Refusal :=
  .next (if wide && !aligned d 2 then s.illegal y else
    s.issueAtomic y .xchg m (if wide then 8 else 4) (atomicLen wide ord m 0) fun c a p => .xchg wide ord d a p (c.wideReg wide d))

/-- CAS (R188): atomic compare-and-swap, Z set when written. -/
def execCas (y : YokeId) (wide : Bool) (ord : Bool) (d : Gpr) (new : Gpr) (m : MemAddr)
    (s : State) : Host.Outcome State Fault Refusal :=
  .next (if (wide && (!aligned d 2 || !aligned new 2)) || decide (atomicLen wide ord m 1 > 12) then s.illegal y else
    s.issueAtomic y .cas m (if wide then 8 else 4) (atomicLen wide ord m 1) fun c a p =>
      .cas wide ord d a p (c.wideReg wide d) (c.wideReg wide new))

/-- FADD (R188): atomic fetch-and-add of a register or immediate. -/
def execFadd (y : YokeId) (wide : Bool) (ord : Bool) (d : Gpr) (ad : Addend) (m : MemAddr)
    (s : State) : Host.Outcome State Fault Refusal :=
  .next (if !ad.legal wide || (wide && !aligned d 2) || decide (atomicLen wide ord m ad.len > 12) then s.illegal y else
    s.issueAtomic y .fadd m (if wide then 8 else 4) (atomicLen wide ord m ad.len) fun c a p =>
      .fadd wide ord d a p (c.addend wide ad))

/-- TLOCK (R191): acquires a tether lock word once at the bank, or reports it held. -/
def execTlock (y : YokeId) (d : Gpr) (m : MemAddr) (s : State) : Host.Outcome State Fault Refusal :=
  .next (s.issueAtomic y .tlock m 4 (2 + m.len) fun _ a p => .tlock d a p)

/-- TUNLOCK (R192): releases a tether held by the executing task. -/
def execTunlock (y : YokeId) (m : MemAddr) (s : State) : Host.Outcome State Fault Refusal :=
  .next (s.issueAtomic y .tunlock m 4 (2 + m.len) fun _ a p => .tunlock a p)

/-- MOVM (R194): copies one aligned 16-byte word per iteration. -/
def execMovm (y : YokeId) (rep : Rep) (d : Gpr) (src : Gpr) (s : State) : Host.Outcome State Fault Refusal :=
  .next (s.issueBlock y .movm rep d src)

/-- FILLM (R194): fills 16-byte words from a pattern. -/
def execFillm (y : YokeId) (rep : Rep) (d : Gpr) (src : Gpr) (s : State) : Host.Outcome State Fault Refusal :=
  .next (s.issueBlock y .fillm rep d src)

/-- CMPM (R197): compares 16-byte words and ends at the first difference. -/
def execCmpm (y : YokeId) (rep : Rep) (d : Gpr) (src : Gpr) (s : State) : Host.Outcome State Fault Refusal :=
  .next (s.issueBlock y .cmpm rep d src)

/-- EMIT (R211): writes 1 to 16 bytes to an output window, optionally local. -/
def execEmit (y : YokeId) (loc : Bool) (size : BitVec 3) (d : Gpr) (m : MemAddr)
    (s : State) : Host.Outcome State Fault Refusal :=
  .next (s.issueEmit y loc size d m)

end Sys2Proof.Machine
end

