-- ==== Sys2Proof/Machine/PortCmds.lean ====
section
/-! DEFINITION. Meanings of the ports', the safety frame layer's and P4's commands and events (chapter 14). -/

namespace Sys2Proof.Machine

/-- ETH_FRAME_RECEIVE (R514): A frame received on P0 to P3 is filtered and queued or discarded. -/
def execEthFrameReceive (p : EthPort) (frame : List Byte) (s : State) : Host.Outcome State Fault Refusal :=
  .next (s.whenMain fun s => s.ethReceive p.val frame)

/-- ETH_FRAME_TRANSMIT (R513): the port starts the next frame of the highest open class that ends before its gate
closes. -/
def execEthFrameTransmit (p : EthPort) (s : State) : Host.Outcome State Fault Refusal :=
  .next (s.whenMain fun s => s.ethTransmit p.val)

/-- GATE_LIST_ADVANCE (R513): A gate control list interval ends and the next entry opens its classes. -/
def execGateListAdvance (p : EthPort) (s : State) : Host.Outcome State Fault Refusal :=
  .next (s.whenMain fun s => s.gateAdvance p.val)

/-- ETH_LINK_UP (R656): training completes and LINKUP is raised. -/
def execEthLinkUp (p : EthPort) (mode : BitVec 3) (s : State) : Host.Outcome State Fault Refusal :=
  .next (s.whenMain fun s => s.ethUp p.val mode.toNat)

/-- ETH_LINK_DOWN (R656): the link goes down, LINKDOWN is raised and buffered records are discarded. -/
def execEthLinkDown (p : EthPort) (s : State) : Host.Outcome State Fault Refusal :=
  .next (s.whenMain fun s => s.ethDown p.val)

/-- PORT_MODE_WRITE (R656): A write of PORT.CTL.MODE turns the port off or changes its physical layer. -/
def execPortModeWrite (p : EthPort) (v : Word) (s : State) : Host.Outcome State Fault Refusal :=
  .next (s.whenFirmware fun s => s.writePortCtl p.val v)

/-- CONNECTION_STALE (R530): A receive connection silent for MAXAGE raises STALE once. -/
def execConnectionStale (n : Fin 4096) (s : State) : Host.Outcome State Fault Refusal :=
  .next (s.whenMain fun s => s.connStale n.val)

/-- CONNECTION_COMMIT (R552): A write of CONNW3 commits a safety connection entry, subject to R528. -/
def execConnectionCommit (v : Word) (s : State) : Host.Outcome State Fault Refusal :=
  .next (s.whenFirmware fun s => s.connCommit v)

/-- QUEUE_RX_POP (R508): an LDQ of RXDATA pops 16 bytes of the head receive entry or sets UNDER. -/
def execQueueRxPop (y : YokeId) (d : Gpr) (p : PortId) (q : Fin 64) (s : State) : Host.Outcome State Fault Refusal :=
  .next (s.issueLoad y .q d (.long (BitVec.ofNat 32 (0xF0000100 + 0x1000000 * p.val + 0x400 * q.val))))

/-- QUEUE_RXSTAT_READ (R550): an LDW of RXSTAT returns status and clears UNDER and LOST. -/
def execQueueRxstatRead (y : YokeId) (d : Gpr) (p : PortId) (q : Fin 64)
    (s : State) : Host.Outcome State Fault Refusal :=
  .next (s.issueLoad y .w d (.long (BitVec.ofNat 32 (0xF0000110 + 0x1000000 * p.val + 0x400 * q.val))))

/-- PCIE_WRITE_RECEIVE (R522): A host posted write to a BAR window becomes a receive entry or is refused. -/
def execPcieWriteReceive (f : FoldId) (off : Nat) (data : List Byte) (ecrc : Bool)
    (s : State) : Host.Outcome State Fault Refusal :=
  .next (s.whenMain fun s => s.pcieWrite f off data ecrc)

/-- PCIE_READ_RECEIVE (R522): A host read of the BAR completes as an unsupported request. -/
def execPcieReadReceive (f : FoldId) (ecrc : Bool) (s : State) : Host.Outcome State Fault Refusal :=
  .next (s.whenMain fun s => s.pcieRead f ecrc)

/-- PCIE_COMPLETION_RECEIVE (R523): completions for a fold's read request form a receive entry. -/
def execPcieCompletionReceive (tag : Nat) (status : Nat) (data : List Byte) (ecrc : Bool)
    (s : State) : Host.Outcome State Fault Refusal :=
  .next (s.whenMain fun s => s.pcieCompletion tag status data ecrc)

/-- PCIE_COMPLETION_TIMEOUT (R523): A read request times out and an entry with STATUS 0x03 is formed. -/
def execPcieCompletionTimeout (tag : Nat) (s : State) : Host.Outcome State Fault Refusal :=
  .next (s.whenMain fun s => s.pcieTimeout tag)

/-- PCIE_CONFIG_REQUEST (R518 to R520): A host configuration request changes SR-IOV, Bus Master Enable, FLR state or what Table 14.6 lets
the host set; one whose ECRC fails is discarded and reported. -/
def execPcieConfigRequest (c : PcieConfig) (ecrc : Bool) (s : State) : Host.Outcome State Fault Refusal :=
  .next (s.whenMain fun s => s.pcieConfig c ecrc)

/-- PCIE_TLP_TRANSMIT (R524): P4 sends a function's transaction in its share of the transmit frame. -/
def execPcieTlpTransmit (owner : FoldId) (s : State) : Host.Outcome State Fault Refusal :=
  .next (s.whenMain fun s => s.pcieTransmit owner)

/-- PCIE_TLP_ACK (R525): the data link layer acknowledges a transmitted TLP, so the posted write can no longer count
as not delivered on a later link loss. -/
def execPcieTlpAck (n : Nat) (s : State) : Host.Outcome State Fault Refusal :=
  .next (s.whenMain fun s => s.pcieAck n)

/-- POSTED_WRITE_UNDELIVERED (R525): A released posted write is not delivered and a deferred write error is raised. -/
def execPostedWriteUndelivered (s : State) : Host.Outcome State Fault Refusal :=
  .next (s.whenMain fun s => s.postUndelivered)

/-- PCIE_LINK_UP (R521): P4 training completes and LINKUP is raised. -/
def execPcieLinkUp (speed : Fin 5) (width : Fin 4) (s : State) : Host.Outcome State Fault Refusal :=
  .next (s.whenMain fun s => s.pcieTrained speed width)

/-- PCIE_LINK_DOWN (R525): the P4 link leaves DL_Active; LINKDOWN is raised and released posted writes not yet
acknowledged count as not delivered. -/
def execPcieLinkDown (s : State) : Host.Outcome State Fault Refusal :=
  .next (s.whenMain fun s => s.pcieDown)

/-- PERST_ASSERT (R521): PERSTn falls: P4 is reset, LINKDOWN raised and pending writes undelivered. -/
def execPerstAssert (s : State) : Host.Outcome State Fault Refusal :=
  .next s.perstAssert

/-- PERST_RELEASE (R521): PERSTn rises and P4 begins training. -/
def execPerstRelease (s : State) : Host.Outcome State Fault Refusal :=
  .next s.perstRelease

/-- PECLK_LOSS (R649): loss of PECLK takes the P4 link down. -/
def execPeclkLoss (s : State) : Host.Outcome State Fault Refusal :=
  .next s.peclkLoss

end Sys2Proof.Machine
end

