-- ==== Sys2Proof/Machine/PowerCmds.lean ====
section
/-! DEFINITION. Meanings of the commands and events of power states, clocks, temperature, the Bell, Tally, self-test and reset
(chapters 1, 15 and 17). -/

namespace Sys2Proof.Machine

/-- SPAN_REST_ENTRY (R33): after 1,024 fc with every yoke idle or waiting and the overflow queue empty, the span
begins to enter Doze or Nap. -/
def execSpanRestEntry (sp : SpanId) (s : State) : Host.Outcome State Fault Refusal :=
  .next (s.whenMain fun s => s.restEntry sp)

/-- SPAN_REST_REACHED (R563): the span completes entry into Doze in 16 fc or Nap in 2 µs. -/
def execSpanRestReached (sp : SpanId) (s : State) : Host.Outcome State Fault Refusal :=
  .next (s.whenMain fun s => s.restReached sp)

/-- SPAN_WAKE_DONE (R560): A waking span reaches Run within the wake time of its rest state. -/
def execSpanWakeDone (sp : SpanId) (s : State) : Host.Outcome State Fault Refusal :=
  .next (s.whenMain fun s => s.wakeDone sp)

/-- SPAN_WAKE_COMMAND (R562): A write of SPAN.PWRCTL.WAKE wakes the span. -/
def execSpanWakeCommand (sp : SpanId) (v : Word) (s : State) : Host.Outcome State Fault Refusal :=
  .next (s.whenFirmware fun s => s.writePwrctl sp (v ||| 0x100))

/-- POWER_WINDOW_END (R422): A 1,024 µs estimator window ends; budgets and thermal thresholds are judged. -/
def execPowerWindowEnd (s : State) : Host.Outcome State Fault Refusal :=
  .next (s.whenMain fun s => s.windowEnd)

/-- CLOCK_STEP_APPLY (R564): A span clock step change takes effect at checkpoint confirmations within 2 µs. -/
def execClockStepApply (sp : SpanId) (s : State) : Host.Outcome State Fault Refusal :=
  .next (s.whenMain fun s => s.clockStep sp)

/-- CLOCK_MONITOR_WINDOW (R556): A clock monitor window ends and counts out of tolerance report source 0x24. -/
def execClockMonitorWindow (b : ClockBranch) (count : Nat) (s : State) : Host.Outcome State Fault Refusal :=
  .next (s.whenMain fun s => s.clockWindow b count)

/-- PLL_LOCK_LOSS (R556): A PLL loses lock or a reference is absent for 1 µs, reporting source 0x24. -/
def execPllLockLoss (n : Fin 4) (s : State) : Host.Outcome State Fault Refusal :=
  .next (s.whenMain fun s => s.pllLoss n)

/-- AON_CLOCK_LOSS (R556): loss of the 32.768 kHz clock reports source 0x28. -/
def execAonClockLoss (s : State) : Host.Outcome State Fault Refusal :=
  .next (s.whenMain fun s => s.aonClockLoss)

/-- BELL_TICK (R558): BELL.CNT reaches a multiple of TICKP and a tick edge event is raised. -/
def execBellTick (s : State) : Host.Outcome State Fault Refusal :=
  .next s.bellTick

/-- BELL_ALARM (R559): BELL.CNT matches the alarm; Drover is interrupted or the device wakes. -/
def execBellAlarm (s : State) : Host.Outcome State Fault Refusal :=
  .next s.bellAlarm

/-- TEMP_READING (R567): every 10 µs the junction sensors are read into PWR.TEMP. -/
def execTempReading (vals : List Half) (s : State) : Host.Outcome State Fault Refusal :=
  .next (s.whenMain fun s => s.tempReading vals)

/-- DEEP_STANDBY_REQUEST (R572): A write of PWR.DSCTL holds the main domain in reset for deep standby. -/
def execDeepStandbyRequest (v : Word) (s : State) : Host.Outcome State Fault Refusal :=
  .next (s.whenFirmware fun s => s.standbyRequest v)

/-- MAINEN_LOW (R572): 2 bt after the request the always-on domain drives MAINEN low. -/
def execMainenLow (s : State) : Host.Outcome State Fault Refusal :=
  .next s.mainenLow

/-- WAKEIN_RISE (R573): A rising edge on WAKEIN is a deep-standby wake source. -/
def execWakeinRise (s : State) : Host.Outcome State Fault Refusal :=
  .next s.wakeinRise

/-- SUPPLY_FAULT (R641): A main rail or VDDIO leaves its monitor range while MAINEN is high, reporting source 0x25. -/
def execSupplyFault (s : State) : Host.Outcome State Fault Refusal :=
  .next s.supplyFault

/-- VAON_MONITOR_FAULT (R635): VAON leaves its monitor range and source 0x28 is reported. -/
def execVaonMonitorFault (s : State) : Host.Outcome State Fault Refusal :=
  .next s.vaonFault

/-- TALLY_SLACK_MEASURE (R575): every 1 ms of Run time Tally measures the span's delay monitors. -/
def execTallySlackMeasure (sp : SpanId) (v : Word) (s : State) : Host.Outcome State Fault Refusal :=
  .next (s.whenMain fun s => s.tallySlack sp v)

/-- TALLY_SRAM_MEASURE (R576): hourly Tally measures scratchpad and group read margin. -/
def execTallySramMeasure (sp : SpanId) (scratch : BitVec 4) (group : BitVec 4)
    (s : State) : Host.Outcome State Fault Refusal :=
  .next (s.whenMain fun s => s.tallySram sp scratch group)

/-- TALLY_BAND_COUNT (R577): each second of Run time is counted in the span's temperature band. -/
def execTallyBandCount (sp : SpanId) (s : State) : Host.Outcome State Fault Refusal :=
  .next (s.whenMain fun s => s.tallyBand sp)

/-- TALLY_RETIRE (R579): A write of TALLY.RET.RETIRE retires an unowned span early. -/
def execTallyRetire (sp : SpanId) (v : Word) (s : State) : Host.Outcome State Fault Refusal :=
  .next (s.whenFirmware fun s => s.tallyRetire sp v)

/-- TALLY_SMIN_READ (R590): A read of TALLY.SMIN returns least slacks and resets them to 0xFF. -/
def execTallySminRead (sp : SpanId) (s : State) : Host.Outcome State Fault Refusal :=
  .next (s.whenFirmware fun s => s.tallySmin sp)

/-- LOGIC_BIST_START (R581): A write of BIST.YSTART requests logic BIST of a yoke, refused over the limits. -/
def execLogicBistStart (v : Word) (s : State) : Host.Outcome State Fault Refusal :=
  .next (s.whenFirmware fun s => s.bistStart v)

/-- LOGIC_BIST_BEGIN (R581): once the yoke is free and a slot is available its task is saved and testing begins. -/
def execLogicBistBegin (y : YokeId) (s : State) : Host.Outcome State Fault Refusal :=
  .next (s.whenMain fun s => s.bistBegin y)

/-- LOGIC_BIST_DONE (R581): after 1.4 ms the yoke returns to rotation or is stalled with source 0x1F. -/
def execLogicBistDone (y : YokeId) (pass : Bool) (s : State) : Host.Outcome State Fault Refusal :=
  .next (s.whenMain fun s => s.bistDone y pass)

/-- MEMORY_BIST_START (R582): A write of BIST.MSTART requests memory BIST of a bank or quarter. -/
def execMemoryBistStart (v : Word) (s : State) : Host.Outcome State Fault Refusal :=
  .next (s.whenFirmware fun s => s.memTest v)

/-- MEMORY_BIST_DONE (R583): A memory test ends with restore, or failure and source 0x1E. -/
def execMemoryBistDone (unit : Word) (pass : Bool) (s : State) : Host.Outcome State Fault Refusal :=
  .next (s.whenMain fun s => s.memTestDone unit pass)

/-- STARTUP_BIST_DONE (R585): startup BIST ends with the wipe of every scratchpad and group. -/
def execStartupBistDone (deferred : Bool) (yokes : List YokeId) (units : List Word) (s : State) : Host.Outcome State Fault Refusal :=
  .next (s.whenMain fun s => s.startupDone deferred yokes units)

/-- DROVER_CORE_TEST (R584): drover takes one of its three cores out of voting to test it while the other two run
2-out-of-2. -/
def execDroverCoreTest (c : Fin 3) (s : State) : Host.Outcome State Fault Refusal :=
  .next (s.whenFirmware fun s => s.droverTest c)

/-- DROVER_CORE_TEST_DONE (R584): the test of a Drover core ends within 60 ms and the core returns to 2-out-of-3
voting. -/
def execDroverCoreTestDone (s : State) : Host.Outcome State Fault Refusal :=
  .next (s.whenMain fun s => s.droverTestDone)

/-- VAON_POWER_ON (R646): VAON becomes good and the always-on domain starts the crystal. -/
def execVaonPowerOn (s : State) : Host.Outcome State Fault Refusal :=
  .next s.vaonOn

/-- VAON_POWER_LOSS (R460): VAON is removed; the Bell, the AON watchdog, WDCOUNT, the retained area and the Tally band
counts are lost. -/
def execVaonPowerLoss (s : State) : Host.Outcome State Fault Refusal :=
  .next s.vaonLoss

/-- CRYSTAL_READY (R646): after 4,096 crystal cycles MAINEN rises and the Bell and AON watchdog start. -/
def execCrystalReady (s : State) : Host.Outcome State Fault Refusal :=
  .next s.crystalReady

/-- CRYSTAL_TIMEOUT (R646): the crystal fails to start within 2 s and MAINEN stays low. -/
def execCrystalTimeout (s : State) : Host.Outcome State Fault Refusal :=
  .next s.crystalTimeout

/-- NRESET_ASSERT (R642): ten low samples of nRESET assert reset. -/
def execNresetAssert (s : State) : Host.Outcome State Fault Refusal :=
  .next s.nresetAssert

/-- NRESET_RELEASE (R642): ten high samples release reset. -/
def execNresetRelease (straps : Word) (s : State) : Host.Outcome State Fault Refusal :=
  .next (s.nresetRelease straps)

/-- POWER_GOOD (R640): all main rails good, both references present and nRESET high; the main domain leaves reset. -/
def execPowerGood (straps : Word) (flash : Flash) (s : State) : Host.Outcome State Fault Refusal :=
  .next (s.powerGood straps flash)

end Sys2Proof.Machine
end

