-- ==== Sys2Proof/Machine/SafeIoCmds.lean ====
section
/-! DEFINITION. Meanings of the safe input and output pairs' commands and events (chapter 14). -/

namespace Sys2Proof.Machine

/-- INPUT_SAMPLE (R532): at every device time that is a multiple of 1 µs each pin input channel is sampled and its
filtered value advances toward FILT + 1 equal samples. -/
def execInputSample (a : Half) (b : Half) (s : State) : Host.Outcome State Fault Refusal :=
  .next (s.whenMain fun s => s.inputSample a b)

/-- INPUT_FREEZE (R106): at the freeze instant the pair-input unit freezes channel values and discrepancy state for
the next epoch. -/
def execInputFreeze (f : FoldId) (s : State) : Host.Outcome State Fault Refusal :=
  .next (s.whenMain fun s => s.inputFreeze f)

/-- PAIR_TICK (R534): every 10 µs each input pair's discrepancy timer is evaluated. -/
def execPairTick (s : State) : Host.Outcome State Fault Refusal :=
  .next (s.whenMain fun s => s.pairTick)

/-- DISCREPANCY_FAULT (R534): the timer reaches DTIME; DFAULT latches, vector 0x0F and source 0x18. -/
def execDiscrepancyFault (n : Fin 64) (s : State) : Host.Outcome State Fault Refusal :=
  .next (s.whenMain fun s => s.discrepancyDue n)

/-- TEST_PULSE (R533): A test pulse on TPA or TPB; a channel reading 1 late in it latches DFAULT. -/
def execTestPulse (onB : Bool) (s : State) : Host.Outcome State Fault Refusal :=
  .next (s.whenMain fun s => s.testPulse onB)

/-- PAIR_WINDOW_LOAD (R536): an LDW of a pair-input window returns PVAL, PCFG or PCONN. -/
def execPairWindowLoad (y : YokeId) (d : Gpr) (n : Fin 64) (r : Fin 3) (s : State) : Host.Outcome State Fault Refusal :=
  .next (s.issueLoad y .w d (.long (BitVec.ofNat 32 (0xF6000000 + 16 * n.val + 4 * r.val))))

/-- SAFE_OUTPUT_SOA_ON (R538): 10 µs after SOBk, the stage turns SOAk on to complete energising. -/
def execSafeOutputSoaOn (k : Fin 8) (s : State) : Host.Outcome State Fault Refusal :=
  .next (s.whenMain fun s => s.soaOn k)

/-- READBACK_FAULT (R539): two disagreeing read-back samples latch OFAULT and report source 0x19. -/
def execReadbackFault (k : Fin 8) (a0 : Bool) (b0 : Bool) (a1 : Bool) (b1 : Bool)
    (s : State) : Host.Outcome State Fault Refusal :=
  .next (s.whenMain fun s => s.readback k a0 b0 a1 b1)

/-- OUTPUT_TEST (R540): every OTP ms the stage tests one switch of a pair for OTW µs. -/
def execOutputTest (k : Fin 8) (s : State) : Host.Outcome State Fault Refusal :=
  .next (s.whenMain fun s => s.outputTest k)

/-- OUTPUT_TEST_END (R540): the OTW test width ends and the switch returns to its state. -/
def execOutputTestEnd (k : Fin 8) (s : State) : Host.Outcome State Fault Refusal :=
  .next (s.whenMain fun s => s.outputTestEnd k)

/-- OUTPUT_CONFIG_WRITE (R554): A write of SIO.OPCFG assigns a pair, clears OFAULT, or is refused for bad OTW. -/
def execOutputConfigWrite (k : Fin 8) (v : Word) (s : State) : Host.Outcome State Fault Refusal :=
  .next (s.whenFirmware fun s => s.writeOpcfg k v)

/-- INPUT_CONFIG_WRITE (R553): A write of SIO.IPCFG assigns a pair, refused for bad DTIME. -/
def execInputConfigWrite (n : Fin 64) (v : Word) (s : State) : Host.Outcome State Fault Refusal :=
  .next (s.whenFirmware fun s => s.writeIpcfg n v)

/-- IPNET_WRITE (R532): A write of SIO.IPNET, refused when both channels name one connection. -/
def execIpnetWrite (n : Fin 64) (v : Word) (s : State) : Host.Outcome State Fault Refusal :=
  .next (s.whenFirmware fun s => s.writeIpnet n v)

end Sys2Proof.Machine
end

