-- ==== Sys2Proof/Machine/Fabric.lean ====
section
/-! DEFINITION. The fabric (R24 to R27): the mesh of 64 routers, where the endpoints attach, and the one route of a
transaction between two of them. -/

namespace Sys2Proof.Machine

/-- A node's coordinates: column, row (R24). -/
def nodeXY (n : SpanId) : Nat × Nat := (n.val % 8, n.val / 8)

/-- The node at a column and row. -/
def nodeAt (x y : Nat) : SpanId := Fin.ofNat 64 (x % 8 + 8 * (y % 8))

/-- The node at which an endpoint attaches (R24, Table 1.1). -/
def FabricEnd.node (e : FabricEnd) : SpanId :=
  match e with
  | .span s => s
  | .group g => g
  | .port p => nodeAt 0 p.val
  | .pairInput => nodeAt 0 5
  | .safeOutput => nodeAt 0 6
  | .flash => nodeAt 0 7
  | .twinTransmit => nodeAt 7 3
  | .twinReceive => nodeAt 7 4
  | .dmaPoint c => nodeAt c.val 7
  | .drover second => nodeAt second.toNat 0
  | .vault => nodeAt 2 0
  | .epochController => nodeAt 3 0
  | .faultManager => nodeAt 4 0
  | .tally => nodeAt 5 0
  | .bistController => nodeAt 6 0
  | .powerManager => nodeAt 7 0

/-- The DMA engine's access point of a channel (Table 1.1). -/
def dmaPointOf (c : DmaId) : FabricEnd := .dmaPoint (Fin.ofNat 8 (c.val / 8))

/-- Steps from one coordinate to another, each the coordinate reached. -/
def walk (a b : Nat) : List Nat :=
  if a ≤ b then (List.range (b - a)).map fun i => a + 1 + i else (List.range (a - b)).map fun i => a - 1 - i

/-- The routers a transaction reaches, in order, each with the link over which it receives it: 0 north, 1 east, 2 south, 3 west,
4 the local endpoint (Table 12.1). A transaction goes first along the row to the target column, then along the column to
the target row (R25), and the last entry is the target endpoint's own link. -/
def fabricHops (src dst : FabricEnd) : List (SpanId × Nat) :=
  let (x, y) := nodeXY src.node
  let (x', y') := nodeXY dst.node
  (src.node, 4) :: ((walk x x').map fun c => (nodeAt c y, if x < x' then 3 else 1)) ++
    ((walk y y').map fun r => (nodeAt x' r, if y < y' then 0 else 2)) ++ [(dst.node, 4)]

/-- The number of hops between the nodes of two endpoints, 0 to 14 (R339). -/
def fabricDistance (src dst : FabricEnd) : Nat := (fabricHops src dst).length - 2

/-- A fabric transaction from `src` to `dst` failed its CRC check once, at the receiver of hop `hop` of its route, which counts
and reports the event (R346). When its retried copy fails too, the transaction, to the 16-byte word `word` of the device
physical space, ends with a bus error, BKIND 0b010: its master meets it at the access it is making to that word. -/
def State.fabricRetry (s : State) (src dst : FabricEnd) (hop : Nat) (o : FabricOutcome) (word : Nat) : State :=
  match (fabricHops src dst)[hop]? with
  | none => s
  | some (node, link) =>
    let w := s.reg (rSpLinkcnt node) 0
    match o with
    | .linkEvent =>
      (s.setReg (rSpLinkcnt node) (setField w 15 0 (satNat 0xFFFF (fieldNat w 15 0 + 1)))).reportU 0x09 .node node.val link
    | .linkDataError =>
      (s.setReg (rSpLinkcnt node) (setField w 31 16 (satNat 0xFFFF (fieldNat w 31 16 + 1)))).reportU 0x0A .node node.val link
    | .retryFails =>
      let s1 := s.reportU 0x0B .node node.val link
      if s1.fabricFails.contains word then s1 else { s1 with fabricFails := s1.fabricFails ++ [word] }

end Sys2Proof.Machine
end

