-- ==== Sys2Proof/Machine/Scheduler.lean ====
section
/-! DEFINITION. Meanings of the scheduler's events, debug access and the registers of the span control blocks (chapters 2, 8, 9). -/

namespace Sys2Proof.Machine

/-- OWNER_POP (R297): an idle yoke pops the newest entry of its own deque. -/
def execOwnerPop (y : YokeId) (s : State) : Host.Outcome State Fault Refusal :=
  .next (s.take y [] fun s => s.ownerPop y)

/-- OVERFLOW_TAKE (R295): an idle yoke takes an eligible overflow entry, resume class first. -/
def execOverflowTake (y : YokeId) (s : State) : Host.Outcome State Fault Refusal :=
  .next (s.take y [fun s => s.ownerPop y] fun s => s.takeOverflow y)

/-- STEAL (R298): an idle yoke steals the oldest entry of the deepest sibling deque. -/
def execSteal (y : YokeId) (s : State) : Host.Outcome State Fault Refusal :=
  .next (s.take y [fun s => s.ownerPop y, fun s => s.takeOverflow y] fun s => s.stealLocal y)

/-- CROSS_SPAN_STEAL (R299): A yoke idle for 256 fc steals a portable task from the next span every 64 fc. -/
def execCrossSpanSteal (y : YokeId) (s : State) : Host.Outcome State Fault Refusal :=
  .next (if s.crossDue y then s.take y [fun s => s.takeLocal y] fun s => s.crossSteal y else s)

/-- DEFERRED_OVERFLOW_PUSH (R295): A waiting retirement or BIST move or resume push enters the overflow queue when an
entry frees. -/
def execDeferredOverflowPush (sp : SpanId) (s : State) : Host.Outcome State Fault Refusal :=
  .next (s.deferredPush sp)

/-- FOLLOW_TASK_START (R319): in a Follow span an idle yoke takes the task named by the next START record once
present. -/
def execFollowTaskStart (y : YokeId) (s : State) : Host.Outcome State Fault Refusal :=
  .next (s.followStart y)

/-- INJECT_TEST_MISMATCH (R90): A 1 written to SPAN.CKCTL.INJ injects a test mismatch into yoke INJY. -/
def execInjectTestMismatch (sp : SpanId) (v : Word) (s : State) : Host.Outcome State Fault Refusal :=
  .next (s.whenFirmware fun s => s.writeCkctl sp (v ||| 0x00100000))

/-- SLIP_TARGET_WRITE (R90): A write of SPAN.CKCTL.SLIP sets the slip target, or is ignored out of range with a C0
incident. -/
def execSlipTargetWrite (sp : SpanId) (v : Word) (s : State) : Host.Outcome State Fault Refusal :=
  .next (s.whenFirmware fun s => s.writeCkctl sp (v &&& 0xFFEFFFFF))

/-- GROUP_WIPE_DONE (R349): the wipe of a released fold memory group ends. -/
def execGroupWipeDone (g : GroupId) (s : State) : Host.Outcome State Fault Refusal :=
  .next (s.groupWipeDone g)

/-- SPAN_WIPE_DONE (R350): the 2.56 µs wipe of a span's scratchpad ends. -/
def execSpanWipeDone (sp : SpanId) (s : State) : Host.Outcome State Fault Refusal :=
  .next (s.spanWipeDone sp)

/-- PATROL_SCRUB (R345): the patrol scrubber reads a word and handles each codeword by Table 9.7. -/
def execPatrolScrub (kind : MemKind) (n : SpanId) (off : Nat) (e0 : CwFlip) (e1 : CwFlip)
    (s : State) : Host.Outcome State Fault Refusal :=
  .next (s.patrolScrub kind n off e0 e1)

/-- ECC_WRITEBACK (R344): A corrected codeword or check bits are written back at the bank's next idle cycle. -/
def execEccWriteback (kind : MemKind) (n : SpanId) (off : Nat) (s : State) : Host.Outcome State Fault Refusal :=
  .next (s.eccWriteback kind n off)

/-- FABRIC_CRC_RETRY (R346): A retried copy after a CRC failure arrives and the event is classified, or the
transaction ends with a bus error. -/
def execFabricCrcRetry (src dst : FabricEnd) (hop : Nat) (o : FabricOutcome) (word : Nat)
    (s : State) : Host.Outcome State Fault Refusal :=
  .next (s.fabricRetry src dst hop o word)

/-- MEMCTL_CLEAR (R368): A write of SPAN.MEMCTL.CLR clears the span's error counts. -/
def execMemctlClear (sp : SpanId) (v : Word) (s : State) : Host.Outcome State Fault Refusal :=
  .next (s.whenFirmware fun s => s.writeMemctl sp (v ||| 0x100))

end Sys2Proof.Machine
end

