-- ==== Sys2Proof/Machine/SecurityCmds.lean ====
section
/-! DEFINITION. Meanings of the commands and events of OTP, life cycle, boot, the crypto engine and security (chapter 16). -/

namespace Sys2Proof.Machine

/-- OTP_PROGRAM (R592): SEC.OTPCMD.PROG programs and reads back one OTP byte. -/
def execOtpProgram (v : Word) (bad : Byte) (s : State) : Host.Outcome State Fault Refusal :=
  .next (s.whenFirmware fun s => s.otpProgram v bad)

/-- LIFECYCLE_REQUEST (R596): A write of SEC.LCREQ wipes secrets and programs the target life-cycle state. -/
def execLifecycleRequest (v : Word) (s : State) : Host.Outcome State Fault Refusal :=
  .next (s.whenFirmware fun s => s.lcRequest v)

/-- MANIFEST_VERIFY (R604): A write of SEC.MVER starts verification of a manifest and clears OK. -/
def execManifestVerify (v : Word) (image : List Byte) (s : State) : Host.Outcome State Fault Refusal :=
  .next (s.whenFirmware fun s => s.manifestVerify v image)

/-- MANIFEST_VERIFY_DONE (R604): the crypto engine finishes the manifest checks and sets OK or an error. -/
def execManifestVerifyDone (s : State) : Host.Outcome State Fault Refusal :=
  .next (s.whenMain fun s => s.manifestDone)

/-- FW_SVN_ADVANCE (R602): SEC.SVN.FWADV advances the firmware counter, refused beyond FWSVN. -/
def execFwSvnAdvance (n : BitVec 7) (s : State) : Host.Outcome State Fault Refusal :=
  .next (s.whenFirmware fun s => s.fwAdvance n)

/-- MN_SVN_ADVANCE (R602): SEC.SVN.MNADV advances the manifest counter, refused beyond MNSVN. -/
def execMnSvnAdvance (n : BitVec 7) (s : State) : Host.Outcome State Fault Refusal :=
  .next (s.whenFirmware fun s => s.mnAdvance n)

/-- CRYPTO_SUBMIT (R612): A write of SEC.CQTAIL submits crypto jobs. -/
def execCryptoSubmit (v : Word) (ws : List (Word × List Byte)) (flips : List (BitVec 18 × CwFlip))
    (s : State) : Host.Outcome State Fault Refusal :=
  .next (s.whenFirmware fun s => s.cryptoSubmit v ws flips)

/-- CRYPTO_AES_GCM_ENCRYPT (R610): crypto job OP 0x01. -/
def execCryptoAesGcmEncrypt (s : State) : Host.Outcome State Fault Refusal :=
  .next (s.runJob 1 State.jobEncrypt)

/-- CRYPTO_AES_GCM_DECRYPT (R610): crypto job OP 0x02. -/
def execCryptoAesGcmDecrypt (s : State) : Host.Outcome State Fault Refusal :=
  .next (s.runJob 2 State.jobDecrypt)

/-- CRYPTO_GMAC (R610): crypto job OP 0x03. -/
def execCryptoGmac (s : State) : Host.Outcome State Fault Refusal :=
  .next (s.runJob 3 State.jobGmac)

/-- CRYPTO_SHA384 (R610): crypto job OP 0x04. -/
def execCryptoSha384 (s : State) : Host.Outcome State Fault Refusal :=
  .next (s.runJob 4 State.jobHash)

/-- CRYPTO_ECDSA_VERIFY (R610): crypto job OP 0x05. -/
def execCryptoEcdsaVerify (s : State) : Host.Outcome State Fault Refusal :=
  .next (s.runJob 5 State.jobVerify)

/-- CRYPTO_KEY_UNWRAP (R606): crypto job OP 0x06 unwraps a key into a slot. -/
def execCryptoKeyUnwrap (s : State) : Host.Outcome State Fault Refusal :=
  .next (s.runJob 6 State.jobUnwrap)

/-- CRYPTO_RANDOM_KEY (R610): crypto job OP 0x07 writes a random key into a slot. -/
def execCryptoRandomKey (s : State) : Host.Outcome State Fault Refusal :=
  .next (s.runJob 7 State.jobRandom)

/-- RNG_OUTPUT (R613): every 64 µs the entropy source delivers 256 bits after health tests. -/
def execRngOutput (healthy : Bool) (s : State) : Host.Outcome State Fault Refusal :=
  .next (s.rngOutput healthy)

/-- CHALLENGE_GENERATE (R621): A write of SEC.CHALGEN fills a 48-byte debug challenge. -/
def execChallengeGenerate (s : State) : Host.Outcome State Fault Refusal :=
  .next (s.whenFirmware fun s => s.challenge)

/-- DEBUG_OPEN (R622): A write of SEC.OPEN checks the signed response and opens debug or counts a failure. -/
def execDebugOpen (v : Word) (s : State) : Host.Outcome State Fault Refusal :=
  .next (s.whenFirmware fun s => s.debugOpen v)

/-- TAMPER (R616): A tamper sensor fires and the vault and keys are wiped. -/
def execTamper (kind : Fin 4) (s : State) : Host.Outcome State Fault Refusal :=
  .next (s.tamper kind)

end Sys2Proof.Machine
end

