-- ==== Sys2Proof/Machine/ServiceCmds.lean ====
section
/-! DEFINITION. Meanings of the commands of SMBus, the test access port and the debug port (chapters 2, 14 and 16). -/

namespace Sys2Proof.Machine

/-- SMBUS_STATUS_READ (R545): SMBus command 0x01 returns the 32-byte status page. -/
def execSmbusStatusRead (s : State) : Host.Outcome State Fault Refusal :=
  .next s.smbusStatus

/-- SMBUS_MAILBOX_READ (R545): SMBus command 0x02 reads the board mailbox and clears ALERT bit 1. -/
def execSmbusMailboxRead (s : State) : Host.Outcome State Fault Refusal :=
  .next s.smbusRead

/-- SMBUS_MAILBOX_WRITE (R545): SMBus command 0x03 writes the board mailbox to Drover firmware. -/
def execSmbusMailboxWrite (bs : List Byte) (pec : Option Byte) (s : State) : Host.Outcome State Fault Refusal :=
  .next (s.smbusWrite bs pec)

/-- SMBUS_ALERT_READ (R545): SMBus command 0x04 returns the ALERT byte and clears bits 0 and 2. -/
def execSmbusAlertRead (s : State) : Host.Outcome State Fault Refusal :=
  .next s.smbusAlert

/-- SMBUS_ALERT_RESPONSE (R546): the Alert Response Address is answered with the device's address while SMBALERTn is
low. -/
def execSmbusAlertResponse (s : State) : Host.Outcome State Fault Refusal :=
  .next s.smbusAra

/-- SMBUS_UNKNOWN_COMMAND (R545): an unknown SMBus command is not acknowledged. -/
def execSmbusUnknownCommand (s : State) : Host.Outcome State Fault Refusal :=
  .next s.smbusUnknown

/-- JTAG_BYPASS (R543): TAP instruction BYPASS. -/
def execJtagBypass (s : State) : Host.Outcome State Fault Refusal :=
  .next (s.tapInstruction .bypass [])

/-- JTAG_IDCODE (R543): TAP instruction IDCODE returns 0x1102_446F. -/
def execJtagIdcode (s : State) : Host.Outcome State Fault Refusal :=
  .next (s.tapInstruction .idcode [])

/-- JTAG_SAMPLE_PRELOAD (R543): TAP instruction SAMPLE/PRELOAD. -/
def execJtagSamplePreload (shift : List Bool) (s : State) : Host.Outcome State Fault Refusal :=
  .next (s.tapInstruction .sample shift)

/-- JTAG_EXTEST (R543): TAP instruction EXTEST outside FIELD. -/
def execJtagExtest (shift : List Bool) (s : State) : Host.Outcome State Fault Refusal :=
  .next (s.tapInstruction .extest shift)

/-- JTAG_EXTEST_PULSE (R543): TAP instruction EXTEST_PULSE outside FIELD. -/
def execJtagExtestPulse (shift : List Bool) (s : State) : Host.Outcome State Fault Refusal :=
  .next (s.tapInstruction .extestPulse shift)

/-- JTAG_EXTEST_TRAIN (R543): TAP instruction EXTEST_TRAIN outside FIELD. -/
def execJtagExtestTrain (shift : List Bool) (s : State) : Host.Outcome State Fault Refusal :=
  .next (s.tapInstruction .extestTrain shift)

/-- JTAG_DBGACC (R618): TAP instruction DBGACC selects the debug access port where enabled. -/
def execJtagDbgacc (s : State) : Host.Outcome State Fault Refusal :=
  .next (s.tapInstruction .dbgacc [])

/-- DEBUG_HALT (R85): the debug port halts the yoke running a named task; its checker stops. -/
def execDebugHalt (f : FoldId) (id : Word) (s : State) : Host.Outcome State Fault Refusal :=
  .next (s.debugHaltTask f id)

/-- DEBUG_RESUME (R618): the debug port resumes a halted yoke. -/
def execDebugResume (y : YokeId) (s : State) : Host.Outcome State Fault Refusal :=
  .next (s.debugGo y .resumed)

/-- DEBUG_STEP (R618): the debug port single-steps one instruction. -/
def execDebugStep (y : YokeId) (s : State) : Host.Outcome State Fault Refusal :=
  .next (s.debugGo y .stepping)

/-- DEBUG_REGISTER_ACCESS (R618): the debug port reads or writes the halted leading core's registers. -/
def execDebugRegisterAccess (y : YokeId) (n : Fin 41) (w : Option DWord)
    (s : State) : Host.Outcome State Fault Refusal :=
  .next (s.debugRegister y n.val w)

/-- DEBUG_MEMORY_ACCESS (R618): the debug port accesses a device physical address through service slot 47. -/
def execDebugMemoryAccess (a : PhysAddr) (size : Fin 5) (w : Option QWord) (flip : CwFlip)
    (s : State) : Host.Outcome State Fault Refusal :=
  .next (s.debugMemory a size w flip)

/-- REGISTER_WRITE (R17): A write to any register without its own row acts by its access codes. -/
def execRegisterWrite (a : BitVec 24) (v : Word) (s : State) : Host.Outcome State Fault Refusal :=
  .next (s.whenFirmware fun s => s.writeReg a.toNat v)

end Sys2Proof.Machine
end

