-- ==== Sys2Proof/Machine/TaskIns.lean ====
section
/-! DEFINITION. Meanings of the task and channel instructions (chapters 5 and 8). -/

namespace Sys2Proof.Machine

/-- SPAWN (R288): copies a checked task descriptor into the scheduler and pushes it on the yoke's deque. -/
def execSpawn (y : YokeId) (src : Gpr) (s : State) : Host.Outcome State Fault Refusal :=
  .next (s.issueSpawn y src)

/-- JOIN (R306): completes when the join counter is zero, else parks the task in a save slot. -/
def execJoin (y : YokeId) (src : Gpr) (s : State) : Host.Outcome State Fault Refusal :=
  .next (s.issueJoin y src)

/-- YIELD (R308): offers the yoke to another available task. -/
def execYield (y : YokeId) (s : State) : Host.Outcome State Fault Refusal :=
  .next (s.issueTask y 1 .none fun _ => .yield)

/-- TEND (R305): ends the task normally or by abort after its final checkpoint. -/
def execTend (y : YokeId) (op : Byte) (s : State) : Host.Outcome State Fault Refusal :=
  .next (if op.toNat > 1 then s.illegal y else s.issueTask y 2 .none fun _ => .tend (op == 1))

/-- CHPUT (R311): writes an entry to a task channel, or parks when full. -/
def execChput (y : YokeId) (d : Gpr) (src : Gpr) (s : State) : Host.Outcome State Fault Refusal :=
  .next (s.issueTask y 2 (.chput src d) fun c => .chput (c.rd src) (c.rd d))

/-- CHGET (R311): removes an entry from a task channel, or parks when empty. -/
def execChget (y : YokeId) (d : Gpr) (src : Gpr) (s : State) : Host.Outcome State Fault Refusal :=
  .next (s.issueTask y 2 (.operand src) fun c => .chget d (c.rd src))

/-- TID (R213): returns the task identifier. -/
def execTid (y : YokeId) (d : Gpr) (s : State) : Host.Outcome State Fault Refusal :=
  .next (s.issue y (.tid d))

end Sys2Proof.Machine
end

