-- ==== Sys2Proof/Machine/TwinCmds.lean ====
section
/-! DEFINITION. Meanings of the twin link's commands and events (chapter 13). -/

namespace Sys2Proof.Machine

/-- TWIN_FLIT_RECEIVE (R474): A twin link flit arrives; FEC corrects it, its CRC is checked, ACK and returned credits
are taken, REQ or RSP messages are buffered, and a flit failing its CRC is discarded and counted in TWIN.LINKCNT. -/
def execTwinFlitReceive (x : Flit) (errs : Nat) (s : State) : Host.Outcome State Fault Refusal :=
  .next (s.whenMain fun s => s.twinFlit x errs)

/-- TWIN_LINK_UP (R480): the twin link comes up and the claims are resolved into roles. -/
def execTwinLinkUp (h : Heartbeat) (s : State) : Host.Outcome State Fault Refusal :=
  .next (s.whenMain fun s => s.twinLinkUp h)

/-- TWIN_LINK_LOSS (R489): no intact flit for 10 µs or lane misalignment loses the link; CROSS folds go SINGLE. -/
def execTwinLinkLoss (lanes : Bool) (s : State) : Host.Outcome State Fault Refusal :=
  .next (s.whenMain fun s => s.twinLinkLoss lanes)

/-- FLIT_RESEND (R475): an unacknowledged flit after 1 µs causes resending from it onward. -/
def execFlitResend (s : State) : Host.Outcome State Fault Refusal :=
  .next (s.whenMain fun s => s.flitResend)

/-- TWIN_HEARTBEAT (R481): each slot cycle the device sends a heartbeat with role, health and a time message. -/
def execTwinHeartbeat (s : State) : Host.Outcome State Fault Refusal :=
  .next (s.whenMain fun s => s.twinHeartbeat)

/-- TWIN_HEARTBEAT_RECEIVE (R481): A received heartbeat updates partner state and the Follow's time steering. -/
def execTwinHeartbeatReceive (h : Heartbeat) (s : State) : Host.Outcome State Fault Refusal :=
  .next (s.whenMain fun s => s.twinBeat h)

/-- TWIN_DIGEST_RECEIVE (R484): A partner's input digest entry is received. -/
def execTwinDigestReceive (f : FoldId) (d : Digest) (s : State) : Host.Outcome State Fault Refusal :=
  .next (s.whenMain fun s => s.twinDigest f d)

/-- TWIN_SEAL_RECEIVE (R484): the partner's seal arrives and the agreed lists are formed and forwarding starts. -/
def execTwinSealReceive (f : FoldId) (n : Nat) (v : KMap Nat FrozenPair)
    (s : State) : Host.Outcome State Fault Refusal :=
  .next (s.whenMain fun s => s.twinSeal f n v)

/-- TWIN_FORWARD_RECEIVE (R484): forwarded input content from the partner is received. -/
def execTwinForwardReceive (f : FoldId) (dest : Half) (bytes : List Byte) (content : List Byte)
    (s : State) : Host.Outcome State Fault Refusal :=
  .next (s.whenMain fun s => s.twinForward f dest bytes content)

/-- TWIN_SIGNATURE_RECEIVE (R487): the partner's signature record arrives and is compared. -/
def execTwinSignatureReceive (f : FoldId) (r : SigRecord) (s : State) : Host.Outcome State Fault Refusal :=
  .next (s.whenMain fun s => s.twinSignature f r)

/-- TWIN_STATE_RECEIVE (R494): A state-transfer page or register image arrives in a STATE slot. -/
def execTwinStateReceive (f : FoldId) (part : StatePart) (s : State) : Host.Outcome State Fault Refusal :=
  .next (s.whenMain fun s => s.stateReceive f part)

/-- TWIN_LOG_RECEIVE (R319): schedule-following log records from the Lead arrive at the Follow. -/
def execTwinLogReceive (sp : SpanId) (rs : List LogRec) (s : State) : Host.Outcome State Fault Refusal :=
  .next (s.whenMain fun s => s.twinLog sp rs)

/-- TWIN_PAGE_SEND (R494): the sending device sends a bulk, delta or cut page in a fold's STATE slot. -/
def execTwinPageSend (f : FoldId) (s : State) : Host.Outcome State Fault Refusal :=
  .next (s.whenMain fun s => s.twinPageSend f)

/-- TWIN_DETACH (R493): A write of TWIN.CTL.DETACH sends a detach notice and takes the link down. -/
def execTwinDetach (v : Word) (s : State) : Host.Outcome State Fault Refusal :=
  .next (s.whenFirmware fun s => s.writeTwinCtl (v ||| 4))

/-- TWIN_DETACH_RECEIVE (R493): A detach notice from the partner raises DETACHED. -/
def execTwinDetachReceive (s : State) : Host.Outcome State Fault Refusal :=
  .next (s.whenMain fun s => s.twinDetached)

/-- TWIN_MODE_WRITE (R483): A write of TWIN.FCTL.MODE, refused unless permitted. -/
def execTwinModeWrite (f : FoldId) (m : BitVec 3) (s : State) : Host.Outcome State Fault Refusal :=
  .next (s.whenFirmware fun s => s.writeMode f m)

/-- FWDMAX_WRITE (R486): A write of FWDMAX, refused if the total exceeds 8 KiB. -/
def execFwdmaxWrite (f : FoldId) (n : BitVec 10) (s : State) : Host.Outcome State Fault Refusal :=
  .next (s.whenFirmware fun s => s.writeFwdmax f n)

/-- TWINOK_WRITE (R614): A write of SEC.TWINOK.OK marks the identity proof successful. -/
def execTwinokWrite (v : Word) (s : State) : Host.Outcome State Fault Refusal :=
  .next (s.whenFirmware fun s => s.writeTwinok v)

end Sys2Proof.Machine
end

