-- ==== Sys2Proof/Machine/YokeEvents.lean ====
section
/-! DEFINITION. Meanings of the events of a yoke: comparison, checkpoints, delivery, load and fetch returns, decoding traps
(chapters 2, 4, 5, 7, 9). -/

namespace Sys2Proof.Machine

/-- TRAILING_COMPARE (R49): the trailing core executes a compare-queue entry and the checker compares its bus outputs
with the leading core's. -/
def execTrailingCompare (y : YokeId) (dist : Disturb) (s : State) : Host.Outcome State Fault Refusal :=
  .next (s.trailingCompare y dist)

/-- CHECKPOINT_COUNT_TRIGGER (R66): the 4,096th retired instruction since the last checkpoint triggers a checkpoint.
-/
def execCheckpointCountTrigger (y : YokeId) (s : State) : Host.Outcome State Fault Refusal :=
  .next (s.trigger y fun k => decide (k.retired ≥ 4096))

/-- CHECKPOINT_TIME_TRIGGER (R66): 4,608 fc of leading-core time since the last checkpoint trigger a checkpoint at the
next boundary. -/
def execCheckpointTimeTrigger (y : YokeId) (s : State) : Host.Outcome State Fault Refusal :=
  .next (s.trigger y fun k => decide (s.clk.fc - k.ckFc ≥ 4608))

/-- CHECKPOINT_CONFIRM (R69): the trailing core reaches the checkpoint point, state and held entries check, and the
pending slot becomes committed. -/
def execCheckpointConfirm (y : YokeId) (dist : CkDisturb) (s : State) : Host.Outcome State Fault Refusal :=
  .next (if (s.yoke y).confirmReady then s.confirm y dist else s)

/-- WHB_DRAIN (R341): A held write-hold buffer entry of a confirmed group is delivered to its bank. -/
def execWhbDrain (y : YokeId) (ecc : Ecc) (s : State) : Host.Outcome State Fault Refusal :=
  .next (s.drain y ecc)

/-- GROUP_VISIBLE (R358): once every bank has accepted a group's entries they become visible together. -/
def execGroupVisible (y : YokeId) (s : State) : Host.Outcome State Fault Refusal :=
  .next (s.groupVisible y)

/-- SLIP_COLLAPSE_COMPLETE (R60): the trailing core reaches a slip-collapsing instruction; after comparison its effect
is performed once and its result enters both cores. -/
def execSlipCollapseComplete (y : YokeId) (dist : Disturb) (s : State) : Host.Outcome State Fault Refusal :=
  .next (s.collapseStep y dist)

/-- LOAD_COMPLETE (R184, R356): load data returns from a bank or the fabric with its status. -/
def execLoadComplete (y : YokeId) (n : Nat) (flip : CwFlip) (s : State) : Host.Outcome State Fault Refusal :=
  .next (s.loadComplete y n flip)

/-- FETCH_COMPLETE (R168): an instruction fetch block returns, or its failure raises a vector when decoding needs the
byte. -/
def execFetchComplete (y : YokeId) (block : Nat) (needed : BitVec 16) (flip : CwFlip)
    (s : State) : Host.Outcome State Fault Refusal :=
  .next (s.fetchComplete y block needed flip)

/-- BRANCH_RESOLVE (R177): A predicted branch resolves 1 fc after issue and a misprediction squashes the wrong path.
-/
def execBranchResolve (y : YokeId) (s : State) : Host.Outcome State Fault Refusal :=
  .next (s.branchResolve y)

/-- EVENT_ACCEPT (R272): an eligible yoke reaching a boundary accepts the lowest pending deferrable event. -/
def execEventAccept (y : YokeId) (s : State) : Host.Outcome State Fault Refusal :=
  .next (s.eventAccept y)

/-- ILLEGAL_OPCODE (R167): decoding meets an illegal byte, prefix combination, length or field and raises vector 0x00.
-/
def execIllegalOpcode (y : YokeId) (bytes : List Byte) (s : State) : Host.Outcome State Fault Refusal :=
  .next (s.decodeTrap y bytes .illegal)

/-- RESERVED_OPCODE (R167): decoding meets a reserved opcode or prefix and raises vector 0x01 for emulation. -/
def execReservedOpcode (y : YokeId) (bytes : List Byte) (s : State) : Host.Outcome State Fault Refusal :=
  .next (s.decodeTrap y bytes .reserved)

/-- TRAILING_PROGRESS_TIMEOUT (R83): the trailing core makes no progress for 4,096 fc while the compare queue is not
empty, and the checker records a mismatch of kind 0b1101. -/
def execTrailingProgressTimeout (y : YokeId) (s : State) : Host.Outcome State Fault Refusal :=
  .next (s.trailTimeout y)

end Sys2Proof.Machine
end

