-- ==== Sys2Proof/Machine/Dispatch.lean ====
section
/-! DEFINITION. One arm for each command: the call of its meaning. -/

namespace Sys2Proof.Machine

/-- The effect of a command on everything but the queue. -/
def exec (i : Instr) (s : State) : Host.Outcome State Fault Refusal :=
  match i with
  | .epochBoundary f => Sys2Proof.Machine.execEpochBoundary f s
  | .inputFreeze f => Sys2Proof.Machine.execInputFreeze f s
  | .spanRestEntry sp => Sys2Proof.Machine.execSpanRestEntry sp s
  | .spanRestReached sp => Sys2Proof.Machine.execSpanRestReached sp s
  | .spanWakeDone sp => Sys2Proof.Machine.execSpanWakeDone sp s
  | .spanWakeCommand sp v => Sys2Proof.Machine.execSpanWakeCommand sp v s
  | .trailingCompare y dist => Sys2Proof.Machine.execTrailingCompare y dist s
  | .checkpointCountTrigger y => Sys2Proof.Machine.execCheckpointCountTrigger y s
  | .checkpointTimeTrigger y => Sys2Proof.Machine.execCheckpointTimeTrigger y s
  | .checkpointConfirm y dist => Sys2Proof.Machine.execCheckpointConfirm y dist s
  | .whbDrain y ecc => Sys2Proof.Machine.execWhbDrain y ecc s
  | .groupVisible y => Sys2Proof.Machine.execGroupVisible y s
  | .slipCollapseComplete y dist => Sys2Proof.Machine.execSlipCollapseComplete y dist s
  | .loadComplete y n flip => Sys2Proof.Machine.execLoadComplete y n flip s
  | .fetchComplete y block needed flip => Sys2Proof.Machine.execFetchComplete y block needed flip s
  | .branchResolve y => Sys2Proof.Machine.execBranchResolve y s
  | .floatBegin y => Sys2Proof.Machine.execFloatBegin y s
  | .floatRetire y => Sys2Proof.Machine.execFloatRetire y s
  | .eventAccept y => Sys2Proof.Machine.execEventAccept y s
  | .illegalOpcode y bytes => Sys2Proof.Machine.execIllegalOpcode y bytes s
  | .reservedOpcode y bytes => Sys2Proof.Machine.execReservedOpcode y bytes s
  | .add y wide rep d a => Sys2Proof.Machine.execAdd y wide rep d a s
  | .adc y wide rep d a => Sys2Proof.Machine.execAdc y wide rep d a s
  | .sub y wide rep d a => Sys2Proof.Machine.execSub y wide rep d a s
  | .sbc y wide rep d a => Sys2Proof.Machine.execSbc y wide rep d a s
  | .and y wide rep d a => Sys2Proof.Machine.execAnd y wide rep d a s
  | .or y wide rep d a => Sys2Proof.Machine.execOr y wide rep d a s
  | .xor y wide rep d a => Sys2Proof.Machine.execXor y wide rep d a s
  | .andn y wide rep d a => Sys2Proof.Machine.execAndn y wide rep d a s
  | .shl y wide rep d a => Sys2Proof.Machine.execShl y wide rep d a s
  | .shr y wide rep d a => Sys2Proof.Machine.execShr y wide rep d a s
  | .sar y wide rep d a => Sys2Proof.Machine.execSar y wide rep d a s
  | .cmp y wide rep d a => Sys2Proof.Machine.execCmp y wide rep d a s
  | .tst y wide rep d a => Sys2Proof.Machine.execTst y wide rep d a s
  | .mov y wide rep d a => Sys2Proof.Machine.execMov y wide rep d a s
  | .nop y => Sys2Proof.Machine.execNop y s
  | .muls y d src => Sys2Proof.Machine.execMuls y d src s
  | .mulu y d src => Sys2Proof.Machine.execMulu y d src s
  | .mulws y d src => Sys2Proof.Machine.execMulws y d src s
  | .mulwu y d src => Sys2Proof.Machine.execMulwu y d src s
  | .dstep y rep d src => Sys2Proof.Machine.execDstep y rep d src s
  | .dsteps y rep d src => Sys2Proof.Machine.execDsteps y rep d src s
  | .dfix y d src => Sys2Proof.Machine.execDfix y d src s
  | .neg y d src => Sys2Proof.Machine.execNeg y d src s
  | .not y d src => Sys2Proof.Machine.execNot y d src s
  | .extb y d src => Sys2Proof.Machine.execExtb y d src s
  | .exth y d src => Sys2Proof.Machine.execExth y d src s
  | .clz y d src => Sys2Proof.Machine.execClz y d src s
  | .ldb y d m => Sys2Proof.Machine.execLdb y d m s
  | .ldbu y d m => Sys2Proof.Machine.execLdbu y d m s
  | .ldh y d m => Sys2Proof.Machine.execLdh y d m s
  | .ldhu y d m => Sys2Proof.Machine.execLdhu y d m s
  | .ldw y d m => Sys2Proof.Machine.execLdw y d m s
  | .ldd y d m => Sys2Proof.Machine.execLdd y d m s
  | .ldq y d m => Sys2Proof.Machine.execLdq y d m s
  | .stb y d m => Sys2Proof.Machine.execStb y d m s
  | .sth y d m => Sys2Proof.Machine.execSth y d m s
  | .stw y d m => Sys2Proof.Machine.execStw y d m s
  | .std y d m => Sys2Proof.Machine.execStd y d m s
  | .stq y d m => Sys2Proof.Machine.execStq y d m s
  | .xchg y wide ord d m => Sys2Proof.Machine.execXchg y wide ord d m s
  | .cas y wide ord d new m => Sys2Proof.Machine.execCas y wide ord d new m s
  | .fadd y wide ord d ad m => Sys2Proof.Machine.execFadd y wide ord d ad m s
  | .tlock y d m => Sys2Proof.Machine.execTlock y d m s
  | .tunlock y m => Sys2Proof.Machine.execTunlock y m s
  | .movm y rep d src => Sys2Proof.Machine.execMovm y rep d src s
  | .fillm y rep d src => Sys2Proof.Machine.execFillm y rep d src s
  | .cmpm y rep d src => Sys2Proof.Machine.execCmpm y rep d src s
  | .br y t => Sys2Proof.Machine.execBr y t s
  | .bcc y cond t => Sys2Proof.Machine.execBcc y cond t s
  | .brl y t => Sys2Proof.Machine.execBrl y t s
  | .jr y src => Sys2Proof.Machine.execJr y src s
  | .jrl y src => Sys2Proof.Machine.execJrl y src s
  | .ret y => Sys2Proof.Machine.execRet y s
  | .gate y n => Sys2Proof.Machine.execGate y n s
  | .trap y n => Sys2Proof.Machine.execTrap y n s
  | .iret y => Sys2Proof.Machine.execIret y s
  | .sysc y n => Sys2Proof.Machine.execSysc y n s
  | .loop y disp => Sys2Proof.Machine.execLoop y disp s
  | .sysrd y d num => Sys2Proof.Machine.execSysrd y d num s
  | .syswr y num src => Sys2Proof.Machine.execSyswr y num src s
  | .fence y code => Sys2Proof.Machine.execFence y code s
  | .ckpt y => Sys2Proof.Machine.execCkpt y s
  | .wait y d src => Sys2Proof.Machine.execWait y d src s
  | .waitTimeout y => Sys2Proof.Machine.execWaitTimeout y s
  | .sample y d pair => Sys2Proof.Machine.execSample y d pair s
  | .emit y loc size d m => Sys2Proof.Machine.execEmit y loc size d m s
  | .mask y => Sys2Proof.Machine.execMask y s
  | .unmask y => Sys2Proof.Machine.execUnmask y s
  | .bkld y b => Sys2Proof.Machine.execBkld y b s
  | .brk y => Sys2Proof.Machine.execBrk y s
  | .spawn y src => Sys2Proof.Machine.execSpawn y src s
  | .join y src => Sys2Proof.Machine.execJoin y src s
  | .yield y => Sys2Proof.Machine.execYield y s
  | .tend y op => Sys2Proof.Machine.execTend y op s
  | .chput y d src => Sys2Proof.Machine.execChput y d src s
  | .chget y d src => Sys2Proof.Machine.execChget y d src s
  | .tid y d => Sys2Proof.Machine.execTid y d s
  | .addD y rnd d src b => Sys2Proof.Machine.execAddD y rnd d src b s
  | .addS y rnd d src b => Sys2Proof.Machine.execAddS y rnd d src b s
  | .subD y rnd d src b => Sys2Proof.Machine.execSubD y rnd d src b s
  | .subS y rnd d src b => Sys2Proof.Machine.execSubS y rnd d src b s
  | .mulD y rnd d src b => Sys2Proof.Machine.execMulD y rnd d src b s
  | .mulS y rnd d src b => Sys2Proof.Machine.execMulS y rnd d src b s
  | .divD y rnd d src b => Sys2Proof.Machine.execDivD y rnd d src b s
  | .divS y rnd d src b => Sys2Proof.Machine.execDivS y rnd d src b s
  | .sqrtD y rnd d src => Sys2Proof.Machine.execSqrtD y rnd d src s
  | .sqrtS y rnd d src => Sys2Proof.Machine.execSqrtS y rnd d src s
  | .fmaD y rnd d src b => Sys2Proof.Machine.execFmaD y rnd d src b s
  | .fmaS y rnd d src b => Sys2Proof.Machine.execFmaS y rnd d src b s
  | .fmsD y rnd d src b => Sys2Proof.Machine.execFmsD y rnd d src b s
  | .fmsS y rnd d src b => Sys2Proof.Machine.execFmsS y rnd d src b s
  | .fnmaD y rnd d src b => Sys2Proof.Machine.execFnmaD y rnd d src b s
  | .fnmaS y rnd d src b => Sys2Proof.Machine.execFnmaS y rnd d src b s
  | .fnmsD y rnd d src b => Sys2Proof.Machine.execFnmsD y rnd d src b s
  | .fnmsS y rnd d src b => Sys2Proof.Machine.execFnmsS y rnd d src b s
  | .minD y x d src b => Sys2Proof.Machine.execMinD y x d src b s
  | .minS y x d src b => Sys2Proof.Machine.execMinS y x d src b s
  | .maxD y x d src b => Sys2Proof.Machine.execMaxD y x d src b s
  | .maxS y x d src b => Sys2Proof.Machine.execMaxS y x d src b s
  | .cmpD y x src b => Sys2Proof.Machine.execCmpD y x src b s
  | .cmpS y x src b => Sys2Proof.Machine.execCmpS y x src b s
  | .classD y d src => Sys2Proof.Machine.execClassD y d src s
  | .classS y d src => Sys2Proof.Machine.execClassS y d src s
  | .negD y d src => Sys2Proof.Machine.execNegD y d src s
  | .negS y d src => Sys2Proof.Machine.execNegS y d src s
  | .absD y d src => Sys2Proof.Machine.execAbsD y d src s
  | .absS y d src => Sys2Proof.Machine.execAbsS y d src s
  | .rintD y rnd x d src => Sys2Proof.Machine.execRintD y rnd x d src s
  | .rintS y rnd x d src => Sys2Proof.Machine.execRintS y rnd x d src s
  | .fld y x d m => Sys2Proof.Machine.execFld y x d m s
  | .fst y x d m => Sys2Proof.Machine.execFst y x d m s
  | .fmov y d src => Sys2Proof.Machine.execFmov y d src s
  | .fmvg y x d src => Sys2Proof.Machine.execFmvg y x d src s
  | .fmvf y x d src => Sys2Proof.Machine.execFmvf y x d src s
  | .cvtif y rnd u x d src => Sys2Proof.Machine.execCvtif y rnd u x d src s
  | .cvtfi y rnd u x d src => Sys2Proof.Machine.execCvtfi y rnd u x d src s
  | .cvtff y rnd x d src => Sys2Proof.Machine.execCvtff y rnd x d src s
  | .stWrite y src => Sys2Proof.Machine.execStWrite y src s
  | .fcsrWrite y src => Sys2Proof.Machine.execFcsrWrite y src s
  | .oepochWrite y src => Sys2Proof.Machine.execOepochWrite y src s
  | .espWrite y src => Sys2Proof.Machine.execEspWrite y src s
  | .skszWrite y src => Sys2Proof.Machine.execSkszWrite y src s
  | .chbaseWrite y src => Sys2Proof.Machine.execChbaseWrite y src s
  | .chcfgWrite y src => Sys2Proof.Machine.execChcfgWrite y src s
  | .ownerPop y => Sys2Proof.Machine.execOwnerPop y s
  | .overflowTake y => Sys2Proof.Machine.execOverflowTake y s
  | .steal y => Sys2Proof.Machine.execSteal y s
  | .crossSpanSteal y => Sys2Proof.Machine.execCrossSpanSteal y s
  | .deferredOverflowPush sp => Sys2Proof.Machine.execDeferredOverflowPush sp s
  | .followTaskStart y => Sys2Proof.Machine.execFollowTaskStart y s
  | .debugHalt f id => Sys2Proof.Machine.execDebugHalt f id s
  | .debugResume y => Sys2Proof.Machine.execDebugResume y s
  | .debugStep y => Sys2Proof.Machine.execDebugStep y s
  | .debugRegisterAccess y n w => Sys2Proof.Machine.execDebugRegisterAccess y n w s
  | .debugMemoryAccess a size w flip => Sys2Proof.Machine.execDebugMemoryAccess a size w flip s
  | .injectTestMismatch sp v => Sys2Proof.Machine.execInjectTestMismatch sp v s
  | .slipTargetWrite sp v => Sys2Proof.Machine.execSlipTargetWrite sp v s
  | .timeSet v => Sys2Proof.Machine.execTimeSet v s
  | .timeSourceWrite v => Sys2Proof.Machine.execTimeSourceWrite v s
  | .ptpMessageReceive offset => Sys2Proof.Machine.execPtpMessageReceive offset s
  | .holdoverEnter => Sys2Proof.Machine.execHoldoverEnter s
  | .holdingAreaWrite f isSize v => Sys2Proof.Machine.execHoldingAreaWrite f isSize v s
  | .epochConfigWrite f v => Sys2Proof.Machine.execEpochConfigWrite f v s
  | .windowCommit f w v => Sys2Proof.Machine.execWindowCommit f w v s
  | .groupWipeDone g => Sys2Proof.Machine.execGroupWipeDone g s
  | .spanWipeDone sp => Sys2Proof.Machine.execSpanWipeDone sp s
  | .patrolScrub kind n off e0 e1 => Sys2Proof.Machine.execPatrolScrub kind n off e0 e1 s
  | .eccWriteback kind n off => Sys2Proof.Machine.execEccWriteback kind n off s
  | .fabricCrcRetry src dst hop o word => Sys2Proof.Machine.execFabricCrcRetry src dst hop o word s
  | .memctlClear sp v => Sys2Proof.Machine.execMemctlClear sp v s
  | .dmaStart c v ring oepoch => Sys2Proof.Machine.execDmaStart c v ring oepoch s
  | .dmaStop c => Sys2Proof.Machine.execDmaStop c s
  | .dmaStopEffect c flt => Sys2Proof.Machine.execDmaStopEffect c flt s
  | .dmaBulkStop hi v => Sys2Proof.Machine.execDmaBulkStop hi v s
  | .dmaMove c flt => Sys2Proof.Machine.execDmaMove c flt s
  | .dmaGather c flt => Sys2Proof.Machine.execDmaGather c flt s
  | .dmaScatter c flt => Sys2Proof.Machine.execDmaScatter c flt s
  | .dmaLoop c flt => Sys2Proof.Machine.execDmaLoop c flt s
  | .dmaWait c flt => Sys2Proof.Machine.execDmaWait c flt s
  | .dmaWaitEnd c flt => Sys2Proof.Machine.execDmaWaitEnd c flt s
  | .dmaWaitTimeout c => Sys2Proof.Machine.execDmaWaitTimeout c s
  | .dmaSignal c flt => Sys2Proof.Machine.execDmaSignal c flt s
  | .dmaCheck c flt => Sys2Proof.Machine.execDmaCheck c flt s
  | .dmaEnd c flt => Sys2Proof.Machine.execDmaEnd c flt s
  | .dmaBurst c flt => Sys2Proof.Machine.execDmaBurst c flt s
  | .dmaWatchdogExpiry c => Sys2Proof.Machine.execDmaWatchdogExpiry c s
  | .cevtSet c => Sys2Proof.Machine.execCevtSet c s
  | .foldBuild f => Sys2Proof.Machine.execFoldBuild f s
  | .foldAdmit f => Sys2Proof.Machine.execFoldAdmit f s
  | .foldSafeWrite f => Sys2Proof.Machine.execFoldSafeWrite f s
  | .foldEmpty f => Sys2Proof.Machine.execFoldEmpty f s
  | .resourceAssign r f => Sys2Proof.Machine.execResourceAssign r f s
  | .resourceRelease r f => Sys2Proof.Machine.execResourceRelease r f s
  | .slotWrite n v => Sys2Proof.Machine.execSlotWrite n v s
  | .fabricFrameStart => Sys2Proof.Machine.execFabricFrameStart s
  | .xchDeclare x v => Sys2Proof.Machine.execXchDeclare x v s
  | .xchRelease x v => Sys2Proof.Machine.execXchRelease x v s
  | .xchRecv y d x => Sys2Proof.Machine.execXchRecv y d x s
  | .xchRxstatRead y d x => Sys2Proof.Machine.execXchRxstatRead y d x s
  | .powerBudgetWrite f v => Sys2Proof.Machine.execPowerBudgetWrite f v s
  | .powerWindowEnd => Sys2Proof.Machine.execPowerWindowEnd s
  | .clockStepApply sp => Sys2Proof.Machine.execClockStepApply sp s
  | .serviceTurn f answer mailbox => Sys2Proof.Machine.execServiceTurn f answer mailbox s
  | .faultReport n ext => Sys2Proof.Machine.execFaultReport n ext s
  | .incidentWindowClose num => Sys2Proof.Machine.execIncidentWindowClose num s
  | .reactionBegin => Sys2Proof.Machine.execReactionBegin s
  | .reactionComplete => Sys2Proof.Machine.execReactionComplete s
  | .fmRequest v => Sys2Proof.Machine.execFmRequest v s
  | .nsafeRelease => Sys2Proof.Machine.execNsafeRelease s
  | .sourceClassWrite c v => Sys2Proof.Machine.execSourceClassWrite c v s
  | .fwdcfgWrite f v => Sys2Proof.Machine.execFwdcfgWrite f v s
  | .foldWatchdogWarn f => Sys2Proof.Machine.execFoldWatchdogWarn f s
  | .foldWatchdogExpiry f => Sys2Proof.Machine.execFoldWatchdogExpiry f s
  | .foldWatchdogService y src => Sys2Proof.Machine.execFoldWatchdogService y src s
  | .foldWatchdogKey y src => Sys2Proof.Machine.execFoldWatchdogKey y src s
  | .foldWatchdogLock y src => Sys2Proof.Machine.execFoldWatchdogLock y src s
  | .aonWatchdogStart v => Sys2Proof.Machine.execAonWatchdogStart v s
  | .aonWatchdogExpiry => Sys2Proof.Machine.execAonWatchdogExpiry s
  | .aonWatchdogService v => Sys2Proof.Machine.execAonWatchdogService v s
  | .aonWatchdogKey v => Sys2Proof.Machine.execAonWatchdogKey v s
  | .aonWdcountClear v => Sys2Proof.Machine.execAonWdcountClear v s
  | .recorderArm v => Sys2Proof.Machine.execRecorderArm v s
  | .recorderArmed => Sys2Proof.Machine.execRecorderArmed s
  | .recorderTrigger v => Sys2Proof.Machine.execRecorderTrigger v s
  | .recorderMark v => Sys2Proof.Machine.execRecorderMark v s
  | .twinLinkUp h => Sys2Proof.Machine.execTwinLinkUp h s
  | .twinLinkLoss lanes => Sys2Proof.Machine.execTwinLinkLoss lanes s
  | .flitResend => Sys2Proof.Machine.execFlitResend s
  | .twinHeartbeat => Sys2Proof.Machine.execTwinHeartbeat s
  | .twinHeartbeatReceive h => Sys2Proof.Machine.execTwinHeartbeatReceive h s
  | .twinDigestReceive f d => Sys2Proof.Machine.execTwinDigestReceive f d s
  | .twinSealReceive f n v => Sys2Proof.Machine.execTwinSealReceive f n v s
  | .twinForwardReceive f dest bytes content => Sys2Proof.Machine.execTwinForwardReceive f dest bytes content s
  | .twinSignatureReceive f r => Sys2Proof.Machine.execTwinSignatureReceive f r s
  | .twinStateReceive f part => Sys2Proof.Machine.execTwinStateReceive f part s
  | .twinLogReceive sp rs => Sys2Proof.Machine.execTwinLogReceive sp rs s
  | .twinPageSend f => Sys2Proof.Machine.execTwinPageSend f s
  | .twinDetach v => Sys2Proof.Machine.execTwinDetach v s
  | .twinDetachReceive => Sys2Proof.Machine.execTwinDetachReceive s
  | .twinModeWrite f m => Sys2Proof.Machine.execTwinModeWrite f m s
  | .fwdmaxWrite f n => Sys2Proof.Machine.execFwdmaxWrite f n s
  | .twinokWrite v => Sys2Proof.Machine.execTwinokWrite v s
  | .ethFrameReceive p frame => Sys2Proof.Machine.execEthFrameReceive p frame s
  | .ethFrameTransmit p => Sys2Proof.Machine.execEthFrameTransmit p s
  | .gateListAdvance p => Sys2Proof.Machine.execGateListAdvance p s
  | .ethLinkUp p mode => Sys2Proof.Machine.execEthLinkUp p mode s
  | .ethLinkDown p => Sys2Proof.Machine.execEthLinkDown p s
  | .portModeWrite p v => Sys2Proof.Machine.execPortModeWrite p v s
  | .connectionStale n => Sys2Proof.Machine.execConnectionStale n s
  | .queueRxPop y d p q => Sys2Proof.Machine.execQueueRxPop y d p q s
  | .queueRxstatRead y d p q => Sys2Proof.Machine.execQueueRxstatRead y d p q s
  | .pcieWriteReceive f off data ecrc => Sys2Proof.Machine.execPcieWriteReceive f off data ecrc s
  | .pcieReadReceive f ecrc => Sys2Proof.Machine.execPcieReadReceive f ecrc s
  | .pcieCompletionReceive tag status data ecrc => Sys2Proof.Machine.execPcieCompletionReceive tag status data ecrc s
  | .pcieCompletionTimeout tag => Sys2Proof.Machine.execPcieCompletionTimeout tag s
  | .pcieConfigRequest c ecrc => Sys2Proof.Machine.execPcieConfigRequest c ecrc s
  | .pcieTlpTransmit owner => Sys2Proof.Machine.execPcieTlpTransmit owner s
  | .postedWriteUndelivered => Sys2Proof.Machine.execPostedWriteUndelivered s
  | .perstAssert => Sys2Proof.Machine.execPerstAssert s
  | .perstRelease => Sys2Proof.Machine.execPerstRelease s
  | .pcieLinkUp speed width => Sys2Proof.Machine.execPcieLinkUp speed width s
  | .peclkLoss => Sys2Proof.Machine.execPeclkLoss s
  | .pairTick => Sys2Proof.Machine.execPairTick s
  | .discrepancyFault n => Sys2Proof.Machine.execDiscrepancyFault n s
  | .testPulse onB => Sys2Proof.Machine.execTestPulse onB s
  | .pairWindowLoad y d n r => Sys2Proof.Machine.execPairWindowLoad y d n r s
  | .safeOutputSoaOn k => Sys2Proof.Machine.execSafeOutputSoaOn k s
  | .readbackFault k a0 b0 a1 b1 => Sys2Proof.Machine.execReadbackFault k a0 b0 a1 b1 s
  | .outputTest k => Sys2Proof.Machine.execOutputTest k s
  | .outputTestEnd k => Sys2Proof.Machine.execOutputTestEnd k s
  | .outputConfigWrite k v => Sys2Proof.Machine.execOutputConfigWrite k v s
  | .inputConfigWrite n v => Sys2Proof.Machine.execInputConfigWrite n v s
  | .ipnetWrite n v => Sys2Proof.Machine.execIpnetWrite n v s
  | .connectionCommit v => Sys2Proof.Machine.execConnectionCommit v s
  | .smbusStatusRead => Sys2Proof.Machine.execSmbusStatusRead s
  | .smbusMailboxRead => Sys2Proof.Machine.execSmbusMailboxRead s
  | .smbusMailboxWrite bs pec => Sys2Proof.Machine.execSmbusMailboxWrite bs pec s
  | .smbusAlertRead => Sys2Proof.Machine.execSmbusAlertRead s
  | .smbusAlertResponse => Sys2Proof.Machine.execSmbusAlertResponse s
  | .smbusUnknownCommand => Sys2Proof.Machine.execSmbusUnknownCommand s
  | .jtagBypass => Sys2Proof.Machine.execJtagBypass s
  | .jtagIdcode => Sys2Proof.Machine.execJtagIdcode s
  | .jtagSamplePreload shift => Sys2Proof.Machine.execJtagSamplePreload shift s
  | .jtagExtest shift => Sys2Proof.Machine.execJtagExtest shift s
  | .jtagExtestPulse shift => Sys2Proof.Machine.execJtagExtestPulse shift s
  | .jtagExtestTrain shift => Sys2Proof.Machine.execJtagExtestTrain shift s
  | .jtagDbgacc => Sys2Proof.Machine.execJtagDbgacc s
  | .clockMonitorWindow b count => Sys2Proof.Machine.execClockMonitorWindow b count s
  | .pllLockLoss n => Sys2Proof.Machine.execPllLockLoss n s
  | .aonClockLoss => Sys2Proof.Machine.execAonClockLoss s
  | .bellTick => Sys2Proof.Machine.execBellTick s
  | .bellAlarm => Sys2Proof.Machine.execBellAlarm s
  | .tempReading vals => Sys2Proof.Machine.execTempReading vals s
  | .deepStandbyRequest v => Sys2Proof.Machine.execDeepStandbyRequest v s
  | .mainenLow => Sys2Proof.Machine.execMainenLow s
  | .wakeinRise => Sys2Proof.Machine.execWakeinRise s
  | .supplyFault => Sys2Proof.Machine.execSupplyFault s
  | .tallySlackMeasure sp v => Sys2Proof.Machine.execTallySlackMeasure sp v s
  | .tallySramMeasure sp scratch group => Sys2Proof.Machine.execTallySramMeasure sp scratch group s
  | .tallyBandCount sp => Sys2Proof.Machine.execTallyBandCount sp s
  | .tallyRetire sp v => Sys2Proof.Machine.execTallyRetire sp v s
  | .tallySminRead sp => Sys2Proof.Machine.execTallySminRead sp s
  | .logicBistStart v => Sys2Proof.Machine.execLogicBistStart v s
  | .logicBistBegin y => Sys2Proof.Machine.execLogicBistBegin y s
  | .logicBistDone y pass => Sys2Proof.Machine.execLogicBistDone y pass s
  | .memoryBistStart v => Sys2Proof.Machine.execMemoryBistStart v s
  | .memoryBistDone unit pass => Sys2Proof.Machine.execMemoryBistDone unit pass s
  | .vaonPowerOn => Sys2Proof.Machine.execVaonPowerOn s
  | .crystalReady => Sys2Proof.Machine.execCrystalReady s
  | .crystalTimeout => Sys2Proof.Machine.execCrystalTimeout s
  | .nresetAssert => Sys2Proof.Machine.execNresetAssert s
  | .nresetRelease straps => Sys2Proof.Machine.execNresetRelease straps s
  | .powerGood straps flash => Sys2Proof.Machine.execPowerGood straps flash s
  | .startupBistDone deferred yokes units => Sys2Proof.Machine.execStartupBistDone deferred yokes units s
  | .otpProgram v bad => Sys2Proof.Machine.execOtpProgram v bad s
  | .lifecycleRequest v => Sys2Proof.Machine.execLifecycleRequest v s
  | .manifestVerify v image => Sys2Proof.Machine.execManifestVerify v image s
  | .manifestVerifyDone => Sys2Proof.Machine.execManifestVerifyDone s
  | .fwSvnAdvance n => Sys2Proof.Machine.execFwSvnAdvance n s
  | .mnSvnAdvance n => Sys2Proof.Machine.execMnSvnAdvance n s
  | .cryptoSubmit v ws flips => Sys2Proof.Machine.execCryptoSubmit v ws flips s
  | .cryptoAesGcmEncrypt => Sys2Proof.Machine.execCryptoAesGcmEncrypt s
  | .cryptoAesGcmDecrypt => Sys2Proof.Machine.execCryptoAesGcmDecrypt s
  | .cryptoGmac => Sys2Proof.Machine.execCryptoGmac s
  | .cryptoSha384 => Sys2Proof.Machine.execCryptoSha384 s
  | .cryptoEcdsaVerify => Sys2Proof.Machine.execCryptoEcdsaVerify s
  | .cryptoKeyUnwrap => Sys2Proof.Machine.execCryptoKeyUnwrap s
  | .cryptoRandomKey => Sys2Proof.Machine.execCryptoRandomKey s
  | .rngOutput healthy => Sys2Proof.Machine.execRngOutput healthy s
  | .challengeGenerate => Sys2Proof.Machine.execChallengeGenerate s
  | .debugOpen v => Sys2Proof.Machine.execDebugOpen v s
  | .tamper kind => Sys2Proof.Machine.execTamper kind s
  | .mailboxAck f => Sys2Proof.Machine.execMailboxAck f s
  | .registerWrite a v => Sys2Proof.Machine.execRegisterWrite a v s
  | .twinFlitReceive x errs => Sys2Proof.Machine.execTwinFlitReceive x errs s
  | .trailingProgressTimeout y => Sys2Proof.Machine.execTrailingProgressTimeout y s
  | .inputSample a b => Sys2Proof.Machine.execInputSample a b s
  | .pcieLinkDown => Sys2Proof.Machine.execPcieLinkDown s
  | .pcieTlpAck n => Sys2Proof.Machine.execPcieTlpAck n s
  | .vaonMonitorFault => Sys2Proof.Machine.execVaonMonitorFault s
  | .vaonPowerLoss => Sys2Proof.Machine.execVaonPowerLoss s
  | .droverCoreTest c => Sys2Proof.Machine.execDroverCoreTest c s
  | .droverCoreTestDone => Sys2Proof.Machine.execDroverCoreTestDone s

end Sys2Proof.Machine
end

