-- ==== Sys2Proof/Machine/Step.lean ====
section
/-! DEFINITION. One step of the block: the command at the front of the queue, or one fc of time when nothing waits. -/

namespace Sys2Proof.Machine

/-- One fc passes (R14, R15, R96): device time advances by the increment every fabric cycle of 2 fc, the Bell by one bt every
1,600,000,000 / 32,768 fc once the crystal runs (R646), and the estimator samples at each new µs of device time (R565). The bt
after an accepted request begins deep standby (R572). -/
def State.tick (s : State) : State :=
  let c := s.clk
  let fc := c.fc + 1
  let sum := if fc % 2 = 0 then c.frac + c.inc else c.frac
  let time := c.time + sum / 2 ^ 32
  let b := if s.power.crystal then c.btAcc + 32768 else c.btAcc
  let s1 := { s with clk := { c with
    fc := fc, time := time, frac := sum % 2 ^ 32, bt := (c.bt + b / 1600000000) % 2 ^ 48, btAcc := b % 1600000000 } }
  (if s.power.main && decide (c.time / 1000 < time / 1000) then s1.samplePower else s1).standbyHold

/-- Take the command at the front of the queue and run it with the rest; with nothing waiting, time passes. -/
def step (s : State) : Host.Outcome State Fault Refusal :=
  match s.pending with
  | [] => .next s.tick
  | i :: rest => exec i { s with pending := rest }

/-- The state with the command a word spells at the front of its queue; no row of the table gives bits, so none does. -/
def State.withFetchWord (s : State) (nbits w : Nat) : State :=
  match decodeTableWord nbits w with
  | some i => { s with pending := i :: s.pending }
  | none => s

end Sys2Proof.Machine
end

