-- ==== Sys2Proof/Safety.lean ====
section
/-! DEFINITION. What the claims about the block are stated in: the invariant that every step keeps, the relations a command
keeps between the state before and after it, and when a leading core executes an instruction. -/

namespace Sys2Proof.Machine

/-- What holds in every state of the device: memory is in its canonical form; nSAFE is asserted in device safe state (R445,
R448) and in OPENED (Table 16.2); the counters of the clocks are within their widths (R96, R557). -/
structure State.Sound (s : State) : Prop where
  mem : Memory.wf s.mem = true
  dsafe : s.fm.dsafe = true → s.fm.nsafe = true
  opened : s.sec.lc = lcOpened → s.fm.nsafe = true
  frac : s.clk.frac < 2 ^ 32
  btAcc : s.clk.btAcc < 1600000000
  bt : s.clk.bt < 2 ^ 48

/-- No bit of the one-time-programmable memory returns from 1 to 0 (R591). -/
def State.otpKept (s t : State) : Prop :=
  ∀ i b : Nat, (kget s.sec.otp 0 i).getLsbD b = true → (kget t.sec.otp 0 i).getLsbD b = true

/-- The leading core of `y` executes the instruction `i` at its next active cycle (R47): the yoke runs a task in a span that
runs, no debugger is attached, no slip-collapsing instruction is in progress, no checkpoint and no abort is due, no event waits that
the task accepts first (R203), and nothing of R47 blocks the instruction, which needs `room` compare queue entries. -/
structure State.Ready (s : State) (y : YokeId) (i : CoreIns) (room : Nat) : Prop where
  run : (s.yoke y).run = .task
  collapse : (s.yoke y).collapse = none
  power : (s.span (spanOf y)).power = .run
  debug : (s.yoke y).debug = .off
  debugger : s.debugger = false
  due : (s.yoke y).ckptDue = false
  trigger : s.ckTriggered (s.yoke y) = false
  event : s.eventWaits y = false
  abort : (s.yoke y).lead.task.abort ≠ .due
  free : (s.yoke y).stalls i room = false

/-- The yoke runs a task and has nothing outstanding: every comparison, load, branch, float instruction, held store, checkpoint and
effect on its fold is done, the trailing core holds the complement of what the leading core holds, no event waits, no test mismatch is
to be injected, and no other yoke's bank still holds back a value it has accepted (R358). A slip-collapsing instruction then
takes its checkpoint and effect at once (R60). -/
structure State.Calm (s : State) (y : YokeId) : Prop where
  run : (s.yoke y).run = .task
  collapse : (s.yoke y).collapse = none
  power : (s.span (spanOf y)).power = .run
  debug : (s.yoke y).debug = .off
  debugger : s.debugger = false
  due : (s.yoke y).ckptDue = false
  trigger : s.ckTriggered (s.yoke y) = false
  event : s.eventWaits y = false
  trailC : (s.yoke y).trailC = (s.yoke y).lead.inv
  inj : (s.yoke y).inj = false
  cq : (s.yoke y).cq = []
  lvq : (s.yoke y).lvq = []
  lane : (s.yoke y).fetchLane = []
  fetch : (s.yoke y).fetchReq = none
  held : (s.yoke y).heldReports = []
  loads : (s.yoke y).loads = []
  branch : (s.yoke y).branch = none
  queue : (s.yoke y).fpu.queue = []
  busy : (s.yoke y).fpu.busy = []
  whb : (s.yoke y).whb = []
  pend : (s.yoke y).pend = none
  entry : (s.yoke y).entryEvent = none
  abort : (s.yoke y).lead.task.abort ≠ .due
  effects : (s.yoke y).effects = []
  clear : ∀ a, s.heldElsewhere y a = false

/-- The state in which yoke `y` alone has changed, by executing `i`, which took the leading core to `c` and drove `out`: a
compare queue entry, and nothing else outside the core and the counts of the yoke. -/
def State.executed (s : State) (y : YokeId) (i : CoreIns) (c : Core) (out : BusOut) : State :=
  s.setYoke y ((s.going y).push i c out [] none 0)

/-- Yoke `y` stands at a slip-collapsing instruction, compared, with its checkpoint committed and everything before it done:
the state in which the effect of the instruction is performed (R60, R71). -/
def State.atCollapse (s : State) (y : YokeId) (op : CollapseOp) (len : Nat) : State :=
  let k := s.yoke y
  s.setYoke y { k with
    wait := .none, replaying := false, collapse := some ⟨op, len⟩, seq := k.seq + 1, spec := none, trailFc := s.clk.fc,
    committed := ⟨k.lead, k.fpu.f, k.fpu.fcsr⟩, retired := 0, ckFc := s.clk.fc, interval := k.interval + 1 }

/-- The state in which yoke `y` has completed a checkpoint-bounded instruction that took its core to `c`: both cores hold
it, and it is the committed checkpoint (R60, R71). The rest of `s` is what the effect left. -/
def State.collapsed (s : State) (y : YokeId) (c : Core) : State :=
  let k := s.yoke y
  s.setYoke y { k with
    lead := c, trailC := c.inv, collapse := none, wait := .none, replaying := false, seq := k.seq + 1, spec := none,
    trailFc := s.clk.fc, retired := 0, committed := ⟨c, k.fpu.f, k.fpu.fcsr⟩, ckFc := s.clk.fc, interval := k.interval + 2,
    bpSkip := false }

end Sys2Proof.Machine
end

