-- ==== Sys2Proof/Certificates/Slice0/Obligations.lean ====
section
/-! DEFINITION. The statements for the provers. The vocabulary comes first, then one definition per statement. -/

namespace Sys2Proof.Claims

open Sys2Proof.Machine

/-- The command of an ALU operation of Table 4.10. -/
def aluCmd (op : AluOp) (y : YokeId) (wide : Bool) (rep : Rep) (d : Gpr) (a : AluArg) : Instr :=
  match op with
  | .add => .add y wide rep d a
  | .adc => .adc y wide rep d a
  | .sub => .sub y wide rep d a
  | .sbc => .sbc y wide rep d a
  | .and => .and y wide rep d a
  | .or => .or y wide rep d a
  | .xor => .xor y wide rep d a
  | .andn => .andn y wide rep d a
  | .shl => .shl y wide rep d a
  | .shr => .shr y wide rep d a
  | .sar => .sar y wide rep d a
  | .cmp => .cmp y wide rep d a
  | .tst => .tst y wide rep d a
  | .mov => .mov y wide rep d a

/-- A signed value outside the range of `w` bits. -/
def outOfRange (w : Nat) (x : Int) : Bool := decide (x < -(2 ^ (w - 1) : Int) ∨ (2 ^ (w - 1) : Int) ≤ x)

/-- The flags of a result: Z and N (R180) with the given C and V. -/
def flagsOf {w : Nat} (r : BitVec w) (c v : Option Bool) : FlagUpd := ⟨some (decide (r.toNat = 0)), some (r.getLsbD (w - 1)), c, v⟩

/-- An addition with carry as Table 6.1 gives it: formed exactly, then compared. -/
def sumOf {w : Nat} (a b : BitVec w) (c : Nat) : BitVec w × FlagUpd :=
  let r := BitVec.ofNat w (a.toNat + b.toNat + c)
  (r, flagsOf r (some (decide (2 ^ w ≤ a.toNat + b.toNat + c))) (some (outOfRange w (a.toInt + b.toInt + c))))

/-- A subtraction with borrow as Table 6.1 gives it. -/
def differenceOf {w : Nat} (a b : BitVec w) (c : Nat) : BitVec w × FlagUpd :=
  let r := BitVec.ofInt w ((a.toNat : Int) - b.toNat - c)
  (r, flagsOf r (some (decide (a.toNat < b.toNat + c))) (some (outOfRange w (a.toInt - b.toInt - c))))

/-- The last bit a shift moves out; a count of 0 leaves C (R181). -/
def shiftedOut {w : Nat} (a : BitVec w) (n i : Nat) : Option Bool := if n = 0 then none else some (a.getLsbD i)

/-- The value an ALU operation writes to D, if any, and the flags (Table 4.10, R161, R180, R181, R214). `c` is ST.C. -/
def aluResult {w : Nat} (op : AluOp) (a b : BitVec w) (c : Bool) : Option (BitVec w) × FlagUpd :=
  let n := b.toNat % w
  match op with
  | .add => (some (sumOf a b 0).1, (sumOf a b 0).2)
  | .adc => (some (sumOf a b c.toNat).1, (sumOf a b c.toNat).2)
  | .sub => (some (differenceOf a b 0).1, (differenceOf a b 0).2)
  | .sbc => (some (differenceOf a b c.toNat).1, (differenceOf a b c.toNat).2)
  | .cmp => (none, (differenceOf a b 0).2)
  | .and => (some (a &&& b), flagsOf (a &&& b) none none)
  | .or => (some (a ||| b), flagsOf (a ||| b) none none)
  | .xor => (some (a ^^^ b), flagsOf (a ^^^ b) none none)
  | .andn => (some (a &&& ~~~b), flagsOf (a &&& ~~~b) none none)
  | .tst => (none, flagsOf (a &&& b) none none)
  | .shl => (some (BitVec.ofNat w (a.toNat * 2 ^ n)), flagsOf (BitVec.ofNat w (a.toNat * 2 ^ n)) (shiftedOut a n (w - n)) none)
  | .shr => (some (BitVec.ofNat w (a.toNat / 2 ^ n)), flagsOf (BitVec.ofNat w (a.toNat / 2 ^ n)) (shiftedOut a n (n - 1)) none)
  | .sar => (some (BitVec.ofInt w (a.toInt / 2 ^ n)), flagsOf (BitVec.ofInt w (a.toInt / 2 ^ n)) (shiftedOut a n (n - 1)) none)
  | .mov => (some b, FlagUpd.keep)

/-- The core after an ALU operation has written D, a register or under WIDE a pair, and its flags; PC not yet moved. -/
def aluCore (c : Core) (op : AluOp) (wide : Bool) (d : Gpr) (a : AluArg) : Core :=
  if wide then
    let r := aluResult op (c.rdPair d) (c.argWide a) c.c
    (match r.1 with
      | some v => c.wrPair d v
      | none => c).setFlags r.2
  else
    let r := aluResult op (c.rd d) (c.arg a) c.c
    (match r.1 with
      | some v => c.wr d v
      | none => c).setFlags r.2

/-- One iteration of a repeat over the core `c1` its operation left (R169, R171): CT counts down; ST.RA is 1 and PC stays
while iterations remain, and with the last of them RA is 0 and PC moves past the instruction. -/
def iterated (c1 : Core) (rep : Rep) (len : Nat) : Core :=
  let left := c1.ct - 1
  { c1 with
    ct := left, shadow := none, rep := decide (left ≠ 0 ∧ rep = .rep), st := setBit c1.st 8 (decide (left ≠ 0)),
    pc := if left = 0 then c1.pc + BitVec.ofNat 32 len else c1.pc }

/-- The sixteen words of the hardware part of a trap frame (Table 7.5) for an entry from core `c`. -/
def frameWords (c : Core) (e : EntryInfo) : List Word :=
  let h := if e.next || e.bare then none else c.shadow
  let old (j : Nat) : Word := (h.bind fun l => l.old[j]?).getD 0
  let regsCode (l : Shadow) : Nat := if l.old.length = 1 then 0 else if l.old.length = 2 then 1 else 2
  [c.pc + BitVec.ofNat 32 e.skip, setBit c.st 7 h.isSome, c.spOf e.tr, c.g[14],
    BitVec.ofNat 32 (e.vec.toNat + 2 ^ 8 * e.sec.toNat + 2 ^ 16 * e.inEntry.toNat + 2 ^ 17 * e.masked.toNat + 2 ^ 18 * e.next.toNat),
    e.info, e.syn, (match h with
      | none => 0
      | some l => BitVec.ofNat 32 (l.d.val + 16 * regsCode l)),
    old 0, old 1, old 2, old 3, e.oinfo, e.osyn, 0, 0]

/-- The core after step 4 of a handler entry (Table 7.4, R258, R277): SP[TR] and g14 hold the frame's address. -/
def handlerCore (c : Core) (e : EntryInfo) (a : Word) : Core :=
  { c with
    g := c.g.set 14 a, sp := c.sp.set e.tr.toNat a e.tr.isLt, pc := e.handler, shadow := none, rep := false,
    st := (c.st &&& 0xFFFFFE0F) ||| BitVec.ofNat 32 (32 * e.tr.toNat + 16 * (bit c.st 4 || e.em).toNat + 2048 * e.esc.isSome.toNat) }

/-- Yoke `y` has entered a handler with its frame at `a` (R256, R258, R259): the core of step 4; four 16-byte stores of the
frame's words, held in the write-hold buffer; a checkpoint at the handler's first instruction; memory, the trailing core
and every other yoke as before. -/
def Entered (s t : State) (y : YokeId) (e : EntryInfo) (a : Word) (phys : List Nat) : Prop :=
  let k := s.yoke y
  let w (j : Nat) : Word := (frameWords k.lead e).getD j 0
  let quad (j : Nat) : QWord := w (4 * j + 3) ++ w (4 * j + 2) ++ w (4 * j + 1) ++ w (4 * j)
  (t.yoke y).lead = handlerCore k.lead e a ∧
  (t.yoke y).cq.map (fun q => q.out.store) = k.cq.map (fun q => q.out.store) ++
    (List.range 4).map (fun j => (storeOut (a + BitVec.ofNat 32 (16 * j)) 16 (quad j) .plain).store) ++ [none] ∧
  (∀ p ∈ phys, ∃ h ∈ (t.yoke y).whb, h.phys / 16 = p / 16 ∧ h.be = 0xFFFF) ∧
  (k.pend = none → ∃ p, (t.yoke y).pend = some p ∧ p.core = (t.yoke y).lead) ∧ (k.pend ≠ none → (t.yoke y).ckptDue = true) ∧
  t.mem = s.mem ∧ t.regs = s.regs ∧ (t.yoke y).trail = k.trail ∧ (t.yoke y).fpu = k.fpu ∧ ∀ z, z ≠ y → t.yoke z = s.yoke z

/-- No codeword of memory has been disturbed no transaction of the fabric has failed and no endpoint has been cut
off (R342, R346, R501). -/
def NoErrors (s : State) : Prop := s.memErr = [] ∧ s.fabricFails = [] ∧ s.cutNodes = []

/-- A float operation on binary64 operands, or under `sgl` on both binary32 lanes (R230), with the union of the lanes'
exceptions (R240). -/
def onFormat (sgl : Bool) (g : FFmt → FVal → FVal → FVal → FRes) (a b c : DWord) : DWord × BitVec 5 :=
  if sgl then
    let lane (j : Nat) : FRes :=
      let v (w : DWord) : FVal := fdecode FFmt.s (w.toNat / 2 ^ (32 * j) % 2 ^ 32)
      g FFmt.s (v a) (v b) (v c)
    (BitVec.ofNat 64 ((lane 0).bits % 2 ^ 32 + (lane 1).bits % 2 ^ 32 * 2 ^ 32), (lane 0).exc ||| (lane 1).exc)
  else
    let v (w : DWord) : FVal := fdecode FFmt.d w.toNat
    let r := g FFmt.d (v a) (v b) (v c)
    (BitVec.ofNat 64 r.bits, r.exc)

/-- The value of a finite operand. -/
def ratOf (x : FVal) : ℚ :=
  match x with
  | .fin s m e => (if s then -1 else 1) * (m : ℚ) * (2 : ℚ) ^ e
  | _ => 0

/-- `k` is the magnitude `x` rounded to an integer in a mode of Table 4.3, for a result of sign `neg`. -/
def RoundsTo (rm : BitVec 2) (neg : Bool) (x : ℚ) (k : Nat) : Prop :=
  |(k : ℚ) - x| < 1 ∧
  (rm = 0 → |(k : ℚ) - x| ≤ 1 / 2 ∧ (|(k : ℚ) - x| = 1 / 2 → k % 2 = 0)) ∧
  (rm = 1 → (k : ℚ) ≤ x) ∧
  (rm = 2 → if neg then (k : ℚ) ≤ x else x ≤ k) ∧
  (rm = 3 → if neg then x ≤ k else (k : ℚ) ≤ x)

end Sys2Proof.Claims

open Sys2Proof Sys2Proof.Machine Sys2Proof.Claims

/-- R161, R180, R181, R214: an ALU operation without a repeat prefix writes the result and the flags of Tables 4.10, 5.2 and
6.1, moves PC past the instruction and changes nothing else; every operand form, both widths. ADD, ADC, SUB, SBC, AND, OR,
XOR, ANDN, SHL, SHR, SAR, CMP, TST, MOV.

R169, R170, R171: with REP or REPI an ALU operation performs one iteration while CT is not 0, and with CT = 0 leaves
every register and flag, ends the repeat and moves PC; REP needs CT of at most 1,024 at its start. A repeat is in no load shadow
(R158).

(That one iteration is one command is this model's choice: log entry 7.) -/
def Obligations.AluOperationsAndTheirRepeatsWriteResults : Prop :=
  (∀ (s : State) (y : YokeId) (op : AluOp) (wide : Bool) (d : Gpr) (a : AluArg),
    aluLegal wide .once d a = true → s.Ready y (.alu op wide .once d a) 1 →
    exec (aluCmd op y wide .once d a) s =
      .next (s.executed y (.alu op wide .once d a)
        ((aluCore (s.yoke y).lead op wide d a).step (aluLen wide .once a)) .none)) ∧
  (∀ (s : State) (y : YokeId) (op : AluOp) (wide : Bool) (rep : Rep) (d : Gpr) (a : AluArg),
    rep ≠ .once → aluLegal wide rep d a = true → s.Ready y (.alu op wide rep d a) 1 →
    (rep = .rep → (s.yoke y).lead.ra = true ∨ (s.yoke y).lead.ct.toNat ≤ 1024) →
    exec (aluCmd op y wide rep d a) s =
      .next (s.executed y (.alu op wide rep d a)
        (if (s.yoke y).lead.ct = 0 then
          { (s.yoke y).lead with
            pc := (s.yoke y).lead.pc + BitVec.ofNat 32 (aluLen wide rep a), shadow := none, rep := false,
            st := setBit (s.yoke y).lead.st 8 false }
        else iterated (aluCore { (s.yoke y).lead with shadow := none } op wide d a) rep (aluLen wide rep a)) .none))

/-- R162, R180, R182: MULS, MULU, MULWS and MULWU write the product, of 32 bits or of 64 into an even pair, and the flags of
R182.

R162, R180, R214: NEG, NOT, EXTB, EXTH and CLZ write D from S; NEG sets the flags of 0 − S, the others none. -/
def Obligations.MultipliesAndUnaryOperationsWriteResults : Prop :=
  (∀ (s : State) (y : YokeId) (d src : Gpr),
    let c := (s.yoke y).lead
    let sp : Int := (c.rd d).toInt * (c.rd src).toInt
    let up : Nat := (c.rd d).toNat * (c.rd src).toNat
    (s.Ready y (.mul .muls d src) 1 →
      exec (.muls y d src) s = .next (s.executed y (.mul .muls d src)
        (((c.wr d (BitVec.ofInt 32 sp)).setFlags
          (flagsOf (BitVec.ofInt 32 sp) none (some (outOfRange 32 sp)))).step 2) .none)) ∧
    (s.Ready y (.mul .mulu d src) 1 →
      exec (.mulu y d src) s = .next (s.executed y (.mul .mulu d src)
        (((c.wr d (BitVec.ofNat 32 up)).setFlags
          (flagsOf (BitVec.ofNat 32 up) none (some (decide (2 ^ 32 ≤ up))))).step 2) .none)) ∧
    (d.val % 2 = 0 → s.Ready y (.mul .mulws d src) 1 →
      exec (.mulws y d src) s = .next (s.executed y (.mul .mulws d src)
        (((c.wrPair d (BitVec.ofInt 64 sp)).setFlags
          (flagsOf (BitVec.ofInt 64 sp) (some false) (some false))).step 2) .none)) ∧
    (d.val % 2 = 0 → s.Ready y (.mul .mulwu d src) 1 →
      exec (.mulwu y d src) s = .next (s.executed y (.mul .mulwu d src)
        (((c.wrPair d (BitVec.ofNat 64 up)).setFlags
          (flagsOf (BitVec.ofNat 64 up) (some false) (some false))).step 2) .none))) ∧
  (∀ (s : State) (y : YokeId) (d src : Gpr),
    let c := (s.yoke y).lead
    let x := c.rd src
    (s.Ready y (.un .neg d src) 1 →
      exec (.neg y d src) s = .next (s.executed y (.un .neg d src)
        (((c.wr d (0 - x)).setFlags (flagsOf (0 - x) (some (decide (x ≠ 0))) (some (decide (x = 0x80000000))))).step 2) .none)) ∧
    (s.Ready y (.un .not d src) 1 →
      exec (.not y d src) s = .next (s.executed y (.un .not d src) ((c.wr d (BitVec.ofNat 32 (2 ^ 32 - 1 - x.toNat))).step 2) .none)) ∧
    (s.Ready y (.un .extb d src) 1 →
      exec (.extb y d src) s = .next (s.executed y (.un .extb d src)
        ((c.wr d (BitVec.ofInt 32 (BitVec.ofNat 8 x.toNat).toInt)).step 2) .none)) ∧
    (s.Ready y (.un .exth d src) 1 →
      exec (.exth y d src) s = .next (s.executed y (.un .exth d src)
        ((c.wr d (BitVec.ofInt 32 (BitVec.ofNat 16 x.toNat).toInt)).step 2) .none)) ∧
    (s.Ready y (.un .clz d src) 1 → ∃ n : Nat,
      exec (.clz y d src) s = .next (s.executed y (.un .clz d src) ((c.wr d (BitVec.ofNat 32 n)).step 2) .none) ∧
        (x = 0 → n = 32) ∧ (x ≠ 0 → n ≤ 31 ∧ 2 ^ (31 - n) ≤ x.toNat ∧ x.toNat < 2 ^ (32 - n))))

/-- R218, R219, R220, R221: DSTEP, DSTEPS and DFIX act on an even pair that does not hold the divisor. One DSTEP step is that
of R219 written in integers; DSTEP and DSTEPS under REP or REPI perform one such step as an iteration (R169).

(That one iteration is one command is this model's choice: log entry 7.) -/
def Obligations.DivideStepsFollowTheirRules : Prop :=
  ∀ (s : State) (y : YokeId) (rep : Rep) (d src : Gpr),
    let lead := (s.yoke y).lead
    let c := if rep = .once then lead else { lead with shadow := none }
    let hi := c.rd (gpr (d.val + 1))
    let lo := c.rd d
    let dv := c.rd src
    let t := 2 * hi.toNat + lo.toNat / 2 ^ 31
    let hi' : Word := BitVec.ofNat 32 (if dv.toNat ≤ t then t - dv.toNat else t)
    let lo' : Word := BitVec.ofNat 32 (2 * lo.toNat + if dv.toNat ≤ t then 1 else 0)
    let runs := (rep = .rep → c.ra = true ∨ c.ct.toNat ≤ 1024) ∧ (rep = .once ∨ c.ct ≠ 0) ∧ ¬(dv = 0 ∧ c.dze = true)
    divLegal d src = true →
    (runs → s.Ready y (.dstep false rep d src) 1 →
      exec (.dstep y rep d src) s = .next (s.executed y (.dstep false rep d src)
        (let c1 := ((c.wr d lo').wr (gpr (d.val + 1)) hi').setFlags
          ⟨some (decide (hi'.toNat = 0)), some false, some (decide (dv.toNat ≤ t)), some false⟩
        if rep = .once then c1.step 2 else iterated c1 rep 3) .none)) ∧
    (runs → s.Ready y (.dstep true rep d src) 1 →
      exec (.dsteps y rep d src) s = .next (s.executed y (.dstep true rep d src)
        (let r := dstepsEval hi lo dv
        let c1 := ((c.wr d r.1.2).wr (gpr (d.val + 1)) r.1.1).setFlags r.2
        if rep = .once then c1.step 2 else iterated c1 rep 3) .none)) ∧
    (s.Ready y (.dfix d src) 1 →
      exec (.dfix y d src) s = .next (s.executed y (.dfix d src)
        (let r := dfixEval (lead.rd (gpr (d.val + 1))) (lead.rd d) (lead.rd src) lead.v
        (((lead.wr d r.1.2).wr (gpr (d.val + 1)) r.1.1).setFlags r.2).step 2) .none))

/-- R219, R222, Table 6.3: thirty-two DSTEP steps divide the 64-bit value hi:lo by a divisor above hi: the quotient replaces
lo and the remainder hi.

R220, R221, R222, Table 6.3: thirty-two DSTEPS steps from the sign of the dividend, then DFIX, divide signed values; V
tells the one quotient that 32 bits cannot hold. -/
def Obligations.DivisionStepsDivideUnsignedAndSigned : Prop :=
  (∀ hi lo d : Word, hi.toNat < d.toNat →
    let n := hi.toNat * 2 ^ 32 + lo.toNat
    (List.range 32).foldl (fun (p : Word × Word) _ => (dstepEval p.1 p.2 d).1) (hi, lo) =
      (BitVec.ofNat 32 (n % d.toNat), BitVec.ofNat 32 (n / d.toNat))) ∧
  (∀ n d : Word, d ≠ 0 →
    let p := (List.range 32).foldl (fun (p : Word × Word) _ => (dstepsEval p.1 p.2 d).1) (n &&& 0x80000000, n)
    let r := dfixEval p.1 p.2 d true
    r.1 = (BitVec.ofInt 32 (n.toInt.tmod d.toInt), BitVec.ofInt 32 (n.toInt.tdiv d.toInt)) ∧
      r.2.v = some (outOfRange 32 (n.toInt.tdiv d.toInt)))

/-- R203, R204, R205, R213: NOP only moves PC; BKLD writes BK in any ring; TID returns the task's identifier; MASK and UNMASK
write ST.M in rings 0 and 1 and raise vector 0x05 in rings 2 and 3. -/
def Obligations.ShortSystemInstructionsComplete : Prop :=
  ∀ (s : State) (y : YokeId) (b : Byte) (d : Gpr),
    let c := (s.yoke y).lead
    (s.Ready y .nop 1 → exec (.nop y) s = .next (s.executed y .nop (c.step 1) .none)) ∧
    (s.Ready y (.bkld b) 1 → exec (.bkld y b) s = .next (s.executed y (.bkld b) ({ c with bk := b }.step 2) .none)) ∧
    (s.Ready y (.tid d) 1 → exec (.tid y d) s = .next (s.executed y (.tid d) ((c.wr d c.task.ident).step 2) .none)) ∧
    (c.ring.toNat ≤ 1 → s.Ready y (.setM true) 1 →
      exec (.mask y) s = .next (s.executed y (.setM true) ({ c with st := setBit c.st 4 true }.step 1) .none)) ∧
    (c.ring.toNat ≤ 1 → s.Ready y (.setM false) 1 →
      exec (.unmask y) s = .next (s.executed y (.setM false) ({ c with st := setBit c.st 4 false }.step 1) .none)) ∧
    (2 ≤ c.ring.toNat → s.Ready y (.setM true) 1 → s.takes y 0x05 = true →
      exec (.mask y) s = .next ((s.setYoke y (s.going y)).raise y 0x05 0 0)) ∧
    (2 ≤ c.ring.toNat → s.Ready y (.setM false) 1 → s.takes y 0x05 = true →
      exec (.unmask y) s = .next ((s.setYoke y (s.going y)).raise y 0x05 0 0))

/-- R138: BK supplies bits 31:24 of a short address; BKLD and SYSWR to s.0x001 write it in any ring; a task starts with
0x80. -/
def Obligations.BankRegisterSuppliesShortAddresses : Prop :=
  (∀ (c : Core) (off : BitVec 24), (c.ea (.short none off)).toNat = c.bk.toNat * 2 ^ 24 + off.toNat) ∧
  (∀ (s : State) (y : YokeId) (b : Byte), s.Ready y (.bkld b) 1 →
    ∃ t, exec (.bkld y b) s = .next t ∧ (t.yoke y).lead.bk = b) ∧
  (∀ (s : State) (y : YokeId) (src : Gpr) (f : FoldId), s.foldOf y = some f → s.Ready y (.syswr 0x001 src) 1 →
    ∃ t, exec (.syswr y 0x001 src) s = .next t ∧ (t.yoke y).lead.bk.toNat = ((s.yoke y).lead.rd src).toNat % 256) ∧
  (∀ (s : State) (y : YokeId) (d : TaskDesc), ((s.startTask y d).yoke y).lead.bk = 0x80)

/-- R154, R155, R164, R199: BR, BRL, JR, JRL and RET go to their targets, BRL and JRL with the return address in g15; Bcc and
LOOP are predicted by the rule of R177, LOOP counting CT down first, and keep the other path for a misprediction. -/
def Obligations.ControlTransfersReachTheirTargets : Prop :=
  ∀ (s : State) (y : YokeId) (t : BrTarget) (src : Gpr) (cond : BitVec 4) (disp : Half),
    let k := s.yoke y
    let c := k.lead
    let n := (match t with
      | .rel _ => 3
      | .long _ => 6)
    let dest (len : Nat) : Word := match t with
      | .rel x => BitVec.ofInt 32 ((c.pc.toNat : Int) + len + x.toInt)
      | .long a => a
    let loopTo : Word := BitVec.ofInt 32 ((c.pc.toNat : Int) + 3 + disp.toInt)
    let go (c : Core) (pc : Word) : Core := { c with pc := pc, shadow := none }
    (s.Ready y (.branch (.br t)) 1 →
      exec (.br y t) s = .next (s.executed y (.branch (.br t)) (go c (dest n)) .none)) ∧
    (s.Ready y (.branch (.brl t)) 1 →
      exec (.brl y t) s = .next (s.executed y (.branch (.brl t)) (go (c.wr 15 (c.pc + BitVec.ofNat 32 n)) (dest n)) .none)) ∧
    (s.Ready y (.branch (.jr src)) 1 →
      exec (.jr y src) s = .next (s.executed y (.branch (.jr src)) (go c (c.rd src)) .none)) ∧
    (s.Ready y (.branch (.jrl src)) 1 →
      exec (.jrl y src) s = .next (s.executed y (.branch (.jrl src)) (go (c.wr 15 (c.pc + 2)) (c.rd src)) .none)) ∧
    (s.Ready y (.branch .ret) 1 →
      exec (.ret y) s = .next (s.executed y (.branch .ret) (go c (c.rd 15)) .none)) ∧
    (cond = 14 → s.Ready y (.branch (.bcc cond t)) 1 →
      exec (.bcc y cond t) s = .next (s.executed y (.branch (.bcc cond t)) (go c (dest (n + 1))) .none)) ∧
    (cond.toNat < 14 → s.Ready y (.branch (.bcc cond t)) 1 →
      let taken := condHolds cond c.z c.n c.c c.v
      let back := decide ((dest (n + 1)).toNat < c.pc.toNat)
      let path (b : Bool) : Core := go c (if b then dest (n + 1) else c.pc + BitVec.ofNat 32 (n + 1))
      let e := (s.going y).push (.branch (.bcc cond t)) (path back) .none [] none 0
      exec (.bcc y cond t) s = .next (s.setYoke y { e with branch := some ⟨e.seq, decide (back ≠ taken), path taken, e.retired⟩ })) ∧
    (s.Ready y (.branch (.loop (.rel disp))) 1 →
      let c1 := { c with ct := c.ct - 1 }
      let taken := decide (c1.ct ≠ 0)
      let back := decide (loopTo.toNat < c.pc.toNat)
      let path (b : Bool) : Core := go c1 (if b then loopTo else c.pc + 3)
      let e := (s.going y).push (.branch (.loop (.rel disp))) (path back) .none [] none 0
      exec (.loop y disp) s = .next (s.setYoke y { e with branch := some ⟨e.seq, decide (back ≠ taken), path taken, e.retired⟩ }))

/-- R177: a branch predicted right leaves everything as it was when it resolves; a misprediction puts the leading core on the
other path and squashes the instructions issued past the branch, which stay in the compare queue as squashed. -/
def Obligations.BranchesResolve : Prop :=
  ∀ (s : State) (y : YokeId) (b : BranchPend), (s.yoke y).branch = some b →
    ∃ t, exec (.branchResolve y) s = .next t ∧ (t.yoke y).branch = none ∧ t.mem = s.mem ∧
      (b.mispredicted = false → t = s.setYoke y { s.yoke y with branch := none }) ∧
      (b.mispredicted = true → (t.yoke y).lead = b.resume ∧ (t.yoke y).trail = (s.yoke y).trail ∧
        (t.yoke y).whb = (s.yoke y).whb ∧
        (∀ e ∈ (t.yoke y).cq, b.seq < e.seq → e.squashed = true) ∧
        (t.yoke y).cq.map CqEntry.seq = (s.yoke y).cq.map CqEntry.seq ∧
        (∀ l ∈ (t.yoke y).loads, l.seq < b.seq) ∧ (∀ e ∈ (t.yoke y).fpu.queue, e.seq < b.seq))

/-- R137, R139, R140, R144, R202, Table 5.9: SYSRD writes D with the register and changes nothing else; a register held
outside the core reaches the trailing core through the load-value queue, reading NOWLO latches NOWHI with the yoke's checkpoint, and an absent or
denied number raises vector 0x01 or 0x05.

(That the latch of NOWHI is one of the fold is this model's choice: log entry 36.) -/
def Obligations.SystemRegistersRead : Prop :=
  ∀ (s : State) (y : YokeId) (d : Gpr) (num : BitVec 12) (v : Word) (f : FoldId),
    let k := s.yoke y
    let c := k.lead
    let i : CoreIns := .sysrd d num
    let fo := k.sees (s.fold f)
    let ring := c.ring.toNat
    s.foldOf y = some f → s.Ready y i 1 →
    ((num, v) ∈ ([(0x000, setBit c.st 7 c.shadow.isSome), (0x001, c.bk.zeroExtend 32), (0x002, c.ct), (0x020, c.task.tattr),
        (0x021, c.task.tjoin), (0x022, c.task.tparent), (0x023, c.task.tspn), (0x024, BitVec.ofNat 32 c.task.tlist.length),
        (0x040, c.task.oepoch)] : List (BitVec 12 × Word)) →
      exec (.sysrd y d num) s = .next (s.executed y i ((c.wr d v).step 4) .none)) ∧
    (∀ r : Fin 4, ring = 0 → num.toNat = 4 + r.val → v = c.sp[r] →
      exec (.sysrd y d num) s = .next (s.executed y i ((c.wr d v).step 4) .none)) ∧
    (((num, v) = ((0x003 : BitVec 12), k.fpu.fcsr) ∧ k.floatActive = false ∨
      ring ≤ 1 ∧ (num, v) ∈ ([(0x014, fo.ien), (0x080, fo.fninc), (0x081, fo.fncnt)] : List (BitVec 12 × Word)) ∨
      ring = 0 ∧ (num, v) ∈ ([(0x010, fo.dtb), (0x011, fo.escv), (0x012, fo.esp), (0x013, fo.sksz), (0x016, fo.eslot),
        (0x017, fo.entryf ++ fo.etotal), (0x030, fo.chsel)] : List (BitVec 12 × Word)) ∨ (num, v) = ((0x044 : BitVec 12), fo.nowHi)) →
      exec (.sysrd y d num) s = .next (s.setYoke y
        ((s.going y).push i ((c.wr d v).step 4) (loadOut (num.zeroExtend 32) 4 .sysread) [(v.zeroExtend 128, .completed)] none 0))) ∧
    (num = 0x043 → ∃ t, exec (.sysrd y d num) s = .next t ∧ (t.yoke y).lead = (c.wr d (BitVec.ofNat 32 s.now)).step 4 ∧
      (t.yoke y).effects = k.effects ++ [.nowHi (BitVec.ofNat 32 (s.now / 2 ^ 32)) k.interval] ∧ t.folds = s.folds ∧ t.mem = s.mem) ∧
    (0x094 ≤ num.toNat ∨ (0x008 ≤ num.toNat ∧ num.toNat ≤ 0x00F) ∨ (0x018 ≤ num.toNat ∧ num.toNat ≤ 0x01F) → s.takes y 0x01 = true →
      exec (.sysrd y d num) s = .next ((s.setYoke y (s.going y)).raise y 0x01 0 0)) ∧
    (0 < ring → 0x004 ≤ num.toNat ∧ num.toNat ≤ 0x007 ∨ 0x010 ≤ num.toNat ∧ num.toNat ≤ 0x013 → s.takes y 0x05 = true →
      exec (.sysrd y d num) s = .next ((s.setYoke y (s.going y)).raise y 0x05 0 0))

/-- R137, R138, R139, R140, R243, R111: SYSWR to a register of the yoke. ST takes the condition bits, DZE and, in rings 0
and 1, M, and elsewhere refuses a change of M; FCSR waits for the float unit; OEPOCH takes a value of its range and refuses
another with 0x0C.

R201, R280, R282, R283, R312: SYSWR to a register outside the yoke acts once, with a checkpoint before and after it. DTB,
ESCV, IEN, CHSEL, ESP, SKSZ, CHBASE and CHCFG take the value with its reserved bits clear; ESP is refused while an
escalation slot is in use, SKSZ with a field outside 8 to 20, and CHBASE while the channel is open, with vector 0x05. -/
def Obligations.SystemRegistersWrite : Prop :=
  (∀ (s : State) (y : YokeId) (num : BitVec 12) (src : Gpr) (f : FoldId) (r : Fin 4),
    let k := s.yoke y
    let c := k.lead
    let v := c.rd src
    let ring := c.ring.toNat
    let i (n : BitVec 12) : CoreIns := .syswr n src
    let out (n : BitVec 12) : BusOut := { BusOut.none with sys := some (n, v) }
    let cond : Word := (c.st &&& 0xFFFFFDF0) ||| (v &&& 0x20F)
    let e : Word := BitVec.ofNat 32 (s.fold f).epoch.toNat
    let top : Word := e + BitVec.ofNat 32 (s.frameK f - 1)
    let inRange : Prop := (v - c.task.oepoch).toNat < 2 ^ 31 ∧ (top - v).toNat < 2 ^ 31
    s.foldOf y = some f →
    (s.Ready y (i 0x002) 1 →
      exec (.syswr y 0x002 src) s = .next (s.executed y (i 0x002) ({ c with ct := v }.step 4) (out 0x002))) ∧
    (ring = 0 → num.toNat = 4 + r.val → s.Ready y (i num) 1 →
      exec (.syswr y num src) s = .next (s.executed y (i num) ({ c with sp := c.sp.set r v }.step 4) (out num))) ∧
    (ring = 0 → ∀ j : Fin 5, num.toNat = 0x70 + j.val → s.Ready y (i num) 1 →
      ∃ t, exec (.syswr y num src) s = .next t ∧
        (t.yoke y).lead = { c with task := { c.task with dbg := c.task.dbg.set j v } }.step 4) ∧
    (ring ≤ 1 → s.Ready y (i 0x000) 1 →
      exec (.stWrite y src) s = .next (s.executed y (i 0x000) ({ c with st := setBit cond 4 (bit v 4) }.step 4) (out 0x000))) ∧
    (2 ≤ ring → bit v 4 = bit c.st 4 → s.Ready y (i 0x000) 1 →
      exec (.stWrite y src) s = .next (s.executed y (i 0x000) ({ c with st := cond }.step 4) (out 0x000))) ∧
    (2 ≤ ring → bit v 4 ≠ bit c.st 4 → s.Ready y (i 0x000) 1 → s.takes y 0x05 = true →
      exec (.stWrite y src) s = .next ((s.setYoke y (s.going y)).raise y 0x05 0 0)) ∧
    (k.floatActive = false → s.Ready y (i 0x003) 1 →
      ∃ t, exec (.fcsrWrite y src) s = .next t ∧ (t.yoke y).fpu.fcsr = v &&& 0x00031F1F ∧ (t.yoke y).fpu.f = k.fpu.f ∧
        (t.yoke y).lead = c.step 4 ∧ t.mem = s.mem) ∧
    (k.floatActive = true → s.Ready y (i 0x003) 1 → exec (.fcsrWrite y src) s = .next (s.setYoke y { s.going y with wait := .pipeline })) ∧
    (ring ≤ 2 → inRange → s.Ready y (i 0x040) 1 →
      ∃ t, exec (.oepochWrite y src) s = .next t ∧ (t.yoke y).lead = { c with task := { c.task with oepoch := v } }.step 4 ∧
        t.mem = s.mem ∧ t.folds = s.folds) ∧
    (ring ≤ 2 → ¬inRange → s.Ready y (i 0x040) 1 → s.takes y 0x0C = true →
      exec (.oepochWrite y src) s = .next ((s.setYoke y ((s.going y).pushPart (.epochCheck src (s.frameK f)) .none
        [(e.zeroExtend 128, .completed)])).raise y 0x0C 0 0x06))) ∧
  (∀ (s : State) (y : YokeId) (src : Gpr) (f : FoldId),
    let k := s.yoke y
    let c := k.lead
    let v := c.rd src
    let fo := s.fold f
    let n := fieldNat fo.chsel 5 0
    let ch := fo.chan n
    let refuse (num : BitVec 12) : State := (((s.atCollapse y (.syswr num v) 4).collapseFault y 0x05 0 0))
    let kOk : Prop := ∀ j < 4, 8 ≤ v.toNat / 2 ^ (8 * j) % 32 ∧ v.toNat / 2 ^ (8 * j) % 32 ≤ 20
    let put (ch : Channel) : Fold := { fo with chans := kset fo.chans n ch }
    s.foldOf y = some f → s.Calm y → c.ring = 0 →
    exec (.syswr y 0x010 src) s = .next ((s.setFold f { fo with dtb := v &&& 0xFFFFF000 }).collapsed y (c.step 4)) ∧
    exec (.syswr y 0x011 src) s = .next ((s.setFold f { fo with escv := v }).collapsed y (c.step 4)) ∧
    exec (.syswr y 0x014 src) s = .next ((s.setFold f { fo with ien := v &&& 0x1FF }).collapsed y (c.step 4)) ∧
    exec (.syswr y 0x030 src) s = .next ((s.setFold f { fo with chsel := v &&& 0x3F }).collapsed y (c.step 4)) ∧
    (fo.eslot = 0 → exec (.espWrite y src) s = .next ((s.setFold f { fo with esp := v &&& 0xFFFFFE1F }).collapsed y (c.step 4))) ∧
    (fo.eslot ≠ 0 → exec (.espWrite y src) s = .next (refuse 0x012)) ∧
    (kOk → exec (.skszWrite y src) s = .next ((s.setFold f { fo with sksz := v &&& 0x1F1F1F1F }).collapsed y (c.step 4))) ∧
    (¬kOk → exec (.skszWrite y src) s = .next (refuse 0x013)) ∧
    (ch.isOpen = false → exec (.chbaseWrite y src) s = .next ((s.setFold f (put { ch with base := v })).collapsed y (c.step 4))) ∧
    (ch.isOpen = true → exec (.chbaseWrite y src) s = .next (refuse 0x031)) ∧
    (2 ≤ v.toNat % 16 → v.toNat % 16 ≤ 12 → bit v 31 = false → ch.pput = none → ch.pget = none →
      (ch.isOpen = true → ch.dpow.toNat = v.toNat % 16) →
      ∃ t, exec (.chcfgWrite y src) s = .next t ∧ ((t.fold f).chan n).isOpen = false ∧
        ((t.fold f).chan n).dpow.toNat = v.toNat % 16 ∧ (t.yoke y).lead = c.step 4 ∧ t.mem = s.mem) ∧
    (2 ≤ v.toNat % 16 → v.toNat % 16 ≤ 12 → bit v 31 = true → (ch.isOpen = true → ch.dpow.toNat = v.toNat % 16) →
      s.chanBufferOk f y ch.base (v.toNat % 16) = true → ch.pput = none →
      ∃ t, exec (.chcfgWrite y src) s = .next t ∧ ((t.fold f).chan n).isOpen = true ∧ ((t.fold f).chan n).count = 0 ∧
        (t.yoke y).lead = c.step 4 ∧ t.mem = s.mem) ∧
    (∀ r, 2 ≤ v.toNat % 16 → v.toNat % 16 ≤ 12 → bit v 31 = true → (ch.isOpen = true → ch.dpow.toNat = v.toNat % 16) →
      s.chanBufferOk f y ch.base (v.toNat % 16) = true → ch.pput = some r →
      ∃ t, exec (.chcfgWrite y src) s = .next t ∧ ((t.fold f).chan n).isOpen = true ∧ ((t.fold f).chan n).pput = none ∧
        ((t.fold f).chan n).count = 1 ∧ (t.yoke y).lead = c.step 4) ∧
    (2 ≤ v.toNat % 16 → v.toNat % 16 ≤ 12 → bit v 31 = true → ch.isOpen = false →
      s.chanBufferOk f y ch.base (v.toNat % 16) = false →
      exec (.chcfgWrite y src) s =
        .next ((s.atCollapse y (.syswr 0x032 v) 4).collapseFault y 0x04 ch.base (accessCode 4 true false false 0))))

/-- R253, R256 to R260: BRK, an illegal and a reserved opcode raise vectors 0x0A, 0x00 and 0x01 as faults of the instruction
at PC. With M and ESC clear and a descriptor that passes R252, R257 and R262 and whose stores and fetch are permitted, the
handler is entered; with M set the fault escalates (R276). A core that cannot take the entry yet waits (R254, R358).

R263, R264, R265: TRAP n and GATE n enter through descriptor n, whatever ST.M holds, with the address of the next
instruction saved and CAUSE.NEXT set; a descriptor of the wrong type or with reserved bits, a ring CALLERS does not list and
a target ring above the current one raise vector 0x06 with reasons 0x01, 0x02 and 0x03.

(CAUSE.MASKED of a GATE or TRAP that escalates and INFO of its failed fetch are read by inference: log entries 14 and
64.) -/
def Obligations.SynchronousVectorsTrapsAndGatesEnter : Prop :=
  (∀ (s : State) (y : YokeId) (f : FoldId) (cmd : Instr) (vec : Byte) (bytes : List Byte) (handler attr : Word)
    (phys : List Nat),
    let k := s.yoke y
    let c := k.lead
    let tr : BitVec 2 := BitVec.ofNat 2 (attr.toNat / 16)
    let e : EntryInfo := {
      vec := vec, sec := 0, inEntry := false, masked := false, next := false, skip := 0, handler := handler, tr := tr,
      em := bit attr 8, ss := bit attr 9, k := (s.fold f).stackK tr, info := 0, syn := 0, oinfo := 0, osyn := 0, esc := none,
      event := false, floor := tr, bare := c.shadow.isNone }
    (cmd = .brk y ∧ vec = 0x0A ∧ s.Ready y .ckpt 1 ∨
      cmd = .illegalOpcode y bytes ∧ vec = 0x00 ∧ dreselDecode bytes = .illegal ∧ s.Ready y .nop 1 ∨
      cmd = .reservedOpcode y bytes ∧ vec = 0x01 ∧ dreselDecode bytes = .reserved ∧ s.Ready y .nop 1) →
    let s0 := s.setYoke y (s.going y)
    (s.takes y vec = false → exec cmd s = .next (s.setYoke y { s.going y with wait := .pipeline })) ∧
    (s.foldOf y = some f → s.takes y vec = true → c.esc = false →
    (c.m = false → s0.readDescriptor f y vec = (s0, .inl (handler, attr)) → attr.toNat % 4 = 1 → attr &&& 0xFFF0FCCC = 0 →
      tr.toNat ≤ c.ring.toNat → stackCheck c tr e.ss e.k = none → s.frameAddrs f y tr (c.frameAddr e) = some phys →
      s0.fetchFails f y tr handler = (s0, none) →
      ∃ t, exec cmd s = .next t ∧ Entered s t y e (c.frameAddr e) phys ∧ t.folds = s.folds) ∧
    (c.m = true → exec cmd s = .next (s0.escalate y f vec 0 false true 0 0 0 0 0 none 0)) ∧
    (c.m = false → s0.readDescriptor f y vec = (s0, .inl (handler, attr)) → (attr.toNat % 4 ≠ 1 ∨ attr &&& 0xFFF0FCCC ≠ 0) →
      exec cmd s = .next (s0.escalate y f vec 0x06 true false (vec.zeroExtend 32) 0x01 0 0 0 none 0)))) ∧
  (∀ (s : State) (y : YokeId) (f : FoldId) (isGate : Bool) (n : Byte) (handler attr : Word) (phys : List Nat),
    let k := s.yoke y
    let c := k.lead
    let cmd : Instr := if isGate then .gate y n else .trap y n
    let kind := if isGate then 3 else 1
    let tr : BitVec 2 := BitVec.ofNat 2 (attr.toNat / 16)
    let e : EntryInfo := {
      vec := n, sec := 0, inEntry := false, masked := false, next := true, skip := 2, handler := handler, tr := tr,
      em := bit attr 8, ss := bit attr 9, k := (s.fold f).stackK tr, info := 0, syn := 0, oinfo := 0, osyn := 0, esc := none,
      event := false, floor := tr, bare := c.shadow.isNone }
    let s0 := s.setYoke y (s.going y)
    s.Ready y .ckpt 1 → s.foldOf y = some f →
    (n.toNat < 0x20 → s.takes y 0x00 = true → exec cmd s = .next (s0.raise y 0x00 0 0)) ∧
    (0x20 ≤ n.toNat → k.trapReady = false ∨ s.descHeld y n = true →
      exec cmd s = .next (s.setYoke y { s.going y with wait := .pipeline })) ∧
    (0x20 ≤ n.toNat → k.trapReady = true → s.descHeld y n = false → s.entryHeld y 0x06 = false → c.esc = false →
      s0.readDescriptor f y n = (s0, .inl (handler, attr)) →
      (attr.toNat % 4 ≠ kind ∨ attr &&& 0xFFF0FCCC ≠ 0 → exec cmd s = .next (s0.raise y 0x06 (n.zeroExtend 32) 0x01)) ∧
      (attr.toNat % 4 = kind → attr &&& 0xFFF0FCCC = 0 →
        (bit attr (16 + c.ring.toNat) = false → exec cmd s = .next (s0.raise y 0x06 (n.zeroExtend 32) 0x02)) ∧
        (bit attr (16 + c.ring.toNat) = true → c.ring.toNat < tr.toNat →
          exec cmd s = .next (s0.raise y 0x06 (n.zeroExtend 32) 0x03)) ∧
        (bit attr (16 + c.ring.toNat) = true → tr.toNat ≤ c.ring.toNat → stackCheck c tr e.ss e.k = none →
          s.frameAddrs f y tr (c.frameAddr e) = some phys → s0.fetchFails f y tr handler = (s0, none) →
          ∃ t, exec cmd s = .next t ∧ Entered s t y e (c.frameAddr e) phys ∧ t.folds = s.folds))))

/-- R276 to R279: an escalation takes the lowest-numbered free slot of ESP, enters at ESCV in ring 0 with M and ESC set and
its frame at the slot's base plus 384, and counts in ECOUNT, both of which its fold sees with the yoke's checkpoint (R78); with
ESC already set, or no free slot, the task does not continue and source 0x13 is reported for the fold, at once or, while a comparison is outstanding, with it (R78). -/
def Obligations.EscalationTakesTheLowestFreeSlot : Prop :=
  ∀ (s : State) (y : YokeId) (f : FoldId) (vec sec : Byte) (inEntry masked : Bool) (info syn oinfo osyn : Word)
    (floor : BitVec 2) (phys : List Nat) (slot : Nat),
    let k := s.yoke y
    let c := k.lead
    let fo := k.sees (s.fold f)
    let used (j : Nat) : Prop := bit fo.eslot j = true ∨ s.slotHeld y j = true
    let a : Word := (fo.esp &&& 0xFFFFFE00) + BitVec.ofNat 32 (512 * slot + 384)
    let e : EntryInfo := {
      vec := vec, sec := sec, inEntry := inEntry, masked := masked, next := false, skip := 0, handler := fo.escv, tr := 0,
      em := true, ss := false, k := 0, info := info, syn := syn, oinfo := oinfo, osyn := osyn, esc := some a,
      event := false, floor := floor, bare := c.shadow.isNone }
    let go := s.escalate y f vec sec inEntry masked info syn oinfo osyn 0 none floor
    let up (n : Half) : Half := if n.toNat = 65535 then n else n + 1
    k.debug = .off → k.loads = [] → k.branch = none → k.floatHolds = false → s.foldOf y = some f →
    (c.esc = false → slot ≤ fo.esp.toNat % 32 → ¬used slot → (∀ j < slot, used j) →
      s.frameAddrs f y 0 a = some phys → s.fetchFails f y 0 fo.escv = (s, none) →
      Entered s go y e a phys ∧ go.folds = s.folds ∧
        (go.yoke y).effects = k.effects ++ [.takeSlot slot inEntry k.interval] ∧
        let seen := (go.yoke y).sees (go.fold f)
        seen.eslot = setBit fo.eslot slot true ∧ seen.etotal = up fo.etotal ∧
          seen.entryf = (if inEntry then up fo.entryf else fo.entryf)) ∧
    ((c.esc = true ∨ ∀ j ≤ fo.esp.toNat % 32, used j) →
      (go.yoke y).run = .stopped ∧ go.mem = s.mem ∧ ∃ r : Report, r.src = 0x13 ∧ r.kind = .fold ∧ r.region = f.val ∧
        (k.cq = [] → go.reports = s.reports ++ [r] ∧ (go.yoke y).heldReports = k.heldReports) ∧
        (k.cq ≠ [] → go.reports = s.reports ∧ (go.yoke y).heldReports = k.heldReports ++ [(k.seq, r)]))

/-- R266: IRET restores PC, ST with DBG unchanged and ESC clear, the stack pointer of the ring, g14 and the load shadow from
the frame at SP[ST.RING], whose three words are compared as loads; each check that fails raises its vector, and a word of
the frame that cannot be read raises its own. The escalation slot it frees is free with the yoke's checkpoint (R78); after the
handler of an error under debug the task's abort is due (R285).

(What IRET does to a REP in progress is read by inference: log entry 10.) -/
def Obligations.IretRestoresTheFrame : Prop :=
  ∀ (s : State) (y : YokeId) (f : FoldId) (qs : List (QWord × LoadStatus)) (s1 : State),
    let k := s.yoke y
    let fr := frameOf (qs.map (·.1))
    let c := k.lead
    let a := c.spOf c.ring
    let st' := fr[1]
    let ls := fr[7]
    let cnt := if ls.toNat / 16 % 4 = 0 then 1 else if ls.toNat / 16 % 4 = 1 then 2 else 4
    let lsBad : Prop := bit st' 7 = true ∧ lsInfoValid ls = false
    let s0 := s.setYoke y (s.going y)
    s.Ready y .iret 4 → s.foldOf y = some f → k.trapReady = true → s0.frameHeld y f = false →
    (a.toNat % 16 ≠ 0 → s.takes y 0x02 = true →
      exec (.iret y) s = .next (s0.raise y 0x02 a (accessCode 16 false false true 0))) ∧
    (∀ v i sy, a.toNat % 16 = 0 → s0.readFrame y f 3 0 [] = .fails s1 v i sy →
      exec (.iret y) s = .next (if s.entryHeld y v then s.setYoke y { s.going y with wait := .pipeline } else s1.raise y v i sy)) ∧
    (a.toNat % 16 = 0 → s0.readFrame y f 3 0 [] = .ok s1 qs →
      (lsBad ∨ st'.toNat / 32 % 4 < c.ring.toNat ∨ 2 ≤ c.ring.toNat ∧ bit st' 4 = true ∧ c.m = false →
        s.entryHeld y 0x05 = false →
        exec (.iret y) s = .next (s1.raise y 0x05 0 0)) ∧
      (¬lsBad → c.ring.toNat ≤ st'.toNat / 32 % 4 → (c.ring.toNat ≤ 1 ∨ bit st' 4 = false ∨ c.m = true) →
        (c.task.abort = .frame a → ∃ t, exec (.iret y) s = .next t ∧ (t.yoke y).lead.task.abort = .due ∧ t.mem = s1.mem) ∧
        (c.task.abort ≠ .frame a → ∃ t, exec (.iret y) s = .next t ∧
          (t.yoke y).lead = { c with
            g := c.g.set 14 fr[3], sp := c.sp.set c.ring.toNat fr[2] c.ring.isLt, pc := fr[0], rep := false,
            st := (st' &&& 0x37F) ||| (c.st &&& 0x400),
            shadow := if bit st' 7 then some ⟨gpr (ls.toNat % 16), [fr[8], fr[9], fr[10], fr[11]].take cnt⟩ else none } ∧
          (t.yoke y).cq.map (fun q => q.out.load) = k.cq.map (fun q => q.out.load) ++
            (List.range 3).map (fun j => some (a + BitVec.ofNat 32 (16 * j), 16, .plain)) ++ [none] ∧
          t.mem = s1.mem ∧ t.regs = s1.regs ∧ (t.yoke y).trail = k.trail ∧ (t.yoke y).whb = k.whb ∧
          t.folds = s1.folds ∧ (t.yoke y).effects = k.effects ++ (match c.esc, (s.fold f).slotAt a with
            | true, some j => [.freeSlot j k.interval]
            | _, _ => []))))

/-- R257, R259, R272, R274, R275: a yoke whose task has M and ESC clear accepts the pending event of the lowest vector among
those offered to it, which stays reserved to the yoke; with M or ESC set it accepts none. -/
def Obligations.EventsAreAcceptedLowestFirst : Prop :=
  ∀ (s : State) (y : YokeId) (f : FoldId) (ev : PendEvent) (handler attr : Word) (phys : List Nat),
    let k := s.yoke y
    let c := k.lead
    let tr : BitVec 2 := BitVec.ofNat 2 (attr.toNat / 16)
    let e : EntryInfo := {
      vec := ev.vec, sec := 0, inEntry := false, masked := false, next := false, skip := 0, handler := handler, tr := tr,
      em := bit attr 8, ss := bit attr 9, k := (s.fold f).stackK tr, info := ev.info, syn := ev.syn, oinfo := 0, osyn := 0,
      esc := none, event := true, floor := tr, bare := c.shadow.isNone }
    let s2 := (s.setFold f { s.fold f with
      events := (s.fold f).events.map fun o => if o.vec = ev.vec then { o with reserved := some y } else o }).setYoke y
        { k with wait := .none }
    s.foldOf y = some f →
    (k.lead.m = true ∨ k.lead.esc = true → exec (.eventAccept y) s = .next s) ∧
    (k.mayAccept = true → k.run = .task → k.debug = .off → (s.span (spanOf y)).power = .run →
      ev ∈ (s.fold f).events → ev.reserved = none → s.entryHeld y ev.vec = false →
      (∀ o ∈ (s.fold f).events, o ≠ ev → o.reserved = none → ev.vec.toNat < o.vec.toNat) →
      (s.readDescriptor f y ev.vec).2 = .inl (handler, attr) → s2.readDescriptor f y ev.vec = (s2, .inl (handler, attr)) →
      attr.toNat % 4 = 2 → attr &&& 0xFFF0FCCC = 0 →
      tr.toNat ≤ c.ring.toNat → stackCheck c tr e.ss e.k = none → s.frameAddrs f y tr (c.frameAddr e) = some phys →
      s2.fetchFails f y tr handler = (s2, none) →
      ∃ t, exec (.eventAccept y) s = .next t ∧ Entered s t y e (c.frameAddr e) phys ∧ (t.yoke y).run = .task ∧
        (t.fold f).events = (s.fold f).events.map fun o => if o.vec = ev.vec then { o with reserved := some y } else o)

/-- R156, R157, R176, R183, R184: a load from memory or a hardware page leaves for its bank. PC moves on, the shadow latch
keeps the old values of the destination registers, the checker gets the address, and the load waits for its data; a misaligned
address raises 0x02, one the windows do not permit 0x04, and a destination that is no pair or quad 0x00. LDB to LDQ.

R55, R64, R156, R183, R356: the data of the oldest load, the yoke's own held bytes before those of memory, enters the
destination registers that no later instruction has written, sign- or zero-extended as the load says, and the load-value
queue with its status. A load performed before an older one to another bank keeps its data until its turn.

(Errors of a codeword are operands of the command: log entry 6.) -/
def Obligations.LoadsLeaveAndTheirDataEntersRegisters : Prop :=
  (∀ (s : State) (y : YokeId) (f : FoldId) (d : Gpr) (m : MemAddr) (op : LoadOp) (cmd : Instr) (n : Nat),
    let k := s.yoke y
    let c := k.lead
    let a := c.ea m
    let i : CoreIns := .load op d m
    let len := 2 + m.len
    let words := max 1 (n / 4)
    let dst := (List.range words).map fun j => gpr (d.val + j)
    let gone (p : Nat) (t : State) : Prop :=
      (t.yoke y).lead = { c with pc := c.pc + BitVec.ofNat 32 len, shadow := some ⟨d, dst.map fun r => c.g[r]⟩ } ∧
      (∃ l, (t.yoke y).loads.getLast? = some l ∧ l = ⟨k.seq + 1, a, n, p, .gpr op d, dst, c, none⟩) ∧
      (∃ e, (t.yoke y).cq = k.cq ++ [e] ∧ e.op = i ∧ e.out.load = some (a, n, .plain) ∧ e.out.store = none ∧ e.lvqUse = 1) ∧
      t.mem = s.mem ∧ t.folds = s.folds ∧ t.regs = s.regs ∧ (t.yoke y).trail = k.trail ∧ (t.yoke y).whb = k.whb
    (cmd, op, n) ∈ ([(.ldb y d m, .b, 1), (.ldbu y d m, .bu, 1), (.ldh y d m, .h, 2), (.ldhu y d m, .hu, 2), (.ldw y d m, .w, 4),
      (.ldd y d m, .d, 8), (.ldq y d m, .q, 16)] : List (Instr × LoadOp × Nat)) →
    s.foldOf y = some f →
    (d.val % words ≠ 0 → s.Ready y .nop 1 → s.takes y 0x00 = true → exec cmd s = .next ((s.setYoke y (s.going y)).raise y 0x00 0 0)) ∧
    (d.val % words = 0 → s.Ready y i 1 →
      (a.toNat % n ≠ 0 → s.takes y 0x02 = true →
        exec cmd s = .next ((s.setYoke y (s.going y)).raise y 0x02 a (accessCode n false false false 0))) ∧
      (a.toNat % n = 0 → s.check f (spanOf y) c.ring a n Need.read = none → s.takes y 0x04 = true →
        exec cmd s = .next ((s.setYoke y ((s.going y).pushFailed i (loadOut a n .plain) .accessViolation [])).raise y 0x04 a
          (accessCode n false false false 0))) ∧
      (∀ p, a.toNat % n = 0 → s.check f (spanOf y) c.ring a n Need.read = some (.mem p) →
        ∃ t, exec cmd s = .next t ∧ gone p t) ∧
      (∀ off, a.toNat % n = 0 → s.check f (spanOf y) c.ring a n Need.read = some (.page off) →
        ∃ t, exec cmd s = .next t ∧ gone (physPage f off) t))) ∧
  (∀ (s : State) (y : YokeId) (l : PendLoad) (rest : List PendLoad) (op : LoadOp) (d : Gpr) (ws : List Word),
    let k := s.yoke y
    let bs := (List.range l.size).map fun j => s.yokeByte k (l.phys + j)
    let v := leValue bs
    (op, l.size, ws) ∈ ([(.b, 1, [BitVec.ofInt 32 (BitVec.ofNat 8 v).toInt]), (.bu, 1, [BitVec.ofNat 32 v]),
      (.h, 2, [BitVec.ofInt 32 (BitVec.ofNat 16 v).toInt]), (.hu, 2, [BitVec.ofNat 32 v]), (.w, 4, [BitVec.ofNat 32 v]),
      (.d, 8, [BitVec.ofNat 32 v, BitVec.ofNat 32 (v / 2 ^ 32)]),
      (.q, 16, [BitVec.ofNat 32 v, BitVec.ofNat 32 (v / 2 ^ 32), BitVec.ofNat 32 (v / 2 ^ 64), BitVec.ofNat 32 (v / 2 ^ 96)])] :
        List (LoadOp × Nat × List Word)) →
    k.loads = l :: rest → l.got = none → (∀ x ∈ rest, x.got = none) → k.lvq.length < 64 → l.dest = .gpr op d →
    d.val + ws.length ≤ 16 → s.heldElsewhere y l.phys = false → k.debug = .off →
    s.decodeAccess l.phys l.size = (s, .completed) →
    (∃ t, exec (.loadComplete y 0 CwFlip.none) s = .next t ∧
      (∀ r : Gpr, (t.yoke y).lead.g[r] =
        if r.val < d.val ∨ r ∉ l.live then k.lead.g[r] else (ws[r.val - d.val]?).getD k.lead.g[r]) ∧
      (t.yoke y).lead.pc = k.lead.pc ∧ (t.yoke y).lead.shadow = k.lead.shadow ∧ (t.yoke y).lead.st = k.lead.st ∧
      (t.yoke y).lvq = k.lvq ++ [lvqEntry l.seq .load (BitVec.ofNat 128 v) .completed] ∧
      (t.yoke y).loads.map PendLoad.seq = rest.map PendLoad.seq ∧
      (t.yoke y).trail = k.trail ∧ (t.yoke y).whb = k.whb ∧ t.mem = s.mem ∧ t.regs = s.regs) ∧
    (∀ j x, rest[j]? = some x → s.mayPerform y (j + 1) x = true → s.decodeAccess x.phys x.size = (s, .completed) →
      exec (.loadComplete y (j + 1) CwFlip.none) s = .next (s.setYoke y { k with
        loads := k.loads.set (j + 1) { x with got := some ⟨s.yokeRead k x.phys x.size, .completed, []⟩ } })))

/-- R54, R56, R168, R344: an instruction block returns to the fetch buffer and, with its parity, to the fetch lane of the
load-value queue, once the codewords of the bytes that decoding needs have been decoded; a block that the windows do not let
the ring execute raises vector 0x04 when decoding needs a byte of it, and a bus error of such a codeword 0x03.

(Errors of a codeword are operands of the command, and INFO of a failed fetch is read by inference: log entries 6 and
64.) -/
def Obligations.FetchedBlocksReachBothCores : Prop :=
  ∀ (s : State) (y : YokeId) (f : FoldId) (n p : Nat),
    let k := s.yoke y
    let a := blockOf k.lead.pc + BitVec.ofNat 32 (16 * n)
    let bs := (List.range 16).map fun j => memGet s.mem (p + j)
    s.foldOf y = some f → k.run = .task → k.collapse = none → k.debug = .off → k.fetchReq = none → k.fetchLane.length < 32 →
    (∀ needed : BitVec 16, s.check f (spanOf y) k.lead.ring a 16 Need.exec = some (.mem p) →
      (∀ h < 2, (needed >>> (8 * h)).setWidth 8 ≠ (0 : Byte) → s.decodeAccess (p + 8 * h) 8 = (s, .completed)) →
      exec (.fetchComplete y n needed CwFlip.none) s = .next (s.setYoke y { k with
        fetchBuf := a :: k.fetchBuf.filter (· ≠ a), fetchReq := some n,
        fetchLane := k.fetchLane ++ [laneBlock (BitVec.ofNat 128 (leValue bs))] })) ∧
    (s.check f (spanOf y) k.lead.ring a 16 Need.exec = none → s.takes y 0x04 = true →
      (∀ needed : BitVec 16, needed ≠ 0 → s.eventWaits y = false →
        exec (.fetchComplete y n needed CwFlip.none) s = .next (s.raise y 0x04 a (accessCode 16 false true false 0))) ∧
      exec (.fetchComplete y n 0 CwFlip.none) s = .next s) ∧
    (∀ (needed : BitVec 16) (b : BitVec 3) (s1 : State), s.check f (spanOf y) k.lead.ring a 16 Need.exec = some (.mem p) →
      needed.setWidth 8 ≠ (0 : Byte) → s.decodeAccess p 8 = (s1, .busError b) → s.eventWaits y = false →
      (s1.asStored s).takes y 0x03 = true →
      exec (.fetchComplete y n needed CwFlip.none) s = .next ((s1.asStored s).raise y 0x03 a (accessCode 16 false true false b)))

/-- R62, R63, R64, R185, R186: a store enters the write-hold buffer, merging into the open entry of its 16-byte word if there
is one: the yoke's own view of memory then shows the bytes stored and every other byte as before, memory itself is
unchanged, and the checker gets address, enables and data. With the buffer full the core waits. STB to STQ.

R110, R200, R211: EMIT to an output window the fold owns and SYSC in ring 0 each enter an entry of their own in the
write-hold buffer, EMIT marked local or not and with the task's order epoch, SYSC with its record of n and g1 to g3 for the
mailbox; EMIT elsewhere raises 0x04, SYSC in another ring 0x05. -/
def Obligations.StoresEmitAndSyscEnterTheWriteHoldBuffer : Prop :=
  (∀ (s : State) (y : YokeId) (f : FoldId) (d : Gpr) (m : MemAddr) (op : StoreOp) (cmd : Instr) (n p : Nat),
    let k := s.yoke y
    let c := k.lead
    let a := c.ea m
    let i : CoreIns := .store op d m
    let words := max 1 (n / 4)
    let value := ((List.range words).map fun j => (c.rd (gpr (d.val + j))).toNat * 2 ^ (32 * j)).sum
    let mine (e : WhbEntry) : Bool := decide (e.phys / 16 = p / 16)
    (cmd, op, n) ∈ ([(.stb y d m, .b, 1), (.sth y d m, .h, 2), (.stw y d m, .w, 4), (.std y d m, .d, 8), (.stq y d m, .q, 16)] :
      List (Instr × StoreOp × Nat)) →
    s.foldOf y = some f → d.val % words = 0 → s.Ready y i 1 →
    (a.toNat % n ≠ 0 → s.takes y 0x02 = true →
      exec cmd s = .next ((s.setYoke y (s.going y)).raise y 0x02 a (accessCode n true false false 0))) ∧
    (a.toNat % n = 0 → s.check f (spanOf y) c.ring a n Need.write = none → s.takes y 0x04 = true →
      exec cmd s = .next ((s.setYoke y (s.going y)).raise y 0x04 a (accessCode n true false false 0))) ∧
    (a.toNat % n = 0 → s.check f (spanOf y) c.ring a n Need.write = some (.mem p) →
      (k.whb.length = 128 → k.mergeSlot p = none → exec cmd s = .next (s.setYoke y { s.going y with wait := .pipeline })) ∧
      ((k.whb.length < 128 ∧ k.whb.filter mine = [] ∨
          k.whb.length ≤ 128 ∧ ∃ e, k.whb.filter mine = [e] ∧ k.mergeSlot p = some e) →
        (k.whb.map WhbEntry.id).Nodup →
        ∃ t, exec cmd s = .next t ∧ (t.yoke y).lead = c.step (2 + m.len) ∧
          (∀ b, t.yokeByte (t.yoke y) b =
            if p ≤ b ∧ b < p + n then BitVec.ofNat 8 (value / 2 ^ (8 * (b - p))) else s.yokeByte k b) ∧
          (∃ e, (t.yoke y).cq = k.cq ++ [e] ∧ e.op = i ∧ e.out.load = none ∧
            e.out.store = some (a, byteEnables a.toNat n, placed a.toNat (BitVec.ofNat 128 value), .plain)) ∧
          t.mem = s.mem ∧ t.folds = s.folds ∧ t.regs = s.regs ∧ (t.yoke y).trail = k.trail))) ∧
  (∀ (s : State) (y : YokeId) (f : FoldId) (d : Gpr) (m : MemAddr) (loc : Bool) (sz : BitVec 3) (n : Byte) (bank off : Nat),
    let k := s.yoke y
    let c := k.lead
    let a := c.ea m
    let size := 2 ^ sz.toNat
    let words := if sz.toNat = 4 then 4 else if sz.toNat = 3 then 2 else 1
    let value := ((List.range words).map fun j => (c.rd (gpr (d.val + j))).toNat * 2 ^ (32 * j)).sum
    let record : QWord := c.rd 3 ++ c.rd 2 ++ c.rd 1 ++ n.zeroExtend 32
    let i : CoreIns := .emit loc sz d m
    let held (t : State) (h : WhbEntry) (store : Word × BitVec 16 × QWord × AccKind) (len : Nat) : Prop :=
      (t.yoke y).lead = c.step len ∧ (t.yoke y).whb = k.whb ++ [h] ∧ h.oepoch = c.task.oepoch ∧ h.ring = c.ring ∧
      h.pc = c.pc ∧ h.phase = .open ∧ h.interval = k.interval ∧ h.unconf = 1 ∧
      (∃ e, (t.yoke y).cq = k.cq ++ [e] ∧ e.out.store = some store ∧ e.whb = some h.id) ∧ t.mem = s.mem ∧ t.folds = s.folds
    s.foldOf y = some f →
    (sz.toNat ≤ 4 → d.val % words = 0 → s.Ready y i 1 → k.whb.length < 128 → a.toNat % size = 0 →
      s.check f (spanOf y) c.ring a size Need.write = some (.io bank off) →
      (s.isOutputWindow f bank off size = true →
        ∃ t h, exec (.emit y loc sz d m) s = .next t ∧ h.io = true ∧ h.loc = loc ∧ h.addr = a ∧
          h.be = byteEnables a.toNat size ∧ h.data = placed a.toNat (BitVec.ofNat 128 value) ∧
          held t h (a, h.be, h.data, if loc then .emitLocal else .emit) (3 + m.len)) ∧
      (s.isOutputWindow f bank off size = false → s.takes y 0x04 = true →
        exec (.emit y loc sz d m) s = .next ((s.setYoke y (s.going y)).raise y 0x04 a (accessCode size true false false 0)))) ∧
    (s.Ready y (.sysc n) 1 → k.whb.length < 128 →
      (c.ring = 0 →
        ∃ t h, exec (.sysc y n) s = .next t ∧ h.sysc = true ∧ h.phys = physPage f 0x1000 ∧ h.be = 0xFFFF ∧ h.data = record ∧
          held t h (mailboxRequest, 0xFFFF, record, .plain) 2) ∧
      (c.ring ≠ 0 → s.takes y 0x05 = true → exec (.sysc y n) s = .next ((s.setYoke y (s.going y)).raise y 0x05 0 0))))

/-- R65, R341, R345, R358: the oldest released entry is accepted by its bank, not yet visible; an entry whose check fails, or
whose bank refuses it, is dropped with a deferred write error and a report of source 0x17.

R341, R358: once the bank of every entry of a group has accepted it, the group's bytes become visible together and its
entries are free; no byte outside them changes.

(Errors of a codeword are operands of the command, and the check of a held entry is over 64 bits each: log entries 6
and 57.) -/
def Obligations.HeldEntriesDrainAndGroupsBecomeVisible : Prop :=
  (∀ (s : State) (y : YokeId) (e : WhbEntry) (ecc : Ecc),
    let k := s.yoke y
    let put (p : WhbPhase) := k.whb.map fun x => if x.id = e.id then { x with phase := p } else x
    k.nextDrain = some e →
    (ecc = .clean → e.ecc = .clean → s.drainRefused e = false →
      exec (.whbDrain y ecc) s = .next ({ s with stamp := s.stamp + 1 }.setYoke y { k with whb := put (.accepted s.stamp) })) ∧
    (ecc = .uncorrectable ∨ e.ecc = .uncorrectable ∨ ecc = .clean ∧ e.ecc = .clean ∧ s.drainRefused e = true →
      ∃ t, exec (.whbDrain y ecc) s = .next t ∧ (t.yoke y).whb = put .failed ∧ t.mem = s.mem ∧
        (∃ r ∈ t.reports, r.src = 0x17 ∧ r.kind = .span ∧ r.region = (spanOf y).val) ∧
        ∀ f, s.foldOf y = some f → ∃ v ∈ (t.fold f).events, v.vec = 0x0E) ∧
    (ecc ≠ .uncorrectable → e.ecc ≠ .uncorrectable → ecc ≠ .clean ∨ e.ecc ≠ .clean → s.drainRefused e = false →
      ∃ t r, exec (.whbDrain y ecc) s = .next t ∧ (t.yoke y).whb = put (.accepted s.stamp) ∧ t.mem = s.mem ∧
        t.reports = s.reports ++ [r] ∧ r.src = 0x06)) ∧
  (∀ (s : State) (y : YokeId) (iv : Nat),
    let k := s.yoke y
    let es := k.whb.filter fun e => decide (e.interval = iv)
    let writes (b : Nat) (e : WhbEntry) : Bool := decide (e.phys / 16 = b / 16) && e.be.getLsbD (b % 16)
    k.groupReady = some iv → (∀ e ∈ es, ∃ st, e.phase = .accepted st) →
    (∀ e ∈ es, e.phys < 0x0500000000 ∧ s.wiping (e.phys / 16 * 16) = false) → NoErrors s → Memory.wf s.mem = true →
    ∃ t, exec (.groupVisible y) s = .next t ∧
      (∀ b, (∀ e ∈ es, writes b e = false) → memGet t.mem b = memGet s.mem b) ∧
      (∀ b e, e ∈ es → writes b e = true → (∀ x ∈ es, x ≠ e → writes b x = false) →
        memGet t.mem b = BitVec.ofNat 8 (e.data.toNat / 2 ^ (8 * (b % 16)))) ∧
      (∀ e ∈ (t.yoke y).whb, e.interval ≠ iv) ∧ (t.yoke y).lead = k.lead ∧ (t.yoke y).trail = k.trail ∧ t.folds = s.folds)

/-- R169, R194 to R197, Table 5.7: an iteration of MOVM, FILLM and CMPM acts on one aligned 16-byte word. MOVM and FILLM
enter the source word into the write-hold buffer at the destination; the pointers advance by 16, the source of FILLM not, and
CT counts down; CMPM ends with Z = 0 and C at the first difference. A repeat with CT = 0 does nothing but end; a misaligned
pointer raises 0x02. CMPM's two reads are compared in order. Under REP and REPI the instruction is in no load shadow (R158).

(MOVM and CMPM with one register twice advance it once, by inference: log entry 13.) -/
def Obligations.BlockOperationsMoveOneWord : Prop :=
  ∀ (s : State) (y : YokeId) (f : FoldId) (rep : Rep) (d src : Gpr) (p q : Nat) (op : BlockOp) (cmd : Instr),
    let k := s.yoke y
    let c : Core := if rep = .once then k.lead else { k.lead with shadow := none }
    let len := if rep = .once then 2 else 3
    let i : CoreIns := .block op rep d src
    let rep0 := rep = .rep → c.ra = true ∨ c.ct.toNat ≤ 1024
    let need : Need := if op = .cmpm then Need.read else Need.write
    let x := s.yokeRead k p 16
    let z := s.yokeRead k q 16
    let moved (c : Core) : Core := if rep = .once then { c.step len with ct := c.ct - 1 } else iterated c rep len
    let both : Core := if d = src then c.wr d (c.rd d + 16) else (c.wr d (c.rd d + 16)).wr src (c.rd src + 16)
    let after : Core := match op with
      | .movm => moved both
      | .fillm => moved (c.wr d (c.rd d + 16))
      | .cmpm =>
        if x = z then moved (both.setFlags ⟨some true, none, some false, none⟩)
        else
          let c1 := c.setFlags ⟨some false, none, some (decide (z.toNat < x.toNat)), none⟩
          { c1.step len with st := setBit c1.st 8 false, rep := false }
    (cmd, op) ∈ ([(.movm y rep d src, .movm), (.fillm y rep d src, .fillm), (.cmpm y rep d src, .cmpm)] : List (Instr × BlockOp)) →
    s.foldOf y = some f → s.Ready y i 2 → rep0 →
    (c.ct = 0 → exec cmd s = .next (s.executed y i { c.step len with st := setBit c.st 8 false, rep := false } .none)) ∧
    (c.ct ≠ 0 → (c.rd src).toNat % 16 ≠ 0 → s.takes y 0x02 = true →
      exec cmd s = .next ((s.setYoke y { s.going y with lead := c }).raise y 0x02 (c.rd src) (accessCode 16 false false false 0))) ∧
    (c.ct ≠ 0 → (c.rd src).toNat % 16 = 0 → (c.rd d).toNat % 16 ≠ 0 → s.takes y 0x02 = true →
      exec cmd s = .next ((s.setYoke y { s.going y with lead := c }).raise y 0x02 (c.rd d) (accessCode 16 (op != .cmpm) false false 0))) ∧
    (c.ct ≠ 0 → (c.rd src).toNat % 16 = 0 → (c.rd d).toNat % 16 = 0 →
      s.check f (spanOf y) c.ring (c.rd src) 16 Need.read = some (.mem p) →
      s.check f (spanOf y) c.ring (c.rd d) 16 need = some (.mem q) →
      (c.rd src).toNat / 2 ^ 24 ≠ 0 → (c.rd d).toNat / 2 ^ 24 ≠ 0 →
      s.heldElsewhere y p = false → s.heldElsewhere y q = false →
      s.decodeAccess p 16 = (s, .completed) → s.decodeAccess q 16 = (s, .completed) →
      k.trapReady = true → k.whb.filter (fun e => decide (e.phys / 16 = q / 16)) = [] →
      ∃ t, exec cmd s = .next t ∧ (t.yoke y).lead = after ∧
        (op = .cmpm → (t.yoke y).whb = k.whb) ∧
        (op ≠ .cmpm → ∀ b, t.yokeByte (t.yoke y) b = if b / 16 = q / 16 then byteOf x (b % 16) else s.yokeByte k b) ∧
        (t.yoke y).cq.map (fun e => e.out.load) = k.cq.map (fun e => e.out.load) ++
          (if op = .cmpm then [some (c.rd src, 16, .plain), some (c.rd d, 16, .plain)] else [some (c.rd src, 16, .plain)]) ∧
        t.mem = s.mem ∧ t.regs = s.regs ∧ t.folds = s.folds ∧ (t.yoke y).trail = k.trail)

/-- R188, Table 5.4: XCHG, CAS and FADD read and write a word, or under WIDE a doubleword, of a memory bank as one action
after a checkpoint. D receives the old value; XCHG writes D, CAS writes its second register where the old value equals D and
sets Z accordingly, FADD writes the sum. No other byte changes. A target that is no memory bank raises 0x04, a
misaligned one 0x02.

(The wait on another yoke's accepted entry is read by inference: log entry 34.) -/
def Obligations.AtomicsActOnceAtTheBank : Prop :=
  ∀ (s : State) (y : YokeId) (f : FoldId) (wide ord : Bool) (d new : Gpr) (ad : Addend) (m : MemAddr) (p : Nat) (cmd : Instr)
    (extra : Nat) (next : Option Nat) (z : Option Bool),
    let k := s.yoke y
    let c := k.lead
    let a := c.ea m
    let size := if wide then 8 else 4
    let old := leValue (memRead s.mem p size)
    let reg (r : Gpr) : Nat := if wide then (c.rd (gpr (r.val + 1))).toNat * 2 ^ 32 + (c.rd r).toNat else (c.rd r).toNat
    let even (r : Gpr) : Prop := wide = true → r.val % 2 = 0
    let addend : Nat := match ad with
      | .reg r => reg r
      | .imm x => if wide then (BitVec.ofInt 64 x.toInt).toNat else x.toNat
    let len := 2 + m.len + extra + wide.toNat + ord.toNat
    let got : Core := if wide then (c.wr d (BitVec.ofNat 32 old)).wr (gpr (d.val + 1)) (BitVec.ofNat 32 (old / 2 ^ 32))
      else c.wr d (BitVec.ofNat 32 old)
    let c1 := got.setFlags ⟨z, none, none, none⟩
    let c2 : Core := if ord then { c1 with task := { c1.task with ordCount := c1.task.ordCount + 1, ordSeen := c1.task.ordCount + 1 } } else c1
    (cmd = .xchg y wide ord d m ∧ extra = 0 ∧ next = some (reg d) ∧ z = none ∨
      cmd = .cas y wide ord d new m ∧ extra = 1 ∧ next = (if old = reg d then some (reg new) else none) ∧
        z = some (decide (old = reg d)) ∧ even new ∨
      cmd = .fadd y wide ord d ad m ∧ extra = (match ad with
        | .reg _ => 1
        | .imm _ => 5) ∧ next = some ((old + addend) % 2 ^ (8 * size)) ∧ z = none ∧
        (∀ r, ad = .reg r → even r)) →
    even d → len ≤ 12 → s.foldOf y = some f → s.Calm y →
    (a.toNat % size ≠ 0 → exec cmd s = .next ((s.setYoke y (s.going y)).raise y 0x02 a (accessCode size true false false 0))) ∧
    (a.toNat % size = 0 → (s.check f (spanOf y) c.ring a size Need.both).bind Target.memPhys = none →
      exec cmd s = .next ((s.setYoke y (s.going y)).raise y 0x04 a (accessCode size true false false 0))) ∧
    (a.toNat % size = 0 → s.check f (spanOf y) c.ring a size Need.both = some (.mem p) → NoErrors s → Memory.wf s.mem = true → s.wiping p = false →
      s.sfm (spanOf y) = 0 →
      ∃ t, exec cmd s = .next t ∧ t.yoke y = (s.collapsed y (c2.step len)).yoke y ∧
        leValue (memRead t.mem p size) = next.getD old ∧ (∀ b, b < p ∨ p + size ≤ b → memGet t.mem b = memGet s.mem b) ∧
        t.regs = s.regs ∧ t.folds = s.folds ∧ t.spans = s.spans ∧ t.reports = s.reports ∧ ∀ w, w ≠ y → t.yoke w = s.yoke w)

/-- R190 to R193, Table 5.5: TLOCK takes a free or abandoned lock word for the task, with Z = 1 and C the ABANDONED bit, and
reports a word another task holds with Z = 0; TUNLOCK clears a word the task holds and takes it off the tether list. A word
the task holds already, a ninth tether and a release of a word not held raise 0x0C with reasons 0x01, 0x02 and 0x03; the action
at the bank counts whatever it answers.

(The wait on another yoke's accepted entry is read by inference: log entry 34.) -/
def Obligations.TethersFollowTheirRules : Prop :=
  ∀ (s : State) (y : YokeId) (f : FoldId) (d : Gpr) (m : MemAddr) (p : Nat),
    let k := s.yoke y
    let c := k.lead
    let a := c.ea m
    let w : Word := BitVec.ofNat 32 (leValue (memRead s.mem p 4))
    let own := c.task.ident.toNat % 2 ^ 28
    let len := 2 + m.len
    let counted : Core := { c with task := { c.task with ordCount := c.task.ordCount + 1, ordSeen := c.task.ordCount + 1 } }
    let seen : Core := { c with task := { c.task with ordSeen := c.task.ordCount + 1 } }
    let fault (op : CollapseOp) (reason : Word) : State :=
      let u := s.atCollapse y op len
      (u.setYoke y { u.yoke y with
        lead := counted, trailC := counted.inv, committed := ⟨seen, k.fpu.f, k.fpu.fcsr⟩ }).collapseFault y 0x0C 0 reason
    let held := w.toNat / 2 ^ 31 = 1
    let mine := w.toNat % 2 ^ 28 = own
    let after (t : State) (c' : Core) (v : Nat) : Prop :=
      t.yoke y = (s.collapsed y (c'.step len)).yoke y ∧ leValue (memRead t.mem p 4) = v ∧
      (∀ b, b < p ∨ p + 4 ≤ b → memGet t.mem b = memGet s.mem b) ∧ t.regs = s.regs ∧ t.folds = s.folds
    s.foldOf y = some f → s.Calm y → a.toNat % 4 = 0 → s.check f (spanOf y) c.ring a 4 Need.both = some (.mem p) →
    NoErrors s → Memory.wf s.mem = true → s.wiping p = false → s.sfm (spanOf y) = 0 →
    (held → mine → exec (.tlock y d m) s = .next (fault (.tlock d a p) 0x01)) ∧
    (held → ¬mine → ∃ t, exec (.tlock y d m) s = .next t ∧
      after t ((counted.wr d w).setFlags ⟨some false, none, some false, none⟩) w.toNat) ∧
    (¬held → 8 ≤ c.task.tlist.length → exec (.tlock y d m) s = .next (fault (.tlock d a p) 0x02)) ∧
    (¬held → c.task.tlist.length < 8 → ∃ t, exec (.tlock y d m) s = .next t ∧
      after t (let c1 := (counted.wr d w).setFlags ⟨some true, none, some (bit w 30), none⟩
        { c1 with task := { c1.task with tlist := c1.task.tlist ++ [a] } }) (2 ^ 31 + own)) ∧
    (held → mine → (∀ x ∈ c.task.tlist, s.physOf y x = some p ↔ x = a) → ∃ t, exec (.tunlock y m) s = .next t ∧
      after t { counted with task := { counted.task with tlist := c.task.tlist.filter (· ≠ a) } } 0) ∧
    (¬(held ∧ mine) → exec (.tunlock y m) s = .next (fault (.tunlock a p) 0x03))

/-- R212, R213, R288 to R290, R293: SPAWN reads a 64-byte descriptor at its address and pushes a child onto the yoke's deque,
with the parent's order epoch and identity, zero stack pointers for rings below the parent's and the next serial of the
fold; a descriptor of another fold or of a ring below the spawner's raises 0x0C with reason 0x05, set reserved bits reason
0x10, a misaligned address 0x02. -/
def Obligations.SpawnPushesTheChild : Prop :=
  ∀ (s : State) (y : YokeId) (f : FoldId) (src : Gpr) (p : Nat),
    let k := s.yoke y
    let c := k.lead
    let a := c.rd src
    let word (j : Nat) : Word := BitVec.ofNat 32 (leValue (memRead s.mem (p + 4 * j) 4))
    let attr := word 7
    let fault (r : Word) : State := (s.atCollapse y (.spawn a) 2).collapseFault y 0x0C 0 r
    let wrongFold : Prop := attr.toNat / 2 ^ 28 ≠ f.val ∨ attr.toNat / 32 % 4 < c.ring.toNat
    let reservedSet : Prop := attr &&& 0x0FFFFC1F ≠ 0 ∨ word 15 ≠ 0
    let id : Word := BitVec.ofNat 4 f.val ++ (s.fold f).serial
    let spOf (j : Nat) : Word := if j < c.ring.toNat then 0 else word (8 + j)
    s.foldOf y = some f → s.Calm y →
    (a.toNat % 64 ≠ 0 → exec (.spawn y src) s =
      .next ((s.setYoke y (s.going y)).raise y 0x02 a (accessCode 64 false false false 0))) ∧
    (a.toNat % 64 = 0 → s.check f (spanOf y) c.ring a 16 Need.read = some (.mem p) →
      (∀ j < 4, ∃ q, s.check f (spanOf y) c.ring (a + BitVec.ofNat 32 (16 * j)) 16 Need.read = some (.mem q)) →
      NoErrors s → Memory.wf s.mem = true → (∀ j < 4, s.wiping (p + 16 * j) = false) → s.sfm (spanOf y) = 0 →
      (wrongFold → exec (.spawn y src) s = .next (fault 0x05)) ∧
      (¬wrongFold → reservedSet → exec (.spawn y src) s = .next (fault 0x10)) ∧
      (¬wrongFold → ¬reservedSet → word 5 ≠ 0 → (word 5).toNat % 4 ≠ 0 → exec (.spawn y src) s = .next (fault 0x11)) ∧
      (¬wrongFold → ¬reservedSet →
        (word 5 = 0 ∨ (word 5).toNat % 4 = 0 ∧ (s.translate f (spanOf y) (word 5)).memPhys ≠ none) →
        k.deque.length < 64 → id ∉ s.liveIdents f →
        ∃ t, exec (.spawn y src) s = .next t ∧
          (t.yoke y).deque = k.deque ++ [{
            entry := word 0, g1 := word 1, g2 := word 2, g3 := word 3, g4 := word 4, joinref := word 5,
            oepoch := c.task.oepoch, attr := attr, sp := #v[spOf 0, spOf 1, spOf 2, spOf 3], ident := id,
            parent := c.task.ident }] ∧
          (t.yoke y).lead = { c with task := { c.task with tspn := c.task.tspn + 1 } }.step 2 ∧
          (t.yoke y).trail = (t.yoke y).lead ∧
          (t.fold f).serial.toNat = (if (s.fold f).serial.toNat = 2 ^ 28 - 1 then 1 else (s.fold f).serial.toNat + 1) ∧
          t.mem = s.mem ∧ t.regs = s.regs ∧ t.spans = s.spans))

/-- R193, R305, R306, R307: JOIN completes on a counter of 0 and otherwise parks the task in a save slot and enters the join
registry; a second JOIN on the counter raises 0x0C with reason 0x13. TEND frees the yoke and decrements the task's join
counter, sets its abort flag on an abort, and with the last decrement queues the parked task; a normal TEND with tethers held
raises 0x0C with reason 0x04.

(The bus error of a JOINREF that no longer translates is read by inference: log entry 18.) -/
def Obligations.JoinsWaitForTaskEnds : Prop :=
  ∀ (s : State) (y : YokeId) (f : FoldId) (src : Gpr) (p slot : Nat) (op : Byte) (jp : Nat),
    let k := s.yoke y
    let c := k.lead
    let sp := spanOf y
    let a := c.rd src
    let count := leValue (memRead s.mem p 4) % 2 ^ 31
    let fo := s.fold f
    let counter := leValue (memRead s.mem jp 4)
    let ended (t : State) : Prop := (t.yoke y).run = .idle ∧ (t.yoke y).deque = k.deque ∧ (t.yoke y).committed.core = c
    s.foldOf y = some f → s.Calm y → NoErrors s → Memory.wf s.mem = true → s.sfm sp = 0 →
    (a.toNat % 4 = 0 → s.check f sp c.ring a 4 Need.read = some (.mem p) → s.wiping p = false →
      (count = 0 → exec (.join y src) s = .next (s.collapsed y (c.step 2))) ∧
      (count ≠ 0 → (∃ j ∈ fo.joins, j.phys = p) →
        exec (.join y src) s = .next ((s.atCollapse y (.join a p) 2).collapseFault y 0x0C 0 0x13)) ∧
      (count ≠ 0 → (∀ j ∈ fo.joins, j.phys ≠ p) → fo.joins.length < 512 → slot < 272 →
        (∀ e ∈ (s.span sp).slots, e.1 ≠ slot) → (∀ n < slot, ∃ e ∈ (s.span sp).slots, e.1 = n) →
        ∃ t, exec (.join y src) s = .next t ∧ (t.yoke y).run = .idle ∧
          kget (t.span sp).slots ⟨k.committed, .resume⟩ slot = ⟨⟨c.step 2, k.fpu.f, k.fpu.fcsr⟩, .join p⟩ ∧
          (t.fold f).joins = fo.joins ++ [⟨p, ⟨sp, slot⟩⟩] ∧ t.mem = s.mem)) ∧
    (op = 0 → c.task.tlist ≠ [] →
      exec (.tend y op) s = .next ((s.atCollapse y (.tend false) 2).collapseFault y 0x0C 0 0x04)) ∧
    (op.toNat ≤ 1 → c.task.tlist = [] → c.task.tjoin = 0 →
      ∃ t, exec (.tend y op) s = .next t ∧ ended t ∧ t.mem = s.mem ∧ t.spans = s.spans ∧ t.regs = s.regs) ∧
    (op.toNat ≤ 1 → c.task.tlist = [] → c.task.tjoin ≠ 0 → s.physOf y c.task.tjoin = some jp → s.wiping jp = false →
      counter % 2 ^ 31 ≠ 0 →
      ∃ t, exec (.tend y op) s = .next t ∧ ended t ∧
        leValue (memRead t.mem jp 4) = counter % 2 ^ 31 - 1 + (if op = 1 then 2 ^ 31 else counter / 2 ^ 31 * 2 ^ 31) ∧
        (∀ b, b < jp ∨ jp + 4 ≤ b → memGet t.mem b = memGet s.mem b) ∧
        (∀ j sv, fo.joins.find? (fun x => x.phys == jp) = some j → counter % 2 ^ 31 = 1 →
          (s.span j.ref.span).slots.find? (fun x => x.1 == j.ref.slot) = some (j.ref.slot, sv) →
          (s.span j.ref.span).overflow.length < 1535 →
          (t.span j.ref.span).overflow = (s.span j.ref.span).overflow ++ [⟨true, 0, false, .resume j.ref.slot⟩] ∧
            ∀ x ∈ (t.fold f).joins, x.phys ≠ jp))

/-- R310, R311: CHPUT appends its word at the tail of an open channel and CHGET removes the head's word; a CHPUT to a full
channel and a CHGET from an empty one park the task; a handle that names no open channel raises 0x0D with reason 0x01.

(Where the buffer of a channel is checked is read by inference: log entry 16.) -/
def Obligations.ChannelsAreQueues : Prop :=
  ∀ (s : State) (y : YokeId) (f : FoldId) (d src : Gpr) (p slot : Nat),
    let k := s.yoke y
    let c := k.lead
    let sp := spanOf y
    let h := c.rd src
    let n := h.toNat % 64
    let fo := s.fold f
    let ch := fo.chan n
    let cap := 2 ^ ch.dpow.toNat
    let at' (j : Nat) : Word := ch.base + BitVec.ofNat 32 (4 * (j % cap))
    let isFree : Prop := slot < 272 ∧ (∀ e ∈ (s.span sp).slots, e.1 ≠ slot) ∧ ∀ n < slot, ∃ e ∈ (s.span sp).slots, e.1 = n
    let parked (t : State) (w : ParkKind) : Prop :=
      (t.yoke y).run = .idle ∧ t.mem = s.mem ∧
      kget (t.span sp).slots ⟨k.committed, .resume⟩ slot = ⟨⟨c.step 2, k.fpu.f, k.fpu.fcsr⟩, w⟩
    let isOpen : Prop := h.toNat < 64 ∧ ch.isOpen = true
    s.foldOf y = some f → s.Calm y → NoErrors s → Memory.wf s.mem = true →
    (¬isOpen →
      exec (.chput y d src) s = .next ((s.atCollapse y (.chput h (c.rd d)) 2).collapseFault y 0x0D h 0x01) ∧
      exec (.chget y d src) s = .next ((s.atCollapse y (.chget d h) 2).collapseFault y 0x0D h 0x01)) ∧
    (isOpen → ch.count < cap → ch.pget = none → s.physOf y (at' (ch.head + ch.count)) = some p → s.wiping p = false →
      ∃ t, exec (.chput y d src) s = .next t ∧ t.yoke y = (s.collapsed y (c.step 2)).yoke y ∧
        (t.fold f).chan n = { ch with count := ch.count + 1 } ∧ leValue (memRead t.mem p 4) = (c.rd d).toNat ∧
        (∀ b, b < p ∨ p + 4 ≤ b → memGet t.mem b = memGet s.mem b) ∧ t.regs = s.regs) ∧
    (isOpen → 0 < ch.count → ch.pput = none → s.physOf y (at' ch.head) = some p → s.wiping p = false →
      ∃ t, exec (.chget y d src) s = .next t ∧
        t.yoke y = (s.collapsed y ((c.step 2).wr d (BitVec.ofNat 32 (leValue (memRead s.mem p 4))))).yoke y ∧
        (t.fold f).chan n = { ch with count := ch.count - 1, head := (ch.head + 1) % cap } ∧ t.mem = s.mem ∧ t.regs = s.regs) ∧
    (isOpen → cap ≤ ch.count → ch.pput = none → isFree →
      ∃ t, exec (.chput y d src) s = .next t ∧ parked t (.chput n (c.rd d)) ∧ ((t.fold f).chan n).pput = some ⟨sp, slot⟩) ∧
    (isOpen → ch.count = 0 → ch.pget = none → isFree →
      ∃ t, exec (.chget y d src) s = .next t ∧ parked t (.chget n d) ∧ ((t.fold f).chan n).pget = some ⟨sp, slot⟩)

/-- R206 to R210, R308: WAIT suspends the task with its set, or returns at once the lowest level condition that holds; its
timeout returns 0xFFFF_FFFF; YIELD goes on when no other task is at hand, and else runs the newest task of the deque and
queues the yielding one; SAMPLE returns the frozen value of a pair and sets Z from it; FENCE completes after everything
before it and with C refetches code.

(YIELD in a Follow span is read by inference and the moment of an expiry is this model's choice: log entries 15 and
62.) -/
def Obligations.WaitsYieldsSamplesAndFences : Prop :=
  ∀ (s : State) (y : YokeId) (f : FoldId) (d src : Gpr) (code : Bool) (pair : Byte) (w : WaitInfo) (td : TaskDesc)
    (ds : List TaskDesc) (slot : Nat),
    let k := s.yoke y
    let c := k.lead
    let sp := spanOf y
    let set := c.rd src
    let badSet : Prop := set.toNat % 2 ^ 13 = 0 ∧ set.toNat / 2 ^ 20 = 0 ∨ set &&& 0x000FE400 ≠ 0
    let fz := kget (s.fold f).frozen SampleVal.safe pair.toNat
    let both := fz.own :: fz.theirs.toList
    let agreed : Bool := both.all fun p => p.a && p.b && !p.dfault
    let fzWord : Word := BitVec.ofNat 32
      (agreed.toNat + 2 * (both.any fun p => p.a != p.b).toNat + 4 * (both.any fun p => p.dfault).toNat)
    let fenced := s.collapsed y (c.step 2)
    let readable : Prop := s.pairReadable f pair.toNat = true ∧
      s.check f sp c.ring (0xF6000000 + BitVec.ofNat 32 (16 * pair.toNat)) 4 Need.read ≠ none
    s.foldOf y = some f →
    (s.Calm y → badSet → exec (.wait y d src) s = .next ((s.atCollapse y (.wait d set) 2).collapseFault y 0x0C 0 0x07)) ∧
    (s.Calm y → ¬badSet → s.waitLevel f set = none →
      ∃ t, exec (.wait y d src) s = .next t ∧ (t.yoke y).run = .waiting ⟨set, s.clk.time, s.clk.fc, d⟩ ∧ (t.yoke y).lead = c ∧
        (t.yoke y).collapse = none ∧ (t.yoke y).committed.core = c ∧ t.mem = s.mem ∧ t.folds = s.folds) ∧
    (s.Calm y → ¬badSet → ∀ b, s.waitLevel f set = some b →
      ∃ t, exec (.wait y d src) s = .next t ∧ (t.yoke y).run = .task ∧ (t.yoke y).lead = (c.wr d (BitVec.ofNat 32 b)).step 2 ∧
        (t.yoke y).trail = (t.yoke y).lead ∧ t.mem = s.mem) ∧
    (k.run = .waiting w → k.debug ≠ .stepping → w.set.toNat / 2 ^ 20 ≠ 0 → s.clk.fcPast (w.begin + w.set.toNat / 2 ^ 20 * 1000) = true →
      ∃ t, exec (.waitTimeout y) s = .next t ∧ (t.yoke y).run = .task ∧ (t.yoke y).lead = (c.wr w.d 0xFFFFFFFF).step 2 ∧
        (t.yoke y).trail = (t.yoke y).lead ∧ (t.yoke y).committed.core = (t.yoke y).lead ∧ t.mem = s.mem) ∧
    (s.Calm y → s.sfm sp ≠ 2 → k.deque = [] → (s.span sp).overflow = [] → (∀ j, (s.yoke (yokeAt sp j)).deque = []) →
      exec (.yield y) s = .next (s.collapsed y (c.step 1))) ∧
    (s.Calm y → k.deque = ds ++ [td] → (s.span sp).overflow.length < 1024 → s.sfm sp = 0 →
      slot < 272 → (∀ e ∈ (s.span sp).slots, e.1 ≠ slot) → (∀ n < slot, ∃ e ∈ (s.span sp).slots, e.1 = n) →
      ∃ t, exec (.yield y) s = .next t ∧ (t.yoke y).run = .task ∧ (t.yoke y).lead.task.ident = td.ident ∧
        (t.yoke y).lead.pc = td.entry ∧ (t.yoke y).deque = ds ∧
        kget (t.span sp).slots ⟨k.committed, .join 0⟩ slot = ⟨⟨c.step 1, k.fpu.f, k.fpu.fcsr⟩, .resume⟩ ∧
        (t.span sp).overflow = (s.span sp).overflow ++
          [⟨false, BitVec.ofNat 2 (c.task.tattr.toNat / 256), false, .resume slot⟩]) ∧
    (s.Calm y → readable →
      ∃ t, exec (.sample y d pair) s = .next t ∧
        (t.yoke y).lead = ((c.wr d fzWord).setFlags ⟨some (!agreed), none, none, none⟩).step 3 ∧
        (t.yoke y).trail = (t.yoke y).lead ∧ (t.yoke y).committed = k.committed ∧ t.mem = s.mem ∧ t.folds = s.folds) ∧
    (s.Calm y → ¬readable →
      ∃ u, u = s.setYoke y { s.going y with
        seq := k.seq + 1, spec := none, trailFc := s.clk.fc, collapse := some ⟨.sample d pair fz, 3⟩ } ∧
        exec (.sample y d pair) s = .next (u.collapseFault y 0x04 (pair.zeroExtend 32) (accessCode 4 false false false 0))) ∧
    (s.Calm y → code = false → exec (.fence y code) s = .next (fenced.setYoke y { fenced.yoke y with
      interval := k.interval + 1 })) ∧
    (s.Calm y → code = true →
      ∃ t, exec (.fence y code) s = .next t ∧ (t.yoke y).lead = c.step 2 ∧ (t.yoke y).trail = c.step 2 ∧
        (t.yoke y).committed.core = c.step 2 ∧ (t.yoke y).fetchBuf = [] ∧ (t.yoke y).fetchReq = none ∧ t.mem = s.mem)

/-- R224 to R231, R235 to R240, Table 4.15: a float instruction goes to the float unit with the core moving on; once begun and
retired it has written its result to fD or, for CMP, CLASS, FMVG and CVTFI, to ST or gD and the load-value queue, and its
exceptions to FCSR. The unit is empty before and no trap is enabled. -/
def Obligations.FloatInstructionsDeliverTheirResults : Prop :=
  ∀ (s : State) (y : YokeId) (rnd : Rnd) (d src b : Freg) (gd gs : Gpr) (x u : Bool) (sgl : Bool) (fi : FloatIns) (cmd : Instr)
    (r : DWord × BitVec 5),
    let k := s.yoke y
    let c := k.lead
    let F := k.fpu.f
    let fcsr := k.fpu.fcsr
    let rm : BitVec 2 := match rnd with
      | .fcsr => BitVec.ofNat 2 (fcsr.toNat / 2 ^ 16)
      | .static m => m
    let uft := bit fcsr 9
    let lo (v : DWord) : Nat := v.toNat % 2 ^ 32
    let hi (v : DWord) : Nat := v.toNat / 2 ^ 32
    let two (l h : Nat) : DWord := BitVec.ofNat 64 (l % 2 ^ 32 + h % 2 ^ 32 * 2 ^ 32)
    let bin (g : FFmt → FVal → FVal → FVal → FRes) := onFormat sgl g F[src] F[b] F[d]
    let op (dd ss : Instr) : Instr := if sgl then ss else dd
    let pick (isMax : Bool) : DWord × BitVec 5 :=
      if sgl then
        let l := fminmax FFmt.s isMax x (lo F[src]) (lo F[b])
        let h := fminmax FFmt.s isMax x (hi F[src]) (hi F[b])
        (two l.bits h.bits, l.exc ||| h.exc)
      else
        let q := fminmax FFmt.d isMax x F[src].toNat F[b].toNat
        (BitVec.ofNat 64 q.bits, q.exc)
    let rint : DWord × BitVec 5 :=
      if sgl then
        let l := frint FFmt.s rm x (lo F[src])
        let h := frint FFmt.s rm x (hi F[src])
        (two l.bits h.bits, l.exc ||| h.exc)
      else
        let q := frint FFmt.d rm x F[src].toNat
        (BitVec.ofNat 64 q.bits, q.exc)
    let cmp := if sgl then fcmp FFmt.s x (lo F[src]) (lo F[b]) else fcmp FFmt.d x F[src].toNat F[b].toNat
    let int := c.rd gs
    let single (q : FRes) : DWord × BitVec 5 := (two q.bits (hi F[d]), q.exc)
    let double (q : FRes) : DWord × BitVec 5 := (BitVec.ofNat 64 q.bits, q.exc)
    (cmd, fi, r) ∈ ([
      (op (.addD y rnd d src b) (.addS y rnd d src b), .bin .add sgl rnd d src b, bin fun f p q _ => fadd f rm uft p q),
      (op (.subD y rnd d src b) (.subS y rnd d src b), .bin .sub sgl rnd d src b, bin fun f p q _ => fadd f rm uft p q.negate),
      (op (.mulD y rnd d src b) (.mulS y rnd d src b), .bin .mul sgl rnd d src b, bin fun f p q _ => fmul f rm uft p q),
      (op (.divD y rnd d src b) (.divS y rnd d src b), .bin .div sgl rnd d src b, bin fun f p q _ => fdiv f rm uft p q),
      (op (.sqrtD y rnd d src) (.sqrtS y rnd d src), .sqrt sgl rnd d src, bin fun f p _ _ => fsqrt f rm uft p),
      (op (.fmaD y rnd d src b) (.fmaS y rnd d src b), .fused .fma sgl rnd d src b, bin fun f p q z => ffma f rm uft p q z),
      (op (.fmsD y rnd d src b) (.fmsS y rnd d src b), .fused .fms sgl rnd d src b,
        bin fun f p q z => ffma f rm uft p q z.negate),
      (op (.fnmaD y rnd d src b) (.fnmaS y rnd d src b), .fused .fnma sgl rnd d src b,
        bin fun f p q z => ffma f rm uft p.negate q z),
      (op (.fnmsD y rnd d src b) (.fnmsS y rnd d src b), .fused .fnms sgl rnd d src b,
        bin fun f p q z => ffma f rm uft p.negate q z.negate),
      (op (.minD y x d src b) (.minS y x d src b), .minmax false sgl x d src b, pick false),
      (op (.maxD y x d src b) (.maxS y x d src b), .minmax true sgl x d src b, pick true),
      (op (.rintD y rnd x d src) (.rintS y rnd x d src), .rint sgl rnd x d src, rint),
      (op (.negD y d src) (.negS y d src), .neg sgl d src,
        (F[src] ^^^ (if sgl then 0x8000000080000000 else 0x8000000000000000), 0)),
      (op (.absD y d src) (.absS y d src), .abs sgl d src,
        (F[src] &&& (if sgl then 0x7FFFFFFF7FFFFFFF else 0x7FFFFFFFFFFFFFFF), 0)),
      (.fmov y d src, .fmov d src, (F[src], 0)),
      (.fmvf y x d gs, .fmvf x d gs, (if x then two (lo F[d]) int.toNat else two int.toNat (hi F[d]), 0)),
      (.cvtif y rnd u x d gs, .cvtif rnd u x d gs,
        if x then single (fcvtif FFmt.s rm u int) else double (fcvtif FFmt.d rm u int)),
      (.cvtff y rnd x d src, .cvtff rnd x d src,
        if x then double (fcvtff FFmt.s FFmt.d rm uft (lo F[src])) else single (fcvtff FFmt.d FFmt.s rm uft F[src].toNat)),
      (op (.cmpD y x src b) (.cmpS y x src b), .cmp sgl x src b, (cmp.1.zeroExtend 64, cmp.2)),
      (op (.classD y gd src) (.classS y gd src), .cls sgl gd src,
        (BitVec.ofNat 64 (if sgl then fclass FFmt.s (lo F[src]) + fclass FFmt.s (hi F[src]) * 2 ^ 16
          else fclass FFmt.d F[src].toNat), 0)),
      (.fmvg y x gd src, .fmvg x gd src, (BitVec.ofNat 64 (if x then hi F[src] else lo F[src]), 0)),
      (.cvtfi y rnd u x gd src, .cvtfi rnd u x gd src,
        double (if x then fcvtfi FFmt.s rm u (lo F[src]) else fcvtfi FFmt.d rm u F[src].toNat))] :
        List (Instr × FloatIns × (DWord × BitVec 5))) →
    s.Ready y (.float fi) 1 → k.fpu.queue = [] → k.fpu.busy = [] → k.loads = [] → k.branch = none → k.pend = none →
    fcsr.toNat / 2 ^ 8 % 2 ^ 5 = 0 →
    ∃ t1 t2 t3, exec cmd s = .next t1 ∧ exec (.floatBegin y) t1 = .next t2 ∧ exec (.floatRetire y) t2 = .next t3 ∧
      (t1.yoke y).lead = c.step 3 ∧ (∃ e, (t1.yoke y).cq = k.cq ++ [e] ∧ e.op = .float fi) ∧
      (t3.yoke y).fpu.queue = [] ∧ (t3.yoke y).fpu.busy = [] ∧ (t3.yoke y).fpu.fcsr = fcsr ||| r.2.zeroExtend 32 ∧
      (fi.toCore = false → (∃ dd, fi.fdest = some dd ∧ (t3.yoke y).fpu.f = F.set dd r.1) ∧ (t3.yoke y).lead = c.step 3 ∧
        (t3.yoke y).lvq = k.lvq) ∧
      (fi.toCore = true → (t3.yoke y).fpu.f = F ∧ (t3.yoke y).lvq = k.lvq ++ [lvqEntry (k.seq + 1) .float (r.1.zeroExtend 128) .completed] ∧
        (t3.yoke y).lead = (match fi with
          | .cmp .. => (c.step 3).setFlags ⟨some (bit r.1 0), some (bit r.1 1), some (bit r.1 2), some (bit r.1 3)⟩
          | _ => (c.step 3).wr gd (r.1.setWidth 32))) ∧
      t3.mem = s.mem ∧ t3.regs = s.regs ∧ t3.folds = s.folds ∧ (t3.yoke y).trail = k.trail

/-- R231 to R233: a finite result is rounded once, to the unit in the last place of its magnitude and never below that of the
subnormals, in the mode of Table 4.3; a rounded magnitude beyond the largest finite value raises overflow and inexact.

R229, R234: sums, products and fused products of finite operands are those of the exact rational result, rounded once; a
signalling NaN operand gives the default NaN with invalid operation, a quiet one without. -/
def Obligations.FloatArithmeticIsExactThenRoundedOnce : Prop :=
  (∀ (f : FFmt) (rm : BitVec 2) (uft neg : Bool) (m : Nat) (e : Int),
    f = FFmt.d ∨ f = FFmt.s → m ≠ 0 →
    let r := fround f rm uft neg m e false
    let q : Int := max (e + Nat.log2 m + 1 - f.prec) f.qmin
    ∃ k : Nat, RoundsTo rm neg ((m : ℚ) * (2 : ℚ) ^ (e - q)) k ∧
      ((k : ℚ) * (2 : ℚ) ^ q < (2 : ℚ) ^ (f.bias + 1) →
        (∃ m' e', fdecode f r.bits = .fin neg m' e' ∧ (m' : ℚ) * (2 : ℚ) ^ e' = k * (2 : ℚ) ^ q) ∧
        (r.exc &&& 1 = 1 ↔ (k : ℚ) * (2 : ℚ) ^ q ≠ m * (2 : ℚ) ^ e)) ∧
      ((2 : ℚ) ^ (f.bias + 1) ≤ (k : ℚ) * (2 : ℚ) ^ q →
        r.exc = 5 ∧ ((rm = 0 ∨ rm = 2 ∧ neg = false ∨ rm = 3 ∧ neg = true) → fdecode f r.bits = .inf neg) ∧
        ((rm = 1 ∨ rm = 2 ∧ neg = true ∨ rm = 3 ∧ neg = false) → r.bits = finf f neg - 1))) ∧
  (∀ (f : FFmt) (rm : BitVec 2) (uft s1 s2 s3 : Bool) (m1 m2 m3 : Nat) (e1 e2 e3 : Int) (v : FVal),
    let a : FVal := .fin s1 m1 e1
    let b : FVal := .fin s2 m2 e2
    let c : FVal := .fin s3 m3 e3
    let roundOf (x : ℚ) (r : FRes) : Prop :=
      ∃ (m : Nat) (e : Int), (if x < 0 then -1 else 1) * (m : ℚ) * (2 : ℚ) ^ e = x ∧ r = fround f rm uft (decide (x < 0)) m e false
    (ratOf a + ratOf b ≠ 0 → roundOf (ratOf a + ratOf b) (fadd f rm uft a b)) ∧
    (ratOf a - ratOf b ≠ 0 → roundOf (ratOf a - ratOf b) (fadd f rm uft a b.negate)) ∧
    (ratOf a * ratOf b ≠ 0 → roundOf (ratOf a * ratOf b) (fmul f rm uft a b)) ∧
    (ratOf a * ratOf b + ratOf c ≠ 0 → roundOf (ratOf a * ratOf b + ratOf c) (ffma f rm uft a b c)) ∧
    fadd f rm uft (.nan true) v = ⟨fnan f, 16⟩ ∧ fmul f rm uft (.nan true) v = ⟨fnan f, 16⟩ ∧
    fdiv f rm uft (.nan true) v = ⟨fnan f, 16⟩ ∧ fadd f rm uft a (.nan false) = ⟨fnan f, 0⟩ ∧
    fmul f rm uft a (.nan false) = ⟨fnan f, 0⟩ ∧ fnan FFmt.d = 0x7FF8000000000000 ∧ fnan FFmt.s = 0x7FC00000)

/-- R227, R228: FLD leaves as a load whose data goes to the float unit and from there to fD, the lower lane alone with X,
and whose status alone goes through the load-value queue; FST
stores fD, or its lower lane, through the write-hold buffer once the instructions that write fD have completed.

(That FST drives a hand-off and takes no entry of the float queue is read by inference: log entry 56.) -/
def Obligations.FloatLoadsAndStoresMoveBits : Prop :=
  ∀ (s : State) (y : YokeId) (f : FoldId) (x : Bool) (d : Freg) (m : MemAddr) (p : Nat),
    let k := s.yoke y
    let c := k.lead
    let a := c.ea m
    let n := if x then 4 else 8
    let v := leValue ((List.range n).map fun j => s.yokeByte k (p + j))
    let old := k.fpu.f[d]
    let value : DWord := if x then BitVec.ofNat 64 (v + old.toNat / 2 ^ 32 * 2 ^ 32) else BitVec.ofNat 64 v
    let stored : Nat := if x then old.toNat % 2 ^ 32 else old.toNat
    s.foldOf y = some f → a.toNat % n = 0 →
    (s.Ready y (.fld x d m) 1 → s.check f (spanOf y) c.ring a n Need.read = some (.mem p) → s.heldElsewhere y p = false →
      s.decodeAccess p n = (s, .completed) → k.loads = [] → k.fpu.queue = [] → k.fpu.busy = [] → k.branch = none →
      k.pend = none → k.fpu.fcsr.toNat / 2 ^ 8 % 2 ^ 5 = 0 →
      ∃ t1 t2 t3 t4, exec (.fld y x d m) s = .next t1 ∧ exec (.loadComplete y 0 CwFlip.none) t1 = .next t2 ∧
        exec (.floatBegin y) t2 = .next t3 ∧ exec (.floatRetire y) t3 = .next t4 ∧
        (t1.yoke y).lead = c.step (3 + m.len) ∧ (t1.yoke y).lvq = k.lvq ∧
        (t4.yoke y).fpu = ⟨k.fpu.f.set d value, k.fpu.fcsr, [], []⟩ ∧ (t4.yoke y).lead = c.step (3 + m.len) ∧
        (t4.yoke y).lvq = k.lvq ++ [lvqEntry (k.seq + 1) .load 0 .completed] ∧ t4.mem = s.mem) ∧
    (s.Ready y (.fst x d m) 1 → k.awaitsFreg d = true → exec (.fst y x d m) s = .next (s.setYoke y { s.going y with wait := .pipeline })) ∧
    (s.Ready y (.fst x d m) 1 → k.awaitsFreg d = false → s.check f (spanOf y) c.ring a n Need.write = some (.mem p) →
      k.whb.length < 128 → k.whb.filter (fun e => decide (e.phys / 16 = p / 16)) = [] →
      ∃ t, exec (.fst y x d m) s = .next t ∧ (t.yoke y).lead = c.step (3 + m.len) ∧
        (∀ b, t.yokeByte (t.yoke y) b =
          if p ≤ b ∧ b < p + n then BitVec.ofNat 8 (stored / 2 ^ (8 * (b - p))) else s.yokeByte k b) ∧
        t.mem = s.mem ∧ t.regs = s.regs ∧ (t.yoke y).trail = k.trail)

/-- R47 to R54, R75, R77, R80: the trailing core takes its oldest entry, runs the same instruction on its own state and, the
outputs agreeing and the parity of what it consumes being right, keeps the result; a difference on a compared line, a parity
error or an injected test is a mismatch. The first of a yoke replays it from the
committed checkpoint and reports 0x01, one within 1 ms of the last retires it and reports 0x02, an injected one reports 0x2D.

(How an entry is formed is read by inference, a disturbance is an operand, and the slot of a retired task is this
model's choice: log entries 6, 8 and 75.) -/
def Obligations.TheTrailingCoreChecksTheLeading : Prop :=
  ∀ (s : State) (y : YokeId) (e : CqEntry) (rest : List CqEntry) (f : BusField) (mask a : BitVec 128),
    let k := s.yoke y
    let mine := k.lvq.filter fun v => v.seq == e.seq
    let r := e.op.run k.trail ⟨mine.map LvqEntry.value, e.data⟩
    let ck := k.committed
    let restored (t : State) : Prop :=
      (t.yoke y).lead = ck.core ∧ (t.yoke y).trail = ck.core ∧ (t.yoke y).fpu.f = ck.f ∧ (t.yoke y).fpu.fcsr = ck.fcsr ∧
      (t.yoke y).cq = [] ∧ (t.yoke y).lvq = [] ∧ (t.yoke y).pend = none ∧ (t.yoke y).whb = k.whb.filter (fun w => w.phase != .open)
    let retired (t : State) : Prop :=
      (t.yoke y).stalled = true ∧ (t.yoke y).run = .idle ∧ (t.yoke y).whb = k.whb.filter (fun w => w.phase != .open) ∧
      kget (t.span (spanOf y)).slots ⟨⟨k.lead, ck.f, 0⟩, .join 0⟩ (272 + y.val % 16) = ⟨ck, .resume⟩
    let reported (t : State) (src : Byte) : Prop :=
      ∃ q ∈ t.reports, q.src = src ∧ q.kind = .span ∧ q.region = (spanOf y).val ∧ q.unit = y.val % 16
    let intact : Prop := ∀ v ∈ mine, v.parity = parity32 v.value
    k.cq = e :: rest → e.squashed = false → e.fetchOff = none → k.trailMay (s.slipTarget y) = true → k.trailReady e = true →
    (e.out = r.2 → intact → k.inj = false → e.op.refusedEvent k.trail = false → (∀ v ∈ mine, v.status = .completed) →
      k.heldReports = [] →
      ∃ t, exec (.trailingCompare y .none) s = .next t ∧ (t.yoke y).trail = r.1 ∧ (t.yoke y).cq = rest ∧
        (t.yoke y).lvq = k.lvq.filter (fun v => v.seq != e.seq) ∧ (t.yoke y).lead = k.lead ∧ (t.yoke y).trailFc = s.clk.fc ∧
        (t.yoke y).committed = ck ∧ t.mem = s.mem ∧ t.reports = s.reports ∧ t.regs = s.regs) ∧
    (e.out = r.2 → intact → r.2.field f = some a → mask &&& r.2.lines f ≠ 0 → k.inj = false → k.run = .task →
      (k.prev = none → ∃ t, exec (.trailingCompare y (.field f mask)) s = .next t ∧ restored t ∧ reported t 0x01 ∧ t.mem = s.mem) ∧
      (∀ p, k.prev = some p → s.clk.time - p.time ≤ 1000000 →
        ∃ t, exec (.trailingCompare y (.field f mask)) s = .next t ∧ retired t ∧ reported t 0x02 ∧ t.mem = s.mem)) ∧
    (¬intact → k.inj = false → k.run = .task → k.prev = none →
      ∃ t, exec (.trailingCompare y .none) s = .next t ∧ restored t ∧ reported t 0x01 ∧ t.mem = s.mem ∧
        (t.reg (rYksyn y) 0).toNat / 2 ^ 24 % 16 = 10) ∧
    (k.inj = true → k.run = .task →
      ∃ t, exec (.trailingCompare y .none) s = .next t ∧ restored t ∧ reported t 0x2D ∧ (t.yoke y).inj = false ∧ t.mem = s.mem)

/-- R205: CKPT captures a checkpoint of the state after it.

R66, R68, R69, R70, R83: a checkpoint trigger that has been reached captures the leading core in the pending slot; once the
trailing core has reached the point and agrees with it, the slot is the committed checkpoint and the stores of its interval
leave for their banks; a difference is a mismatch of kind 7, and 4,096 fc without progress one of kind 13. -/
def Obligations.CheckpointsAreCapturedAndConfirmed : Prop :=
  (∀ (s : State) (y : YokeId), s.Ready y .ckpt 1 → (s.yoke y).pend = none →
    (s.yoke y).fpu.queue = [] → (s.yoke y).fpu.busy = [] →
    let c := (s.yoke y).lead.step 1
    ∃ t, exec (.ckpt y) s = .next t ∧ (t.yoke y).lead = c ∧
      (t.yoke y).pend = some ⟨(s.yoke y).seq + 1, (s.yoke y).interval, c, some ((s.yoke y).fpu.f, (s.yoke y).fpu.fcsr),
        (s.yoke y).entryEvent, none⟩ ∧
      (t.yoke y).interval = (s.yoke y).interval + 1 ∧ (t.yoke y).retired = 0 ∧ (t.yoke y).ckFc = s.clk.fc ∧
      (t.yoke y).committed = (s.yoke y).committed ∧ t.mem = s.mem) ∧
  (∀ (s : State) (y : YokeId) (p : PendCk) (rc : Core) (fl : Vector DWord 16 × Word) (cmd : Instr) (reg : Byte) (mask : Word),
    let k := s.yoke y
    let kindOf (t : State) : Nat := (t.reg (rYksyn y) 0).toNat / 2 ^ 24 % 16
    (cmd = .checkpointCountTrigger y ∧ 4096 ≤ k.retired ∨ cmd = .checkpointTimeTrigger y ∧ 4608 ≤ s.clk.fc - k.ckFc →
      k.run = .task → k.collapse = none → k.debug = .off → k.pend = none → k.loads = [] → k.branch = none →
      k.floatHolds = false →
      ∃ t q, exec cmd s = .next t ∧ (t.yoke y).pend = some q ∧ q.core = k.lead ∧ q.interval = k.interval ∧
        (t.yoke y).interval = k.interval + 1 ∧ (t.yoke y).retired = 0 ∧ (t.yoke y).ckFc = s.clk.fc ∧
        (t.yoke y).lead = k.lead ∧ (t.yoke y).committed = k.committed ∧ t.mem = s.mem) ∧
    (k.pend = some p → p.fl = some fl → p.reached = some rc → rc.inv = p.core → k.debug = .off → k.inj = false →
      k.ckptDue = false → (∀ w ∈ k.whb, w.io = false ∧ (w.closes p.interval = true → w.ecc = .clean)) →
      ∃ t, exec (.checkpointConfirm y .none) s = .next t ∧ (t.yoke y).committed = ⟨p.core, fl.1, fl.2⟩ ∧ (t.yoke y).pend = none ∧
        (t.yoke y).whb = (k.whb.map fun w => if w.interval ≤ p.interval ∧ w.phase = .open then { w with phase := .released } else w) ∧
        (t.yoke y).lead = k.lead ∧ (t.yoke y).trail = k.trail ∧ t.mem = s.mem ∧
        (∀ f v, s.foldOf y = some f → p.event = some v → ∀ o ∈ (t.fold f).events, o.vec ≠ v)) ∧
    (k.pend = some p → p.fl = some fl → p.reached = some rc → rc.inv = p.core → k.debug = .off → k.inj = false → reg.toNat < 16 →
      mask ≠ 0 → k.run = .task → k.prev = none →
      ∃ t, exec (.checkpointConfirm y (.state reg mask)) s = .next t ∧ kindOf t = 7 ∧
        (t.reg (rYksyn y) 0).toNat / 2 ^ 8 % 2 ^ 8 = reg.toNat ∧ (t.yoke y).lead = k.committed.core ∧
        (t.yoke y).trail = k.committed.core ∧ t.mem = s.mem) ∧
    (k.cq ≠ [] → 4096 ≤ s.clk.fc - k.trailFc → k.run = .task →
      ∃ t, exec (.trailingProgressTimeout y) s = .next t ∧ kindOf t = 13 ∧ (t.yoke y).stalled = true ∧ t.mem = s.mem) ∧
    (k.cq = [] ∨ s.clk.fc - k.trailFc < 4096 → exec (.trailingProgressTimeout y) s = .next s))

/-- R46, R60, R71, R90: a slip-collapsing instruction that waits is compared once the trailing core has caught up, and its effect
is performed once the checkpoint before it is committed and its stores are visible, as FENCE shows; a disturbance of its
comparison replays the yoke; a task whose abort is due stands at the abort form of TEND (R285). SPAN.CKCTL takes a slip target of 4 to 64 and refuses another with a C0 report, and INJ marks the named yoke.

(That a core which waits keeps the record of why it waits is this model's choice: log entry 1.) -/
def Obligations.CollapsesCompleteAfterTheDrain : Prop :=
  ∀ (s : State) (y : YokeId) (f : FoldId) (len : Nat) (op : CollapseOp) (fld : BusField) (mask a : BitVec 128) (sp : SpanId) (v : Word)
    (e : CqEntry) (o : CollapseOut),
    let k := s.yoke y
    let u := s.setYoke y { k with cq := [], spec := none, trailFc := s.clk.fc }
    let reached : Prop := k.cq = [e] ∧ e.op = .collapse o ∧ e.out = o.drives k.trail ∧ e.squashed = false ∧ e.fetchOff = none ∧
      e.whb = none ∧ e.lvqUse = 0 ∧ (∀ w ∈ k.lvq, w.seq ≠ e.seq) ∧ k.branch = none ∧ k.inj = false ∧ k.heldReports = []
    let waits (t : State) : Prop := t.collapseHeld y = true ∨ t.faultHeld y (t.perform y) = true
    let old := s.reg (rCkctl sp) 0x10
    let slip := v.toNat % 2 ^ 7
    let named := yokeAt sp (Fin.ofNat 16 (v.toNat / 2 ^ 16))
    (s.foldOf y = some f → k.collapse = some ⟨op, len⟩ → op.bounded = true → k.pend = none → k.ckptDue = false → k.whb = [] →
      k.debug = .off →
      (k.cq = [] → waits s → exec (.slipCollapseComplete y .none) s = .next s) ∧
      (k.cq = [] → ¬waits s → exec (.slipCollapseComplete y .none) s = .next (s.perform y)) ∧
      (reached → waits u → exec (.slipCollapseComplete y .none) s = .next u) ∧
      (reached → ¬waits u → exec (.slipCollapseComplete y .none) s = .next (u.perform y))) ∧
    (s.foldOf y = some f → k.collapse = some ⟨.fence false, len⟩ → reached ∨ k.cq = [] ∧ k.inj = false → k.pend = none →
      k.ckptDue = false → k.whb = [] → k.debug = .off → k.loads = [] → k.branch = none → k.fpu.queue = [] → k.fpu.busy = [] →
      k.trail = k.lead → ∃ t, exec (.slipCollapseComplete y .none) s = .next t ∧
        (t.yoke y).lead = k.lead.step len ∧ (t.yoke y).trail = k.lead.step len ∧
        (t.yoke y).committed.core = k.lead.step len ∧ (t.yoke y).collapse = none ∧ t.mem = s.mem) ∧
    (k.collapse = some ⟨op, len⟩ → reached → (o.drives k.trail).field fld = some a → mask &&& (o.drives k.trail).lines fld ≠ 0 →
      k.run = .task → k.prev = none → ∃ t, exec (.slipCollapseComplete y (.field fld mask)) s = .next t ∧
        (t.yoke y).lead = k.committed.core ∧ (t.yoke y).trail = k.committed.core ∧ (t.yoke y).collapse = none ∧ t.mem = s.mem) ∧
    (k.collapse = none ∧ k.lead.task.abort ≠ .due ∨ k.collapse ≠ none ∧ 2 ≤ k.cq.length →
      exec (.slipCollapseComplete y .none) s = .next s) ∧
    (k.collapse = none → k.lead.task.abort = .due → k.run = .task → k.cq ≠ [] → k.debug = .off → k.pend = none → k.loads = [] →
      k.branch = none → k.floatHolds = false →
      ∃ t, exec (.slipCollapseComplete y .none) s = .next t ∧ (t.yoke y).collapse = some ⟨.tend true, 0⟩ ∧ t.mem = s.mem) ∧
    (s.power.main = true → s.firmware = true →
    (bit old 31 = false → 4 ≤ slip → slip ≤ 64 → ∃ t, exec (.slipTargetWrite sp v) s = .next t ∧
      (t.reg (rCkctl sp) 0x10).toNat % 2 ^ 7 = slip ∧ t.yokes = s.yokes ∧ t.reports = s.reports ∧ t.mem = s.mem) ∧
    (bit old 31 = false → (slip < 4 ∨ 64 < slip) → ∃ t r, exec (.slipTargetWrite sp v) s = .next t ∧
      (t.reg (rCkctl sp) 0x10).toNat % 2 ^ 7 = old.toNat % 2 ^ 7 ∧ t.reports = s.reports ++ [r] ∧ t.yokes = s.yokes) ∧
    (bit old 31 = true → ∃ t, exec (.slipTargetWrite sp v) s = .next t ∧
      (t.reg (rCkctl sp) 0x10).toNat % 2 ^ 7 = old.toNat % 2 ^ 7 ∧ t.reports = s.reports ∧ t.yokes = s.yokes) ∧
    ((s.yoke named).stalled = false → (s.yoke named).debug = .off →
      ∃ t, exec (.injectTestMismatch sp v) s = .next t ∧ (t.yoke named).inj = true ∧ (t.yoke named).lead = (s.yoke named).lead ∧
        t.mem = s.mem) ∧
    ((s.yoke named).stalled = true ∨ (s.yoke named).debug ≠ .off →
      ∃ t, exec (.injectTestMismatch sp v) s = .next t ∧ t.yokes = s.yokes ∧ t.mem = s.mem))

/-- R60, R61, R90, Table 2.12: once the trailing core has reached a SAMPLE or a FENCE and its outputs agree, the effect is performed
once and its result enters both cores in the same command; a write of SPAN.CKCTL with a slip target of 4 to 64 while it is not locked
stores the target, and a 1 written to INJ marks the named yoke, that is neither stalled nor under debug, for its next comparison. -/
def Obligations.CheckerCommandsComplete : Prop :=
  ∀ (s : State) (y : YokeId) (f : FoldId) (len : Nat) (d : Gpr) (pair : Byte) (a : SampleVal) (sp : SpanId) (v : Word) (e : CqEntry)
    (o : CollapseOut),
    let k := s.yoke y
    let reached : Prop := k.cq = [e] ∧ e.op = .collapse o ∧ e.out = o.drives k.trail ∧ e.squashed = false ∧ e.fetchOff = none ∧
      e.whb = none ∧ e.lvqUse = 0 ∧ (∀ w ∈ k.lvq, w.seq ≠ e.seq) ∧ k.branch = none ∧ k.inj = false ∧ k.heldReports = []
    let joined := a.word
    let core := ((k.lead.wr d joined).setFlags ⟨some (!bit joined 0), none, none, none⟩).step len
    let passed (t : State) (c : Core) : Prop := (t.yoke y).lead = c ∧ (t.yoke y).trail = c ∧ (t.yoke y).cq = [] ∧
      (t.yoke y).collapse = none ∧ (t.yoke y).wait = .none ∧ t.mem = s.mem ∧ t.regs = s.regs ∧ ∀ z, z ≠ y → t.yoke z = s.yoke z
    let old := s.reg (rCkctl sp) 0x10
    let slip := v.toNat % 2 ^ 7
    let injy := v.toNat / 2 ^ 16 % 2 ^ 4
    let named := yokeAt sp (Fin.ofNat 16 injy)
    (s.foldOf y = some f → reached → k.debug = .off → s.debugger = false →
      (k.collapse = some ⟨.sample d pair a, len⟩ → s.pairReadable f pair.toNat = true →
        s.check f (spanOf y) k.lead.ring (0xF6000000 + BitVec.ofNat 32 (16 * pair.toNat)) 4 Need.read ≠ none →
        ∃ t, exec (.slipCollapseComplete y .none) s = .next t ∧ passed t core) ∧
      (k.collapse = some ⟨.fence false, len⟩ → k.pend = none → k.ckptDue = false → k.whb = [] → k.loads = [] →
        k.fpu.queue = [] → k.fpu.busy = [] → k.trail = k.lead →
        ∃ t, exec (.slipCollapseComplete y .none) s = .next t ∧ passed t (k.lead.step len))) ∧
    (s.power.main = true → s.firmware = true → bit old 31 = false → 4 ≤ slip → slip ≤ 64 →
      ∃ t, exec (.slipTargetWrite sp v) s = .next t ∧
      (t.reg (rCkctl sp) 0x10).toNat % 2 ^ 7 = slip ∧ bit (t.reg (rCkctl sp) 0x10) 31 = bit v 31 ∧
      (t.reg (rCkctl sp) 0x10).toNat / 2 ^ 16 % 2 ^ 4 = injy ∧ t.yokes = s.yokes ∧ t.reports = s.reports ∧ t.mem = s.mem) ∧
    (s.power.main = true → s.firmware = true → (s.yoke named).stalled = false → (s.yoke named).debug = .off → bit old 31 = true ∨ 4 ≤ slip ∧ slip ≤ 64 →
      ∃ t, exec (.injectTestMismatch sp v) s = .next t ∧ t.yoke named = { s.yoke named with inj := true } ∧
        (∀ z, z ≠ named → t.yoke z = s.yoke z) ∧ t.reports = s.reports ∧ t.mem = s.mem)

/-- R31, R32, R101, R114, R119, R122: at the boundary that opens epoch n the fold's epoch is n, the outputs tagged n − 2 leave
the holding area, the signature registers hold the CRC of their stream (the tag alone where there is none), the pair inputs
frozen for n are what SAMPLE returns, and event 0x10 with INFO n is pending when enabled. At a frame start the root task is
queued at the fold's first span with OEPOCH n and sleeping spans wake; while the earlier root task has not ended, no second
one is pushed, the overrun count rises and event 0x10 is raised. Before device time n × E nothing happens.

(Which epoch is the current one between boundaries is read by inference: log entry 27.) -/
def Obligations.EpochBoundariesReleaseSignAndStartFrames : Prop :=
  ∀ (s : State) (f : FoldId) (sp : SpanId) (rest : List SpanId) (p : Nat) (d : TaskDesc),
    let fo := s.fold f
    let n := s.curEpoch f + 1
    let e : Word := BitVec.ofNat 32 (n - 2)
    let outs := releaseOrder (fo.held.filter fun o => o.tag == e)
    let frame := fo.fstart.toNat ≤ n ∧ (n - fo.fstart.toNat) % s.frameK f = 0
    let a := s.reg (rFroot f) 0
    let count := s.reg (rEpFstat f) 0
    (s.now < n * s.epochNs f → exec (.epochBoundary f) s = .next s) ∧
    (s.power.main = true → s.running f = true → n * s.epochNs f ≤ s.now → s.twins = [] → (∀ y w, (s.yoke y).run ≠ .waiting w) →
      n < 2 ^ 32 →
      ∃ t, exec (.epochBoundary f) s = .next t ∧ (t.fold f).epoch = BitVec.ofNat 64 n ∧ t.clk = s.clk ∧ t.yokes = s.yokes ∧
        (∀ g, g ≠ f → (t.fold g).held = (s.fold g).held) ∧
        (2 ≤ n → fo.fstart.toNat ≤ n - 1 →
          (t.fold f).held = fo.held.filter (fun o => o.tag != e) ∧ t.reg (rFsigep f) 0 = e ∧
          t.reg (rFsighi f) 0 ++ t.reg (rFsiglo f) 0 = commitSignature (signStream f (n - 2) outs) ∧
          (fo.held.filter (fun o => o.tag == e) = [] → t.reg (rFsighi f) 0 ++ t.reg (rFsiglo f) 0 =
            commitSignature (leBytes (n - 2) 8 ++ [BitVec.ofNat 8 f.val, 0, 0, 0, 0, 0, 0, 0])) ∧
          ((fo.mark e).late = true → t.outPairs = s.outPairs)) ∧
        (∀ own, fo.freeze = some (n, own) → ∀ i v, own.find? (fun x => x.1 == i) = some (i, v) →
          t.sampleOf f i = BitVec.ofNat 32 ((v.a && v.b && !v.dfault).toNat + 2 * (v.a != v.b).toNat + 4 * v.dfault.toNat)) ∧
        ((∀ v ∈ fo.events, v.vec ≠ 0x10) → bit fo.ien 0 = true ∨ frame ∧ fo.rootIdent.isSome = true →
          ∃ v ∈ (t.fold f).events, v.vec = 0x10 ∧ v.info = BitVec.ofNat 32 n ∧
            (v.syn = 1 ↔ frame ∧ fo.rootIdent.isSome = true)) ∧
        (frame → fo.rootIdent.isSome = true → (t.fold f).rootIdent = fo.rootIdent ∧ t.spans = s.spans ∧
          (t.reg (rEpFstat f) 0).toNat % 2 ^ 16 = min 0xFFFF (count.toNat % 2 ^ 16 + 1)) ∧
        (frame → fo.rootIdent = none → s.foldSpans f = sp :: rest → NoErrors s → (∀ i < 4, s.wiping (p + 16 * i) = false) →
          (∀ i < 4, s.check f sp 0 (a + BitVec.ofNat 32 (16 * i)) 16 Need.read = some (.mem (p + 16 * i))) →
          s.rootDesc f n (memRead s.mem p 64) = some d → (s.span sp).overflow.length < 1536 →
          ∃ id, id.toNat / 2 ^ 28 = f.val ∧ (t.fold f).rootIdent = some id ∧
            (t.span sp).overflow = (s.span sp).overflow ++ [freshEntry { d with ident := id }] ∧ d.oepoch = BitVec.ofNat 32 n ∧
            ∀ x ∈ s.foldSpans f, ∀ nap, (s.span x).power = .rest nap → (t.span x).power = .waking nap s.clk.fc) ∧
        (¬ frame → (t.fold f).rootIdent = fo.rootIdent ∧ t.spans = s.spans))

/-- R114, R118, Table 3.3: outputs leave in ascending order of destination code, and within one code in the order in which
they entered; no output is lost or added. -/
def Obligations.ReleaseOrderIsByDestinationThenEntry : Prop :=
  ∀ l : List HeldOutput,
    (releaseOrder l).Pairwise (fun a b => a.dest ≤ b.dest) ∧ (releaseOrder l).Perm l ∧
    ∀ d : Half, (releaseOrder l).filter (fun o => o.dest == d) = l.filter fun o => o.dest == d

/-- R97 to R99, R106, R112, R129: the inputs of a fold are frozen once per epoch, after a tick due at the same device time; device time is loaded only while no fold
is admitted; free running clears HOLD and returns to the nominal increment; a correction keeps the increment within 500 ppm
and never moves time; without one for 1 s the controller enters holdover; epoch length and holding area are taken in range
and refused otherwise, with the report of the refusal.

(The order of the checks of a holding area and the size of a steering step are this model's choices: log entries 22
and 26.) -/
def Obligations.EpochControllerCommandsFollowTheirRules : Prop :=
  ∀ (s : State) (f : FoldId) (v : Word) (offset : Int),
    let old := s.reg rEpCtl 0
    let sync := s.reg rEpSync 0
    let fo := s.fold f
    let loaded := (s.reg rEpTsetlo 0).toNat + (s.reg rEpTsethi 0).toNat * 2 ^ 32
    let j := v.toNat / 2 ^ 16 % 16
    let base := (s.reg (rFhbase f) 0).toNat
    let size := (s.reg (rFhsize f) 0).toNat
    let area (b n : Nat) : Prop := b % 0x10000 = 0 ∧ b < 0x4000000 ∧ s.groupFold (Fin.ofNat 64 (b / 0x100000)) = some f ∧
      n % 0x10000 = 0 ∧ b % 0x100000 + n ≤ 0x100000
    let refused (t : State) : Prop := bit (t.reg rRefuse 0) 31 = true ∧ ∃ r, t.reports = s.reports ++ [r] ∧ r.src = 0x0D
    s.power.main = true →
    (s.tickDue = true → exec (.inputFreeze f) s = .next s) ∧
    (s.tickDue = false → s.running f = true → s.curEpoch f < s.windowEpoch f s.now → (∀ e v, fo.freeze = some (e, v) → e < s.windowEpoch f s.now) →
      s.participates f = false →
      ∃ t own, exec (.inputFreeze f) s = .next t ∧ t = s.setFold f { fo with freeze := some (s.windowEpoch f s.now, own) } ∧
        ∀ i < 64, s.pairOf f i = true → (i, ⟨(s.channels i).1, (s.channels i).2, (s.inPair i).dfault⟩) ∈ own) ∧
    (s.firmware = true → s.anyAdmitted = false → ∃ t, exec (.timeSet v) s = .next t ∧ t.clk.time = loaded ∧ t.clk.frac = 0 ∧ t.clk.fc = s.clk.fc) ∧
    (s.firmware = true → s.anyAdmitted = true → ∃ t r, exec (.timeSet v) s = .next t ∧ t.clk.time = s.clk.time ∧ t.reports = s.reports ++ [r] ∧
      t.folds = s.folds) ∧
    (s.firmware = true → bit old 31 = false → v.toNat / 2 ^ 6 % 4 = 0 → old.toNat / 2 ^ 6 % 4 = 1 →
      ∃ t, exec (.timeSourceWrite v) s = .next t ∧ (t.reg rEpCtl 0).toNat / 2 ^ 6 % 4 = 0 ∧ bit (t.reg rEpSync 0) 30 = false ∧
        t.reg rEpRate 0 = 0 ∧ t.clk.inc = 0x140000000 ∧ t.clk.time = s.clk.time) ∧
    (s.firmware = true → bit old 31 = false → v.toNat / 2 ^ 6 % 4 = 1 → ∃ t, exec (.timeSourceWrite v) s = .next t ∧
      (t.reg rEpCtl 0).toNat / 2 ^ 6 % 4 = 1 ∧ (t.reg rEpCtl 0).toNat / 2 ^ 4 % 4 = v.toNat / 2 ^ 4 % 4 ∧ t.clk.inc = s.clk.inc ∧
      t.clk.time = s.clk.time) ∧
    (s.firmware = true → bit old 31 = true → ∃ t, exec (.timeSourceWrite v) s = .next t ∧
      (t.reg rEpCtl 0).toNat / 2 ^ 4 % 16 = old.toNat / 2 ^ 4 % 16 ∧ t.clk = s.clk) ∧
    (old.toNat / 2 ^ 6 % 4 = 1 → (old.toNat / 2 ^ 4 % 4) ∈ s.linkUp → s.follows = false →
      ∃ t, exec (.ptpMessageReceive offset) s = .next t ∧ t.clk.time = s.clk.time ∧ t.clk.corrAt = s.clk.time ∧
        bit (t.reg rEpSync 0) 30 = false ∧ (bit (t.reg rEpSync 0) 31 = decide (-1000 ≤ offset ∧ offset ≤ 1000)) ∧
        0x140000000 - 0x140000000 / 2000 ≤ t.clk.inc ∧ t.clk.inc ≤ 0x140000000 + 0x140000000 / 2000) ∧
    (old.toNat / 2 ^ 6 % 4 = 1 → s.follows = false → bit sync 30 = false → s.clk.corrAt + 1000000000 ≤ s.now →
      ∃ t r, exec .holdoverEnter s = .next t ∧ bit (t.reg rEpSync 0) 30 = true ∧ t.clk = s.clk ∧
        t.reports = s.reports ++ [r] ∧ r.src = 0x0F) ∧
    (s.firmware = true → s.running f = false → 3 ≤ j → j ≤ 13 → ∃ t, exec (.epochConfigWrite f v) s = .next t ∧ t.epochNs f = 2 ^ j * 1000 ∧
      t.frameK f = v.toNat % 2 ^ 10 + 1 ∧ t.reports = s.reports) ∧
    (s.firmware = true → s.running f = false → (j < 3 ∨ 13 < j) → ∃ t r, exec (.epochConfigWrite f v) s = .next t ∧ t.epochNs f = s.epochNs f ∧
      t.reports = s.reports ++ [r]) ∧
    (s.running f = true → exec (.epochConfigWrite f v) s = .next s ∧ ∀ z, exec (.holdingAreaWrite f z v) s = .next s) ∧
    (s.firmware = true → s.running f = false →
      (area v.toNat size → ∃ t, exec (.holdingAreaWrite f false v) s = .next t ∧ t = s.setReg (rFhbase f) v) ∧
      (¬ area v.toNat size → ∃ t, exec (.holdingAreaWrite f false v) s = .next t ∧ (t.reg (rFhbase f) 0).toNat = base ∧ refused t) ∧
      (v = 0 ∨ area base v.toNat → exec (.holdingAreaWrite f true v) s = .next (s.setReg (rFhsize f) v)) ∧
      (v ≠ 0 → (v.toNat % 0x10000 ≠ 0 ∨ 0x100000 < base % 0x100000 + v.toNat) →
        ∃ t, exec (.holdingAreaWrite f true v) s = .next t ∧ (t.reg (rFhsize f) 0).toNat = size ∧ refused t))

/-- Yoke `y` has taken a fresh task (R72, R291): both cores and the committed checkpoint hold its start state. -/
def Sys2Proof.Claims.Started (t : State) (y : YokeId) (d : TaskDesc) : Prop :=
  let k := t.yoke y
  let c := k.lead
  k.run = .task ∧ c.pc = d.entry ∧ c.g[1] = d.g1 ∧ c.g[2] = d.g2 ∧ c.g[3] = d.g3 ∧ c.g[4] = d.g4 ∧ c.sp = d.sp ∧
  c.ring.toNat = d.attr.toNat / 2 ^ 5 % 4 ∧ c.m = false ∧ c.bk = 0x80 ∧ c.task.ident = d.ident ∧ c.task.oepoch = d.oepoch ∧
  c.task.tlist = [] ∧ k.trail = c ∧ k.committed = ⟨c, Vector.replicate 16 0, 0⟩ ∧ k.fpu = Fpu.reset ∧ k.cq = [] ∧ k.loads = []

/-- R295 to R300, R309, R319: an idle yoke takes the newest entry of its own deque; else the overflow entry of R295's order;
else the oldest entry of the deepest sibling deque; else, idle for 256 fc and every 64 fc, the first portable entry of the next
span. A resume descriptor restores its slot and frees it. A push that waited enters when an entry is free. In a Follow span the
yoke takes the task the next START record names, and waits while it is not present.

(The Follow span's tasks and the order of records are read by inference: log entries 15 and 61.) -/
def Obligations.IdleYokesTakeTasksInOrder : Prop :=
  ∀ (s : State) (y v : YokeId) (f : FoldId) (sp tsp : SpanId) (d : TaskDesc) (l l2 : List TaskDesc) (e : OvfEntry)
    (o1 o2 : List OvfEntry) (slot : Nat) (sv : SavedTask) (r1 r2 : List (Nat × LogRec)) (m : Nat) (id : Word)
    (i : Fin 16),
    let own := spanOf y
    let k := s.yoke y
    let sib (w : YokeId) : Prop := spanOf w = own ∧ w ≠ y ∧ (s.yoke w).working = true
    let empty : Prop := k.deque = [] ∧ (s.span own).overflow = []
    let lonely : Prop := ∀ w, sib w → (s.yoke w).deque = []
    let idle := s.clk.fc - max k.idleFc (s.span own).runFc
    let porta (w : YokeId) : List TaskDesc := (s.yoke w).deque.filter fun x => bit x.attr 7
    let stealable (x : OvfEntry) : Prop := x.resumeClass = false ∧ x.portable = true
    (k.run = .idle → k.working = true → k.debug ≠ .halted → (s.span own).power = .run →
      s.foldOf y = some f → s.running f = true →
      (s.sfm own = 0 →
        (k.deque = l ++ [d] → ∃ t, exec (.ownerPop y) s = .next t ∧ Started t y d ∧ (t.yoke y).deque = l ∧ t.spans = s.spans ∧
          ∀ z, z ≠ y → t.yoke z = s.yoke z) ∧
        (k.deque = [] → (s.span own).overflow = o1 ++ e :: o2 →
          (e.resumeClass = true ∧ (∀ x ∈ o1, x.resumeClass = false) ∨
            e.resumeClass = false ∧ (∀ x ∈ o1 ++ o2, x.resumeClass = false ∧ x.prio ≤ e.prio) ∧ ∀ x ∈ o1, x.prio < e.prio) →
          (e.body = .fresh d → ∃ t, exec (.overflowTake y) s = .next t ∧ Started t y d ∧ (t.span own).overflow = o1 ++ o2) ∧
          (e.body = .resume slot → (s.span own).slots.find? (fun x => x.1 == slot) = some (slot, sv) →
            ∃ t, exec (.overflowTake y) s = .next t ∧ (t.span own).overflow = o1 ++ o2 ∧
              (t.yoke y).lead = { sv.ck.core with st := setBit sv.ck.core.st 10 false } ∧ (t.yoke y).trail = (t.yoke y).lead ∧
              (t.yoke y).fpu.f = sv.ck.f ∧ (t.yoke y).fpu.fcsr = sv.ck.fcsr ∧ (t.yoke y).run = .task ∧
              ∀ x ∈ (t.span own).slots, x.1 ≠ slot)) ∧
        (empty → sib v → (s.yoke v).deque = d :: l2 →
          (∀ w, sib w → (s.yoke w).deque.length ≤ (s.yoke v).deque.length ∧
            (w < v → (s.yoke w).deque.length < (s.yoke v).deque.length)) →
          ∃ t, exec (.steal y) s = .next t ∧ Started t y d ∧ (t.yoke v).deque = l2 ∧
            (t.span own).stealLocal = satInc (s.span own).stealLocal ∧ ∀ z, z ≠ y → z ≠ v → t.yoke z = s.yoke z) ∧
        (empty → lonely → 256 ≤ idle → (idle - 256) % 64 = 0 → bit (s.reg (rSchctl own) 1) 0 = true →
          s.nextSpan f own = some tsp →
          (e.body = .fresh d → (s.span tsp).overflow = o1 ++ e :: o2 → stealable e →
            (∀ x ∈ o1 ++ o2, stealable x → x.prio ≤ e.prio) → (∀ x ∈ o1, stealable x → x.prio < e.prio) →
            ∃ t, exec (.crossSpanSteal y) s = .next t ∧ Started t y d ∧ (t.span tsp).overflow = o1 ++ o2 ∧
              (t.span own).stealRemote = satInc (s.span own).stealRemote) ∧
          ((∀ x ∈ (s.span tsp).overflow, ¬ stealable x) → spanOf v = tsp → (s.yoke v).working = true → porta v = d :: l2 →
            (∀ w, spanOf w = tsp → (s.yoke w).working = true → (porta w).length ≤ (porta v).length ∧
              (w < v → (porta w).length < (porta v).length)) →
            ∃ t, exec (.crossSpanSteal y) s = .next t ∧ Started t y d ∧ (t.yoke v).deque = (s.yoke v).deque.erase d ∧
              (t.span own).stealRemote = satInc (s.span own).stealRemote))) ∧
      (s.sfm own = 2 → (s.span own).follow = r1 ++ (m, .start (s.relSpan own) id) :: r2 →
        (∀ x ∈ r1 ++ r2, x.1 ≠ m) → (∀ x ∈ r1, ∀ j, x.2 ≠ .start (s.relSpan own) j) →
        (v ∈ s.foldYokes f → (s.yoke v).deque = l ++ d :: l2 → d.ident = id → (∀ x ∈ l, x.ident ≠ id) →
          (∀ w ∈ s.foldYokes f, w ≠ v → ∀ x ∈ (s.yoke w).deque, x.ident ≠ id) →
          ∃ t, exec (.followTaskStart y) s = .next t ∧ Started t y d ∧ (t.yoke v).deque = l ++ l2 ∧
            (t.span own).follow = r1 ++ r2) ∧
        ((∀ w ∈ s.foldYokes f, ∀ x ∈ (s.yoke w).deque, x.ident ≠ id) → (∀ x ∈ s.foldSpans f, (s.span x).overflow = []) →
          exec (.followTaskStart y) s = .next s))) ∧
    (1535 ≤ (s.span sp).overflow.length → exec (.deferredOverflowPush sp) s = .next s) ∧
    ((s.span sp).overflow.length < 1535 →
      ((s.span sp).waitPush = e :: o2 → ∃ t, exec (.deferredOverflowPush sp) s = .next t ∧
        (t.span sp).overflow = (s.span sp).overflow ++ [e] ∧ (t.span sp).waitPush = o2 ∧ t.yokes = s.yokes) ∧
      ((s.span sp).waitPush = [] → (s.yoke (yokeAt sp i)).working = false →
        (s.yoke (yokeAt sp i)).deque = d :: l →
        (∀ j < i, (s.yoke (yokeAt sp j)).working = true ∨ (s.yoke (yokeAt sp j)).deque = []) →
        ∃ t, exec (.deferredOverflowPush sp) s = .next t ∧ (t.span sp).overflow = (s.span sp).overflow ++ [freshEntry d] ∧
          (t.yoke (yokeAt sp i)).deque = l))

/-- R31, R33, R34, R296, R361, R450, R561 to R563: a span whose yokes have been idle or waiting for 1,024 fc with nothing queued
begins its rest, Nap only where SPAN.PWRCTL asks for it and no yoke waits; it is in Doze after 16 fc and in Nap after 3,200 fc.
With every span of its fold in Nap and no channel running, scratchpads and groups are in retention and the fold's watchdog is
held. SPAN.PWRCTL.WAKE wakes it; in Run again, retention ends and the watchdog goes on.

(What a wake does during the entry of a rest state is read by inference: log entry 35.) -/
def Obligations.SpansRestAndWake : Prop :=
  ∀ (s : State) (sp : SpanId) (f : FoldId) (v : Word) (nap : Bool) (since : Nat),
    let k := s.span sp
    let waits (y : YokeId) : Prop := ∃ w, (s.yoke y).run = .waiting w
    let still (y : YokeId) : Prop := (s.yoke y).run = .idle ∧ (s.yoke y).idleFc + 1024 ≤ s.clk.fc ∨
      ∃ w, (s.yoke y).run = .waiting w ∧ w.fc + 1024 ≤ s.clk.fc
    s.power.main = true →
    (k.power = .run → k.overflow = [] → k.waitPush = [] → k.quietFc + 1024 ≤ s.clk.fc → (∀ y, spanOf y = sp → still y) →
      ((∃ y, spanOf y = sp ∧ waits y) ∨ bit (s.reg (rPwrctl sp) 0) 0 = false →
        exec (.spanRestEntry sp) s = .next (s.setSpan sp { k with power := .entering false s.clk.fc })) ∧
      (¬ (∃ y, spanOf y = sp ∧ waits y) → bit (s.reg (rPwrctl sp) 0) 0 = true →
        exec (.spanRestEntry sp) s = .next (s.setSpan sp { k with power := .entering true s.clk.fc }))) ∧
    ((k.power ≠ .run ∨ k.overflow ≠ [] ∨ ∃ y, spanOf y = sp ∧ (s.yoke y).run = .task) →
      exec (.spanRestEntry sp) s = .next s) ∧
    (k.power = .entering nap since →
      (s.clk.fc < since + (if nap then 3200 else 16) → exec (.spanRestReached sp) s = .next s) ∧
      (since + (if nap then 3200 else 16) ≤ s.clk.fc → ∃ t, exec (.spanRestReached sp) s = .next t ∧
        t.spans = (s.setSpan sp { k with power := .rest nap }).spans ∧ t.mem = s.mem ∧
        (nap = true → s.spanFold sp = some f → (∀ x ∈ s.foldSpans f, x ≠ sp → (s.span x).power = .rest true) →
          (∀ c, s.dmaFold c = some f → (s.dmaCh c).busy = false) →
          (t.fold f).wdPaused = true ∧ (∀ x ∈ s.foldSpans f, bit (t.reg (rMemstat x) memstatReset) 28 = true) ∧
          ∀ g ∈ s.foldGroups f, bit (t.reg (rMemstat g) memstatReset) 29 = true))) ∧
    (k.power = .waking nap since → ∃ t, exec (.spanWakeDone sp) s = .next t ∧ (t.span sp).power = .run ∧
      (t.span sp).overflow = k.overflow ∧ t.mem = s.mem ∧ t.yokes = s.yokes ∧
      (s.spanFold sp = some f → (t.fold f).wdPaused = false ∧ (∀ x ∈ s.foldSpans f, bit (t.reg (rMemstat x) memstatReset) 28 = false) ∧
        ∀ g ∈ s.foldGroups f, bit (t.reg (rMemstat g) memstatReset) 29 = false)) ∧
    (s.firmware = true → ∃ t, exec (.spanWakeCommand sp v) s = .next t ∧ t.reg (rPwrctl sp) 0 = v &&& 1 ∧ t.yokes = s.yokes ∧
      (k.power = .rest nap → (t.span sp).power = .waking nap s.clk.fc) ∧ (k.power = .entering nap since → (t.span sp).power = .run) ∧
      (k.power = .run ∨ (∃ a b, k.power = .waking a b) → t = s.setReg (rPwrctl sp) (v &&& 1)))

/-- R85, R87, R618: with a debugger attached, the yoke that runs the named task halts: nothing is compared any more, ST.DBG is
1 and its fold's epoch is marked unchecked. The halted core's registers can be read and written, it can be resumed or stepped,
and the port reads and writes memory. Without a debugger nothing happens.

(How a debugger attaches and numbers registers and what its port may reach are not the spec's words: log entries 37,
67 and 85.) -/
def Obligations.TheDebugPortHaltsYokesAndAccessesState : Prop :=
  ∀ (s : State) (y : YokeId) (f : FoldId) (id : Word) (n : Fin 41) (v : DWord) (a : PhysAddr) (size : Fin 5) (q : QWord),
    let k := s.yoke y
    let bytes := 2 ^ size.val
    let base := a.toNat / bytes * bytes
    let off := base % 0x200000
    let width : Nat := if n = 17 then 8 else if 24 ≤ n ∧ n < 40 then 64 else 32
    (s.debugger = false → exec (.debugHalt f id) s = .next s ∧ exec (.debugResume y) s = .next s ∧ exec (.debugStep y) s = .next s ∧
      ∀ w z, exec (.debugRegisterAccess y n w) s = .next s ∧ ∀ fl, exec (.debugMemoryAccess a size z fl) s = .next s) ∧
    (s.debugger = true → y ∈ s.foldYokes f → k.run ≠ .idle → k.lead.task.ident = id →
      (∀ z ∈ s.foldYokes f, z ≠ y → (s.yoke z).run ≠ .idle → (s.yoke z).lead.task.ident ≠ id) → k.debug ≠ .halted →
      k.collapse = none → k.branch = none → k.loads = [] → k.fpu.queue = [] → k.fpu.busy = [] → k.pend = none →
      (∀ w ∈ k.whb, w.closes k.interval = true → w.unconf = 0 → w.ecc ≠ .uncorrectable) →
      ∃ t, exec (.debugHalt f id) s = .next t ∧ (t.yoke y).debug = .halted ∧ (t.yoke y).cq = [] ∧ (t.yoke y).lvq = [] ∧
        (t.yoke y).lead = { k.lead with st := setBit k.lead.st 10 true } ∧ (t.fold f).unchecked = true ∧ t.mem = s.mem ∧
        ∀ z, z ≠ y → t.yoke z = s.yoke z) ∧
    (s.debugger = true → k.debug = .halted →
      exec (.debugResume y) s = .next (s.setYoke y { k with debug := .resumed, bpSkip := true }) ∧
      exec (.debugStep y) s = .next (s.setYoke y { k with debug := .stepping, bpSkip := true }) ∧
      (n ≠ 16 → n ≠ 40 → ∃ t u, exec (.debugRegisterAccess y n (some v)) s = .next t ∧
        exec (.debugRegisterAccess y n none) t = .next u ∧ u.debugData.toNat = v.toNat % 2 ^ width ∧
        (t.yoke y).trail = k.trail ∧ t.mem = s.mem ∧ ∀ z, z ≠ y → t.yoke z = s.yoke z) ∧
      (∃ t, exec (.debugRegisterAccess y 16 (some v)) s = .next t ∧
        (t.yoke y).lead = { k.lead with st := (v.setWidth 32 &&& 0x00000B7F) ||| 0x00000400 }) ∧
      (∃ t, exec (.debugRegisterAccess y 40 (some v)) s = .next t ∧
        (t.yoke y).fpu.fcsr = v.setWidth 32 &&& 0x00031F1F ∧ (t.yoke y).lead = k.lead)) ∧
    (s.debugger = true → 0x0100000000 ≤ a.toNat → a.toNat < 0x0108000000 → off < 0x1C0000 → NoErrors s → s.wiping base = false →
      s.bankOffline base = false → s.retained base = false → Memory.wf s.mem = true →
      (∃ t, exec (.debugMemoryAccess a size none CwFlip.none) s = .next t ∧ t.mem = s.mem ∧ t.debugFailed = false ∧
        ∀ i < bytes, byteOf t.debugData i = memGet s.mem (base + i)) ∧
      ∃ t, exec (.debugMemoryAccess a size (some q) CwFlip.none) s = .next t ∧ t.debugFailed = false ∧
        ∀ b, memGet t.mem b = if base ≤ b ∧ b < base + bytes then byteOf q (b - base) else memGet s.mem b) ∧
    (s.debugger = true → 0x0300000000 ≤ a.toNat → a.toNat < 0x0300040000 → ∀ z fl,
      ∃ t, exec (.debugMemoryAccess a size z fl) s = .next t ∧ t.debugFailed = true ∧ t.mem = s.mem)

/-- R24, R25, R332 to R334, R342 to R346, R349, R350, R368, Table 9.7: a window commit takes effect whole, counted in WINCHG, or is
refused and recorded. A finished wipe leaves zero, without errors. The scrubber counts and reports each codeword it finds in
error, a single bit, a check bit or a double one, and a corrected one is written back. A transaction goes along its row, then
its column, one hop per node, and a link event is counted at the node that receives the hop.

(Errors of a codeword and link events are operands of the command, and the code columns are this model's choice: log
entries 6, 66 and 85.) -/
def Obligations.WindowsWipesAndScrubbingFollowTheirRules : Prop :=
  ∀ (s : State) (f : FoldId) (w : Fin 64) (v : Word) (g sp : SpanId) (kind : MemKind) (off : Nat) (i j : Fin 64) (b : Fin 8)
    (src dst : FabricEnd) (hop link : Nat) (node : SpanId),
    let ent := windowOf (s.reg (rWindow f w.val 0) 0) (s.reg (rWindow f w.val 1) 0) v
    let low := ent.obase.toNat * 0x1000
    let both (r : Nat) : Bool := ent.perm.getLsbD (3 * r + 1) && ent.perm.getLsbD (3 * r + 2)
    let refused (t : State) : Prop := (t.fold f).windows = (s.fold f).windows ∧ (t.fold f).winchg = (s.fold f).winchg ∧
      bit (t.reg rRefuse 0) 31 = true ∧ ∃ r, t.reports = s.reports ++ [r] ∧ r.src = 0x0D
    let cw := memPhysOf kind sp (off / 16 * 16) / 8
    let ctr := if kind = .scratch then rSpecc sp else rGrecc sp
    let cnt := (s.reg ctr 0).toNat
    let lnk := (s.reg (rSpLinkcnt node) 0).toNat
    let x := src.node.val % 8
    let y := src.node.val / 8
    let x' := dst.node.val % 8
    let y' := dst.node.val / 8
    (s.power.main = true → s.firmware = true →
      (s.windowOk f w.val ent = true → ∃ t, exec (.windowCommit f w v) s = .next t ∧
        kget (t.fold f).windows ⟨0, 0, 0, 0, 0⟩ w.val = ent ∧ (t.fold f).winchg = (s.fold f).winchg + 1 ∧
        (∀ x, x ≠ w.val → kget (t.fold f).windows ⟨0, 0, 0, 0, 0⟩ x = kget (s.fold f).windows ⟨0, 0, 0, 0, 0⟩ x) ∧
        t.reports = s.reports ∧ t.mem = s.mem) ∧
      (ent.blo ≤ ent.bhi → ent.size = 0 → s.windowOk f w.val ent = true) ∧
      (ent.bhi < ent.blo ∨ ent.size ≠ 0 ∧ (ent.size < 12 ∨ 24 < ent.size ∨ low % 2 ^ ent.size ≠ 0 ∨ both 1 = true ∨ both 2 = true ∨
          both 3 = true ∨ ∃ x ∈ (s.fold f).windows, x.1 ≠ w.val ∧ x.2.size ≠ 0 ∧ ent.blo ≤ x.2.bhi ∧ x.2.blo ≤ ent.bhi ∧
            low < x.2.obase.toNat * 0x1000 + 2 ^ x.2.size ∧ x.2.obase.toNat * 0x1000 < low + 2 ^ ent.size) →
        ∃ t, exec (.windowCommit f w v) s = .next t ∧ refused t)) ∧
    (bit (s.reg (rMemstat g) memstatReset) 31 = true → ∃ t, exec (.groupWipeDone g) s = .next t ∧
      bit (t.reg (rMemstat g) memstatReset) 31 = false ∧
      (∀ a, memGet t.mem a = if physGroup g 0 ≤ a ∧ a < physGroup g 0 + 0x100000 then 0 else memGet s.mem a) ∧
      (∀ o < 0x100000, t.cwPattern (physGroup g o / 8) = (0, 0))) ∧
    (bit (s.reg (rMemstat sp) memstatReset) 30 = true → s.spanHeld sp = false → ∃ t, exec (.spanWipeDone sp) s = .next t ∧
      bit (t.reg (rMemstat sp) memstatReset) 30 = false ∧
      (∀ a, memGet t.mem a = if physScratch sp 0 ≤ a ∧ a < physScratch sp 0 + 0x200000 then 0 else memGet s.mem a) ∧
      (∀ o < 0x200000, t.cwPattern (physScratch sp o / 8) = (0, 0))) ∧
    ((s.reg (rMemctl sp) 0x18).toNat % 2 ^ 8 ≠ 0 → s.wiping (cw * 8) = false → s.retained (cw * 8) = false → s.memErr = [] →
      Memory.wf s.mem = true →
      (∃ t r, exec (.patrolScrub kind sp off ⟨1 <<< i.val, 0, none⟩ CwFlip.none) s = .next t ∧ t.mem = s.mem ∧
        cw ∈ t.writeback ∧ t.cwPattern cw = ((1 : DWord) <<< i.val, 0) ∧ t.reports = s.reports ++ [r] ∧ r.src = 0x06 ∧
        (t.reg ctr 0).toNat % 2 ^ 16 = min 0xFFFF (cnt % 2 ^ 16 + 1)) ∧
      (∃ t r, exec (.patrolScrub kind sp off ⟨0, 1 <<< b.val, none⟩ CwFlip.none) s = .next t ∧ t.mem = s.mem ∧
        cw ∈ t.writeback ∧ t.cwPattern cw = (0, (1 : Byte) <<< b.val) ∧ t.reports = s.reports ++ [r] ∧ r.src = 0x06 ∧
        (t.reg ctr 0).toNat / 2 ^ 16 % 2 ^ 8 = min 0xFF (cnt / 2 ^ 16 % 2 ^ 8 + 1)) ∧
      (i ≠ j → ∃ t r, exec (.patrolScrub kind sp off ⟨1 <<< i.val ^^^ 1 <<< j.val, 0, none⟩ CwFlip.none) s = .next t ∧
        t.writeback = s.writeback ∧ t.reports = s.reports ++ [r] ∧ r.src = 0x08 ∧
        (t.reg ctr 0).toNat / 2 ^ 24 % 2 ^ 8 = min 0xFF (cnt / 2 ^ 24 % 2 ^ 8 + 1))) ∧
    ((s.reg (rMemctl sp) 0x18).toNat % 2 ^ 8 = 0 ∨ s.retained (cw * 8) = true → ∀ e0 e1, exec (.patrolScrub kind sp off e0 e1) s = .next s) ∧
    (cw ∈ s.writeback → s.cwEcc cw ≠ .uncorrectable → ∃ t, exec (.eccWriteback kind sp (off / 16 * 16)) s = .next t ∧
      t.cwPattern cw = (0, 0) ∧ t.writeback = s.writeback.filter (· ≠ cw) ∧ t.mem = s.mem ∧ t.regs = s.regs) ∧
    ((fabricHops src dst).length = (max x x' - min x x') + (max y y' - min y y') + 2 ∧
      (∀ n, x + n < x' → (fabricHops src dst)[n + 1]? = some (nodeAt (x + 1 + n) y, 3)) ∧
      (∀ n, x' + n < x → (fabricHops src dst)[n + 1]? = some (nodeAt (x - 1 - n) y, 1)) ∧
      (∀ n, y + n < y' → (fabricHops src dst)[max x x' - min x x' + n + 1]? = some (nodeAt x' (y + 1 + n), 0)) ∧
      (∀ n, y' + n < y → (fabricHops src dst)[max x x' - min x x' + n + 1]? = some (nodeAt x' (y - 1 - n), 2))) ∧
    ((fabricHops src dst)[hop]? = none → ∀ o w, exec (.fabricCrcRetry src dst hop o w) s = .next s) ∧
    ((fabricHops src dst)[hop]? = some (node, link) →
    (∀ w, ∃ t r, exec (.fabricCrcRetry src dst hop .linkEvent w) s = .next t ∧ t.reports = s.reports ++ [r] ∧ r.src = 0x09 ∧
      r.region = node.val ∧ r.unit = link ∧ (t.reg (rSpLinkcnt node) 0).toNat % 2 ^ 16 = min 0xFFFF (lnk % 2 ^ 16 + 1) ∧ t.yokes = s.yokes) ∧
    (∀ w, ∃ t r, exec (.fabricCrcRetry src dst hop .linkDataError w) s = .next t ∧ t.reports = s.reports ++ [r] ∧ r.src = 0x0A ∧
      (t.reg (rSpLinkcnt node) 0).toNat / 2 ^ 16 = min 0xFFFF (lnk / 2 ^ 16 + 1) ∧ t.yokes = s.yokes) ∧
    (∀ w, ∃ t r, exec (.fabricCrcRetry src dst hop .retryFails w) s = .next t ∧ t.reports = s.reports ++ [r] ∧ r.src = 0x0B ∧
      w ∈ t.fabricFails ∧ t.yokes = s.yokes)) ∧
    (s.power.main = true → s.firmware = true → ∃ t, exec (.memctlClear sp v) s = .next t ∧ t.reg (rSpecc sp) 0 = 0 ∧ t.reg (rGrecc sp) 0 = 0 ∧ t.reg (rSpLinkcnt sp) 0 = 0 ∧
      t.mem = s.mem ∧ t.reports = s.reports)

/-- Channel `c` of fold `f` runs, a slot admits its transaction (R371), and it stands at the 8 bytes `bs` of its program (R373). -/
def Sys2Proof.Claims.AtIns (s : State) (c : DmaId) (f : FoldId) (bs : List Byte) : Prop :=
  let d := s.dmaCh c
  s.dmaFold c = some f ∧ d.state = .running ∧ d.xfer = none ∧ d.wdOver s.clk = false ∧ s.dmaSlot c = true ∧
  d.cpc.toNat % 8 = 0 ∧ NoErrors s ∧
  s.dmaHeld f d d.cpc 8 true = false ∧
  ∃ p, s.dmaPhys f d d.cpc 8 Need.read true = some p ∧ s.wiping p = false ∧ memRead s.mem p 8 = bs

/-- Channel `c` may read the bytes `bs` at `a`, and no bank refuses them (R372) or holds an accepted value back (R358). -/
def Sys2Proof.Claims.Readable (s : State) (c : DmaId) (f : FoldId) (a : Word) (bs : List Byte) : Prop :=
  s.dmaHeld f (s.dmaCh c) a bs.length false = false ∧
  ∃ p, s.dmaPhys f (s.dmaCh c) a bs.length Need.read false = some p ∧
    (∀ j < bs.length, s.wiping (p + j) = false) ∧ memRead s.mem p bs.length = bs

/-- No yoke that a debugger steps is suspended in WAIT, so that an event runs nothing but the waits it ends. -/
def Sys2Proof.Claims.NoSteppedWait (s : State) : Prop := ∀ y w, (s.yoke y).run = .waiting w → (s.yoke y).debug ≠ .stepping

/-- Channel `c` has stopped with an error code (R393): the failing instruction stays in CPC and the engine reports. -/
def Sys2Proof.Claims.Stopped (s : State) (o : Host.Outcome State Fault Refusal) (c : DmaId) (code : Byte) : Prop :=
  ∃ t r, o = .next t ∧ (t.dmaCh c).state = .error ∧ (t.dmaCh c).err = code ∧ (t.dmaCh c).cpc = (s.dmaCh c).cpc ∧
    t.reports = s.reports ++ [r] ∧ r.src = 0x16 ∧ r.kind = .dma ∧ r.region = c.val ∧ t.mem = s.mem ∧
    ∀ z, z ≠ c → t.dmaCh z = s.dmaCh z

/-- R380 to R384, R388, R401, R402: START records ring and OEPOCH and resets loop state and CRC unless the channel was stopped;
a store to a busy channel sets SERR alone; STOP takes effect at the next boundary, and changes nothing of a channel at rest;
bulk stop stops each selected channel; the word last written is read back first, and a difference is error 0x06; the
watchdog stops a running channel once WDT µs are over.

(STOP at a channel at rest is read by inference: log entry 33.) -/
def Obligations.ChannelsStartAndStop : Prop :=
  ∀ (s : State) (c : DmaId) (f : FoldId) (v : Word) (ring : BitVec 2) (oe : Word) (x : DmaXfer) (hi : Bool),
    let d := s.dmaCh c
    let started : Dma := { d with
      state := .running, ring := ring, oepoch := oe, wdt := v.toNat / 2 ^ 16 % 2 ^ 12, prio := BitVec.ofNat 3 (v.toNat / 2 ^ 8),
      wait := none, xfer := none, wdFrom := s.clk.time, lastWrite := none }
    let live : Prop := s.dmaFold c = some f ∧ d.wdOver s.clk = false
    let stopped : Dma := { d with state := .stopped, wait := none, xfer := none, lastWrite := none }
    let atEnd : Prop := d.xfer = none ∨ ∃ x, d.xfer = some x ∧ x.op ≠ 1 ∧ x.left = 0
    let setEv : Dma := { d with ev := true }
    NoSteppedWait s →
    (s.dmaFold c = some f →
      (d.busy = false → d.state ≠ .stopped → exec (.dmaStart c v ring oe) s = .next (s.setDma c { started with
        loopAct := false, lcnt := 0, lpc := 0, entry := 0, crc := 0xFFFFFFFF })) ∧
      (d.state = .stopped → exec (.dmaStart c v ring oe) s = .next (s.setDma c started)) ∧
      (d.busy = true → exec (.dmaStart c v ring oe) s = .next (s.setDma c { d with serr := true })) ∧
      (d.state = .running → exec (.dmaStop c) s = .next (s.setDma c { d with state := .stopping, stopAt := s.clk.fc / 2 })) ∧
      (d.state = .waiting →
        exec (.dmaStop c) s = .next (s.setDma c { d with state := .stopping, stopAt := s.clk.fc / 2, wdFrom := s.clk.time })) ∧
      (d.state ≠ .running → d.state ≠ .waiting → exec (.dmaStop c) s = .next (s.setDma c d)) ∧
      ((∀ w, d.wait = some w → w.kind ≠ 2) → exec (.cevtSet c) s = .next (s.setDma c setEv)) ∧
      (∀ w, d.wait = some w → w.kind = 2 → (w.tmo = 0 ∨ s.clk.cyclePast (w.begin + w.tmo * 1000) = false) →
        exec (.cevtSet c) s = .next (s.setDma c { setEv with wait := some { w with seen := true } }))) ∧
    (s.dmaFold c = none → exec (.dmaStart c v ring oe) s = .next s ∧ exec (.dmaStop c) s = .next s ∧ exec (.cevtSet c) s = .next s) ∧
    (d.state = .stopping →
      (live → atEnd → d.lastWrite = none → ∃ t, exec (.dmaStopEffect c .none) s = .next t ∧ t.dmaCh c = stopped ∧ t.mem = s.mem ∧
        t.reports = s.reports ∧ ∀ z, z ≠ c → t.dmaCh z = s.dmaCh z) ∧
      (live → d.lastWrite ≠ none → s.dmaSlot c = false → exec (.dmaStopEffect c .none) s = .next s) ∧
      (live → d.xfer = some x → x.left ≠ 0 → exec (.dmaStopEffect c .none) s = .next s) ∧
      (∀ l bs, live → atEnd → d.lastWrite = some (l, bs) → s.dmaSlot c = true → s.heldAny (16 * l) = false →
        s.decodeAccess (16 * l) 16 = (s, .completed) →
        ((∀ b ∈ bs, memGet s.mem b.1 = b.2) → ∃ t, exec (.dmaStopEffect c .none) s = .next t ∧
          t.dmaCh c = { stopped with slotAt := some (s.clk.fc / 2) } ∧ t.mem = s.mem ∧ t.reports = s.reports) ∧
        ((∃ b ∈ bs, memGet s.mem b.1 ≠ b.2) → Stopped s (exec (.dmaStopEffect c .none) s) c 0x06) ∧
        Stopped s (exec (.dmaStopEffect c .readBack) s) c 0x06)) ∧
    (s.power.main = true → s.firmware = true → ∃ t, exec (.dmaBulkStop hi v) s = .next t ∧ t.mem = s.mem ∧ ∀ z : DmaId,
      t.dmaCh z = if (hi = true ↔ 32 ≤ z.val) ∧ bit v (z.val % 32) = true ∧
          ((s.dmaCh z).state = .running ∨ (s.dmaCh z).state = .waiting) then
        { s.dmaCh z with
          state := .stopping, stopAt := s.clk.fc / 2,
          wdFrom := if (s.dmaCh z).state = .waiting then s.clk.time else (s.dmaCh z).wdFrom } else s.dmaCh z) ∧
    (d.state = .running ∨ d.state = .stopping → d.wdt ≠ 0 → s.clk.cyclePast (d.wdFrom + d.wdt * 1000) = true →
      Stopped s (exec (.dmaWatchdogExpiry c) s) c 0x09) ∧
    (d.state = .waiting ∨ d.wdt = 0 ∨ s.clk.cyclePast (d.wdFrom + d.wdt * 1000) = false → exec (.dmaWatchdogExpiry c) s = .next s)

/-- R373 to R378, R385, R389, R392 to R395, Tables 10.2 to 10.4: each channel instruction, read as the 8 bytes of its encoding,
begins its transfer, loops, waits, signals, checks the CRC or ends the channel as Table 10.3 says, or stops it with the error
of Table 10.6; a burst moves up to 256 bytes within 256-byte boundaries, in a slot of its fold, and to a queue is one output tagged with OEPOCH; the word last written is
read back before SIGNAL and END act.

(END while a channel stops and the moment of an expiry are not the spec's words: log entries 33 and 62.) -/
def Obligations.ChannelInstructionsFollowTheirTables : Prop :=
  ∀ (s : State) (c tc : DmaId) (f : FoldId) (w src dst : Word) (len n back tmo q : Nat) (df e sig clr : Bool) (code : Byte)
    (bs : List Byte) (wt : DmaWait) (x : DmaXfer) (flt : DmaFault),
    let d := s.dmaCh c
    let s1 := s.dmaTake c
    let dT : Dma := { d with slotAt := some (s.clk.fc / 2) }
    let d0 : Dma := { dT with wdFrom := s.clk.time }
    let past (d : Dma) : Dma := { d with cpc := d.cpc + 8, xfer := none, wait := none, entry := 0, wdFrom := s.clk.time }
    let word (v : Nat) : List Byte := leBytes v 4
    let at8 (b0 b1 h2 : Nat) (tail : List Byte) : Prop := AtIns s c f ([BitVec.ofNat 8 b0, BitVec.ofNat 8 b1] ++ leBytes h2 2 ++ tail)
    let queue (a : Word) : Prop := 0xF0 ≤ a.toNat / 2 ^ 24 ∧ a.toNat / 2 ^ 24 ≤ 0xF4
    let raised (t : State) (k : Nat) : Prop := (∀ y z, (s.yoke y).run ≠ .waiting z) → bit (s.fold f).ien 2 = true →
      (∀ v ∈ (s.fold f).events, v.vec ≠ 0x12) → ∃ v ∈ (t.fold f).events, v.vec = 0x12 ∧ v.syn = BitVec.ofNat 32 (c.val + 256 * k)
    let inRange (l : Nat) : Prop := 1 ≤ l ∧ l ≤ 1048576
    let written : Prop := ∃ l lb, d.lastWrite = some (l, lb) ∧ s.heldAny (16 * l) = false ∧
      s.decodeAccess (16 * l) 16 = (s, .completed) ∧ ∀ b ∈ lb, memGet s.mem b.1 = b.2
    let settled : Prop := d.lastWrite = none ∨ written
    NoSteppedWait s → s.clk.frac < 2 ^ 32 →
    -- MOVE
    (at8 1 df.toNat 0 (word len) → len < 2 ^ 32 →
      (inRange len → (df = true ↔ queue d.cdst) →
        exec (.dmaMove c .none) s = .next (s1.setDma c { d0 with xfer := some ⟨1, 0, 0, 0, len, 0, df⟩ })) ∧
      (inRange len → ¬ (df = true ↔ queue d.cdst) → Stopped s (exec (.dmaMove c .none) s) c 0x02) ∧
      (¬ inRange len → Stopped s (exec (.dmaMove c .none) s) c 0x01)) ∧
    (at8 1 (df.toNat + 2) 0 (word w.toNat) → w.toNat % 16 = 0 → len < 2 ^ 32 →
      Readable s c f w (word src.toNat ++ word dst.toNat ++ word len ++ word 0) → inRange len → (df = true ↔ queue dst) →
      exec (.dmaMove c .none) s = .next (s1.setDma c { d0 with csrc := src, cdst := dst, xfer := some ⟨1, 0, 0, 0, len, 0, df⟩ })) ∧
    -- GATHER and SCATTER
    (w.toNat % 8 = 0 → 1 ≤ n → n ≤ 4096 → d.entry.toNat < n → len < 2 ^ 32 →
      Readable s c f (w + BitVec.ofNat 32 (8 * d.entry.toNat)) (word src.toNat ++ word len) →
      (at8 2 df.toNat n (word w.toNat) → (df = true ↔ queue d.cdst) →
        (inRange len → exec (.dmaGather c .none) s =
          .next (s1.setDma c { d0 with xfer := some ⟨2, w, n, d.entry.toNat + 1, len, src, df⟩ })) ∧
        (¬ inRange len → Stopped s (exec (.dmaGather c .none) s) c 0x01)) ∧
      (at8 3 0 n (word w.toNat) →
        (inRange len → exec (.dmaScatter c .none) s =
          .next (s1.setDma c { d0 with xfer := some ⟨3, w, n, d.entry.toNat + 1, len, src, false⟩ })) ∧
        (¬ inRange len → Stopped s (exec (.dmaScatter c .none) s) c 0x01))) ∧
    -- LOOP
    (at8 4 0 n (leBytes back 2 ++ [0, 0]) → 1 ≤ n → n < 2 ^ 16 → 1 ≤ back → back ≤ 1023 →
      let cnt : Half := if d.loopAct then d.lcnt - 1 else BitVec.ofNat 16 (n - 1)
      (d.loopAct = true → d.lpc ≠ d.cpc → Stopped s (exec (.dmaLoop c .none) s) c 0x0A) ∧
      (d.loopAct = false ∨ d.lpc = d.cpc →
        (cnt ≠ 0 → exec (.dmaLoop c .none) s = .next (s1.setDma c { d0 with
          loopAct := true, lcnt := cnt, lpc := d.cpc, cpc := d.cpc - BitVec.ofNat 32 (8 * back) })) ∧
        (cnt = 0 → exec (.dmaLoop c .none) s = .next (s1.setDma c { d0 with
          loopAct := false, lcnt := 0, lpc := d.cpc, cpc := d.cpc + 8 })))) ∧
    -- WAIT
    (tmo < 2 ^ 16 →
      let waits (k : Nat) (a : Word) (r : Nat) : State :=
        s1.setDma c { d0 with state := .waiting, wait := some ⟨k, s.clk.time, tmo, a, false, s.clk.fc + r⟩ }
      (∀ k, k = 1 ∨ k = 3 ∨ k = 2 ∧ d.ev = false → at8 5 k tmo (word 0) → exec (.dmaWait c .none) s = .next (waits k 0 0)) ∧
      (at8 5 2 tmo (word 0) → d.ev = true → exec (.dmaWait c .none) s = .next (s1.setDma c { past dT with ev := false })) ∧
      (at8 5 4 tmo (word w.toNat) → w.toNat % 4 = 0 →
        (Readable s c f w [0, 0, 0, 0] → exec (.dmaWait c .none) s = .next (waits 4 w 64)) ∧
        (Readable s c f w bs → bs.length = 4 → bs ≠ [0, 0, 0, 0] → exec (.dmaWait c .none) s = .next (s1.setDma c (past dT))))) ∧
    (s.dmaFold c = some f → d.state = .waiting → d.wait = some wt → wt.kind ≠ 4 →
      let ended := wt.seen
      let late := wt.tmo ≠ 0 ∧ s.clk.cyclePast (wt.begin + wt.tmo * 1000) = true
      let done : Dma := { past d with state := .running, ev := if wt.kind = 2 then false else d.ev }
      (ended = true → exec (.dmaWaitEnd c .none) s = .next (s.setDma c done) ∧
        (late → exec (.dmaWaitTimeout c) s = .next (s.setDma c done))) ∧
      (ended = false → exec (.dmaWaitEnd c .none) s = .next s ∧ (late → Stopped s (exec (.dmaWaitTimeout c) s) c 0x07)) ∧
      (¬ late → exec (.dmaWaitTimeout c) s = .next s)) ∧
    -- SIGNAL, CHECK and END
    (code.toNat ≤ 0xEF → s.dmaFold tc = some f → tc ≠ c →
      at8 6 (sig.toNat + 2 * e.toNat) (code.toNat + 256 * (if e then tc.val else 0)) (word 0) →
      (settled → ∃ t, exec (.dmaSignal c .none) s = .next t ∧ t.dmaCh c = { past dT with lastWrite := none } ∧
        (t.dmaCh tc).ev = ((s.dmaCh tc).ev || e) ∧ t.mem = s.mem ∧ t.reports = s.reports ∧ (sig = true → raised t code.toNat)) ∧
      (written → Stopped s (exec (.dmaSignal c .readBack) s) c 0x06)) ∧
    (at8 7 (2 * clr.toNat) 0 (word w.toNat) →
      (w = ~~~d.crc → exec (.dmaCheck c .none) s = .next (s1.setDma c { past dT with crc := if clr then 0xFFFFFFFF else d.crc })) ∧
      (w ≠ ~~~d.crc → Stopped s (exec (.dmaCheck c .none) s) c 0x08)) ∧
    (at8 7 (1 + 2 * clr.toNat) 0 (word w.toNat) → w.toNat % 4 = 0 → Readable s c f w (word src.toNat) →
      (src = ~~~d.crc → exec (.dmaCheck c .none) s = .next (s1.setDma c { past dT with crc := if clr then 0xFFFFFFFF else d.crc })) ∧
      (src ≠ ~~~d.crc → Stopped s (exec (.dmaCheck c .none) s) c 0x08)) ∧
    (at8 8 sig.toNat 0 (word 0) →
      (settled → ∃ t, exec (.dmaEnd c .none) s = .next t ∧ t.dmaCh c = { past dT with state := .done, lastWrite := none } ∧
        t.mem = s.mem ∧
        t.reports = s.reports ∧ (sig = true → raised t 0xF0)) ∧
      (written → Stopped s (exec (.dmaEnd c .readBack) s) c 0x06)) ∧
    -- bursts
    (s.dmaFold c = some f → d.wdOver s.clk = false → d.state = .running ∨ d.state = .stopping → d.xfer = some x → x.left ≠ 0 → x.op = 1 ∨ x.op = 2 ∨ x.op = 3 →
      let a := if x.op = 2 then x.addr else d.csrc
      let b := if x.op = 3 then x.addr else d.cdst
      let m := min x.left (min (256 - a.toNat % 256) (if x.df then 256 else 256 - b.toNat % 256))
      let next : Dma := { d with
        crc := crc32cRun d.crc bs, wdFrom := s.clk.time, served := s.dmaServed, slotAt := some (s.clk.fc / 2), csrc := if x.op = 2 then d.csrc else d.csrc + BitVec.ofNat 32 m,
        cdst := if x.op = 3 ∨ x.df = true then d.cdst else d.cdst + BitVec.ofNat 32 m,
        entry := if x.op ≠ 1 ∧ x.left = m then BitVec.ofNat 12 x.next else d.entry,
        xfer := some { x with left := x.left - m, addr := if x.op = 1 then 0 else x.addr + BitVec.ofNat 32 m } }
      let after : Dma := if x.left = m ∧ (x.op = 1 ∨ x.entries ≤ x.next) then { next with cpc := d.cpc + 8, xfer := none, wait := none, entry := 0 }
        else next
      ((s.dmaReady c = false ∨ s.dmaSlot c = false ∨ ∃ z : DmaId, z.val / 8 = c.val / 8 ∧ s.dmaFold z = some f ∧ s.dmaReady z = true ∧
          d.prio.toNat < (s.dmaCh z).prio.toNat) → exec (.dmaBurst c .none) s = .next s) ∧
      Stopped s (exec (.dmaBurst c .sequencer) s) c 0x0B ∧ Stopped s (exec (.dmaBurst c .parity) s) c 0x03 ∧
      (s.dmaFirst c = true → s.dmaSlot c = true → bs.length = m → Readable s c f a bs → NoErrors s →
        (¬ queue b → s.dmaPhys f d b m Need.write false = some q → (∀ j < m, s.wiping (q + j) = false) → Memory.wf s.mem = true →
          ∃ t, exec (.dmaBurst c .none) s = .next t ∧ t.dmaCh c = { after with lastWrite := lastWord d.lastWrite q bs } ∧ t.reports = s.reports ∧
            (∀ j < m, memGet t.mem (q + j) = bs.getD j 0) ∧ ∀ j, j < q ∨ q + m ≤ j → memGet t.mem j = memGet s.mem j) ∧
        (queue b → x.op ≠ 3 → s.isTxWindow f (b.toNat / 2 ^ 24) (b.toNat % 2 ^ 24) = true →
          s.check f 0 d.ring b m Need.write ≠ none → (s.fold f).phase = .running →
          serialGe d.oepoch (BitVec.ofNat 32 (s.curEpoch f)) = true →
          let h : HeldOutput := ⟨outputDest (b.toNat / 2 ^ 24) (b.toNat % 2 ^ 24), bs, false, d.oepoch, ⟨d.cpc, some (c, d.seq)⟩⟩
          ((s.fold f).heldBytes + h.bytes ≤ (s.reg (rFhsize f) 0).toNat → ∃ t, exec (.dmaBurst c .none) s = .next t ∧
            t.dmaCh c = (if b.toNat / 2 ^ 24 = 0xF4 then
              { after with seq := d.seq + 1 } else after) ∧
            (t.fold f).held = (s.fold f).held ++ [h] ∧ t.mem = s.mem) ∧
          ((s.reg (rFhsize f) 0).toNat < (s.fold f).heldBytes + h.bytes → ∃ t, exec (.dmaBurst c .none) s = .next t ∧
            (t.dmaCh c).err = 0x05 ∧ (t.fold f).held = (s.fold f).held)))) ∧
    (s.dmaFold c = none → exec (.dmaBurst c flt) s = .next s)

/-- The fold manager has refused a write with a code of Table 11.6 (R411): the refusal register holds the first refusal, the
report is on its way, and the register in question is as it was. -/
def Sys2Proof.Claims.Refused (s : State) (o : Host.Outcome State Fault Refusal) (code fold index : Nat) : Prop :=
  ∃ t r, o = .next t ∧ t.reports = s.reports ++ [r] ∧ r.src = 0x0D ∧
    (bit (s.reg rRefuse 0) 31 = false → t.reg rRefuse 0 = BitVec.ofNat 32 (2 ^ 31 + code * 2 ^ 16 + fold * 2 ^ 12 + index)) ∧
    (bit (s.reg rRefuse 0) 31 = true → bit (t.reg rRefuse 0) 30 = true) ∧ (∀ a, a ≠ rRefuse → t.reg a 0 = s.reg a 0) ∧
    t.folds = s.folds ∧ t.xch = s.xch ∧ t.mem = s.mem

/-- The same of a write of an ownership register: the fold watchdogs may besides see that every span naps (R450). -/
def Sys2Proof.Claims.OwnRefused (s : State) (o : Host.Outcome State Fault Refusal) (code fold index : Nat) : Prop :=
  ∃ t r, o = .next t ∧ t.reports = s.reports ++ [r] ∧ r.src = 0x0D ∧
    (bit (s.reg rRefuse 0) 31 = false → t.reg rRefuse 0 = BitVec.ofNat 32 (2 ^ 31 + code * 2 ^ 16 + fold * 2 ^ 12 + index)) ∧
    (bit (s.reg rRefuse 0) 31 = true → bit (t.reg rRefuse 0) 30 = true) ∧ (∀ a, a ≠ rRefuse → t.reg a 0 = s.reg a 0) ∧
    t.xch = s.xch ∧ t.mem = s.mem

/-- R405 to R408, R443: a fold number goes from EMPTY to BUILD, to RUN where every check of R406 holds, with the register values
of admission and its first task queued; a write of SAFE runs fold-safe: no task, output, event or watchdog of the fold is
left and its safe outputs are off; it returns to EMPTY once it owns nothing. Every other write is refused.

(What a write that the state does not allow reports and that a receiving channel is owned are read by inference: log
entries 23 and 24.) -/
def Obligations.FoldsAreBuiltAdmittedAndMadeSafe : Prop :=
  ∀ (s : State) (f : FoldId) (sp : SpanId) (rest : List SpanId),
    let fo := s.fold f
    let cfg := (s.reg (rFcfg f) 0x00030000).toNat
    let period := 2 ^ (cfg / 2 ^ 16 % 16) * (cfg % 2 ^ 10 + 1)
    let size := (s.reg (rFhsize f) 0).toNat
    let base := (s.reg (rFhbase f) 0).toNat
    let area : Prop := size ≠ 0 ∧ size % 0x10000 = 0 ∧ base % 0x10000 = 0 ∧ base % 0x100000 + size ≤ 0x100000 ∧ base < 0x4000000 ∧
      s.groupFold (Fin.ofNat 64 (base / 0x100000)) = some f
    let checks : Prop := s.foldSpans f ≠ [] ∧ (∃ i < 47, ownerOf (s.reg (rSlot i) 0) = some f) ∧ area ∧
      ((s.reg (rFpwr f) 0).toNat % 2 ^ 11 ≠ 0 ∨ bit s.fmgrCtl 1 = true) ∧
      (∀ x ∈ s.foldSpans f, bit (s.reg (rMemstat x) memstatReset) 30 = false) ∧
      (∀ g ∈ s.foldGroups f, bit (s.reg (rMemstat g) memstatReset) 31 = false) ∧ 250 ≤ period ∧ period ≤ 10000 ∧
      s.fm.dsafe = false ∧ s.sec.pend = false ∧ s.sec.mok = true
    let owns : Prop := s.foldSpans f ≠ [] ∨ s.foldGroups f ≠ [] ∨ (∃ c, s.dmaFold c = some f) ∨
      (∃ i < 47, ownerOf (s.reg (rSlot i) 0) = some f) ∨ (∃ p < 4, ∃ q < 64, ownerOf (s.reg (rPqown p q) 0) = some f) ∨
      ∃ x < 256, s.sends f x = true ∨ s.receives f x = true
    let no (c : Instr) : Prop := Refused s (exec c s) 0x05 f.val f.val
    s.power.main = true → s.firmware = true →
    (fo.phase = .empty → exec (.foldBuild f) s = .next (s.setFold f { fo with phase := .build }) ∧ no (.foldEmpty f) ∧
      no (.foldAdmit f) ∧ no (.foldSafeWrite f)) ∧
    (fo.phase = .build → no (.foldBuild f) ∧ no (.foldSafeWrite f) ∧ (¬ checks → no (.foldAdmit f)) ∧
      (checks → s.foldSpans f = sp :: rest → (s.span sp).overflow.length < 1536 →
        ∃ t e, exec (.foldAdmit f) s = .next t ∧ (t.fold f).phase = .running ∧ (t.fold f).windows = fo.windows ∧
          (t.fold f).epoch = BitVec.ofNat 64 (s.now / s.epochNs f) ∧ (t.fold f).fstart = BitVec.ofNat 64 (s.now / s.epochNs f + 1) ∧
          (t.fold f).events = [] ∧ (t.fold f).held = [] ∧ (t.fold f).joins = [] ∧ (t.fold f).ien = 0 ∧ (t.fold f).dtb = 0 ∧
          (t.fold f).sksz = 0x0C0C0C0C ∧ t.reg (rEpFstat f) 0 = 0 ∧ (t.reg (rFest f) 0).toNat / 2 ^ 16 % 2 ^ 11 = 0 ∧ t.mem = s.mem ∧
          (t.span sp).overflow = (s.span sp).overflow ++ [e] ∧ e.resumeClass = false ∧ e.prio = 0 ∧ e.portable = false ∧
          ∃ d, e.body = .fresh d ∧ d.entry = s.reg (rFentry f) 0 ∧ d.sp[0] = s.reg (rFstack f) 0 ∧ d.sp[1] = 0 ∧ d.joinref = 0 ∧
            d.oepoch = BitVec.ofNat 32 (s.now / s.epochNs f) ∧ d.ident.toNat / 2 ^ 28 = f.val ∧
            d.attr.toNat / 2 ^ 28 = f.val)) ∧
    (fo.phase = .running → no (.foldBuild f) ∧ no (.foldEmpty f) ∧ no (.foldAdmit f) ∧
      ∃ t, exec (.foldSafeWrite f) s = .next t ∧ (t.fold f).phase = .safe ∧ (t.fold f).held = [] ∧ (t.fold f).events = [] ∧
        (t.fold f).joins = [] ∧ (t.fold f).chans = [] ∧ (t.fold f).wdRun = false ∧ t.mem = s.mem ∧
        (∀ y ∈ s.foldYokes f, (t.yoke y).run = .idle ∧ (t.yoke y).deque = []) ∧
        (∀ x ∈ s.foldSpans f, (t.span x).overflow = [] ∧ (t.span x).slots = []) ∧
        (∀ k < 8, s.outOf f k = true → (t.outPair k).on = false ∧ (t.outPair k).dra = false ∧ (t.outPair k).drb = false) ∧
        ∀ g, g ≠ f → t.fold g = s.fold g) ∧
    (fo.phase = .safe → no (.foldBuild f) ∧ no (.foldAdmit f) ∧ no (.foldSafeWrite f)) ∧
    (fo.phase = .build ∨ fo.phase = .safe → (owns → no (.foldEmpty f)) ∧
      (¬ owns → ∃ t, exec (.foldEmpty f) s = .next t ∧ t.folds = (s.setFold f { fo with phase := .empty }).folds))

/-- R348, R351, R369, R409, R410, R412, R414, R419, R422, R423, R564, R37, Tables 11.4 and 11.5: resources are assigned to one fold at a time and
released when unused, a released span or group begins its wipe; slots change with the next frame; channels between folds are
declared and released; budgets, the judgement of a power window and clock steps follow their rules; a register write outside
every register is ignored and reported.

(The fields of a refusal, the refusal of a declaration in RUN, the fold of a slot, power estimates and reserved
offsets are read by inference: log entries 23, 24, 25, 44 and 53.) -/
def Obligations.FoldManagerRegistersFollowTheirRules : Prop :=
  ∀ (s : State) (f : FoldId) (i sp : SpanId) (g : GroupId) (c : DmaId) (p : EthPort) (q : Fin 64) (v : Word) (a : BitVec 24)
    (k : Fin 48) (x : Fin 256),
    let named : FoldId := Fin.ofNat 16 v.toNat
    let no (cmd : Instr) (code idx : Nat) : Prop := OwnRefused s (exec cmd s) code f.val idx
    let given : Word := BitVec.ofNat 32 (2 ^ 31 + f.val)
    let slots (g : FoldId) : List Nat := (List.range 47).filter fun j => ownerOf (s.reg (rSlot j) 0) = some g
    let old := s.reg (rXchown x.val) 0
    let tx (w : Word) : FoldId := Fin.ofNat 16 w.toNat
    let rx (w : Word) : FoldId := Fin.ofNat 16 (w.toNat / 2 ^ 8)
    let depth (w : Word) : Nat := if bit w 31 then 2 ^ (w.toNat / 2 ^ 16 % 8) else 0
    let decl : Word := (v ||| 0x80000000) &&& 0x80070F0F
    let rel : Word := v &&& 0x00070F0F
    let others := (List.range 256).foldl (fun m j => m + if j = x.val then 0 else depth (s.reg (rXchown j) 0)) 0
    let noXch (cmd : Instr) : Prop := Refused s (exec cmd s) 0x09 (v.toNat % 16) x.val
    let xchNow (w : Word) : State := { s.setReg (rXchown x.val) w with xch := kset s.xch x.val ⟨[], [], [], false, 0⟩ }
    let budget := v.toNat % 2 ^ 11
    s.power.main = true → s.firmware = true →
    -- ownership
    ((s.fold f).phase = .build ∨ (s.fold f).phase = .running →
      (s.power.bist = false → s.groupFold g = none → (s.running f = true → ∀ h ∈ s.foldGroups f, h < g) →
        ∃ t, exec (.resourceAssign (.group g) f) s = .next t ∧ t.reg (rGrpown g) 0 = given ∧ t.mem = s.mem ∧
          t.reports = s.reports ∧ (∀ h, h ≠ g → t.groupFold h = s.groupFold h) ∧ ∀ h, t.spanFold h = s.spanFold h) ∧
      (s.power.bist = false → s.spanFold i = none → bit (s.reg (rMemstat i) memstatReset) 30 = false → (s.running f = true → ∀ h ∈ s.foldSpans f, h < i) →
        ∃ t, exec (.resourceAssign (.span i) f) s = .next t ∧ t.reg (rSpanown i) 0 = given ∧ t.mem = s.mem ∧
          t.reports = s.reports ∧ (∀ h, h ≠ i → t.spanFold h = s.spanFold h) ∧ ∀ h, t.groupFold h = s.groupFold h) ∧
      (s.dmaFold c = none → ∃ t, exec (.resourceAssign (.dma c) f) s = .next t ∧ t.dmaFold c = some f ∧ t.dmaCh c = Dma.reset) ∧
      (ownerOf (s.reg (rPqown p.val q.val) 0) = none →
        ∃ t, exec (.resourceAssign (.queue p q) f) s = .next t ∧ t.queueFold p.val q.val = some f ∧
          (t.queue p.val q.val).rx = [] ∧ (t.queue p.val q.val).tx = [])) ∧
    ((∀ h, s.spanFold i = some h → h ≠ f → no (.resourceAssign (.span i) f) 0x01 i.val) ∧
      (∀ h, s.groupFold g = some h → h ≠ f → no (.resourceAssign (.group g) f) 0x01 g.val) ∧
      (s.spanFold i = none → s.power.bist = true ∨ bit (s.reg (rMemstat i) memstatReset) 30 = true →
        no (.resourceAssign (.span i) f) 0x02 i.val) ∧
      (s.groupFold g = none → s.power.bist = true → no (.resourceAssign (.group g) f) 0x02 g.val) ∧
      (s.power.bist = false → s.groupFold g = none → s.running f = true → (∃ h ∈ s.foldGroups f, g ≤ h) → no (.resourceAssign (.group g) f) 0x03 g.val) ∧
      (s.power.bist = false → s.groupFold g = none → (s.fold f).phase = .empty ∨ (s.fold f).phase = .safe → no (.resourceAssign (.group g) f) 0x05 g.val)) ∧
    (s.spanFold i = some f → s.running f = false →
      (s.spanFree i = true → ∃ t, exec (.resourceRelease (.span i) f) s = .next t ∧ t.spanFold i = none ∧
        bit (t.reg (rMemstat i) memstatReset) 30 = true) ∧
      ((s.span i).overflow ≠ [] ∨ (s.span i).slots ≠ [] ∨ (∃ y, spanOf y = i ∧ (s.yoke y).run ≠ .idle) →
        ∃ t, exec (.resourceRelease (.span i) f) s = .next t ∧ t.spanFold i = some f ∧ bit (t.reg rRefuse 0) 31 = true)) ∧
    (s.groupFold g = some f → s.running f = false → s.holdingPart f = none → (s.fold f).windows = [] →
      ∃ t, exec (.resourceRelease (.group g) f) s = .next t ∧
        (s.groupDrained g = true → t.groupFold g = none ∧ bit (t.reg (rMemstat g) memstatReset) 31 = true) ∧
        (s.groupDrained g = false → t.groupFold g = some f ∧ t.reg (rMemstat g) memstatReset = s.reg (rMemstat g) memstatReset ∧
          ∃ w, bit w 31 = false ∧ (g, w) ∈ t.releasing)) ∧
    (s.dmaFold c = some f → (s.dmaCh c).busy = true →
      ∃ t, exec (.resourceRelease (.dma c) f) s = .next t ∧ t.dmaFold c = some f ∧ bit (t.reg rRefuse 0) 31 = true) ∧
    (s.dmaFold c = some f → (s.dmaCh c).busy = false →
      ∃ t, exec (.resourceRelease (.dma c) f) s = .next t ∧ t.dmaFold c = none ∧ t.dmaCh c = Dma.reset) ∧
    -- slots
    (k.val < 47 → (bit v 31 = true → (s.fold named).phase ≠ .empty) →
      (∀ h, ownerOf (s.reg (rSlot k.val) 0) = some h → s.running h = true → (bit v 31 = true ∧ named = h) ∨ 1 < (slots h).length) →
      exec (.slotWrite k v) s = .next (s.setReg (rSlot k.val) (v &&& 0x8000000F))) ∧
    (k.val < 47 → bit v 31 = true → (s.fold named).phase = .empty → Refused s (exec (.slotWrite k v) s) 0x08 named.val k.val) ∧
    (k.val < 47 → bit v 31 = false → (∃ h, ownerOf (s.reg (rSlot k.val) 0) = some h ∧ s.running h = true ∧ (slots h).length = 1) →
      Refused s (exec (.slotWrite k v) s) 0x08 named.val k.val) ∧
    (k.val = 47 → exec (.slotWrite k v) s = .next s) ∧
    (s.clk.fc % 96 = 0 → ∃ t, exec .fabricFrameStart s = .next t ∧ t.regs = s.regs ∧
      ∀ j < 47, kget t.slotPlan 0 j = s.reg (rSlot j) 0) ∧
    -- cross-fold channels
    (decl ≠ old → (bit old 31 = true → s.running (tx old) = false ∧ s.running (rx old) = false) → tx v ≠ rx v →
      v.toNat / 2 ^ 16 % 8 ≤ 6 → others + depth decl ≤ 4096 → s.running (tx v) = false →
      exec (.xchDeclare x v) s = .next (xchNow decl)) ∧
    (decl ≠ old → (bit old 31 = true ∧ (s.running (tx old) = true ∨ s.running (rx old) = true) ∨ tx v = rx v ∨
      6 < v.toNat / 2 ^ 16 % 8 ∨ 4096 < others + depth decl ∨ s.running (tx v) = true) → noXch (.xchDeclare x v)) ∧
    (bit old 31 = true → s.running (tx old) = false → exec (.xchRelease x v) s = .next (xchNow rel)) ∧
    (bit old 31 = true → s.running (tx old) = true → noXch (.xchRelease x v)) ∧
    -- power
    (budget ≤ 1650 → (budget = 0 → s.running f = true → bit s.fmgrCtl 1 = true) →
      ∃ t, exec (.powerBudgetWrite f v) s = .next t ∧ (t.reg (rFpwr f) 0).toNat % 2 ^ 11 = budget ∧ t.reports = s.reports) ∧
    (1650 < budget ∨ budget = 0 ∧ s.running f = true ∧ bit s.fmgrCtl 1 = false →
      Refused s (exec (.powerBudgetWrite f v) s) 0x0A f.val f.val) ∧
    (s.pwr.samples < 1024 → exec .powerWindowEnd s = .next s) ∧
    (1024 ≤ s.pwr.samples → s.adaptive = false → ∃ t, exec .powerWindowEnd s = .next t ∧ t.pwr.samples = 0 ∧ t.pwr.acc = [] ∧
      (t.reg (rFest f) 0).toNat % 2 ^ 11 = min 2047 (kget s.pwr.acc 0 f / (s.pwr.samples * 400)) ∧
      (s.running f = true → (s.reg (rFpwr f) 0).toNat % 2 ^ 11 < kget s.pwr.acc 0 f / (s.pwr.samples * 400) →
        bit (t.reg (rFpwr f) 0) 31 = true ∧ ∃ r ∈ t.reports, r.src = 0x15 ∧ r.kind = .fold ∧ r.region = f.val)) ∧
    (s.adaptive = true → (∀ y, spanOf y = sp → (s.yoke y).run = .task → (s.yoke y).unchecked = true ∨
        (s.yoke y).pend = none ∧ kget s.pwr.wantAt 0 y ≤ (s.yoke y).interval) →
      ∃ t, exec (.clockStepApply sp) s = .next t ∧ t.spclk sp = s.wantStep sp % 4 ∧ t.reports = s.reports) ∧
    (s.adaptive = false ∨ (∃ y, spanOf y = sp ∧ (s.yoke y).run = .task ∧ (s.yoke y).unchecked = false ∧ (s.yoke y).pend ≠ none) →
      exec (.clockStepApply sp) s = .next s) ∧
    -- other registers
    ((a.toNat % 4 ≠ 0 ∨ 0x150000 ≤ a.toNat) → ∃ t r, exec (.registerWrite a v) s = .next t ∧ t.regs = s.regs ∧
      t.reports = s.reports ++ [r] ∧ r.src = 0x0C ∧ t.folds = s.folds) ∧
    (a.toNat % 4 = 0 → a.toNat < 0x18 → exec (.registerWrite a v) s = .next s) ∧
    exec (.registerWrite (BitVec.ofNat 24 (rFentry f)) v) s = .next (s.setReg (rFentry f) v) ∧
    exec (.registerWrite (BitVec.ofNat 24 (rFroot f)) v) s = .next (s.setReg (rFroot f) (v &&& 0xFFFFFFC0))

/-- R429 to R433, R435 to R437, R439, R441, R442, R445, R448, R468: the oldest report opens an incident or joins one in its
window; of the waiting reactions the highest class begins, preempting a lower one, with the actions of Table 12.3; with its last
step the incident is done and leaves when its window is over. FM.REQ opens an incident, a source's class is never set below its
minimum, and nSAFE is released only outside device safe state and OPENED.

(A report that joins an open C0 incident, the incident of an escalated C0 and which reports come from outside are read
by inference: log entries 29 and 72.) -/
def Obligations.FaultsBecomeIncidentsWithReactions : Prop :=
  ∀ (s : State) (r : Report) (rest : List Report) (i : Incident) (f : FoldId) (v : Word) (c : BitVec 6),
    let src : Byte := c.zeroExtend 8
    let cls := v.toNat % 8
    let reqCls := v.toNat / 2 ^ 24 % 8
    let held (t : State) (n : Nat) : Prop := (t.reg (rSrccfg src) (srccfgReset src)).toNat % 8 = n
    s.power.main = true →
    -- reports
    (s.reports = r :: rest →
      ((∀ x ∈ s.fm.queue, x.takes r (s.classOf r) s.clk.fc = false) → s.fm.queue.length < 64 →
        (∀ g, s.scopeOf r = some g → (s.fm.queue.filter fun x => x.fold == some g).length < 3) →
        ∃ t n, exec (.faultReport 1 []) s = .next t ∧ t.reports = rest ∧ t.fm.queue = s.fm.queue ++ [n] ∧ n.num = s.fm.next ∧
          n.cls = s.classOf r ∧ n.src = r.src ∧ n.kind = r.kind ∧ n.region = r.region ∧ n.detail = r.detail ∧ n.count = 1 ∧
          n.fold = s.scopeOf r ∧ n.map = setBit 0 (r.unit % 64) true ∧ n.openFc = s.clk.fc ∧ n.done = false ∧
          t.fm.next = s.fm.next + 1 ∧ t.folds = s.folds ∧ t.yokes = s.yokes) ∧
      (s.fm.queue.find? (fun x => x.takes r (s.classOf r) s.clk.fc) = some i → s.fm.extra = none →
        (∀ x ∈ s.fm.queue, x.ord = i.ord → x = i) →
        ∃ t, exec (.faultReport 1 []) s = .next t ∧ t.reports = rest ∧ t.fm.next = s.fm.next ∧
          t.fm.queue = s.fm.queue.map fun x =>
            if x = i then { i with count := min 65535 (i.count + 1), map := setBit i.map (r.unit % 64) true } else x)) ∧
    (s.reports = [] → exec (.faultReport 1 []) s = .next s) ∧
    -- reactions
    (s.fm.queue = [] → s.fm.extra = none → exec .reactionBegin s = .next s) ∧
    (i ∈ s.fm.queue → i.done = false → i.begun = false → s.fm.extra = none →
      (∀ x ∈ s.fm.queue, x.done = true ∨ x = i ∨ x.cls < i.cls ∨ x.cls = i.cls ∧ i.ord < x.ord) →
      (∀ x ∈ s.fm.queue, x.ord = i.ord → x = i) → (∀ x, s.fm.current = some x → x.cls < i.cls) → NoSteppedWait s →
      ∃ t, exec .reactionBegin s = .next t ∧ t.fm.cur = some i.ord ∧
        t.reg (rFmCnt i.cls.toNat) 0 = satInc (s.reg (rFmCnt i.cls.toNat) 0) ∧
        (∀ j < 8, t.reg (rFmLast j) 0 = i.opening.getD j 0) ∧
        ((s.reg rFmCtl 1).toNat % 8 ≤ i.cls.toNat → (1, i.num.toNat) ∈ t.droverIrq) ∧
        (i.cls = 1 → i.fold = some f → s.running f = true → (t.fold f).fncnt = satInc (s.fold f).fncnt ∧
          (t.fold f).fninc = BitVec.ofNat 32 (i.src.toNat * 2 ^ 24 + 2 ^ 16 + i.num.toNat)) ∧
        (i.cls = 4 → i.fold = some f → s.running f = true → (t.fold f).phase = .safe ∧
          ∀ k < 8, s.outOf f k = true → (t.outPair k).on = false) ∧
        (5 ≤ i.cls.toNat → i.cls.toNat ≤ 6 → t.fm.dsafe = true ∧ t.fm.nsafe = true ∧ ∀ k < 8, (t.outPair k).on = false)) ∧
    (∀ x, s.fm.current = some x → s.fm.best = some i → i.cls ≤ x.cls → exec .reactionBegin s = .next s) ∧
    (s.fm.current = none → exec .reactionComplete s = .next s) ∧
    (s.fm.current = some i → i ∈ s.fm.queue → (∀ x ∈ s.fm.queue, x.ord = i.ord → x = i) → s.fm.extra = none →
      (i.cls.toNat ≤ 3 → ∃ t, exec .reactionComplete s = .next t ∧ t.fm.cur = none ∧
        (i.windowOpen s.clk.fc = true → { i with done := true } ∈ t.fm.queue) ∧
        (i.windowOpen s.clk.fc = false → ∀ x ∈ t.fm.queue, x.ord ≠ i.ord)) ∧
      (i.cls = 4 → i.safed = true → i.fold = some f → (s.fold f).phase = .safe → ∃ t, exec .reactionComplete s = .next t ∧
        (t.fold f).held = [] ∧ (t.fold f).events = [] ∧ (∀ y ∈ s.foldYokes f, (t.yoke y).run = .idle)) ∧
      (i.cls = 4 → i.safed = false → ∃ t, exec .reactionComplete s = .next t ∧ t.folds = s.folds ∧ t.yokes = s.yokes ∧
        t.spans = s.spans) ∧
      (i.cls = 5 → ∃ t, exec .reactionComplete s = .next t ∧ ∀ g, (t.fold g).phase ≠ .running) ∧
      (i.cls = 6 → ∃ t, exec .reactionComplete s = .next t ∧ t.fm.nsafe = true ∧ (∀ g, (t.fold g).phase = .empty) ∧
        t.reg rRstcause 0 = BitVec.ofNat 32 (2 ^ 31 + i.src.toNat * 256 + 4) ∧ t.aon = s.aon)) ∧
    (i ∈ s.fm.queue → i.done = true → i.openFc + 4095 < s.clk.fc → (∀ x ∈ s.fm.queue, x.num = i.num → x = i) →
      (∀ x ∈ s.fm.queue, x.ord = i.ord → x = i) →
      ∃ t, exec (.incidentWindowClose i.num) s = .next t ∧ t.fm.queue = s.fm.queue.filter (fun x => x.ord != i.ord)) ∧
    ((∀ x ∈ s.fm.queue, x.done = false ∨ s.clk.fc ≤ x.openFc + 4095) → exec (.incidentWindowClose i.num) s = .next s) ∧
    -- requests and registers
    (s.firmware = true → reqCls = 7 → ∃ t q, exec (.fmRequest v) s = .next t ∧ t.reports = s.reports ++ [q] ∧ q.src = 0x0E ∧ t.fm = s.fm) ∧
    (s.firmware = true → reqCls = 6 → v.toNat % 2 ^ 16 ≠ 0x5A06 → exec (.fmRequest v) s = .next s) ∧
    (s.firmware = true → reqCls < 6 ∨ reqCls = 6 ∧ v.toNat % 2 ^ 16 = 0x5A06 → s.fm.queue = [] →
      ∃ t n, exec (.fmRequest v) s = .next t ∧ t.fm.queue = [n] ∧ n.src = 0x2C ∧ n.cls.toNat = reqCls ∧
        n.detail.toNat = v.toNat % 2 ^ 16 ∧ (bit v 27 = true → n.fold = some (Fin.ofNat 16 (v.toNat / 2 ^ 28))) ∧
        (bit v 27 = false → n.fold = none)) ∧
    (s.firmware = true → s.fm.dsafe = false → s.sec.lc ≠ lcOpened → exec .nsafeRelease s =
      .next { s with fm := { s.fm with nsafe := false } }) ∧
    (s.firmware = false ∨ s.fm.dsafe = true ∨ s.sec.lc = lcOpened → exec .nsafeRelease s = .next s) ∧
    (bit (s.reg rFmCtl 1) 31 = true ∨ src = 0 ∨ 0x2D < src.toNat → exec (.sourceClassWrite c v) s = .next s) ∧
    (s.firmware = true → bit (s.reg rFmCtl 1) 31 = false → 1 ≤ src.toNat → src.toNat ≤ 0x2D →
      (srcMin src ≤ cls → cls ≠ 7 → ∃ t, exec (.sourceClassWrite c v) s = .next t ∧ held t cls ∧
        bit (t.reg (rSrccfg src) (srccfgReset src)) 8 = bit v 8 ∧ t.reports = s.reports) ∧
      (cls < srcMin src ∨ cls = 7 → ∃ t q, exec (.sourceClassWrite c v) s = .next t ∧
        held t ((s.srccfg src).toNat % 8) ∧ t.reports = s.reports ++ [q] ∧ q.src = 0x0E))

/-- R449 to R460, R462 to R465: the fold watchdog warns once at WARN and at 0 stops and reports 0x14; its service reloads it and a
wrong value counts as an expiry; the two keys disable it unless locked. The AON watchdog sets EXP and reports 0x29 at its first
expiry, forces C6 at the second, is served by its value, stopped by its keys, and its reset count cleared. The recorder arms,
captures from a trigger, counts missed triggers and takes marks.

(The state in which a wrong value counts and what RSTCAUSE holds are read by inference: log entries 28, 31 and 38.) -/
def Obligations.WatchdogsAndRecorderFollowTheirRules : Prop :=
  ∀ (s : State) (f : FoldId) (y : YokeId) (r : Gpr) (v : Word),
    let fo := s.fold f
    let k := s.yoke y
    let c := k.lead
    let w := c.rd r
    let cfg := s.reg (rFwdcfg f) 0
    let period := v.toNat / 2 ^ 15 % 2 ^ 15
    let warn := v.toNat % 2 ^ 14
    let setTo := cfg.toNat % 2 ^ 14
    let bt := s.clk.bt
    let ran := s.clk.time / 1000 - fo.wdFrom
    let done (t : State) : Prop := t.yoke y = (s.collapsed y (c.step 4)).yoke y ∧ t.mem = s.mem
    let reported (t : State) (src : Byte) : Prop := ∃ q ∈ t.reports, q.src = src
    let ctl := s.reg rFrCtl frCtlReset
    let pre := 4096 * (v.toNat % 2 ^ 4)
    -- fold watchdogs
    (s.power.main = true →
      (s.firmware = true → bit v 31 = true ∧ period = 0 ∨ warn ≠ 0 ∧ period ≤ warn → ∃ t q, exec (.fwdcfgWrite f v) s = .next t ∧
        t.reg (rFwdcfg f) 0 = cfg ∧ t.reports = s.reports ++ [q] ∧ q.src = 0x0E ∧ t.folds = s.folds) ∧
      (s.firmware = true → ¬ (bit v 31 = true ∧ period = 0) → ¬ (warn ≠ 0 ∧ period ≤ warn) → ∃ t, exec (.fwdcfgWrite f v) s = .next t ∧
        bit (t.reg (rFwdcfg f) 0) 31 = bit v 31 ∧ bit (t.reg (rFwdcfg f) 0) 30 = (bit cfg 30 || bit v 30) ∧
        (t.reg (rFwdcfg f) 0).toNat / 2 ^ 15 % 2 ^ 15 = period ∧ (t.reg (rFwdcfg f) 0).toNat % 2 ^ 14 = warn ∧
        t.reports = s.reports ∧ (s.running f = false → t.folds = s.folds) ∧
        (s.running f = true → bit v 31 = true → bit cfg 31 = false → (t.fold f).wdRun = true ∧ (t.fold f).wdWrn = fo.wdWrn ∧
          t.wdRem f = period) ∧
        (s.running f = true → bit v 31 = false → (t.fold f).wdRun = false ∧ t.wdRem f = s.wdRem f)) ∧
      (fo.wdRun = true → fo.wdPaused = false → fo.wdWrn = false → setTo ≠ 0 → fo.wdVal < ran + setTo → (∀ e ∈ fo.events, e.vec ≠ 0x0B) →
        ∃ t e, exec (.foldWatchdogWarn f) s = .next t ∧ (t.fold f).wdWrn = true ∧ (t.fold f).events = fo.events ++ [e] ∧
          e.vec = 0x0B ∧ e.syn = BitVec.ofNat 32 setTo ∧ t.reports = s.reports) ∧
      (fo.wdRun = false ∨ fo.wdPaused = true ∨ fo.wdWrn = true ∨ setTo = 0 ∨ ran + setTo ≤ fo.wdVal →
        exec (.foldWatchdogWarn f) s = .next s) ∧
      (fo.wdRun = true → fo.wdPaused = false → fo.wdVal < ran → ∃ t, exec (.foldWatchdogExpiry f) s = .next t ∧
        (t.fold f).wdRun = false ∧ ∃ q, t.reports = s.reports ++ [q] ∧ q.src = 0x14 ∧ q.kind = .fold ∧ q.region = f.val) ∧
      (fo.wdRun = false ∨ fo.wdPaused = true ∨ ran ≤ fo.wdVal → exec (.foldWatchdogExpiry f) s = .next s)) ∧
    (s.foldOf y = some f → s.Calm y →
      (c.ring.toNat ≤ 2 → w = 0x6C3A95D1 → ∃ t, exec (.foldWatchdogService y r) s = .next t ∧ done t ∧ t.reports = s.reports ∧
        (t.fold f).wdWrn = false ∧ (fo.wdRun = true → fo.wdPaused = false → t.wdRem f = cfg.toNat / 2 ^ 15 % 2 ^ 15)) ∧
      (c.ring.toNat ≤ 2 → w ≠ 0x6C3A95D1 → ∃ t, exec (.foldWatchdogService y r) s = .next t ∧ done t ∧
        (t.fold f).wdRun = false ∧ reported t 0x14) ∧
      (c.ring = 0 → bit cfg 30 = false → fo.wdKeyed = true → w = 0x0000E530 → ∃ t, exec (.foldWatchdogKey y r) s = .next t ∧ done t ∧
        (t.fold f).wdRun = false ∧ bit (t.reg (rFwdcfg f) 0) 31 = false) ∧
      (c.ring = 0 → bit cfg 30 = false → fo.wdKeyed = false ∨ w ≠ 0x0000E530 → ∃ t, exec (.foldWatchdogKey y r) s = .next t ∧ done t ∧
        (t.fold f).wdRun = fo.wdRun ∧ ((t.fold f).wdKeyed = true ↔ w = 0x00001ACF) ∧ t.regs = s.regs) ∧
      (c.ring = 0 → bit cfg 30 = true → exec (.foldWatchdogKey y r) s = .next (s.collapsed y (c.step 4))) ∧
      (c.ring = 0 → ∃ t, exec (.foldWatchdogLock y r) s = .next t ∧ done t ∧
        bit (t.reg (rFwdcfg f) 0) 30 = (bit cfg 30 || bit w 30) ∧ bit (t.reg (rFwdcfg f) 0) 31 = bit cfg 31 ∧ t.folds = s.folds)) ∧
    -- the AON watchdog
    (s.power.main = true →
      (s.firmware = true → s.aon.en = false → ∃ t, exec (.aonWatchdogStart v) s = .next t ∧ t.aon.en = true ∧ t.aon.val = s.aon.val ∧ t.aon.since = bt ∧
        t.aon.period = (if s.aon.lock = true ∨ v.toNat % 2 ^ 24 = 0 then s.aon.period else v.toNat % 2 ^ 24)) ∧
      (s.firmware = true → v = 0x6C3A95D1 → ∃ t, exec (.aonWatchdogService v) s = .next t ∧ t.aon.exp = false ∧ t.aon.val = s.aon.period ∧
        t.aon.since = bt ∧ t.reports = s.reports) ∧
      (s.aon.en = true → s.aon.exp = false → s.aon.val < bt - s.aon.since → ∃ t, exec .aonWatchdogExpiry s = .next t ∧
        t.aon.exp = true ∧ t.aon.val = s.aon.period ∧ t.aon.since = s.aon.since + s.aon.val ∧ t.aon.en = true ∧ reported t 0x29) ∧
      (s.firmware = true → v ≠ 0x6C3A95D1 →
        (s.aon.exp = false → ∃ t, exec (.aonWatchdogService v) s = .next t ∧ t.aon.exp = true ∧ t.aon.en = s.aon.en ∧ reported t 0x29) ∧
        (s.aon.exp = true → ∃ t, exec (.aonWatchdogService v) s = .next t ∧ t.aon.count = satInc s.aon.count ∧
          t.aon.en = s.aon.en ∧ reported t 0x2A)) ∧
      (s.aon.en = true → s.aon.exp = true → s.aon.val < bt - s.aon.since → ∃ t, exec .aonWatchdogExpiry s = .next t ∧
        t.aon.count = satInc s.aon.count ∧ reported t 0x2A) ∧
      (s.aon.en = false ∨ bt - s.aon.since ≤ s.aon.val → exec .aonWatchdogExpiry s = .next s) ∧
      (s.aon.hwstart = true ∨ s.aon.lock = true → exec (.aonWatchdogKey v) s = .next s) ∧
      (s.firmware = true → s.aon.hwstart = false → s.aon.lock = false →
        (s.aon.keyed = true → v.toNat % 2 ^ 16 = 0xE530 → ∃ t, exec (.aonWatchdogKey v) s = .next t ∧ t.aon.en = false ∧
          t.aon.exp = false ∧ t.aon.val = s.aonRem) ∧
        (s.aon.keyed = false ∨ v.toNat % 2 ^ 16 ≠ 0xE530 → ∃ t, exec (.aonWatchdogKey v) s = .next t ∧ t.aon.en = s.aon.en ∧
          (t.aon.keyed = true ↔ v.toNat % 2 ^ 16 = 0x1ACF))) ∧
      (s.firmware = true → exec (.aonWdcountClear v) s = .next { s with aon := { s.aon with count := 0 } }) ∧
    -- the recorder
      (s.firmware = true → ∃ t, exec (.recorderArm v) s = .next t ∧ t.fr.state = .arming ∧ t.fr.armFc = s.clk.fc ∧ t.fr.precnt = 0 ∧ t.fr.postcnt = 0 ∧
        t.fr.sram = s.fr.sram) ∧
      (s.fr.state = .arming → s.fr.armFc + 1024 ≤ s.clk.fc → ∃ t, exec .recorderArmed s = .next t ∧ t.fr.state = .armed ∧
        t.fr.written = 0) ∧
      (s.fr.state ≠ .arming ∨ s.clk.fc < s.fr.armFc + 1024 → exec .recorderArmed s = .next s) ∧
      (s.firmware = true → s.fr.state = .armed → ∃ t, exec (.recorderTrigger v) s = .next t ∧ t.fr.state = .capturing ∧ t.fr.trigIdx = s.fr.wptr ∧
        t.fr.precnt = min pre s.fr.written ∧ t.fr.postcnt = 1 ∧ t.fr.ttime = s.clk.time ∧
        kget t.fr.sram [] s.fr.wptr = plainRecord s.clk.time 8 0) ∧
      (s.firmware = true → s.fr.state ≠ .armed → ∃ t, exec (.recorderTrigger v) s = .next t ∧ t.fr.missed = satInc s.fr.missed ∧
        t.fr.missedValid = true ∧ t.fr.mtime = if s.fr.missedValid then s.fr.mtime else s.clk.time) ∧
      (s.firmware = true → s.fr.state = .armed → ∃ t, exec (.recorderMark v) s = .next t ∧ kget t.fr.sram [] s.fr.wptr = plainRecord s.clk.time 8 v ∧
        t.fr.wptr = (s.fr.wptr + 1) % 65536 ∧ t.fr.state = .armed) ∧
      (s.firmware = true → s.fr.state = .capturing → ∃ t, exec (.recorderMark v) s = .next t ∧ kget t.fr.sram [] s.fr.wptr = plainRecord s.clk.time 8 v ∧
        t.fr.postcnt = s.fr.postcnt + 1 ∧
        (t.fr.state = .captured ↔ 65536 - 4096 * (ctl.toNat % 2 ^ 4) ≤ s.fr.postcnt + 1)) ∧
      (s.firmware = true → s.fr.state = .arming ∨ s.fr.state = .captured → ∃ t, exec (.recorderMark v) s = .next t ∧ t.fr.sram = s.fr.sram ∧
        t.fr.drop = satInc s.fr.drop))

/-- R474, R475, R479 to R482, R489 to R491, R493, R614: at link up the claims are resolved into roles, a Follow device without
folds loads the Lead's time, and a Lead that yields sets its folds to XFER; an intact flit acknowledges, and the next in sequence is
taken and returns credits; a damaged one is discarded and counted; unacknowledged flits are sent again after 1 µs; heartbeats go out
once in a slot cycle and carry role, health and time, and a round trip of time messages gives the offset that steers a Follow device;
on loss of the link or a detach every fold in CROSS becomes SINGLE and a Follow device LEAD.

(The bytes of messages and of flits and the counting of credits and resends are this model's choice: log entries 43
and 81.) -/
def Obligations.TheTwinLinkResolvesRolesAndIsLost : Prop :=
  ∀ (s : State) (h : Heartbeat) (x : Flit) (errs : Nat) (lanes : Bool) (v : Word) (f : FoldId),
    let now := s.clk.time
    let mode (t : State) (g : FoldId) : BitVec 3 := (t.twinFold g).mode
    let reported (t : State) (src : Byte) : Prop := ∃ q ∈ t.reports, q.src = src
    let en := bit (s.reg 0x0C0000 0) 0
    let claim := bit (s.reg 0x0C0000 0) 1
    let hdr : Byte := BitVec.ofNat 8 (x.vc.val + x.creditVc.val * 4 + x.credits.toNat * 16)
    let intact : Prop := markGood x.mark = true ∧ errs ≤ 8 ∧ crc32c ([hdr, x.seq, x.ack] ++ x.payload) = x.crc
    let next : Prop := x.seq = s.twin.recvSeq + 1 ∧ s.twin.buffered x.vc < twinBuffers[x.vc]
    let again (p : Nat) (u : SentFlit) : WireMsg :=
      .flit (flitBytes (markByte p) (flitBody u.vc u.creditVc u.credits u.seq s.twin.recvSeq u.payload))
    let off : Option Int := h.echo.map fun e => (h.time : Int) + ((now - e.1 - e.2) / 2 : Nat) - now
    let cnt (t : State) : Nat := (t.reg 0x0C0020 0).toNat
    let lost (t : State) : Prop := (∀ g, mode t g = if mode s g = 1 then 2 else mode s g) ∧ t.twin.link = (if en then 1 else 0) ∧
      reported t 0x1C ∧ t.sec.twinOk = false ∧ t.twin.role = (if s.twin.role = 2 then 1 else s.twin.role) ∧ t.clk.time = now
    s.power.main = true → NoSteppedWait s →
    -- link up
    (en = false ∨ s.twin.link = 2 → exec (.twinLinkUp h) s = .next s) ∧
    (en = true → s.twin.link ≠ 2 → h.sideB = s.sideB →
      exec (.twinLinkUp h) s = .next { s with twin := { s.twin with link := 1, sideErr := true } }) ∧
    (en = true → s.twin.link ≠ 2 → h.sideB ≠ s.sideB → ∃ t, exec (.twinLinkUp h) s = .next t ∧ t.twin.link = 2 ∧
      t.twin.sideErr = false ∧ t.twin.phealth = h.hscore ∧ t.twin.puid = h.uid ∧ reported t 0x1C ∧
      (claim = true → h.claim = false → t.twin.role = 1) ∧ (claim = false → h.claim = true → t.twin.role = 2) ∧
      (claim = false → h.claim = false → t.twin.role = 0) ∧
      (claim = true → h.claim = true → t.twin.role =
        if h.hscore < s.hscore then 2 else if s.hscore < h.hscore then 1 else if s.sideB then 2 else 1) ∧
      ((∀ g, s.running g = false) → t.clk.time = if t.twin.role = 2 then h.time else now) ∧
      (s.running f = true → t.clk.time = now ∧
        (s.twin.role = 1 → h.role = 1 → t.twin.role = 2 → mode s f ≠ 1 → mode t f = 3 ∧ (t.twinFold f).authTo = some 0))) ∧
    -- flits
    (s.twin.link ≠ 2 → exec (.twinFlitReceive x errs) s = .next s) ∧
    (s.twin.link = 2 → ¬ intact → ∃ t, exec (.twinFlitReceive x errs) s = .next t ∧ t.twin = s.twin ∧
      cnt t / 2 ^ 16 = min 0xFFFF (cnt s / 2 ^ 16 + 1) ∧ cnt t % 2 ^ 16 = cnt s % 2 ^ 16) ∧
    (s.twin.link = 2 → intact → s.twin.waiting = [] → s.twin.detach = false →
      ∃ t got, exec (.twinFlitReceive x errs) s = .next t ∧ t.twin.lastFlit = now ∧
      (next → ∀ c : Fin 4, t.twin.credits[c] = s.twin.credits[c] + if c = x.creditVc then x.credits.toNat else 0) ∧
      (¬ next → t.twin.credits = s.twin.credits) ∧
      ((∀ u ∈ s.twin.unacked, u.seq ≠ x.ack) → t.twin.unacked = s.twin.unacked) ∧
      (∀ l u m, s.twin.unacked = l ++ u :: m → u.seq = x.ack → (∀ w ∈ l, w.seq ≠ x.ack) → t.twin.unacked = m) ∧
      (¬ next → t.twin.recvSeq = s.twin.recvSeq ∧ got = []) ∧
      (next → t.twin.recvSeq = x.seq ∧ got = if x.vc.val < 2 then [(x.vc, x.payload)] else []) ∧
      t.twin.firm = s.twin.firm ++ (s.twin.inbox ++ got).filter (fun m => m.1 == 1 || t.twin.credits[(1 : Fin 4)] != 0) ∧
      t.twin.inbox = (s.twin.inbox ++ got).filter (fun m => !(m.1 == 1 || t.twin.credits[(1 : Fin 4)] != 0)) ∧
      ((∀ m ∈ s.twin.inbox, m.1.val < 2) → next → 2 ≤ x.vc.val → t.twin.owed[x.vc] = s.twin.owed[x.vc] + 1) ∧ t.regs = s.regs) ∧
    (∀ u l, s.twin.unacked = u :: l → s.twin.link = 2 → u.time + 1000 ≤ now → ∃ t, exec .flitResend s = .next t ∧
      t.wire = s.wire ++ (u :: l).zipIdx.map (fun w => again (max s.twin.evenAt ((s.slotPos + 1) / 2 * 2) + 2 * w.2) w.1) ∧ (∀ w ∈ t.twin.unacked, w.time = now) ∧
      cnt t % 2 ^ 16 = min 0xFFFF (cnt s % 2 ^ 16 + 1) ∧ cnt t / 2 ^ 16 = cnt s / 2 ^ 16) ∧
    (s.twin.link ≠ 2 ∨ (∀ u ∈ s.twin.unacked, now < u.time + 1000) → exec .flitResend s = .next s) ∧
    -- heartbeats
    (s.twin.link ≠ 2 ∨ now < s.twin.beatAt + 1165 → exec .twinHeartbeat s = .next s) ∧
    (s.twin.link = 2 → s.twin.beatAt + 1165 ≤ now → s.twin.waiting = [] → 1 ≤ s.twin.credits[(2 : Fin 4)] →
      s.twin.unacked.length < 64 → ∃ t mark v n l, exec .twinHeartbeat s = .next t ∧ t.twin.beatAt = now ∧
        t.wire = s.wire ++ .flit (flitBytes mark (flitBody 2 v n s.twin.sendSeq s.twin.recvSeq
          (payloadOf ([1, 0xFF] ++ leBytes s.beatBytes.length 2 ++ s.beatBytes)))) :: l) ∧
    (s.twin.link ≠ 2 → exec (.twinHeartbeatReceive h) s = .next s) ∧
    (s.twin.link = 2 → ∃ t, exec (.twinHeartbeatReceive h) s = .next t ∧ t.twin.phealth = h.hscore ∧ t.twin.puid = h.uid ∧
      t.twin.pdsafe = h.dsafe ∧ (t.twin.tlock = true ↔ ∃ o, off = some o ∧ -100 ≤ o ∧ o ≤ 100) ∧
      (∀ o, off = some o → -8388608 ≤ o → o ≤ 8388607 → t.twin.tofs.toInt = o) ∧ t.twin.beatFrom = some (h.time, now) ∧
      (h.dsafe = true → s.twin.pdsafe = false → reported t 0x1C) ∧
      (h.modes.getD f.val 0 = 2 → (s.twinFold f).crossFrom * s.epochNs f < h.time → mode s f = 1 → mode t f = 2) ∧
      (h.modes.getD f.val 0 ≠ 2 ∨ h.time ≤ (s.twinFold f).crossFrom * s.epochNs f → mode t f = mode s f) ∧ t.clk.time = now ∧
      (s.twin.role ≠ 2 ∨ off = none → t.clk = s.clk) ∧
      (∀ o, s.twin.role = 2 → off = some o → let r := (t.reg 0x140010 0).toInt
        r ≤ 500000 ∧ -500000 ≤ r ∧ (0 < o → 0 ≤ r) ∧ (o < 0 → r ≤ 0) ∧ (o = 0 → r = 0) ∧ t.clk.corrAt = now)) ∧
    -- loss and detach
    (s.twin.link ≠ 2 ∨ lanes = false ∧ now < s.twin.lastFlit + 10000 → exec (.twinLinkLoss lanes) s = .next s) ∧
    (s.twin.link = 2 → lanes = true ∨ s.twin.lastFlit + 10000 ≤ now → ∃ t, exec (.twinLinkLoss lanes) s = .next t ∧ lost t) ∧
    (s.twin.link ≠ 2 → exec .twinDetachReceive s = .next s) ∧
    (s.twin.link = 2 → ∃ t, exec .twinDetachReceive s = .next t ∧ lost t) ∧
    (s.firmware = true → ∃ t, exec (.twinDetach v) s = .next t ∧ (∀ g, s.running g = true → mode t g = 2) ∧
      (t.reg 0x0C0000 0).toNat = v.toNat % 4 ∧ t.clk.time = now ∧
      (s.twin.link = 2 → s.twin.waiting = [] → 1 ≤ s.twin.credits[(2 : Fin 4)] → s.twin.unacked.length < 64 → t.twin.link = 0 ∧
        t.twin.role = (if s.twin.role = 2 then 1 else s.twin.role) ∧ t.sec.twinOk = false) ∧
      (s.twin.link = 2 → s.twin.credits[(2 : Fin 4)] = 0 ∨ 64 ≤ s.twin.unacked.length → t.twin.link = 2 ∧ t.twin.detach = true) ∧
      (s.twin.link ≠ 2 → t.twin.link = 0 ∧ t.twin.role = s.twin.role)) ∧
    (s.firmware = true → exec (.twinokWrite v) s = .next (if bit v 0 then { s with sec := { s.sec with twinOk := true } } else s))

/-- R483 to R488, R494 to R496, R499, R318, Table 13.4: a mode write is held for its boundary, takes effect at once or is
refused; FWDMAX is refused above 8 KiB in all. Digests, seals and forwarded entries of a fold in agreement are kept, and what does
not fit under FWDMAX is counted; a signature record is compared with the device's own of the same epoch. A transfer sends pages in
bulk, delta and cut, then the image, once the STATE slots have taken the part before, and a received page is written to the fold's
memory.

(Which writes wait for their boundary is read by inference, the bytes of messages and of an image are this model's
choice: log entries 42, 43 and 81.) -/
def Obligations.TwinModesAgreementAndTransferFollowTheirRules : Prop :=
  ∀ (s : State) (f : FoldId) (m : BitVec 3) (n : BitVec 10) (d : Digest) (e : Nat) (pairs : KMap Nat FrozenPair) (dest : Half)
    (bytes content : List Byte) (r : SigRecord) (sp : SpanId) (rec : LogRec) (rs : List LogRec) (img : FoldImage) (ix page : Nat) (g : GroupId),
    let tf := s.twinFold f
    let with_ (t : TwinFold) : State := s.setTwinFold f t
    let refused (t : State) : Prop := (∃ q, t.reports = s.reports ++ [q] ∧ q.src = 0x0E) ∧ t.twins = s.twins ∧ t.regs = s.regs
    let reported (t : State) (src : Byte) : Prop := ∃ q ∈ t.reports, q.src = src
    let passes : Prop := s.twin.link = 2 ∧ s.sec.twinOk = true
    let joins : Prop := passes ∧ (tf.mode = 1 ∨ tf.mode = 3 ∨ tf.mode = 4 ∨ tf.next = some 1 ∨ tf.mode = 2 ∧
      ∃ p, s.twin.partner = some p ∧ (p.modes.getD f.val 0 = 3 ∨ p.modes.getD f.val 0 = 4))
    let sends : Prop := passes ∧ s.running f = true ∧ tf.mode = 2 ∧ s.stateSlots f ≠ 0 ∧
      ∃ p, s.twin.partner = some p ∧ p.modes.getD f.val 0 = 3
    let free : Prop := ∀ w ∈ s.twin.waiting, w.fold ≠ some f ∨ w.kind ≠ 6 ∧ w.kind ≠ 7
    let may : Prop := (s.twin.role ≠ 0 ∧ s.twin.tlock = true ∧ passes) ∧ (tf.mode = 3 → tf.cutDone = true)
    let sum := ((List.finRange 16).map fun g => if g = f then n.toNat else (s.reg (rFctl g) 0).toNat % 1024).sum
    let stat (t : State) : Nat := (t.reg (0x0C0180 + 4 * f.val) 0).toNat
    let place (a : Nat) : Prop := ∃ t, exec (.twinStateReceive f (.page .scratch ix page bytes)) s = .next t ∧
      ∀ b, memGet t.mem b = if a ≤ b ∧ b < a + 4096 then bytes.getD (b - a) 0 else memGet s.mem b
    let placeG (a : Nat) : Prop := ∃ t, exec (.twinStateReceive f (.page .group ix page bytes)) s = .next t ∧
      ∀ b, memGet t.mem b = if a ≤ b ∧ b < a + 4096 then bytes.getD (b - a) 0 else memGet s.mem b
    s.power.main = true → NoSteppedWait s →
    -- modes
    (s.firmware = true → s.running f = false → (m = 0 → exec (.twinModeWrite f m) s = .next s) ∧
      (m ≠ 0 → ∃ t, exec (.twinModeWrite f m) s = .next t ∧ refused t)) ∧
    (s.firmware = true → s.running f = true →
      (m = tf.mode → exec (.twinModeWrite f m) s = .next (with_ { tf with next := none })) ∧
      (m ≠ tf.mode →
        (m = 0 → tf.mode = 2 → exec (.twinModeWrite f m) s = .next (with_ { tf with mode := 0, next := none })) ∧
        (m = 1 → tf.mode ≠ 4 → may → exec (.twinModeWrite f m) s = .next (with_ { tf with next := some 1 })) ∧
        (m = 2 ∨ m = 4 → exec (.twinModeWrite f m) s = .next (with_ { tf with next := some m })) ∧
        (m = 3 → ∃ t, exec (.twinModeWrite f m) s = .next t ∧ (t.twinFold f).mode = 3 ∧ (t.twinFold f).authTo = some 0 ∧
          (t.twinFold f).cutDone = false ∧ (tf.mode ≠ 1 → t.reports = s.reports) ∧ (tf.mode = 1 → reported t 0x1C)) ∧
        (m = 0 ∧ tf.mode ≠ 2 ∨ m = 1 ∧ (tf.mode = 4 ∨ ¬ may) ∨ 5 ≤ m.toNat →
          ∃ t, exec (.twinModeWrite f m) s = .next t ∧ refused t))) ∧
    (s.firmware = true → sum * 16 ≤ 8192 → ∃ t, exec (.fwdmaxWrite f n) s = .next t ∧ (t.reg (0x0C0100 + 4 * f.val) 0).toNat = n.toNat ∧
      t.twins = s.twins ∧ t.reports = s.reports) ∧
    (s.firmware = true → 8192 < sum * 16 → ∃ t, exec (.fwdmaxWrite f n) s = .next t ∧ refused t) ∧
    -- input agreement
    (joins → exec (.twinDigestReceive f d) s = .next (with_ { tf with theirs := tf.theirs ++ [(0, d)] }) ∧
      exec (.twinForwardReceive f dest bytes content) s = .next (with_ { tf with fwd := tf.fwd ++ [(dest, ⟨0, bytes, content⟩)] }) ∧
      ∃ t k, exec (.twinSealReceive f e pairs) s = .next t ∧ (t.twinFold f).sealed = some (e, pairs) ∧
        (t.twinFold f).theirs = tf.theirs.map (fun q => if q.1 = 0 then (e + 1, q.2) else q) ∧
        (k = 0 → t.reports = s.reports) ∧
        (0 < k → reported t 0x1C ∧ stat t % 2 ^ 16 = min 0xFFFF (stat s % 2 ^ 16 + k)) ∧
        k = ((with_ { tf with sealed := some (e, pairs), theirs := (t.twinFold f).theirs }).agree f (e + 1)).left) ∧
    (¬ joins → exec (.twinDigestReceive f d) s = .next s ∧ exec (.twinForwardReceive f dest bytes content) s = .next s ∧
      exec (.twinSealReceive f e pairs) s = .next s) ∧
    -- signatures
    (passes → tf.mode = 1 → tf.crossFrom ≤ r.epoch.toNat → (∀ q ∈ tf.partner, q.epoch ≠ r.epoch) →
      ((∀ q ∈ tf.own, q.epoch ≠ r.epoch) →
        exec (.twinSignatureReceive f r) s = .next (with_ { tf with partner := tf.partner ++ [r] })) ∧
      ∀ q ∈ tf.own, q.epoch = r.epoch → (∀ z ∈ tf.own, z.epoch = r.epoch → z = q) →
        ∃ t, exec (.twinSignatureReceive f r) s = .next t ∧ (∀ z ∈ (t.twinFold f).own, z.epoch ≠ r.epoch) ∧
          (bit q.flags 1 = true ∨ bit r.flags 1 = true → t.reports = s.reports ∧ (t.twinFold f).disagreed = tf.disagreed) ∧
          (bit q.flags 1 = false → bit r.flags 1 = false →
            let same : Prop := q.sig = r.sig ∧ q.nsigned = r.nsigned ∧ bit q.flags 0 = bit r.flags 0
            (same → t.reports = s.reports ∧ (t.twinFold f).disagreed = false) ∧
            (¬ same → (t.twinFold f).disagreed = true ∧ reported t 0x1C ∧ stat t / 2 ^ 24 = min 0xFF (stat s / 2 ^ 24 + 1) ∧
              (tf.disagreed = true → ∃ z ∈ t.reports, z.src = 0x1D ∧ z.kind = .fold ∧ z.region = f.val)))) ∧
    (¬ passes ∨ tf.mode ≠ 1 ∨ r.epoch.toNat < tf.crossFrom → exec (.twinSignatureReceive f r) s = .next s) ∧
    -- transfer
    (¬ sends ∨ ¬ free → exec (.twinPageSend f) s = .next s) ∧
    (sends → free →
      (∀ p l, tf.phase = .none → s.foldPages f = p :: l → ∃ t, exec (.twinPageSend f) s = .next t ∧
        (t.twinFold f).phase = .bulk l ∧ (t.twinFold f).sent = [p]) ∧
      (∀ p l, tf.phase = .bulk (p :: l) → ∃ t, exec (.twinPageSend f) s = .next t ∧ (t.twinFold f).phase = .bulk l ∧
        p ∈ (t.twinFold f).sent ∧
        (s.twin.waiting = [] → NoErrors s → s.retained (p * 4096) = false → (∀ j < 4096, s.wiping (p * 4096 + j) = false) →
          t.twin.waiting = stateFlits 6 f (s.pageName f p) (s.viewRead (p * 4096) 4096)) ∧
        (s.retained (p * 4096) = true → p ∈ (t.twinFold f).dirty ∧ t.twin = s.twin)) ∧
      (tf.phase = .bulk [] → exec (.twinPageSend f) s = .next (with_ { tf with phase := .delta tf.dirty, dirty := [] })) ∧
      (∀ p l, tf.phase = .delta (p :: l) → ∃ t, exec (.twinPageSend f) s = .next t ∧ (t.twinFold f).phase = .delta l) ∧
      (tf.phase = .delta [] → exec (.twinPageSend f) s = .next (with_ { tf with
        phase := if s.cutOpen f then .cut tf.dirty else .delta tf.dirty, dirty := [] })) ∧
      (∀ p l, tf.phase = .cut (p :: l) → s.cutOpen f = true → ∃ t, exec (.twinPageSend f) s = .next t ∧
        (t.twinFold f).phase = .cut l) ∧
      (tf.phase = .cut [] → s.cutOpen f = true → (∀ p l, tf.dirty = p :: l → exec (.twinPageSend f) s =
          .next (with_ { tf with phase := .cut (p :: l), dirty := [] })) ∧
        (tf.dirty = [] → s.twin.waiting = [] → ∃ t, exec (.twinPageSend f) s = .next t ∧
          (t.twinFold f).phase = .image (s.imageOf f) ∧ t.twin.waiting = stateFlits 7 f [] (s.imageOf f).bytes)) ∧
      (∀ sent, tf.phase = .image sent → s.cutOpen f = true →
        (tf.dirty = [] → s.imageOf f = sent → exec (.twinPageSend f) s = .next (with_ { tf with cutDone := true })) ∧
        (tf.dirty ≠ [] ∨ s.imageOf f ≠ sent → exec (.twinPageSend f) s =
          .next (with_ { tf with phase := .cut tf.dirty, dirty := [], cutDone := false }))) ∧
      (∀ sent, tf.phase = .image sent → s.cutOpen f = false → tf.cutDone = false →
        exec (.twinPageSend f) s = .next (with_ { tf with phase := .delta tf.dirty, dirty := [] })) ∧
      (∀ l, tf.phase = .cut l → s.cutOpen f = false →
        exec (.twinPageSend f) s = .next (with_ { tf with phase := .delta (l ++ tf.dirty), dirty := [] }))) ∧
    (¬ passes ∨ tf.mode ≠ 3 → ∀ p, exec (.twinStateReceive f p) s = .next s) ∧
    (passes → tf.mode = 3 →
      exec (.twinStateReceive f (.image img)) s = .next (with_ { tf with image := some img, cutDone := true, recv := true }) ∧
      (Memory.wf s.mem = true → NoErrors s → bytes.length = 4096 →
        ((s.foldSpans f)[ix]? = some sp → (∀ j < 4096, s.wiping (physScratch sp (page % 512 * 4096) + j) = false) →
          place (0x0100000000 + sp.val * 0x200000 + page % 512 * 4096)) ∧
        ((s.foldGroups f)[ix]? = some g → (∀ j < 4096, s.wiping (physGroup g (page % 256 * 4096) + j) = false) →
          placeG (0x0200000000 + g.val * 0x100000 + page % 256 * 4096)))) ∧
    exec (.twinLogReceive sp []) s = .next s ∧
    (passes → s.sfm sp = 2 → exec (.twinLogReceive sp (rec :: rs)) s = exec (.twinLogReceive sp rs)
      { s.setSpan sp { (s.span sp) with follow := (s.span sp).follow ++ [(s.stamp, rec)] } with stamp := s.stamp + 1 }) ∧
    (¬ passes ∨ s.sfm sp ≠ 2 → exec (.twinLogReceive sp rs) s = .next s)

/-- R508, R516, R517, R421, R550, Table 11.8: LDQ of RXDATA pops 16 bytes of the head entry or sets UNDER, LDW of RXSTAT
returns the counts and clears UNDER and LOST, of a queue pair of a port, of the fold's function and of a cross-fold channel that
the fold receives on. A queue the fold does not own raises 0x04; an LDQ to an unaligned register is illegal. -/
def Obligations.ReceiveQueuesPopAndReport : Prop :=
  ∀ (s : State) (y : YokeId) (f : FoldId) (d : Gpr) (p : PortId) (q : Fin 64) (x : Fin 256),
    let k := s.yoke y
    let c := k.lead
    let j : Nat := if p = 4 then 8 * f.val + q.val else q.val
    let w := s.queue p.val j
    let xq := s.xchQ x.val
    let own : Prop := if p = 4 then q.val < 8 else s.queueFold p.val q.val = some f
    let xown := (s.reg (0x020A00 + 4 * x.val) 0).toNat
    let ends : Prop := xown / 2 ^ 31 = 1 ∧ xown / 2 ^ 8 % 16 = f.val
    let popAt : Word := BitVec.ofNat 32 (0xF0000100 + 0x1000000 * p.val + 0x400 * q.val)
    let statAt : Word := BitVec.ofNat 32 (0xF0000110 + 0x1000000 * p.val + 0x400 * q.val)
    let xpopAt : Word := BitVec.ofNat 32 (0xF8000080 + 0x100 * x.val)
    let xstatAt : Word := BitVec.ofNat 32 (0xF8000090 + 0x100 * x.val)
    let sees (a : Word) (n : Nat) : Prop :=
      s.check f (spanOf y) c.ring a n Need.read = some (.io (a.toNat / 2 ^ 24) (a.toNat % 2 ^ 24))
    let got (t : State) (op : LoadOp) (v : QWord) : Prop :=
      t.yoke y = (s.collapsed y { c.loadOn op d v with pc := c.pc + 7 }).yoke y ∧ t.mem = s.mem ∧ t.regs = s.regs ∧ t.folds = s.folds
    let denied (i : Instr) (op : LoadOp) (a : Word) : Prop := exec i s = .next
      ((s.setYoke y ((s.going y).pushFailed (.load op d (.long a)) (loadOut a op.size .plain) .accessViolation [])).raise y 0x04 a
        (accessCode op.size false false false 0))
    let stat := w.under.toNat * 2 ^ 31 + (s.linkUp.contains p.val).toNat * 2 ^ 30 + min 16383 w.rx.length * 2 ^ 16 + w.lost.toNat
    s.foldOf y = some f → s.Calm y →
    (d.val % 4 ≠ 0 → exec (.queueRxPop y d p q) s = .next (s.illegal y) ∧ exec (.xchRecv y d x) s = .next (s.illegal y)) ∧
    (d.val % 4 = 0 → sees popAt 16 →
      (own → ∀ e l, w.rx = e :: l → ∃ t, exec (.queueRxPop y d p q) s = .next t ∧
        got t .q (BitVec.ofNat 128 (leValue (e.bytes.take 16))) ∧
        t.queue p.val j = { w with rx := if e.bytes.length ≤ 16 then l else { e with bytes := e.bytes.drop 16 } :: l }) ∧
      (own → w.rx = [] → ∃ t, exec (.queueRxPop y d p q) s = .next t ∧ got t .q 0 ∧ t.queue p.val j = { w with under := true }) ∧
      (¬ own → denied (.queueRxPop y d p q) .q popAt)) ∧
    (sees statAt 4 →
      (own → ∃ t, exec (.queueRxstatRead y d p q) s = .next t ∧ got t .w (BitVec.ofNat 128 stat) ∧
        t.queue p.val j = { w with under := false, lost := 0 }) ∧
      (¬ own → denied (.queueRxstatRead y d p q) .w statAt)) ∧
    (d.val % 4 = 0 → sees xpopAt 16 →
      (ends → ∀ e l, xq.items = e :: l → ∃ t, exec (.xchRecv y d x) s = .next t ∧ got t .q e ∧ t.xchQ x.val = { xq with items := l }) ∧
      (ends → xq.items = [] → ∃ t, exec (.xchRecv y d x) s = .next t ∧ got t .q 0 ∧ t.xchQ x.val = { xq with under := true }) ∧
      (¬ ends → denied (.xchRecv y d x) .q xpopAt)) ∧
    (sees xstatAt 4 →
      (ends → xq.items.length < 2 ^ 15 → ∃ t, exec (.xchRxstatRead y d x) s = .next t ∧
        got t .w (BitVec.ofNat 128 (xq.under.toNat * 2 ^ 31 + xq.items.length * 2 ^ 16 + xq.lost.toNat)) ∧
        t.xchQ x.val = { xq with under := false, lost := 0 }) ∧
      (¬ ends → denied (.xchRxstatRead y d x) .w xstatAt))

/-- R11, R417, R506, R507, R511 to R516, R526, R528 to R530, R541, R548, R552, R656: a received frame in error or that no filter takes is
counted in RXBAD, and one that passes waits in the queue of its filter, a safety PDU after its checks; a port sends the frames of
the highest open class, in isolation mode never through gates open for two folds, builds each as R511 states and steps through its gate list; LINKUP and LINKDOWN follow the link and a link
that goes down discards the records; a write of MODE takes the link down; a connection is committed or refused, and a silent
one raises STALE once.

(The layout of filter words is free, sequence numbers, held records, lower classes and mixed entries are read by
inference: log entries 2, 40, 71 and 82.) -/
def Obligations.EthernetPortsReceiveSendAndFollowTheirLink : Prop :=
  ∀ (s : State) (p : EthPort) (fr : List Byte) (f : FoldId) (q : Fin 64) (mode : BitVec 3) (v : Word) (n : Fin 4096) (r : TxRec)
    (l : List TxRec),
    let now := s.clk.time
    let at_ (off : Nat) : Nat := 0x0D0000 + p.val * 0x2000 + off
    let up : Prop := p.val ∈ s.linkUp
    let len := fr.length
    let body := fr.take (len - 4)
    let ty (i : Nat) : Nat := beValue ((body.drop i).take 2)
    let tagged : Prop := ty 12 = 0x8100
    let vid := if tagged then ty 14 % 4096 else 0
    let rest := if tagged then body.drop 16 else body.drop 12
    let intact : Prop := 64 ≤ len ∧ len ≤ 2000 ∧ ethFcs body = fr.drop (len - 4)
    let plain : Prop := ∀ i, i = 12 ∨ i = 16 ∧ tagged → ty i ≠ 0x8808 ∧ ty i ≠ 0x88A8 ∧ ty i ≠ 0x892F ∧ (i = 16 → ty i ≠ 0x8100)
    let words (i : Nat) : List Word := (List.range 4).map fun w => s.reg (rSfWord p.val i w) 0
    let hits (i : Nat) : Prop := Config.sfUsed (words i) = true ∧ Config.sfMac (words i) = beValue (body.take 6) ∧
      Config.sfVid (words i) = vid ∧ Config.sfGateOpen (words i) now = true
    let passed (i : Nat) : Prop := hits i ∧ (∀ m < i, ¬ hits m) ∧ rest.length - 2 ≤ Config.sfMaxSdu (words i) ∧
      Config.sfGreen s.freeN (words i) now len = true
    let bad (t : State) : Prop := t.reg (at_ 0x20) 0 = satInc (s.reg (at_ 0x20) 0) ∧ t.queues = s.queues ∧ t.conns = s.conns
    let cfg := s.reg (at_ (0x100 + 4 * q.val)) 0
    let entry (kind i : Nat) (content : List Byte) (e : RxEntry) : Prop := e.epoch = (now + 2000) / s.epochNs f ∧
      e.content = content ∧ ∃ z, (∀ b ∈ z, b = 0) ∧ z.length < 16 ∧ e.bytes.length % 16 = 0 ∧
        e.bytes = leBytes content.length 2 ++ [BitVec.ofNat 8 kind, 0] ++ leBytes i 2 ++ leBytes vid 2 ++ leBytes 0 8 ++ content ++ z
    let tx (t : State) (j : Nat) : List TxRec := (t.queue p.val j).tx
    let gcl := s.reg (at_ 0x608) 0
    let isolated : Prop := bit s.fmgrCtl 0 = true
    let gates := gcl.toNat / 2 ^ 16 % 512
    let cyc := max 1 (s.reg (at_ 0x60C) 0).toNat
    let base := (s.reg (at_ 0x610) 0).toNat + (s.reg (at_ 0x614) 0).toNat * 2 ^ 32
    let begin_ (t : Nat) : Nat := base + (t - base) / cyc * cyc
    let cur := (s.reg (at_ 0) 0).toNat % 8
    let new := if bit (s.reg (at_ 0) 0) 31 = true ∨ 6 ≤ v.toNat % 8 then cur else v.toNat % 8
    let down (t : State) : Prop := p.val ∉ t.linkUp ∧ (t.reg (at_ 4) 0).toNat = 0 ∧
      ∀ j < 64, tx t j = [] ∧ (t.queue p.val j).txdrop.toNat = min 255 ((s.queue p.val j).txdrop.toNat + (tx s j).length)
    let c := s.conn n.val
    let w0 := s.reg 0x110014 0 &&& 0xFFF0FFFF
    let w1 := s.reg 0x110018 0 &&& 0xFFFFFF00
    let port := w0.toNat / 2 ^ 26 % 8
    let qn := w0.toNat / 2 ^ 20 % 64
    let ownedBy : Option FoldId := if port < 4 then s.queueFold port qn else if port = 4 then some (Fin.ofNat 16 (qn / 8)) else none
    let clash : Prop := bit w0 30 = false ∧ ∃ e ∈ s.conns, e.1 ≠ n.val ∧ bit (s.conn e.1).w0 31 = true ∧ bit (s.conn e.1).w0 30 = false ∧
      (s.conn e.1).w0.toNat / 2 ^ 26 % 8 = port ∧ (s.conn e.1).w0.toNat % 2 ^ 16 = w0.toNat % 2 ^ 16 ∧
      (s.conn e.1).w1.toNat / 2 ^ 16 = w1.toNat / 2 ^ 16
    s.power.main = true →
    -- reception
    (¬ up → exec (.ethFrameReceive p fr) s = .next s ∧ exec (.ethFrameTransmit p) s = .next s ∧ exec (.ethLinkDown p) s = .next s) ∧
    (up → ¬ intact ∨ ¬ plain → ∃ t, exec (.ethFrameReceive p fr) s = .next t ∧ bad t) ∧
    (up → intact → plain → ∃ t, exec (.ethFrameReceive p fr) s = .next t ∧
      ((∀ i < 128, ¬ hits i) → bad t) ∧
      ∀ i < 128, passed i → Config.sfQueue (words i) = q →
        (∀ g, s.queueFold p.val q.val = some g → s.running g = false) → bad t) ∧
    (up → intact → plain → s.queueFold p.val q.val = some f → s.running f = true → bit cfg 31 = false → bit cfg 30 = false →
      ∃ t, exec (.ethFrameReceive p fr) s = .next t ∧ ∀ i < 128, passed i → Config.sfQueue (words i) = q →
        ∃ e, entry 1 i (body.take 12 ++ rest) e ∧
          t.queue p.val q.val = { s.queue p.val q.val with wait := (s.queue p.val q.val).wait ++ [e] }) ∧
    (up → intact → plain → s.queueFold p.val q.val = some f → s.running f = true → bit cfg 31 = true → bit cfg 30 = false →
      let pdu := rest.drop 2
      let be (i k : Nat) : Nat := beValue ((pdu.drop i).take k)
      let m := be 6 2
      (ty 12 = (s.reg (at_ 0x10) 0x88B5).toNat % 2 ^ 16 ∧ ¬ tagged) → be 0 2 / 2 ^ 12 = 1 → be 0 2 % 2 ^ 11 = 0 → m ≤ 1456 →
      20 + m + 4 ≤ pdu.length → s.rxConn p.val q.val (be 2 2) (be 4 2) = some n.val → bit c.w0 29 = false →
      ∃ t, exec (.ethFrameReceive p fr) s = .next t ∧ ∀ i < 128, passed i → Config.sfQueue (words i) = q →
        let d := (be 8 4 + 2 ^ 32 - c.last.toNat) % 2 ^ 32
        let age := (now - be 12 8) + (be 12 8 - now)
        let limit := c.w3.toNat % 2 ^ 16 * 10000
        ((crc32c (pdu.take (20 + m))).toNat ≠ be (20 + m) 4 → t.conns = s.conns ∧ t.queues = s.queues ∧
          ∃ x, t.reports = s.reports ++ [x] ∧ x.src = 0x1A) ∧
        ((crc32c (pdu.take (20 + m))).toNat = be (20 + m) 4 →
          (d = 0 ∨ 2 ^ 31 ≤ d ∨ limit < age → t.conns = s.conns ∧ t.queues = s.queues) ∧
          (d ≠ 0 → d < 2 ^ 31 → age ≤ limit → (t.conn n.val).last.toNat = be 8 4 ∧ (t.conn n.val).since = now ∧
            (t.conn n.val).payload = (pdu.drop 20).take m ∧ (t.conn n.val).heard = true ∧ (t.conn n.val).stale = false ∧
            ∃ e, entry 2 n.val (leBytes (be 8 4) 4 ++ [0, 0, 0, 0] ++ leBytes (be 12 8) 8 ++ (pdu.drop 20).take m) e ∧
              t.queue p.val q.val = { s.queue p.val q.val with wait := (s.queue p.val q.val).wait ++ [e] }))) ∧
    -- transmission
    (s.fm.dsafe = true → exec (.ethFrameTransmit p) s = .next s) ∧
    ((∀ j < 64, tx s j = []) → exec (.ethFrameTransmit p) s = .next s) ∧
    (isolated → bit gcl 0 = false → (∃ i < 64, ∃ j < 64, ∃ g h, s.queueFold p.val i = some g ∧ s.queueFold p.val j = some h ∧ g ≠ h) →
      exec (.ethFrameTransmit p) s = .next s) ∧
    (up → s.fm.dsafe = false → bit gcl 0 = false → (isolated → ∃ g, ∀ j < 64, s.queueFold p.val j = none ∨ s.queueFold p.val j = some g) →
      tx s q.val = r :: l →
      (∀ j < 64, j ≠ q.val → tx s j ≠ [] → (s.qcfg p.val j).toNat / 2 ^ 27 % 8 < cfg.toNat / 2 ^ 27 % 8) →
      ∃ t fr', exec (.ethFrameTransmit p) s = .next t ∧ t.wire = s.wire ++ [.eth p.val fr'] ∧ tx t q.val = l ∧ t.conns = s.conns ∧
        (r.hdr.getD 2 0 = 0 → let mac := macBytes (s.reg (at_ 0xC) 0) (s.reg (at_ 8) 0)
          let vlan := if cfg.toNat / 2 ^ 12 % 2 ^ 12 = 0 then []
            else beBytes 0x8100 2 ++ beBytes (cfg.toNat / 2 ^ 24 % 8 * 2 ^ 13 + cfg.toNat / 2 ^ 12 % 2 ^ 12) 2
          let a := r.data.take 6 ++ mac ++ vlan ++ r.data.drop 6
          let b := a ++ List.replicate (60 - a.length) 0
          fr' = b ++ ethFcs b)) ∧
    -- the gate list
    (bit gcl 0 = false ∨ gates = 0 → exec (.gateListAdvance p) s = .next s) ∧
    (bit gcl 0 = true → gates ≠ 0 → ((∀ e ∈ s.gateAt, e.1 ≠ p.val) →
        (now < base → exec (.gateListAdvance p) s = .next s) ∧
        (base ≤ now → exec (.gateListAdvance p) s = .next { s with gateAt := kset s.gateAt p.val (0, begin_ now) })) ∧
      (∀ i start, s.gateAt.find? (fun e => e.1 == p.val) = some (p.val, i, start) →
        let e1 := begin_ start + cyc
        let e := if gates ≤ i + 1 then e1 else min e1 (start + (s.reg (rGcl p.val i) 0).toNat % 2 ^ 24 * 8)
        (now < e → exec (.gateListAdvance p) s = .next s) ∧
        (e ≤ now → exec (.gateListAdvance p) s = .next { s with
          gateAt := kset s.gateAt p.val (if e = e1 then 0 else i + 1, e) }))) ∧
    -- the link
    (up ∨ cur = 0 ∨ mode = 0 ∨ 4 < mode.toNat ∨ cur ≤ 4 ∧ mode.toNat ≠ cur → exec (.ethLinkUp p mode) s = .next s) ∧
    (¬ up → cur ≠ 0 → mode ≠ 0 → mode.toNat ≤ 4 → 4 < cur ∨ mode.toNat = cur → ∃ t, exec (.ethLinkUp p mode) s = .next t ∧
      p.val ∈ t.linkUp ∧ (t.reg (at_ 4) 0).toNat = mode.toNat ∧ t.queues = s.queues) ∧
    (up → ∃ t, exec (.ethLinkDown p) s = .next t ∧ down t ∧ t.conns = s.conns ∧
      (s.running f = true → s.queueFold p.val q.val = some f → bit (s.fold f).ien (3 + p.val) = true →
        (∀ y ∈ s.foldYokes f, ∀ w, (s.yoke y).run ≠ .waiting w) → (∀ e ∈ (s.fold f).events, e.vec.toNat ≠ 0x13 + p.val) →
        ∃ e ∈ (t.fold f).events, e.vec.toNat = 0x13 + p.val ∧ e.syn = 0x300)) ∧
    (s.firmware = true → ∃ t, exec (.portModeWrite p v) s = .next t ∧ (t.reg (at_ 0) 0).toNat % 8 = new ∧
      bit (t.reg (at_ 0) 0) 31 = (bit (s.reg (at_ 0) 0) 31 || bit v 31) ∧ (new = cur → t.linkUp = s.linkUp ∧ t.queues = s.queues) ∧
      (new ≠ cur → up → down t)) ∧
    -- connections
    (bit c.w0 31 = false ∨ bit c.w0 30 = true ∨ c.stale = true ∨ now < c.since + c.w3.toNat % 2 ^ 16 * 10000 →
      exec (.connectionStale n) s = .next s) ∧
    (bit c.w0 31 = true → bit c.w0 30 = false → c.stale = false → c.since + c.w3.toNat % 2 ^ 16 * 10000 ≤ now →
      ∃ t, exec (.connectionStale n) s = .next t ∧ t.conn n.val = { c with stale := true } ∧ t.queues = s.queues) ∧
    (s.firmware = true → (s.reg 0x110010 0).toNat % 2 ^ 12 = n.val →
      (bit w0 31 = true → ownedBy = none ∨ clash → ∃ t, exec (.connectionCommit v) s = .next t ∧ t.conns = s.conns ∧
        bit (t.reg rRefuse 0) 31 = true ∧ ∃ x, t.reports = s.reports ++ [x] ∧ x.src = 0x0D) ∧
      (bit w0 31 = false ∨ ownedBy ≠ none ∧ ¬ clash → ∃ t, exec (.connectionCommit v) s = .next t ∧ (t.conn n.val).w0 = w0 ∧
        (t.conn n.val).w1 = w1 ∧ (t.conn n.val).w2 = s.reg 0x11001C 0 ∧ (t.conn n.val).w3 = v ∧ (t.conn n.val).since = now ∧
        (∀ j, j ≠ n.val → t.conn j = s.conn j) ∧ t.reports = s.reports))

/-- R518 to R525, R649: a host write within one window of an enabled function becomes a receive entry, anything else is discarded,
reported through AER or completed as an unsupported request; completions form one entry; P4 sends a function's records in its
share in ascending queue, and a posted write it may not send counts as not delivered, as do those not acknowledged and those
buffered when the link is lost; each such write raises 0x0E or the channel's deferred error and is reported; the host's configuration
of payload and read sizes, MSI-X and BARs is held; PERSTn resets P4.

(How connections name queues and reports name folds is read by inference, the values the configuration space starts
with and the steps of the CRC are not the spec's: log entries 32 and 82.) -/
def Obligations.PcieRequestsEntriesAndDeliveryFollowTheirRules : Prop :=
  ∀ (s : State) (f : FoldId) (off : Nat) (data : List Byte) (tag : Nat) (h : HostRead) (j : Fin 8) (r : TxRec) (l : List TxRec)
    (n : Nat) (q : Nat) (w : List (FoldId × Nat × TxRec)) (v : Fin 16) (base : DWord) (mdata : Word) (sp : Fin 5) (wd : Fin 4),
    let now := s.clk.time
    let up : Prop := 4 ∈ s.linkUp
    let pc := s.pcie
    let serves : Prop := pc.vfEnable = true ∧ s.running f = true ∧ f.val ∉ pc.flr
    let win := 8 * f.val + off / 0x2000
    let inside : Prop := data ≠ [] ∧ data.length ≤ 512 ∧ off + data.length ≤ 0x10000 ∧ off % 0x2000 + data.length ≤ 0x2000
    let aer (t : State) (k : Nat) (g : Option FoldId) : Prop := ∃ e : AerError, e.fn = g ∧ e.kind = k ∧
      t = { s with pcie := { pc with aer := pc.aer ++ [e] } }
    let unsup (t : State) : Prop := t.wire = s.wire ++ [.unsupported f] ∧ t.queues = s.queues ∧
      ∃ e, t.pcie.aer = pc.aer ++ [e] ∧ e.fn = some f ∧ e.kind = 2
    let named : List HostRead → Option HostRead := fun x => x.find? fun y => y.parts.any fun p => p.tag == tag
    let used := if pc.frame = now / 8192 then kget pc.used 0 f else 0
    let addr := leValue (r.hdr.drop 8)
    let arg := le16 r.hdr 4
    let vec := s.msixVec f arg
    let entry (e : RxEntry) (kind st addr : Nat) (content : List Byte) : Prop := e.content = content ∧ e.bytes.length % 16 = 0 ∧
      ∃ z, (∀ b ∈ z, b = 0) ∧ z.length < 16 ∧ e.bytes = leBytes content.length 2 ++ [BitVec.ofNat 8 kind, BitVec.ofNat 8 st, 0, 0, 0, 0] ++
        leBytes addr 8 ++ content ++ z
    let queued (t : State) (q kind st addr : Nat) (content : List Byte) : Prop := ∃ e, entry e kind st addr content ∧
      t.queue 4 q = { s.queue 4 q with wait := (s.queue 4 q).wait ++ [e] }
    let txq := s.queue 4 (8 * f.val + j.val)
    let may : Prop := pc.vfEnable = true ∧ f.val ∈ pc.bme ∧ f.val ∉ pc.flr
    let posted (x : TxRec) : Prop := x.kind = 1 ∨ x.kind = 4
    let popped (t : State) : Prop := t.queue 4 (8 * f.val + j.val) = { txq with tx := l }
    let lost (t : State) : Prop := 4 ∉ t.linkUp ∧ t.pcie.unacked = [] ∧ (∀ x ∈ pc.undelivered ++ pc.unacked, x ∈ t.pcie.undelivered) ∧
      (∀ x ∈ txq.tx, posted x → (f, 8 * f.val + j.val, x) ∈ t.pcie.undelivered) ∧ (t.queue 4 (8 * f.val + j.val)).tx = [] ∧
      ((s.running f = true) → bit (s.fold f).ien 7 = true → (∀ y ∈ s.foldYokes f, ∀ w, (s.yoke y).run ≠ .waiting w) →
        (∀ e ∈ (s.fold f).events, e.vec ≠ 0x17) → ∃ e ∈ (t.fold f).events, e.vec = 0x17 ∧ e.syn = 0x300)
    let gone (t : State) (x : FoldId × Nat × TxRec) : Prop := t.pcie.undelivered = pc.undelivered ++ [x] ∧ t.wire = s.wire
    let set (c : PcieConfig) (p : Pcie) : Prop := exec (.pcieConfigRequest c true) s = .next { s with pcie := p }
    s.power.main = true →
    -- what the host sends
    (¬ up → (∀ b, exec (.pcieWriteReceive f off data b) s = .next s ∧ exec (.pcieReadReceive f b) s = .next s ∧
        ∀ k, exec (.pcieCompletionReceive tag k data b) s = .next s) ∧ (∀ c b, exec (.pcieConfigRequest c b) s = .next s) ∧
      exec (.pcieTlpTransmit f) s = .next s ∧ exec .pcieLinkDown s = .next s) ∧
    (up → (∃ t, exec (.pcieWriteReceive f off data false) s = .next t ∧ aer t 1 (some f)) ∧
      (∃ t, exec (.pcieReadReceive f false) s = .next t ∧ aer t 1 (some f)) ∧
      (∀ k, ∃ t, exec (.pcieCompletionReceive tag k data false) s = .next t ∧ aer t 1 none) ∧
      (∀ c, ∃ t, exec (.pcieConfigRequest c false) s = .next t ∧ aer t 1 none) ∧
      (∃ t, exec (.pcieReadReceive f true) s = .next t ∧ unsup t) ∧
      (¬ serves ∨ ¬ inside → ∃ t, exec (.pcieWriteReceive f off data true) s = .next t ∧ unsup t) ∧
      (serves → inside → bit (s.qcfg 4 win) 31 = false → ∃ t, exec (.pcieWriteReceive f off data true) s = .next t ∧
        queued t win 3 0 (off % 0x2000) data ∧ t.pcie = pc)) ∧
    (up → named pc.reads = none → ∀ k, exec (.pcieCompletionReceive tag k data true) s = .next s) ∧
    (up → named pc.reads = some h → s.queueFold 4 h.queue = some f → s.running f = true →
      let parts := h.parts.map fun (p : ReadPart) => if p.tag = tag then { p with got := p.got ++ data } else p
      let ended (t : State) (st : Nat) (d : List Byte) : Prop := queued t h.queue 4 st h.addr d ∧ t.pcie.reads = pc.reads.erase h
      (∀ k, k = 1 ∨ k = 2 → ∃ t, exec (.pcieCompletionReceive tag k data true) s = .next t ∧ ended t k []) ∧
      (∃ t, exec (.pcieCompletionReceive tag 4 data true) s = .next t ∧ ended t 4 (parts.flatMap (·.got))) ∧
      ((∀ p ∈ parts, p.len ≤ p.got.length) → ∃ t, exec (.pcieCompletionReceive tag 0 data true) s = .next t ∧
        ended t 0 (parts.flatMap fun p => p.got.take p.len)) ∧
      ((∃ p ∈ parts, p.got.length < p.len) → ∃ t, exec (.pcieCompletionReceive tag 0 data true) s = .next t ∧ t.queues = s.queues ∧
        t.pcie.reads = pc.reads.map fun x => if x = h then { h with parts := parts } else x) ∧
      (now < h.since + pc.timeoutNs → exec (.pcieCompletionTimeout tag) s = .next s) ∧
      (h.since + pc.timeoutNs ≤ now → ∃ t e, exec (.pcieCompletionTimeout tag) s = .next t ∧ ended t 3 [] ∧ t.pcie.aer = pc.aer ++ [e] ∧
        e.fn = some h.fold ∧ e.kind = 3)) ∧ (pc.range = 0 → pc.timeoutNs = 10000000) ∧
    (named pc.reads = none → exec (.pcieCompletionTimeout tag) s = .next s) ∧
    (up →
      set (.vfEnable true) { pc with vfEnable := true } ∧ set (.vfEnable false) { pc with vfEnable := false, bme := [], flr := [] } ∧
      (∃ t, exec (.pcieConfigRequest (.functionReset f) true) s = .next t ∧ f.val ∈ t.pcie.flr ∧ f.val ∉ t.pcie.bme ∧
        f.val ∉ t.pcie.msixOn) ∧
      (∃ t, exec (.pcieConfigRequest (.functionReady f) true) s = .next t ∧ f.val ∉ t.pcie.flr ∧ t.pcie.bme = pc.bme) ∧
      (pc.vfEnable = true → ∀ b, ∃ t, exec (.pcieConfigRequest (.busMaster f b) true) s = .next t ∧ (f.val ∈ t.pcie.bme ↔ b = true)) ∧
      (pc.vfEnable = false → ∀ b, exec (.pcieConfigRequest (.busMaster f b) true) s = .next s) ∧
      set (.bar f base) { pc with bars := kset pc.bars f base } ∧ set (.maxPayload n) { pc with mps := n } ∧
      set (.maxRead n) { pc with mrrs := n } ∧ set (.timeoutRange n) { pc with range := n } ∧
      (f.val ∈ pc.msixOn → f.val ∉ pc.msixHeld → (∀ u < 16, u ≠ v.val → (s.msixVec f u).pending = false) →
        (s.msixVec f v.val).pending = true →
        ∃ t, exec (.pcieConfigRequest (.msixVector f v base mdata false) true) s = .next t ∧
          t.wire = s.wire ++ [.msix f v.val base mdata])) ∧
    -- what P4 sends
    (s.fm.dsafe = true ∨ s.fshare f ≤ used ∨ now / 128 < pc.shareAt → exec (.pcieTlpTransmit f) s = .next s) ∧
    (up → s.fm.dsafe = false → used < s.fshare f → pc.shareAt ≤ now / 128 → s.running f = true → txq.tx = r :: l →
      (∀ i < j.val, (s.queue 4 (8 * f.val + i)).tx = []) → 0 < pc.mps →
      ∃ t, exec (.pcieTlpTransmit f) s = .next t ∧ popped t ∧
        kget t.pcie.used 0 f = used + 1 ∧ t.pcie.frame = now / 8192 ∧ t.pcie.shareAt = now / 128 + 1 ∧
        (¬ may → (posted r → gone t (f, 8 * f.val + j.val, r)) ∧
          (¬ posted r → t.pcie.undelivered = pc.undelivered ∧ t.pcie.reads = pc.reads ∧ t.wire = s.wire)) ∧
        (may →
          (r.kind = 1 → ∃ ps : List (List Byte), ps.flatten = r.data ∧ (∀ p ∈ ps, p.length ≤ pc.mps) ∧
            t.wire = s.wire ++ ps.zipIdx.map fun p => .posted f (addr + pc.mps * p.2) p.1) ∧
          (posted r → t.pcie.unacked = pc.unacked ++ [(f, 8 * f.val + j.val, r)]) ∧
          (r.kind = 2 → let ps := (List.range ((arg + (pc.mrrs - 1)) / pc.mrrs)).map fun i =>
              ReadPart.mk (pc.tag + i) (min pc.mrrs (arg - pc.mrrs * i)) []
            t.wire = s.wire ++ ps.zipIdx.map (fun p => .hostRead f p.1.tag (addr + pc.mrrs * p.2) p.1.len) ∧
            t.pcie.reads = pc.reads ++ [⟨f, 8 * f.val + j.val, addr, now, ps⟩]) ∧
          (r.kind = 3 → (f.val ∈ pc.msixOn → f.val ∉ pc.msixHeld → vec.masked = false →
              t.wire = s.wire ++ [.msix f arg vec.addr vec.data]) ∧
            (f.val ∈ pc.msixOn → f.val ∈ pc.msixHeld ∨ vec.masked = true → t.wire = s.wire ∧ (t.msixVec f arg).pending = true) ∧
            (f.val ∉ pc.msixOn → t.wire = s.wire)))) ∧
    (s.running f = false ∨ (∀ i < 8, (s.queue 4 (8 * f.val + i)).tx = []) → bit s.fmgrCtl 0 = true → exec (.pcieTlpTransmit f) s = .next s) ∧
    exec (.pcieTlpAck n) s = .next { s with pcie := { pc with unacked := pc.unacked.drop n } } ∧
    -- delivery
    (pc.undelivered = [] → exec .postedWriteUndelivered s = .next s) ∧
    (pc.undelivered = (f, q, r) :: w → ∃ t, exec .postedWriteUndelivered s = .next t ∧ t.pcie.undelivered = w ∧
      (∃ x, t.reports = s.reports ++ [x] ∧ x.src = 0x17) ∧
      (∀ c m, r.origin.dma = some (c, m) → s.dmaFold c = some f → let d := s.dmaCh c
        t.dmaCh c = if d.defValid then { d with defOvr := true } else { d with defValid := true, defSeq := m }) ∧
      (s.running f = false → r.origin.dma = none → t.folds = s.folds) ∧
      (s.running f = true → r.origin.dma = none → (∀ e ∈ (s.fold f).events, e.vec ≠ 0x0E) →
        ∃ e, (t.fold f).events = (s.fold f).events ++ [e] ∧
          e.vec = 0x0E ∧ e.info = r.origin.pc ∧ e.syn.toNat = r.tseq.toNat + q % 8 * 2 ^ 16 + 2 ^ 22)) ∧
    (up → (∃ t, exec .pcieLinkDown s = .next t ∧ lost t) ∧ ∃ t, exec .peclkLoss s = .next t ∧ lost t ∧ t.pcie.peclk = false) ∧
    (pc.perst = true → exec .perstAssert s = .next s) ∧
    (pc.perst = false → ∃ t, exec .perstAssert s = .next t ∧ lost t ∧ t.pcie.perst = true ∧ t.pcie.vfEnable = false ∧ t.pcie.bme = [] ∧
      t.pcie.flr = [] ∧ t.pcie.aer = [] ∧ t.pcie.bars = [] ∧ t.pcie.msix = [] ∧ t.pcie.msixOn = []) ∧
    exec .perstRelease s = .next { s with pcie := { pc with perst := false } } ∧
    (up ∨ pc.perst = true → exec (.pcieLinkUp sp wd) s = .next s) ∧
    (¬ up → pc.perst = false → ∃ t, exec (.pcieLinkUp sp wd) s = .next t ∧ 4 ∈ t.linkUp ∧ t.queues = s.queues ∧
      t.pcie.speed = sp.val ∧ t.pcie.width = wd.val)

/-- R426, R543 to R546, R608, R618, Tables 14.20 and 14.21: SMBus serves the status page, the mailbox and the ALERT byte,
with the packet error code, acknowledges no other command and no bad code, and answers the alert address while SMBALERTn is low; the test access port gives IDCODE and selects
BYPASS for what the life-cycle state does not allow, a boundary scan shifting through, DBGACC attaching a debugger; a service turn answers the request of the fold it
is for, and ACK clears RDY.

(That a service turn is one command and how a debugger attaches are this model's choices, and a captured boundary cell
is a free value: log entries 37, 46 and 83.) -/
def Obligations.ServiceInterfacesAnswer : Prop :=
  ∀ (s : State) (f : FoldId) (bs : List Byte) (status : Word) (res data : List Byte) (pec : Option Byte) (shift : List Bool),
    let sv := s.service
    let a : Byte := if bit s.straps 0 then 0x9A else 0x98
    let block (cmd : Byte) (p : List Byte) : WireMsg :=
      .smbus ([BitVec.ofNat 8 p.length] ++ p ++ [smbusPec ([a, cmd, a ||| 1, BitVec.ofNat 8 p.length] ++ p)])
    let code := smbusPec ([a, 3, BitVec.ofNat 8 bs.length] ++ bs)
    let pad (k : Nat) (l : List Byte) : List Byte := l.take k ++ List.replicate (k - l.length) 0
    let lc := s.sec.lc
    let taps (i : TapIns) (cmd : Instr) : Prop := ∃ t v, exec cmd s = .next t ∧ t.service = { sv with tap := i } ∧
      t.wire = s.wire ++ [.tap i v] ∧ (i = .idcode → v = 0x1102446F) ∧ t.mem = s.mem ∧ t.regs = s.regs ∧
      (t.debugger = true ↔ i = .dbgacc ∧ s.power.main = true)
    let scans (i : TapIns) (cmd : List Bool → Instr) : Prop :=
      let drive (b : List Bool) : List WireMsg := if i = .sample then [] else [.drive i b]
      (∃ t v, exec (cmd []) s = .next t ∧ t.service = { sv with tap := i } ∧ t.wire = s.wire ++ [.tap i v] ++ drive sv.boundary ∧
        t.debugger = false) ∧
      (shift ≠ [] → ∃ t v c, exec (cmd shift) s = .next t ∧ t.service = { sv with tap := i, boundary := shift } ∧
        t.wire = s.wire ++ [.tap i v] ++ drive sv.boundary ++ [.scan c] ++ drive shift ∧ c.length = shift.length ∧ t.mem = s.mem ∧
        t.regs = s.regs ∧ t.debugger = false)
    let state : Nat := s.fm.dsafe.toNat + 2 * s.fm.nsafe.toNat + 4 * lc.toNat
    let fo := s.fold f
    (s.power.vddio = false → exec .smbusStatusRead s = .next s ∧ exec .smbusMailboxRead s = .next s ∧
      exec (.smbusMailboxWrite bs pec) s = .next s ∧ exec .smbusAlertRead s = .next s ∧ exec .smbusUnknownCommand s = .next s ∧
      exec .smbusAlertResponse s = .next s) ∧
    (s.power.vddio = true →
      (∃ t p, exec .smbusStatusRead s = .next t ∧ t = s.emit (block 1 p) ∧ p.length = 32 ∧ leValue (p.take 4) = 0x53741024 ∧
        leValue ((p.drop 4).take 8) = s.uid.toNat ∧ (p.getD 12 0).toNat = state ∧ p.getD 13 0 = sv.alert ∧
        leValue ((p.drop 14).take 2) = s.aon.count.toNat ∧ leValue ((p.drop 16).take 4) = (s.reg rRstcause 0).toNat ∧
        p.drop 22 = List.replicate 10 0) ∧
      (∃ t, exec .smbusMailboxRead s = .next t ∧ t.wire = s.wire ++ [block 2 (pad 64 sv.toBoard)] ∧
        t.service = { sv with alert := sv.alert &&& 0xFD }) ∧
      exec (.smbusMailboxWrite bs (some code)) s = .next { s with service := { sv with toDrover := pad 64 bs } } ∧
      (pec ≠ some code → exec (.smbusMailboxWrite bs pec) s = .next (s.emit .smbusNak)) ∧
      (∃ t, exec .smbusAlertRead s = .next t ∧ t.wire = s.wire ++ [.smbus [sv.alert, smbusPec [a, 4, a ||| 1, sv.alert]]] ∧
        t.service = { sv with alert := sv.alert &&& 0xFA }) ∧
      exec .smbusUnknownCommand s = .next (s.emit .smbusNak) ∧
      (sv.alert = 0 ∨ s.power.main = false → exec .smbusAlertResponse s = .next s) ∧
      (sv.alert ≠ 0 → s.power.main = true →
        exec .smbusAlertResponse s = .next (s.emit (.smbus [a, smbusPec [0x19, a]])))) ∧
    taps .bypass .jtagBypass ∧ taps .idcode .jtagIdcode ∧ scans .sample .jtagSamplePreload ∧
    (lc = 3 → taps .bypass (.jtagExtest shift) ∧ taps .bypass (.jtagExtestPulse shift) ∧ taps .bypass (.jtagExtestTrain shift)) ∧
    (lc ≠ 3 → scans .extest .jtagExtest ∧ scans .extestPulse .jtagExtestPulse ∧ scans .extestTrain .jtagExtestTrain) ∧
    (lc = 3 ∨ lc = 5 → taps .bypass .jtagDbgacc) ∧ (lc ≠ 3 → lc ≠ 5 → taps .dbgacc .jtagDbgacc) ∧
    (s.power.main = false ∨ s.firmware = false → ∀ a m, exec (.serviceTurn f a m) s = .next s) ∧
    (s.power.main = true → exec (.mailboxAck f) s = .next (s.setFold f { fo with mbRdy := false })) ∧
    (s.power.main = true → s.firmware = true →
      exec (.serviceTurn f none none) s = .next s ∧
      exec (.serviceTurn f none (some bs)) s =
        .next { s with service := { sv with toBoard := pad 64 bs, alert := sv.alert ||| 2 } } ∧
      (fo.mbPend = false → exec (.serviceTurn f (some (status, res, data)) none) s = .next s) ∧
      (fo.mbPend = true → Memory.wf fo.mbBytes = true → ∃ t, exec (.serviceTurn f (some (status, res, data)) none) s = .next t ∧
        (t.fold f).mbPend = false ∧ (t.fold f).mbRdy = true ∧
        leValue (memRead (t.fold f).mbBytes 0x1100 4) = status.toNat ∧
        memRead (t.fold f).mbBytes 0x1108 248 = pad 248 res ∧
        (∀ i < data.length, i < 0xE00 → memGet (t.fold f).mbBytes (0x1200 + i) = data.getD i 0) ∧
        (∀ a < 0x1100, memGet (t.fold f).mbBytes a = memGet fo.mbBytes a) ∧
        t.wire = s.wire ++ [.reply f (pad 248 res)] ∧ t.mem = s.mem))

/-- R531 to R536, R540, R551, R553, R554: samples filter the pin channels, a tick runs the discrepancy timers and clears DFAULT when both
channels read 0, the timer's limit latches DFAULT with vector 0x0F and source 0x18, test pulses come every TPP ms on TPA and half a
period later on TPB; SOA follows SOB after 10 µs, two disagreeing read-backs latch OFAULT with both switches off and report 0x19, the
stage tests one switch at a time and restores it, no tick runs without the sample of its instant; configuration writes are held, refused or locked; a fold reads its pair's window.

(The order of payload bits and the grid of pulses are read by inference: log entry 41.) -/
def Obligations.SafeInputsAndOutputsFollowTheirRules : Prop :=
  ∀ (s : State) (i : Fin 64) (k : Fin 8) (f : FoldId) (la lb : Half) (v : Word) (y : YokeId) (d : Gpr) (w : Fin 3),
    let us := s.clk.time / 1000
    let cfg := s.reg (0x110100 + 4 * i.val) 0x000003E8
    let valid : Prop := cfg.toNat / 2 ^ 31 = 1
    let owner := cfg.toNat / 2 ^ 26 % 16
    let p := s.inPair i.val
    let held (t : State) : InPair := t.inPair i.val
    let filt := cfg.toNat / 2 ^ 18 % 256
    let limit := cfg.toNat % 2 ^ 18
    let run (c : InChan) (l : Bool) : Nat := if l = c.sample then min 256 (c.run + 1) else 1
    let sampled (c : InChan) (l : Bool) (c' : InChan) : Prop := c'.sample = l ∧ c'.run = run c l ∧
      c'.value = if filt < run c l then l else c.value
    let chan := s.channels i.val
    let reported (t : State) (src : Byte) : Prop := ∃ r ∈ t.reports, r.src = src ∧ r.kind = .fold ∧ r.unit = 0 ∧ r.region = f.val
    let tpw := (s.reg 0x110004 0x000A0064).toNat % 2 ^ 10
    let tpp := (s.reg 0x110004 0x000A0064).toNat / 2 ^ 16 % 2 ^ 10
    let u := s.inUnit
    let ocfg := s.reg (0x110500 + 4 * k.val) 0x00C86414
    let ovalid : Prop := ocfg.toNat / 2 ^ 31 = 1
    let ofold := ocfg.toNat / 2 ^ 27 % 16
    let tick : Prop := u.ticked < us / 10 ∧ us / 10 * 10 ≤ u.sampled
    let live : Prop := s.fm.nsafe = false ∧ s.fm.dsafe = false ∧ (s.fold (Fin.ofNat 16 ofold)).phase ≠ .safe
    let settle := ocfg.toNat % 2 ^ 7
    let half := us / (ocfg.toNat / 2 ^ 17 % 2 ^ 10 * 500)
    let o := s.outPair k.val
    let set (n : OutPair) : State := s.setOutPair k.val n
    let refused (t : State) : Prop := (∃ r, t.reports = s.reports ++ [r] ∧ r.src = 0x0E) ∧ t.regs = s.regs
    let running (n : Nat) : Prop := s.running (Fin.ofNat 16 n) = true
    let otp := v.toNat / 2 ^ 17 % 2 ^ 10
    let otw := v.toNat / 2 ^ 8 % 2 ^ 9
    let ost := v.toNat % 2 ^ 7
    let oOk : Prop := ost < otw ∧ otw ≤ 500 ∧ 10 ≤ otp ∧ otp ≤ 1000 ∧ 1 ≤ ost ∧ ost ≤ 100
    let a : Word := BitVec.ofNat 32 (0xF6000000 + 16 * i.val + 4 * w.val)
    let c := (s.yoke y).lead
    let net := s.reg (0x110300 + 4 * i.val) 0
    let val : Nat := if w = 0 then (s.sampleOf f i.val).toNat
      else if w = 1 then (if 16 ≤ i.val then 2 ^ 31 else 0) + (cfg.toNat / 2 ^ 30 % 2) * 2 ^ 30 + limit
      else if 16 ≤ i.val then net.toNat / 2 ^ 20 * 2 ^ 16 + net.toNat / 2 ^ 4 % 2 ^ 12 else 0
    (s.power.main = true →
      -- inputs
      (us ≤ u.sampled → exec (.inputSample la lb) s = .next s) ∧
      (u.sampled < us → i.val < 16 → bit cfg 30 = false → ∃ t, exec (.inputSample la lb) s = .next t ∧ t.inUnit.sampled = us ∧
        sampled p.a (bit la i.val) (held t).a ∧ sampled p.b (bit lb i.val) (held t).b ∧ (held t).timer = p.timer ∧
        (held t).dfault = p.dfault) ∧
      (u.sampled < us → i.val < 16 → bit cfg 30 = true → valid → owner = f.val → p.dfault = false → u.tpb = none →
        (∀ b, u.tpa = some b → us < b + tpw → b + tpw ≤ us + 10 → bit la i.val = true → ∃ t, exec (.inputSample la lb) s = .next t ∧
          (held t).dfault = true ∧ (held t).a.value = p.a.value ∧ reported t 0x18) ∧
        (∀ b, u.tpa = some b → us < b + 2 * tpw → ∃ t, exec (.inputSample la lb) s = .next t ∧ (held t).a.value = p.a.value) ∧
        (u.tpa = none → ∃ t, exec (.inputSample la lb) s = .next t ∧ sampled p.a (bit la i.val) (held t).a ∧ (held t).dfault = false)) ∧
      (¬ tick → exec .pairTick s = .next s ∧ exec (.discrepancyFault i) s = .next s) ∧
      (tick → ∃ t, exec .pairTick s = .next t ∧ t.inUnit.ticked = us / 10 ∧
        (held t).a = p.a ∧ (held t).b = p.b ∧
        (¬ valid → (held t).timer = 0 ∧ (held t).dfault = false) ∧
        (valid → p.dfault = true → (held t).timer = 0 ∧ (held t).dfault = (chan.1 || chan.2)) ∧
        (valid → p.dfault = false → chan.1 = chan.2 → (held t).timer = 0 ∧ (held t).dfault = false) ∧
        (valid → p.dfault = false → chan.1 ≠ chan.2 → p.timer + 1 < limit → (held t).timer = p.timer + 1 ∧ (held t).dfault = false) ∧
        (valid → owner = f.val → p.dfault = false → chan.1 ≠ chan.2 → limit ≤ p.timer + 1 →
          (held t).timer = 0 ∧ (held t).dfault = true ∧ reported t 0x18)) ∧
      (tick → valid → owner = f.val → p.dfault = false → chan.1 ≠ chan.2 → limit ≤ p.timer + 1 → s.running f = true →
        (∀ e ∈ (s.fold f).events, e.vec ≠ 0x0F) → ∃ t e, exec (.discrepancyFault i) s = .next t ∧ (held t).dfault = true ∧
          reported t 0x18 ∧ (t.fold f).events = (s.fold f).events ++ [e] ∧ e.vec = 0x0F ∧ e.syn.toNat = i.val) ∧
      (p.dfault = true ∨ chan.1 = chan.2 ∨ p.timer + 1 < limit → exec (.discrepancyFault i) s = .next s) ∧
      (u.tpa = none → exec (.testPulse false) s = .next { s with inUnit := { u with tpa := some us } } ∧
        exec (.testPulse true) s = .next s) ∧
      (∀ b, u.tpa = some b →
        (us < b + tpp * 1000 → exec (.testPulse false) s = .next s) ∧
        (b + tpp * 1000 ≤ us →
          exec (.testPulse false) s = .next { s with inUnit := { u with tpa := some (b + (us - b) / (tpp * 1000) * (tpp * 1000)) } }) ∧
        (us < b + tpp * 500 ∨ b + tpp * 1000 ≤ us ∨ u.tpb = some (b + tpp * 500) → exec (.testPulse true) s = .next s) ∧
        (b + tpp * 500 ≤ us → us < b + tpp * 1000 → u.tpb ≠ some (b + tpp * 500) →
          exec (.testPulse true) s = .next { s with inUnit := { u with tpb := some (b + tpp * 500) } })) ∧
      -- outputs
      (∀ x, o.soaAt = some x → (us < x → exec (.safeOutputSoaOn k) s = .next s) ∧
        (x ≤ us → exec (.safeOutputSoaOn k) s = .next (set { o with dra := true, soaAt := none, changed := us }))) ∧
      (o.soaAt = none → exec (.safeOutputSoaOn k) s = .next s) ∧
      (∀ a0 b0 a1 b1, let wrong : Prop := (a0 ≠ o.dra ∧ a1 ≠ o.dra) ∨ (b0 ≠ o.drb ∧ b1 ≠ o.drb)
        (ovalid → ofold = f.val → wrong → o.ofault = false → o.changed + settle + 1 ≤ us → ∃ t,
          exec (.readbackFault k a0 b0 a1 b1) s = .next t ∧ (t.outPair k.val).ofault = true ∧ (t.outPair k.val).dra = false ∧
          (t.outPair k.val).drb = false ∧ (t.outPair k.val).on = false ∧ (t.outPair k.val).test = none ∧ reported t 0x19) ∧
        (¬ wrong ∨ o.ofault = true ∨ us < o.changed + settle + 1 →
          exec (.readbackFault k a0 b0 a1 b1) s = .next (set { o with fba := a1, fbb := b1 }))) ∧
      (ovalid → live → o.ofault = false → o.soaAt = none → o.test = none → o.tests < half → ∃ t, exec (.outputTest k) s = .next t ∧
        (t.outPair k.val).test = some ⟨decide (half % 2 = 1), us⟩ ∧ (t.outPair k.val).tests = half ∧ (t.outPair k.val).on = o.on ∧
        (half % 2 = 0 → (t.outPair k.val).dra = !o.on ∧ (t.outPair k.val).drb = o.on) ∧
        (half % 2 = 1 → (t.outPair k.val).dra = o.on ∧ (t.outPair k.val).drb = !o.on) ∧ t.reports = s.reports) ∧
      (¬ ovalid ∨ ¬ live ∨ o.ofault = true ∨ o.soaAt ≠ none ∨ o.test ≠ none ∨ half ≤ o.tests → exec (.outputTest k) s = .next s) ∧
      (o.test = none → exec (.outputTestEnd k) s = .next s) ∧
      (∀ x, o.test = some x → let width := ocfg.toNat / 2 ^ 8 % 2 ^ 9
        (us < x.since + width → exec (.outputTestEnd k) s = .next s) ∧
        (x.since + width ≤ us →
          exec (.outputTestEnd k) s = .next (set { o with test := none, dra := o.on, drb := o.on, changed := us }))) ∧
      -- configuration
      (ovalid → running ofold → exec (.outputConfigWrite k v) s = .next s) ∧
      (¬ (ovalid ∧ running ofold) →
        (s.firmware = true → ¬ oOk → ∃ t, exec (.outputConfigWrite k v) s = .next t ∧ refused t) ∧
        (s.firmware = true → oOk → ∃ t, exec (.outputConfigWrite k v) s = .next t ∧ t.reg (0x110500 + 4 * k.val) 0x00C86414 = v &&& 0xFFFFFF7F ∧
          (t.outPair k.val).ofault = (o.ofault && bit v 31) ∧
          (t.outPair k.val).tests = us / (otp * 500) ∧ t.reports = s.reports)) ∧
      (valid → running owner → exec (.inputConfigWrite i v) s = .next s ∧ exec (.ipnetWrite i v) s = .next s) ∧
      (s.firmware = true → ¬ (valid ∧ running owner) →
        (v.toNat % 2 ^ 18 < 10 ∨ 200000 < v.toNat % 2 ^ 18 → ∃ t, exec (.inputConfigWrite i v) s = .next t ∧ refused t) ∧
        (10 ≤ v.toNat % 2 ^ 18 → v.toNat % 2 ^ 18 ≤ 200000 → ∃ t, exec (.inputConfigWrite i v) s = .next t ∧
          t.reg (0x110100 + 4 * i.val) 0x000003E8 = (if i.val < 16 then v else v &&& 0xBC03FFFF) ∧
          (bit v 31 = false ∨ ¬ valid → (held t).timer = 0 ∧ (held t).dfault = false) ∧
          (bit v 31 = true → valid → t.inPairs = s.inPairs) ∧ t.reports = s.reports) ∧
        (i.val < 16 → exec (.ipnetWrite i v) s = .next s) ∧
        (16 ≤ i.val → v.toNat / 2 ^ 20 = v.toNat / 2 ^ 4 % 2 ^ 12 → ∃ t, exec (.ipnetWrite i v) s = .next t ∧ refused t) ∧
        (16 ≤ i.val → v.toNat / 2 ^ 20 ≠ v.toNat / 2 ^ 4 % 2 ^ 12 →
          exec (.ipnetWrite i v) s = .next (s.setReg (0x110300 + 4 * i.val) (v &&& 0xFFF0FFF0))))) ∧
    -- the fold's window
    (s.foldOf y = some f → s.Calm y → s.check f (spanOf y) c.ring a 4 Need.read = some (.io 0xF6 (16 * i.val + 4 * w.val)) →
      (valid → owner = f.val → ∃ t, exec (.pairWindowLoad y d i w) s = .next t ∧
        t.yoke y = (s.collapsed y { c.loadOn .w d (BitVec.ofNat 128 val) with pc := c.pc + 7 }).yoke y ∧
        t.mem = s.mem ∧ t.inPairs = s.inPairs) ∧
      (¬ valid ∨ owner ≠ f.val → exec (.pairWindowLoad y d i w) s =
        .next ((s.setYoke y ((s.going y).pushFailed (.load .w d (.long a)) (loadOut a 4 .plain) .accessViolation [])).raise y 0x04 a
          (accessCode 4 false false false 0))))

/-- R556, R558, R559, R567, R568, R572, R573, R575 to R579, R590, R635, R641: clock counts out of tolerance in two windows, loss of
a clock and a supply fault are reported; the Bell ticks and its alarm interrupts or wakes; readings above TLIM four times in a row
report 0x26; deep standby is requested by its key with no fold in RUN; Tally keeps slacks, margins and bands, and retires a span of which
one monitor is below the floor in four measurements in a row, or on a write.

(Which measurements Tally counts is read by inference, and a measurement is an operand: log entries 6 and 19.) -/
def Obligations.ClocksHeatStandbyAndTallyFollowTheirRules : Prop :=
  ∀ (s : State) (b : ClockBranch) (n : Nat) (pll : Fin 4) (f : FoldId) (vals : List Half) (i : Nat) (v : Word) (sp : SpanId)
    (m g : BitVec 4),
    let reported (t : State) (src : Byte) : Prop := ∃ r, t.reports = s.reports ++ [r] ∧ r.src = src
    let bt := s.clk.bt
    let tickp := (s.reg 0x080010 0x20).toNat % 2 ^ 16
    let alarm := (s.reg 0x080008 0).toNat + (s.reg 0x08000C 0).toNat % 2 ^ 16 * 2 ^ 32
    let rings : Prop := bit (s.reg 0x080010 0x20) 16 = true ∧ bt = alarm ∧ bt ≠ s.power.alarmBt
    let woken (t : State) (k : Nat) : Prop := bit (t.reg 0x080018 0) k = true ∧
      (s.power.standby ≠ none → t.power.mainen = true ∧ t.power.woken = true)
    let lim : Int := ((s.reg 0x090000 0x697D).toNat % 2 ^ 7 : Nat) * 8
    let old : Int := ((s.reg (0x090200 + 4 * i) 0).setWidth 16 : Half).toInt
    let new : Int := (vals.getD i 0).toInt
    let hot := kget s.pwr.hot 0 i
    let tal (off : Nat) : Nat := 0x0A0100 + 0x20 * sp.val + off
    let slack (w : Word) (j : Nat) : Nat := w.toNat / 2 ^ (8 * j) % 2 ^ 8
    let low (t : State) (k : Nat) : Nat := kget t.pwr.floor 0 (8 * sp.val + k)
    let poor (j : Nat) : Prop := slack v j < 10
    let fourth : Prop := ∃ j < 4, poor j ∧ low s j = 3
    let retired (t : State) : Prop := (∀ j, (t.yoke (yokeAt sp j)).stalled = true) ∧ t.reg (tal 0x1C) 0 = 0xC0000000 ∧
      bit (t.reg (rMemstat sp) memstatReset) 30 = true ∧ ∃ r ∈ t.reports, r.src = 0x04 ∧ r.region = sp.val
    let kept (t : State) : Prop := t.yokes = s.yokes ∧ t.reg (tal 0x1C) 0 = s.reg (tal 0x1C) 0
    let band : Nat := if 920 ≤ s.temp sp.val then 0 else if 760 ≤ s.temp sp.val then 1 else if 560 ≤ s.temp sp.val then 2 else 3
    s.power.main = true →
    -- clocks and supplies
    (∀ e, s.expectedCount b = some e →
      ((n ≤ e ∧ (e - n) * 50 ≤ e ∨ e ≤ n ∧ (n - e) * 50 ≤ e) → ∃ t, exec (.clockMonitorWindow b n) s = .next t ∧
        kget t.pwr.mon 0 b = 0 ∧ t.reports = s.reports) ∧
      (e < (e - n) * 50 ∨ e < (n - e) * 50 → ∃ t, exec (.clockMonitorWindow b n) s = .next t ∧
        kget t.pwr.mon 0 b = min 3 (kget s.pwr.mon 0 b + 1) ∧ (kget s.pwr.mon 0 b = 1 → reported t 0x24) ∧
        (kget s.pwr.mon 0 b ≠ 1 → t.reports = s.reports))) ∧
    (s.expectedCount b = none → exec (.clockMonitorWindow b n) s = .next s) ∧
    (∃ t, exec (.pllLockLoss pll) s = .next t ∧ bit (t.reg 0x090004 0xF8000000) (31 - pll.val) = false ∧ reported t 0x24) ∧
    (∃ t, exec .aonClockLoss s = .next t ∧ bit (t.reg 0x090004 0xF8000000) 27 = false ∧ reported t 0x28) ∧
    (∃ t, exec .vaonMonitorFault s = .next t ∧ reported t 0x28 ∧ t.regs = s.regs) ∧
    (s.power.mainen = true → ∃ t, exec .supplyFault s = .next t ∧ reported t 0x25 ∧ t.regs = s.regs) ∧
    (s.power.mainen = false → exec .supplyFault s = .next s) ∧
    -- the Bell
    (bt % tickp ≠ 0 ∨ bt = s.power.tickBt → exec .bellTick s = .next s) ∧
    (bt % tickp = 0 → bt ≠ s.power.tickBt → ∃ t, exec .bellTick s = .next t ∧ t.power.tickBt = bt ∧
      (s.running f = true → bit (s.fold f).ien 1 = true → (∀ y ∈ s.foldYokes f, ∀ w, (s.yoke y).run ≠ .waiting w) →
        ∃ e ∈ (t.fold f).events, e.vec = 0x11)) ∧
    (rings → ∃ t, exec .bellAlarm s = .next t ∧ woken t 0 ∧ t.droverIrq = s.droverIrq ++ [(2, 0)]) ∧
    (¬ rings → exec .bellAlarm s = .next s) ∧
    (s.power.standby = none → exec .wakeinRise s = .next s) ∧
    (s.power.standby ≠ none → ∃ t, exec .wakeinRise s = .next t ∧ woken t 1) ∧
    -- temperature
    (s.clk.time / 10000 ≤ s.pwr.tempAt → exec (.tempReading vals) s = .next s) ∧
    (s.pwr.tempAt < s.clk.time / 10000 → i < 72 → ∃ t, exec (.tempReading vals) s = .next t ∧
      t.reg (0x090200 + 4 * i) 0 = (vals.getD i 0).setWidth 32 ∧
      kget t.pwr.hot 0 i = (if lim < new then min 5 (hot + 1) else 0) ∧
      (lim < new → hot = 3 → ∃ r ∈ t.reports, r.src = 0x26 ∧ r.kind = .device) ∧
      (old < lim - 80 → lim - 80 ≤ new → t.service.alert.getLsbD 2 = true)) ∧
    -- deep standby
    (s.firmware = true → v ≠ 0x0000D5B7 ∨ (∃ x, s.running x = true) → ∃ t, exec (.deepStandbyRequest v) s = .next t ∧ reported t 0x0E ∧ t.power = s.power) ∧
    (s.firmware = true → v = 0x0000D5B7 → (∀ x, s.running x = false) →
      exec (.deepStandbyRequest v) s = .next { s with power := { s.power with standby := some bt, woken := false } }) ∧
    (∀ x, s.power.standby = some x →
      (bt < x + 3 ∨ s.power.woken = true → exec .mainenLow s = .next s) ∧
      (x + 3 ≤ bt → s.power.woken = false →
        exec .mainenLow s = .next { s with
          power := { s.power with mainen := false, rails := false, vddio := false }, service := Service.reset })) ∧
    (s.power.standby = none → exec .mainenLow s = .next s) ∧
    -- Tally
    ((s.span sp).power ≠ .run → s.power.bist = false → exec (.tallySlackMeasure sp v) s = .next s) ∧
    ((s.span sp).power = .run ∨ s.power.bist = true → ∃ t, exec (.tallySlackMeasure sp v) s = .next t ∧ t.reg (tal 0) 0 = v ∧
      (∀ j < 4, slack (t.reg (tal 4) 0xFFFFFFFF) j = min (slack v j) (slack (s.reg (tal 4) 0xFFFFFFFF) j)) ∧
      (∀ j < 4, (¬ poor j → low t j = 0) ∧ (poor j → low t j = min 5 (low s j + 1))) ∧
      (fourth → retired t) ∧ (¬ fourth → kept t ∧ t.reports = s.reports)) ∧
    (∃ t, exec (.tallySramMeasure sp m g) s = .next t ∧ (t.reg (tal 8) 0).toNat = g.toNat * 2 ^ 4 + m.toNat ∧
      (g.toNat < 2 → ∃ r ∈ t.reports, r.src = 0x1E ∧ r.kind = .group ∧ r.region = sp.val) ∧
      (2 ≤ m.toNat → low t 4 = 0 ∧ kept t) ∧
      (m.toNat < 2 → low t 4 = min 5 (low s 4 + 1) ∧ (low s 4 = 3 → retired t) ∧ (low s 4 ≠ 3 → kept t))) ∧
    ((s.span sp).power = .run → s.memErr = [] → ∃ t, exec (.tallyBandCount sp) s = .next t ∧
      t.reg (tal (0xC + 4 * band)) 0 = satInc (s.reg (tal (0xC + 4 * band)) 0) ∧
      ∀ k < 4, k ≠ band → t.reg (tal (0xC + 4 * k)) 0 = s.reg (tal (0xC + 4 * k)) 0) ∧
    ((s.span sp).power ≠ .run → exec (.tallyBandCount sp) s = .next s) ∧
    ((s.span sp).power = .run → s.cwEcc (bandWord sp band) = .uncorrectable → ∃ t, exec (.tallyBandCount sp) s = .next t ∧
      t.reg (tal (0xC + 4 * band)) 0 = s.reg (tal (0xC + 4 * band)) 0 ∧ reported t 0x20) ∧
    (bit v 0 = false ∨ s.spanFold sp ≠ none → exec (.tallyRetire sp v) s = .next s) ∧
    (s.firmware = true → bit v 0 = true → s.spanFold sp = none → ∃ t, exec (.tallyRetire sp v) s = .next t ∧ bit (t.reg (tal 0x1C) 0) 31 = true ∧
      bit (t.reg (tal 0x1C) 0) 30 = bit (s.reg (tal 0x1C) 0) 30 ∧ bit (t.reg (rMemstat sp) memstatReset) 30 = true ∧
      t.yokes = s.yokes ∧ t.reports = s.reports) ∧
    (s.firmware = true → ∃ t, exec (.tallySminRead sp) s = .next t ∧ t.wire = s.wire ++ [.regRead (tal 4) (s.reg (tal 4) 0xFFFFFFFF)] ∧
      t.reg (tal 4) 0 = 0xFFFFFFFF)

/-- R447, R460, R580 to R586, R640, R642, R643, R646: logic BIST takes a yoke out of the rotation with its task saved and returns
it or leaves it stalled; memory BIST tests a bank at a time and reports a failure; Drover's cores are tested one at a time; startup BIST ends
with the wipe, its tests left out only after a wake. nRESET, power-good, VAON and the crystal take the device into and out of reset; a reset of the main domain keeps the
always-on domain, the recorder, the retained area and the waiting commands.

(When a self-test starts and what a reset leaves where the spec is silent are this model's choices: log entries 4, 31,
38, 45, 47 and 68.) -/
def Obligations.SelfTestAndResetsFollowTheirRules : Prop :=
  ∀ (s : State) (y : YokeId) (v unit : Word) (pass : Bool) (ys : List YokeId) (c : Fin 3) (straps : Word) (flash : Flash) (sp : SpanId)
    (n off : Nat) (late : Bool),
    let k := s.yoke y
    let testing (z : YokeId) : Prop := (s.yoke z).bist ≠ .none
    let inSpan := ((List.finRange 16).filter fun j => decide ((s.yoke (yokeAt (spanOf y) j)).bist ≠ .none)).length
    let inAll := ((List.finRange 1024).filter fun z => decide ((s.yoke z).bist ≠ .none)).length
    let names : Prop := v.toNat / 2 ^ 8 % 2 ^ 6 = y.val / 16 ∧ v.toNat % 2 ^ 4 = y.val % 16
    let reported (t : State) (src : Byte) : Prop := ∃ r ∈ t.reports, r.src = src
    let free : Prop := (∃ q, k.bist = .requested q ∧ (k.run = .idle ∨ k.pend = none ∧ q ≤ k.interval)) ∧ k.stalled = false ∧
      k.unchecked = false ∧ k.inWait = false
    let node : SpanId := Fin.ofNat 64 (unit.toNat / 2 ^ 8 % 2 ^ 6)
    let length := if bit unit 31 then 128384 else 64192
    let p := s.power
    let blank (t : State) : Prop := ∀ z, ∃ m, t.yoke z = { Yoke.reset with mcount := m }
    let counted (t : State) : Prop := (s.yokes.map (·.1)).Nodup → ∀ z, (t.yoke z).mcount = (s.yoke z).mcount
    let off_ (t : State) : Prop := t.power.main = false ∧ blank t ∧ t.folds = [] ∧ t.fm.nsafe = true ∧ t.pending = s.pending
    let keeps (t : State) : Prop := t.aon = s.aon ∧ t.clk.bt = s.clk.bt ∧ t.sec.otp = s.sec.otp ∧ t.sec.aonKeys = s.sec.aonKeys ∧
      (∀ a, 0x0300100000 ≤ a → a < 0x0300100800 → memGet t.mem a = memGet s.mem a)
    let frKept : Recorder := { s.fr with rue := false, missedValid := false, missed := 0, mtime := 0, drop := 0 }
    let fresh : Prop := p.rails = false ∨ p.standby ≠ none
    (p.main = true →
      -- logic BIST
      (names → k.stalled = true ∨ testing y → exec (.logicBistStart v) s = .next s) ∧
      (s.firmware = true → names → k.stalled = false → ¬ testing y → inSpan < 2 → inAll < 32 →
        exec (.logicBistStart v) s = .next (s.setYoke y { k with bist := .requested (if k.pend.isSome then k.interval else k.interval + 1) })) ∧
      (s.firmware = true → names → k.stalled = false → ¬ testing y → 2 ≤ inSpan ∨ 32 ≤ inAll → ∃ t, exec (.logicBistStart v) s = .next t ∧
        bit (t.reg 0x0B000C 0) 31 = true ∧ t.yokes = s.yokes ∧ reported t 0x0E) ∧
      (¬ free → exec (.logicBistBegin y) s = .next s) ∧
      (free → k.run = .idle → (s.span (spanOf y)).freeSlot 0 272 = some n → ∃ t, exec (.logicBistBegin y) s = .next t ∧ (t.yoke y).bist = .testing s.clk.fc ∧ (t.yoke y).run = .idle ∧
        t.mem = s.mem ∧ ∀ z, z ≠ y → t.yoke z = s.yoke z) ∧
      (free → k.run ≠ .idle → (s.span (spanOf y)).freeSlot 0 272 = some n → ∃ t, exec (.logicBistBegin y) s = .next t ∧
        (t.yoke y).bist = .testing s.clk.fc ∧ (t.yoke y).run = .idle ∧ t.mem = s.mem ∧
        kget (t.span (spanOf y)).slots ⟨k.committed, .resume⟩ n = ⟨k.committed, .resume⟩ ∧
        (∃ e ∈ (t.span (spanOf y)).slots, e.1 = n) ∧ ∀ z, z ≠ y → t.yoke z = s.yoke z) ∧
      ((s.span (spanOf y)).freeSlot 0 272 = none → exec (.logicBistBegin y) s = .next s) ∧
      (∀ x, k.bist = .testing x →
        (s.clk.fc < x + 2240000 → exec (.logicBistDone y pass) s = .next s) ∧
        (x + 2240000 ≤ s.clk.fc → ∃ t, exec (.logicBistDone y pass) s = .next t ∧ (t.yoke y).bist = .none ∧
          (t.yoke y).stalled = (k.stalled || !pass) ∧ (pass = true → t.reports = s.reports) ∧
          (pass = false → ∃ r ∈ t.reports, r.src = 0x1F ∧ r.region = (spanOf y).val ∧ r.unit = y.val % 16))) ∧
      ((∀ x, k.bist ≠ .testing x) → exec (.logicBistDone y pass) s = .next s) ∧
      -- memory BIST
      (s.firmware = true → ∃ t, exec (.memoryBistStart v) s = .next t ∧ t.mem = s.mem ∧
        (t.bist.mem.map (·.unit)).Perm ((v &&& 0x80003F1F) :: s.bist.mem.map (·.unit)) ∧
        (s.bist.mem = [] → s.testFold (v &&& 0x80003F1F) = none → t.bist.mem = [⟨v &&& 0x80003F1F, s.clk.fc, some s.clk.fc⟩])) ∧
      (∀ w x, s.bist.mem = [⟨unit, w, some x⟩] →
        (s.clk.fc < x + length → exec (.memoryBistDone unit pass) s = .next s) ∧
        (x + length ≤ s.clk.fc → ∃ t, exec (.memoryBistDone unit pass) s = .next t ∧ t.bist.mem = [] ∧ t.mem = s.mem ∧
          bit (t.reg 0x0B0010 0) 31 = !pass ∧ bit (t.reg 0x0B0010 0) 30 = true ∧ (pass = true → t.reports = s.reports) ∧
          (pass = false → ∃ r, t.reports = s.reports ++ [r] ∧ r.src = 0x1E ∧ r.region = node.val ∧
            (bit unit 31 = false → r.kind = .span ∧ bit (t.reg (rMemstat node) memstatReset) 30 = true ∧ node ∈ t.pwr.held) ∧
            (bit unit 31 = true → r.kind = .group ∧ (node.val, unit.toNat / 2 ^ 2 % 4) ∈ t.pwr.failed)))) ∧
      (s.bist.mem = [] → exec (.memoryBistDone unit pass) s = .next s) ∧
      -- startup and Drover
      (p.bist = false → exec (.startupBistDone late ys []) s = .next s) ∧
      let failing : List YokeId := if late = true ∧ (s.reg 0x080114 0).toNat % 2 ^ 8 = 2 then [] else ys
      (p.bist = true → Memory.wf s.mem = true → (∀ x, s.reg (rMemstat x) memstatReset = memstatReset) → (∀ x, s.spanHeld x = false) →
        ∃ t, exec (.startupBistDone late ys []) s = .next t ∧ t.power.bist = false ∧ (∀ z ∈ failing, (t.yoke z).stalled = true) ∧
          (off < 0x200000 → memGet t.mem (0x0100000000 + 0x200000 * sp.val + off) = 0) ∧
          (off < 0x100000 → memGet t.mem (0x0200000000 + 0x100000 * sp.val + off) = 0) ∧
          (t.reg (rMemstat sp) memstatReset).toNat / 2 ^ 30 = 0 ∧ (failing = [] → t.reports = s.reports) ∧
          ∀ z ∈ failing, ∃ r ∈ t.reports, r.src = 0x1F ∧ r.region = (spanOf z).val ∧ r.unit = z.val % 16) ∧
      (s.firmware = true → s.bist.outvoted = none → (∀ x, s.bist.drover = some x → x.2 + 96000000 ≤ s.clk.fc) →
        exec (.droverCoreTest c) s = .next { s with bist := { s.bist with drover := some (c, s.clk.fc) } }) ∧
      ((∃ x, s.bist.drover = some x ∧ s.clk.fc < x.2 + 96000000) ∨ s.bist.outvoted ≠ none → exec (.droverCoreTest c) s = .next s) ∧
      exec .droverCoreTestDone s = .next { s with bist := { s.bist with drover := none } }) ∧
    -- nRESET and power-good
    (Memory.wf s.mem = true → ∃ t, exec .nresetAssert s = .next t ∧ off_ t ∧ keeps t ∧ counted t ∧ t.power.nreset = true ∧ t.fr = frKept ∧
      t.fm.next = s.fm.next ∧ (p.main = true → (t.reg 0x080114 0).toNat = 0x80000003) ∧ t.clk.time = s.clk.time) ∧
    (p.nreset = true → exec (.nresetRelease straps) s =
      .next { s with power := { p with nreset := false }, straps := straps &&& 0x7 }) ∧
    (p.nreset = false → exec (.nresetRelease straps) s = .next s) ∧
    (p.main = true ∨ p.mainen = false ∨ p.standby ≠ none ∧ p.woken = false → exec (.powerGood straps flash) s = .next s) ∧
    (p.main = false → p.nreset = true → p.mainen = true → p.standby = none ∨ p.woken = true →
      exec (.powerGood straps flash) s = .next { s with power := { p with vddio := true } }) ∧
    (Memory.wf s.mem = true → p.main = false → p.nreset = false → p.mainen = true → p.standby = none ∨ p.woken = true →
      ∃ t, exec (.powerGood straps flash) s = .next t ∧ t.power.main = true ∧ t.power.rails = true ∧ t.power.vddio = true ∧ t.power.bist = true ∧
        t.power.standby = none ∧ t.power.c6 = false ∧ blank t ∧ t.folds = [] ∧ t.fm.nsafe = true ∧ t.pending = s.pending ∧ keeps t ∧
        t.flash = flash ∧ t.sec.lc = lcState s.sec.otp ∧ (fresh → t.straps = straps &&& 0x7 ∧ t.clk.time = 0) ∧
        (fresh → t.yokes = []) ∧ (¬ fresh → t.straps = s.straps ∧ t.fr = frKept ∧ counted t) ∧ (p.c6 = true → (t.reg 0x080114 0).toNat = 0x80002A04) ∧
        (p.c6 = false → p.standby ≠ none → (t.reg 0x080114 0).toNat = 0x80000002)) ∧
    -- VAON and the crystal
    (∃ t, exec .vaonPowerOn s = .next t ∧ off_ t ∧ t.power.vaon = true ∧ t.power.mainen = false ∧ t.power.crystal = false ∧
      t.yokes = [] ∧ t.aon.count = 0 ∧ t.aon.en = (kget s.sec.otp 0 3).getLsbD 0 ∧ t.mem = [] ∧ (t.reg 0x080114 0).toNat = 0x80000001 ∧ t.sec.otp = s.sec.otp ∧
      t.aon.hwstart = (kget s.sec.otp 0 3).getLsbD 0) ∧
    (p.vaon = true → p.crystal = false → p.dead = false → ∃ t, exec .crystalReady s = .next t ∧ t.power.mainen = true ∧
      t.power.crystal = true ∧ t.clk.bt = 0 ∧ t.aon.en = s.aon.en ∧ t.aon.val = s.aon.period ∧ t.mem = s.mem ∧ t.regs = s.regs) ∧
    (p.vaon = false ∨ p.crystal = true → exec .crystalReady s = .next s ∧ exec .crystalTimeout s = .next s) ∧
    (p.dead = true → exec .crystalReady s = .next s) ∧
    (p.vaon = true → p.crystal = false → exec .crystalTimeout s = .next { s with power := { p with dead := true, mainen := false } }) ∧
    (∃ t, exec .vaonPowerLoss s = .next t ∧ off_ t ∧ t.power.vaon = false ∧ t.power.mainen = false ∧ t.yokes = [] ∧ t.mem = [] ∧ t.regs = [] ∧
      t.aon.count = 0 ∧ t.sec.otp = s.sec.otp ∧ t.sec.aonKeys = [])

namespace Sys2Proof.Claims

open Sys2Proof.Machine

/-- Memory as read, after bytes have been written at an address. -/
def laid (m : Nat → Byte) (a : Nat) (bs : List Byte) : Nat → Byte :=
  fun b => if a ≤ b ∧ b < a + bs.length then bs.getD (b - a) 0 else m b

end Sys2Proof.Claims

/-- R591, R592, R595, R596, R602 to R605, R613, R615, R616, R621 to R623: an OTP byte is programmed only where Table 16.1 allows; a
life-cycle request wipes the secrets, programs the target and sets PEND, or is refused; a manifest is placed, checked in order and gives OK
or its error; the version counters advance up to the running version; a challenge is generated and an opening checked once; tamper
wipes and reports.

(What OTPCMD may program, a challenge that is locked out, MNSVN and the cryptographic standards: log entries 20, 48,
49, 50, 52 and 84.) -/
def Obligations.SecurityCommandsFollowTheirRules : Prop :=
  ∀ (s : State) (v : Word) (bad : Byte) (image : List Byte) (n : BitVec 7) (healthy : Bool) (kind : Fin 4),
    let c := s.sec
    let otp (t : State) (j : Nat) : Byte := kget t.sec.otp 0 j
    let refused (t : State) : Prop := (∃ r, t.reports = s.reports ++ [r] ∧ r.src = 0x0E) ∧ t.sec = c ∧ t.mem = s.mem
    let lc := c.lc.toNat
    let a := (s.reg 0x120020 0).toNat % 2 ^ 11
    let d : Byte := BitVec.ofNat 8 (s.reg 0x120024 0).toNat
    let may : Prop := (a < 3 ∧ lc = 0 ∧ d.toNat < 2 ∧ s.debugger = true) ∨ (a = 3 ∧ lc ≤ 2) ∨ (a = 4 ∧ lc ≠ 5) ∨ (8 ≤ a ∧ a < 0x10 ∧ lc = 0) ∨
      (0x10 ≤ a ∧ a < 0x20 ∧ lc ≠ 5) ∨ (0x20 ≤ a ∧ a < 0x1D0 ∧ (lc = 1 ∨ lc = 2)) ∨ (0x1D0 ≤ a ∧ a < 0x220 ∧ lc = 0)
    let target := v.toNat / 2 ^ 16 % 2 ^ 3
    let slots (base : Nat) : Prop := ∃ j < 4, s.slotProgrammed base j = true ∧ s.slotRevoked base j = false
    let path : Prop := (target = 2 ∧ lc = 1) ∨
      (target = 3 ∧ (lc = 1 ∨ lc = 2) ∧ (otp s 3).getLsbD 1 = false ∧ slots 0x020 ∧ slots 0x0E0) ∨ (target = 5 ∧ lc ≠ 5)
    let idle : Prop := ∀ f, s.running f = false
    let wiped (t : State) : Prop := t.sec.keys = [] ∧ t.sec.aonKeys = [] ∧
      ∀ b, memGet t.mem b = if 0x0300000000 ≤ b ∧ b < 0x0300040000 ∨ 0x0300100040 ≤ b ∧ b < 0x0300100140 then 0
        else memGet s.mem b
    let named (t : State) (k : Nat) : Prop := t.sec.pend = true ∧ t.sec.lc = c.lc ∧
      (∀ j < 3, otp t j = otp s j ||| BitVec.ofNat 8 (2 ^ k - 1)) ∧ ∀ j, 3 ≤ j → otp t j = otp s j
    let im := s.droverRead c.mver (max 512 (min (imageField (s.droverRead c.mver 12) 8 4) 98304))
    let code := s.proofCode im (im.drop 0x200) 0x0E0 (s.otpCounter 0x18)
    let section_ := (im.drop (imageField im 0x10 4)).take (imageField im 0x14 4)
    let failed (t : State) (e : Nat) : Prop := t.sec.mbusy = false ∧ t.sec.mok = false ∧ t.sec.merr.toNat = e ∧ t.sec.mnsvn = c.mnsvn
    let advanced (t : State) (base : Nat) : Prop := t.reports = s.reports ∧
      (∀ j < 8, ∀ k < 8, (otp t (base + j)).getLsbD k = ((otp s (base + j)).getLsbD k || decide (8 * j + k < n.toNat))) ∧
      ∀ j, j < base ∨ base + 8 ≤ j → otp t j = otp s j
    let bt := s.clk.bt
    let fresh : Prop := ∃ b, c.chalAt = some b ∧ bt ≤ b + 19660800
    let key := s.respBytes 0 97
    let opens : Prop := fresh ∧ idle ∧ (s.otpBytes 0x1A0 48).any (· ≠ 0) = true ∧ sha384 key = s.otpBytes 0x1A0 48 ∧
      signatureOk key (sha384 c.chal) (s.respBytes 0x64 96) = true
    let asleep : Prop := s.power.standby ≠ none ∨ s.power.rails = false
    let latched (t : State) : Prop := (bit c.tstat 31 = true → t.sec.tstat = c.tstat) ∧
      (bit c.tstat 31 = false → bit t.sec.tstat 31 = true ∧ t.sec.tstat.toNat % 2 ^ 8 = kind.val + 1)
    (s.power.main = true → Memory.wf s.mem = true →
      (s.firmware = false → exec (.otpProgram v bad) s = .next s ∧ exec (.lifecycleRequest v) s = .next s ∧
        exec (.manifestVerify v image) s = .next s ∧ exec (.fwSvnAdvance n) s = .next s ∧ exec (.mnSvnAdvance n) s = .next s ∧
        exec .challengeGenerate s = .next s ∧ exec (.debugOpen v) s = .next s) ∧
      -- OTP and life cycle
      (s.firmware = true → bit v 0 = false → exec (.otpProgram v bad) s = .next { s with sec := { c with otpFail := c.otpFail && !bit v 31 } }) ∧
      (s.firmware = true → bit v 0 = true → may → ∃ t, exec (.otpProgram v bad) s = .next t ∧ otp t a = otp s a ||| (d &&& ~~~bad) ∧
        (∀ j, j ≠ a → otp t j = otp s j) ∧ t.sec.lc = c.lc ∧ t.reports = s.reports ∧
        t.sec.otpFail = (decide (d &&& bad &&& ~~~(otp s a) ≠ 0) || (c.otpFail && !bit v 31))) ∧
      (s.firmware = true → bit v 0 = true → ¬ may → ∃ t, exec (.otpProgram v bad) s = .next t ∧ t.sec.otp = c.otp ∧
        ∃ r, t.reports = s.reports ++ [r] ∧ r.src = 0x0E) ∧
      (s.firmware = true → v.toNat % 2 ^ 16 = 0xC1A5 → path → idle → c.pend = false → ∃ t, exec (.lifecycleRequest v) s = .next t ∧ wiped t ∧
        named t target ∧ t.reports = s.reports) ∧
      (s.firmware = true → v.toNat % 2 ^ 16 ≠ 0xC1A5 ∨ ¬ path ∨ ¬ idle ∨ c.pend = true → ∃ t, exec (.lifecycleRequest v) s = .next t ∧ refused t) ∧
      -- manifests and version counters
      (s.firmware = true → ∃ t, exec (.manifestVerify v image) s = .next t ∧ t.sec.mok = false ∧ t.sec.mbusy = true ∧ t.sec.mver = v.toNat % 0x80000 ∧
        t.regs = s.regs ∧ (v.toNat % 0x80000 + image.length ≤ 0x80000 →
          ∀ b, memGet t.mem b = laid (memGet s.mem) (0x0600000000 + v.toNat % 0x80000) image b)) ∧
      (c.mbusy = false → exec .manifestVerifyDone s = .next s) ∧
      (c.mbusy = true →
        (headerShape im 0x4D464248 = false → ∃ t, exec .manifestVerifyDone s = .next t ∧ failed t 2) ∧
        (headerShape im 0x4D464248 = true → manifestRanges im = false → ∃ t, exec .manifestVerifyDone s = .next t ∧ failed t 3) ∧
        (headerShape im 0x4D464248 = true → manifestRanges im = true → ∃ t, exec .manifestVerifyDone s = .next t ∧
          t.sec.mok = (decide (code = 0) && entriesKnown section_ section_.length) ∧ t.sec.mbusy = false ∧ t.mem = s.mem ∧
          (code ≠ 0 → failed t code) ∧ (t.sec.mok = true → t.sec.merr = 0 ∧ t.sec.mnsvn = imageField im 6 2))) ∧
      (s.firmware = true → n.toNat ≤ c.fwsvn → lc ≠ 5 → n.toNat ≤ 64 → ∃ t, exec (.fwSvnAdvance n) s = .next t ∧ advanced t 0x10) ∧
      (s.firmware = true → c.fwsvn < n.toNat ∨ lc = 5 → ∃ t, exec (.fwSvnAdvance n) s = .next t ∧ refused t) ∧
      (s.firmware = true → n.toNat ≤ c.mnsvn → lc ≠ 5 → n.toNat ≤ 64 → ∃ t, exec (.mnSvnAdvance n) s = .next t ∧ advanced t 0x18) ∧
      (s.firmware = true → c.mnsvn < n.toNat ∨ lc = 5 → ∃ t, exec (.mnSvnAdvance n) s = .next t ∧ refused t) ∧
      -- entropy, challenge, opening
      (c.rngFail = true → exec (.rngOutput healthy) s = .next s) ∧
      (c.rngFail = false → (∃ t, exec (.rngOutput true) s = .next t ∧ t.sec.rng.length = 8 ∧ t.sec.rngFail = false) ∧
        exec (.rngOutput false) s =
          .next { s with sec := { c with rngFail := true, rng := [] }, droverIrq := s.droverIrq ++ [(4, 0)] }) ∧
      (¬ idle ∨ c.rngFail = true ∨ bt < c.lockBt → exec .challengeGenerate s = .next s) ∧
      (s.firmware = true → idle → c.rngFail = false → c.lockBt ≤ bt → ∃ t r, exec .challengeGenerate s = .next t ∧ t.sec.chalAt = some bt ∧ r.length = 32 ∧
        t.sec.chal = r ++ s.otpBytes 8 8 ++ leBytes (s.otpCounter 0x10) 4 ++ [0, 0, 0, 0]) ∧
      (v.toNat % 2 ^ 16 ≠ 0x0BE4 ∨ lc ≠ 3 → exec (.debugOpen v) s = .next s) ∧
      (s.firmware = true → v.toNat % 2 ^ 16 = 0x0BE4 → lc = 3 → ∃ t, exec (.debugOpen v) s = .next t ∧ t.sec.chal = [] ∧ t.sec.chalAt = none ∧
        (opens → wiped t ∧ named t 4 ∧ ∀ g, (t.reg (rMemstat g) memstatReset).toNat / 2 ^ 30 = 3) ∧
        (¬ opens → t.sec.openFail = satInc c.openFail ∧ t.sec.lockBt = bt + 327680 ∧ t.sec.otp = c.otp ∧ t.sec.keys = c.keys ∧
          t.mem = s.mem))) ∧
    -- tamper
    (s.power.vaon = false ∨ asleep ∧ kind.val = 2 → exec (.tamper kind) s = .next s) ∧
    (s.power.vaon = true → ¬ asleep → Memory.wf s.mem = true → ∃ t, exec (.tamper kind) s = .next t ∧ wiped t ∧ latched t ∧
      t.sec.otp = c.otp ∧ (s.power.main = true → ∃ r, t.reports = s.reports ++ [r] ∧ r.src = 0x27)) ∧
    (s.power.vaon = true → asleep → kind.val ≠ 2 → Memory.wf s.mem = true → ∃ t, exec (.tamper kind) s = .next t ∧ t.sec.aonKeys = [] ∧ t.sec.keys = c.keys ∧
      latched t ∧ bit (t.reg 0x080018 0) 3 = true ∧ (s.power.standby ≠ none → t.power.mainen = true) ∧
      ∀ b, memGet t.mem b = laid (memGet s.mem) 0x0300100040 (List.replicate 256 0) b)

/-- R364, R606, R610 to R613, Tables 16.12 and 16.13: jobs submitted run in ring order. The job at the head gives its result where its
descriptor says, its STATUS and an interrupt, and CQHEAD advances; a tag or signature that fails gives status 0x0002 and no result; an
invalid descriptor status 0x0003, an uncorrectable word of the vault reports 0x20; only unwrapping and random keys write a key slot.

(When an invalid descriptor ends its job and the cryptographic standards: log entries 20 and 51.) -/
def Obligations.CryptoJobsRunInOrder : Prop :=
  ∀ (s : State) (v : Word) (ws : List (Word × List Byte)) (flips : List (BitVec 18 × CwFlip)) (j : Job),
    let u := (flips.foldl (fun s x => s.flip (0x0060000000 + x.1.toNat) x.2) (s.patch ws)).setReg 0x12020C v
    let n := 2 ^ ((s.reg 0x120204 0).toNat % 2 ^ 4)
    let next := (s.sec.cqHead + 1) % n
    let place (a : Nat) : Nat := if 2 ^ 31 ≤ a then 0x0300000000 + (a - 2 ^ 31) else 0x0600000000 + a
    let bytes (a k : Nat) : List Byte := memRead s.mem (place a) k
    let aad := bytes j.src j.aad
    let data := bytes (j.src + j.aad) j.len
    let iv := bytes j.iv 12
    let key := kget s.sec.keys (List.replicate 32 0) j.slot
    let stat := 0x0600000000 + j.at_ + 2
    let ended (t : State) (st : Nat) (m : Nat → Byte) : Prop := t.sec.cqHead = next ∧ t.droverIrq = s.droverIrq ++ [(3, st)] ∧
      (∀ b, memGet t.mem b = laid m stat (leBytes st 2) b) ∧ t.regs = s.regs ∧ t.reports = s.reports
    let slots (t : State) : Prop := t.sec.keys = s.sec.keys ∧ t.sec.aonKeys = s.sec.aonKeys
    let wrote (t : State) (k : Nat) (w : List Byte) : Prop := kget t.sec.keys (List.replicate 32 0) k = w ∧
      (∀ x, x ≠ k → kget t.sec.keys (List.replicate 32 0) x = kget s.sec.keys (List.replicate 32 0) x) ∧
      (248 ≤ k → kget t.sec.aonKeys [] k = w) ∧ (k < 248 → t.sec.aonKeys = s.sec.aonKeys)
    let old := memGet s.mem
    let keyed (k : Nat) : Nat → Byte := if 248 ≤ k then laid old (0x0300100040 + 32 * (k - 248)) (List.replicate 32 0) else old
    let wrapped := bytes j.iv 64
    let devKey := s.otpBytes 0x1D0 32
    let wiv := (wrapped.drop 4).take 12
    let wct := (wrapped.drop 16).take 32
    let wslot := imageField wrapped 0 1
    s.power.main = true → Memory.wf s.mem = true →
    (s.firmware = false → exec (.cryptoSubmit v ws flips) s = .next s) ∧
    (s.firmware = true → (u.jobAtHead = none ∨ ∃ x, u.jobAtHead = some x ∧ x.valid = true) → exec (.cryptoSubmit v ws flips) s = .next u) ∧
    (s.firmware = true → ∀ x, u.jobAtHead = some x → x.valid = false → ∃ t, exec (.cryptoSubmit v ws flips) s = .next t ∧ (3, 3) ∈ t.droverIrq) ∧
    (s.jobAtHead = none → exec .cryptoSha384 s = .next s ∧ exec .cryptoGmac s = .next s ∧ exec .cryptoAesGcmEncrypt s = .next s ∧
      exec .cryptoAesGcmDecrypt s = .next s ∧ exec .cryptoEcdsaVerify s = .next s ∧ exec .cryptoKeyUnwrap s = .next s ∧
      exec .cryptoRandomKey s = .next s) ∧
    (s.jobAtHead = some j → (j.op ≠ 4 ∨ j.valid = false → exec .cryptoSha384 s = .next s) ∧
      (j.op ≠ 6 ∨ j.valid = false → exec .cryptoKeyUnwrap s = .next s)) ∧
    (s.jobAtHead = some j → j.valid = true → next = (s.reg 0x12020C 0).toNat % n → j.op = 4 →
      (∃ w ∈ j.words, s.cwEcc w = .uncorrectable) → ∃ t st, exec .cryptoSha384 s = .next t ∧ slots t ∧ t.sec.cqHead = next ∧
        (∃ r ∈ t.reports, r.src = 0x20) ∧ ∀ b, memGet t.mem b = laid old stat (leBytes st 2) b) ∧
    (s.jobAtHead = some j → j.valid = true → next = (s.reg 0x12020C 0).toNat % n → s.memErr = [] →
      (j.op = 1 → ∃ t, exec .cryptoAesGcmEncrypt s = .next t ∧ slots t ∧
        ended t 1 (laid (laid old (place j.dst) (gcmCrypt key iv data)) (place j.tag) (gcmTag key iv aad (gcmCrypt key iv data)))) ∧
      (j.op = 2 → ∃ t, exec .cryptoAesGcmDecrypt s = .next t ∧ slots t ∧
        (gcmTag key iv aad data = bytes j.tag 16 → ended t 1 (laid old (place j.dst) (gcmCrypt key iv data))) ∧
        (gcmTag key iv aad data ≠ bytes j.tag 16 → ended t 2 old)) ∧
      (j.op = 3 → ∃ t, exec .cryptoGmac s = .next t ∧ slots t ∧ ended t 1 (laid old (place j.tag) (gcmTag key iv aad []))) ∧
      (j.op = 4 → ∃ t, exec .cryptoSha384 s = .next t ∧ slots t ∧ ended t 1 (laid old (place j.dst) (sha384 data))) ∧
      (j.op = 5 → ∃ t, exec .cryptoEcdsaVerify s = .next t ∧ slots t ∧
        ended t (if signatureOk (bytes j.iv 97) (bytes j.src 48) (bytes j.tag 96) then 1 else 2) old) ∧
      (j.op = 6 → ∃ t, exec .cryptoKeyUnwrap s = .next t ∧
        (gcmTag devKey wiv (s.otpBytes 8 8 ++ wrapped.take 1) wct = wrapped.drop 48 → s.sec.lc ≠ lcOpened →
          wrote t wslot (gcmCrypt devKey wiv wct) ∧ ended t 1 (keyed wslot)) ∧
        (gcmTag devKey wiv (s.otpBytes 8 8 ++ wrapped.take 1) wct ≠ wrapped.drop 48 → slots t ∧ ended t 2 old)) ∧
      (j.op = 7 → s.sec.rngFail = false → s.sec.lc ≠ lcOpened → ∃ t w, exec .cryptoRandomKey s = .next t ∧ w.length = 32 ∧
        wrote t j.slot w ∧ ended t 1 (keyed j.slot)) ∧
      (j.op = 7 → s.sec.rngFail = true → ∃ t st, exec .cryptoRandomKey s = .next t ∧ slots t ∧ ended t st old))

/-- A step runs the command at the front of the queue on the state with the rest of the queue. With nothing waiting one fc passes: device
time advances by the increment every second fc and never decreases (R14, R96), and nothing but clocks and the power estimator's sums
changes, but that the bt after an accepted request for deep standby puts the main domain in reset (R572). (That an idle step is one fc is this model's choice: log entry 30.) -/
def Obligations.AStepRunsTheCommandInFront : Prop :=
  ∀ (s : State) (c : Instr) (rest : List Instr),
    (s.pending = c :: rest → step s = exec c { s with pending := rest }) ∧
    (s.pending = [] → ∃ t, step s = .next t ∧ t.clk.fc = s.clk.fc + 1 ∧ s.clk.time ≤ t.clk.time ∧
      t.clk.time * 2 ^ 32 + t.clk.frac = s.clk.time * 2 ^ 32 + s.clk.frac + (if t.clk.fc % 2 = 0 then s.clk.inc else 0) ∧
      t.clk.frac < 2 ^ 32 ∧
      (s.power.main = false ∨ (∀ b, s.power.standby = some b → t.clk.bt ≤ b) → t = { s with clk := t.clk, pwr := t.pwr }) ∧
      (∀ b, s.power.main = true → s.power.standby = some b → b < t.clk.bt → t.power.main = false ∧ t.fm.nsafe = true ∧
        (∀ y, (t.yoke y).run = .idle) ∧ t.folds = [] ∧ t.aon = s.aon ∧ t.fr.sram = s.fr.sram ∧ t.pending = []))

/-- Every command of the table completes in every state, and leaves the queue of waiting commands as it is.

(That a command whose event cannot happen answers the state unchanged is this model's choice: log entry 1.) -/
def Obligations.EveryCommandCompletes : Prop := ∀ (c : Instr) (s : State), ∃ t, exec c s = .next t ∧ t.pending = s.pending

/-- The state after reset meets the invariant: nothing waits, no fold is admitted, every yoke is idle, nSAFE is asserted (R448), the
increment is 1.25 ns (R96), and RSTCAUSE tells power-on.

(The values the spec does not give for reset are this model's choice: log entries 4 and 47.) -/
def Obligations.ResetIsSound : Prop :=
  State.reset.Sound ∧ State.reset.pending = [] ∧ (∀ f, (State.reset.fold f).phase = .empty) ∧ (∀ y, (State.reset.yoke y).run = .idle) ∧
  State.reset.fm.nsafe = true ∧ State.reset.fm.dsafe = false ∧ State.reset.clk.inc = 5 * 2 ^ 30 ∧
  State.reset.reg 0x080114 0 = 0x80000001 ∧ ∀ a, memGet State.reset.mem a = 0

/-- Every step takes exactly the command in front, keeps the invariant (memory in its canonical form; nSAFE asserted in device safe
state and in OPENED; clock counters within their widths), and returns no programmed OTP bit to 0 (R591). -/
def Obligations.EveryStepKeepsTheInvariant : Prop :=
  ∀ s t : State, step s = .next t → (s.Sound → t.Sound) ∧ t.pending = s.pending.tail ∧ s.otpKept t
end

