-- ==== Sys2Proof/Laws/Maps.lean ====
section
/-! SUPPORT. Laws of the sparse maps. -/

namespace Sys2Proof

variable {κ α : Type} [DecidableEq κ]

@[simp] theorem kget_kdel_same (m : KMap κ α) (d : α) (k : κ) : kget (kdel m k) d k = d := by
  induction m with
  | nil => rfl
  | cons e t ih =>
    by_cases h : e.1 = k
    · simp [kdel, h, ih]
    · simp [kdel, kget, h, ih]

theorem kget_kdel_ne (m : KMap κ α) (d : α) {k j : κ} (h : j ≠ k) : kget (kdel m k) d j = kget m d j := by
  induction m with
  | nil => rfl
  | cons e t ih =>
    by_cases hk : e.1 = k
    · have hj : e.1 ≠ j := fun hj => h (hj.symm.trans hk)
      rw [kdel, if_pos hk, ih, kget, if_neg hj]
    · by_cases hj : e.1 = j
      · have hjk : ¬ j = k := h
        simp [kdel, kget, hj, hjk]
      · simp [kdel, kget, hk, hj, ih]

/-- A test that fails on every entry of a key does not see the key. -/
theorem any_kdel (m : KMap κ α) (k : κ) (p : κ × α → Bool) (h : ∀ v, p (k, v) = false) : (kdel m k).any p = List.any m p := by
  induction m with
  | nil => rfl
  | cons e t ih =>
    by_cases hk : e.1 = k
    · rw [kdel, if_pos hk, ih, List.any_cons, show e = (k, e.2) from Prod.ext hk rfl, h, Bool.false_or]
    · rw [kdel, if_neg hk, List.any_cons, List.any_cons, ih]

theorem any_kset (m : KMap κ α) (k : κ) (w : α) (p : κ × α → Bool) (h : ∀ v, p (k, v) = false) :
    (kset m k w).any p = List.any m p := by
  rw [kset, List.any_cons, h, Bool.false_or, any_kdel m k p h]

@[simp] theorem kget_kset_same (m : KMap κ α) (d v : α) (k : κ) : kget (kset m k v) d k = v := by
  simp [kset, kget]

theorem kget_kset_ne (m : KMap κ α) (d v : α) {k j : κ} (h : j ≠ k) : kget (kset m k v) d j = kget m d j := by
  have h' : k ≠ j := Ne.symm h
  simp [kset, kget, h', kget_kdel_ne m d h]

theorem kdel_kdel_same (m : KMap κ α) (k : κ) : kdel (kdel m k) k = kdel m k := by
  induction m with
  | nil => rfl
  | cons e t ih =>
    by_cases h : e.1 = k
    · simp [kdel, h, ih]
    · simp [kdel, h, ih]

/-- The last value stored for a key is the one that counts. -/
@[simp] theorem kset_kset_same (m : KMap κ α) (k : κ) (v w : α) : kset (kset m k v) k w = kset m k w := by
  simp [kset, kdel, kdel_kdel_same]

theorem kget_kset (m : KMap κ α) (d v : α) (k j : κ) : kget (kset m k v) d j = if j = k then v else kget m d j := by
  by_cases h : j = k
  · subst h; simp
  · simp [kget_kset_ne m d v h, h]

end Sys2Proof
end

