-- ==== Sys2Proof/Laws/State.lean ====
section
/-! SUPPORT. What each update of the state leaves as it was: one lemma per update and field, and reading a part after it was
replaced. -/

namespace Sys2Proof.Machine

variable (s : State)

@[simp] theorem State.setYoke_pending (y : YokeId) (k : Yoke) : (s.setYoke y k).pending = s.pending := rfl
@[simp] theorem State.setYoke_clk (y : YokeId) (k : Yoke) : (s.setYoke y k).clk = s.clk := rfl
@[simp] theorem State.setYoke_regs (y : YokeId) (k : Yoke) : (s.setYoke y k).regs = s.regs := rfl
@[simp] theorem State.setYoke_mem (y : YokeId) (k : Yoke) : (s.setYoke y k).mem = s.mem := rfl
@[simp] theorem State.setYoke_memErr (y : YokeId) (k : Yoke) : (s.setYoke y k).memErr = s.memErr := rfl
@[simp] theorem State.setYoke_writeback (y : YokeId) (k : Yoke) : (s.setYoke y k).writeback = s.writeback := rfl
@[simp] theorem State.setYoke_fabricFails (y : YokeId) (k : Yoke) : (s.setYoke y k).fabricFails = s.fabricFails := rfl
@[simp] theorem State.setYoke_cutNodes (y : YokeId) (k : Yoke) : (s.setYoke y k).cutNodes = s.cutNodes := rfl
@[simp] theorem State.setYoke_releasing (y : YokeId) (k : Yoke) : (s.setYoke y k).releasing = s.releasing := rfl
@[simp] theorem State.setYoke_spans (y : YokeId) (k : Yoke) : (s.setYoke y k).spans = s.spans := rfl
@[simp] theorem State.setYoke_folds (y : YokeId) (k : Yoke) : (s.setYoke y k).folds = s.folds := rfl
@[simp] theorem State.setYoke_dma (y : YokeId) (k : Yoke) : (s.setYoke y k).dma = s.dma := rfl
@[simp] theorem State.setYoke_reports (y : YokeId) (k : Yoke) : (s.setYoke y k).reports = s.reports := rfl
@[simp] theorem State.setYoke_fm (y : YokeId) (k : Yoke) : (s.setYoke y k).fm = s.fm := rfl
@[simp] theorem State.setYoke_fr (y : YokeId) (k : Yoke) : (s.setYoke y k).fr = s.fr := rfl
@[simp] theorem State.setYoke_aon (y : YokeId) (k : Yoke) : (s.setYoke y k).aon = s.aon := rfl
@[simp] theorem State.setYoke_xch (y : YokeId) (k : Yoke) : (s.setYoke y k).xch = s.xch := rfl
@[simp] theorem State.setYoke_slotPlan (y : YokeId) (k : Yoke) : (s.setYoke y k).slotPlan = s.slotPlan := rfl
@[simp] theorem State.setYoke_slotLent (y : YokeId) (k : Yoke) : (s.setYoke y k).slotLent = s.slotLent := rfl
@[simp] theorem State.setYoke_queues (y : YokeId) (k : Yoke) : (s.setYoke y k).queues = s.queues := rfl
@[simp] theorem State.setYoke_linkUp (y : YokeId) (k : Yoke) : (s.setYoke y k).linkUp = s.linkUp := rfl
@[simp] theorem State.setYoke_gateAt (y : YokeId) (k : Yoke) : (s.setYoke y k).gateAt = s.gateAt := rfl
@[simp] theorem State.setYoke_served (y : YokeId) (k : Yoke) : (s.setYoke y k).served = s.served := rfl
@[simp] theorem State.setYoke_conns (y : YokeId) (k : Yoke) : (s.setYoke y k).conns = s.conns := rfl
@[simp] theorem State.setYoke_pcie (y : YokeId) (k : Yoke) : (s.setYoke y k).pcie = s.pcie := rfl
@[simp] theorem State.setYoke_service (y : YokeId) (k : Yoke) : (s.setYoke y k).service = s.service := rfl
@[simp] theorem State.setYoke_inPairs (y : YokeId) (k : Yoke) : (s.setYoke y k).inPairs = s.inPairs := rfl
@[simp] theorem State.setYoke_inUnit (y : YokeId) (k : Yoke) : (s.setYoke y k).inUnit = s.inUnit := rfl
@[simp] theorem State.setYoke_outPairs (y : YokeId) (k : Yoke) : (s.setYoke y k).outPairs = s.outPairs := rfl
@[simp] theorem State.setYoke_twin (y : YokeId) (k : Yoke) : (s.setYoke y k).twin = s.twin := rfl
@[simp] theorem State.setYoke_twins (y : YokeId) (k : Yoke) : (s.setYoke y k).twins = s.twins := rfl
@[simp] theorem State.setYoke_power (y : YokeId) (k : Yoke) : (s.setYoke y k).power = s.power := rfl
@[simp] theorem State.setYoke_pwr (y : YokeId) (k : Yoke) : (s.setYoke y k).pwr = s.pwr := rfl
@[simp] theorem State.setYoke_bist (y : YokeId) (k : Yoke) : (s.setYoke y k).bist = s.bist := rfl
@[simp] theorem State.setYoke_sec (y : YokeId) (k : Yoke) : (s.setYoke y k).sec = s.sec := rfl
@[simp] theorem State.setYoke_wire (y : YokeId) (k : Yoke) : (s.setYoke y k).wire = s.wire := rfl
@[simp] theorem State.setYoke_droverIrq (y : YokeId) (k : Yoke) : (s.setYoke y k).droverIrq = s.droverIrq := rfl
@[simp] theorem State.setYoke_debugger (y : YokeId) (k : Yoke) : (s.setYoke y k).debugger = s.debugger := rfl
@[simp] theorem State.setYoke_debugData (y : YokeId) (k : Yoke) : (s.setYoke y k).debugData = s.debugData := rfl
@[simp] theorem State.setYoke_debugFailed (y : YokeId) (k : Yoke) : (s.setYoke y k).debugFailed = s.debugFailed := rfl
@[simp] theorem State.setYoke_straps (y : YokeId) (k : Yoke) : (s.setYoke y k).straps = s.straps := rfl
@[simp] theorem State.setYoke_flash (y : YokeId) (k : Yoke) : (s.setYoke y k).flash = s.flash := rfl
@[simp] theorem State.setYoke_stamp (y : YokeId) (k : Yoke) : (s.setYoke y k).stamp = s.stamp := rfl
@[simp] theorem State.setYoke_freeN (y : YokeId) (k : Yoke) : (s.setYoke y k).freeN = s.freeN := rfl

@[simp] theorem State.setSpan_pending (sp : SpanId) (k : Span) : (s.setSpan sp k).pending = s.pending := rfl
@[simp] theorem State.setSpan_clk (sp : SpanId) (k : Span) : (s.setSpan sp k).clk = s.clk := rfl
@[simp] theorem State.setSpan_regs (sp : SpanId) (k : Span) : (s.setSpan sp k).regs = s.regs := rfl
@[simp] theorem State.setSpan_mem (sp : SpanId) (k : Span) : (s.setSpan sp k).mem = s.mem := rfl
@[simp] theorem State.setSpan_memErr (sp : SpanId) (k : Span) : (s.setSpan sp k).memErr = s.memErr := rfl
@[simp] theorem State.setSpan_writeback (sp : SpanId) (k : Span) : (s.setSpan sp k).writeback = s.writeback := rfl
@[simp] theorem State.setSpan_fabricFails (sp : SpanId) (k : Span) : (s.setSpan sp k).fabricFails = s.fabricFails := rfl
@[simp] theorem State.setSpan_cutNodes (sp : SpanId) (k : Span) : (s.setSpan sp k).cutNodes = s.cutNodes := rfl
@[simp] theorem State.setSpan_releasing (sp : SpanId) (k : Span) : (s.setSpan sp k).releasing = s.releasing := rfl
@[simp] theorem State.setSpan_yokes (sp : SpanId) (k : Span) : (s.setSpan sp k).yokes = s.yokes := rfl
@[simp] theorem State.setSpan_folds (sp : SpanId) (k : Span) : (s.setSpan sp k).folds = s.folds := rfl
@[simp] theorem State.setSpan_dma (sp : SpanId) (k : Span) : (s.setSpan sp k).dma = s.dma := rfl
@[simp] theorem State.setSpan_reports (sp : SpanId) (k : Span) : (s.setSpan sp k).reports = s.reports := rfl
@[simp] theorem State.setSpan_fm (sp : SpanId) (k : Span) : (s.setSpan sp k).fm = s.fm := rfl
@[simp] theorem State.setSpan_fr (sp : SpanId) (k : Span) : (s.setSpan sp k).fr = s.fr := rfl
@[simp] theorem State.setSpan_aon (sp : SpanId) (k : Span) : (s.setSpan sp k).aon = s.aon := rfl
@[simp] theorem State.setSpan_xch (sp : SpanId) (k : Span) : (s.setSpan sp k).xch = s.xch := rfl
@[simp] theorem State.setSpan_slotPlan (sp : SpanId) (k : Span) : (s.setSpan sp k).slotPlan = s.slotPlan := rfl
@[simp] theorem State.setSpan_slotLent (sp : SpanId) (k : Span) : (s.setSpan sp k).slotLent = s.slotLent := rfl
@[simp] theorem State.setSpan_queues (sp : SpanId) (k : Span) : (s.setSpan sp k).queues = s.queues := rfl
@[simp] theorem State.setSpan_linkUp (sp : SpanId) (k : Span) : (s.setSpan sp k).linkUp = s.linkUp := rfl
@[simp] theorem State.setSpan_gateAt (sp : SpanId) (k : Span) : (s.setSpan sp k).gateAt = s.gateAt := rfl
@[simp] theorem State.setSpan_served (sp : SpanId) (k : Span) : (s.setSpan sp k).served = s.served := rfl
@[simp] theorem State.setSpan_conns (sp : SpanId) (k : Span) : (s.setSpan sp k).conns = s.conns := rfl
@[simp] theorem State.setSpan_pcie (sp : SpanId) (k : Span) : (s.setSpan sp k).pcie = s.pcie := rfl
@[simp] theorem State.setSpan_service (sp : SpanId) (k : Span) : (s.setSpan sp k).service = s.service := rfl
@[simp] theorem State.setSpan_inPairs (sp : SpanId) (k : Span) : (s.setSpan sp k).inPairs = s.inPairs := rfl
@[simp] theorem State.setSpan_inUnit (sp : SpanId) (k : Span) : (s.setSpan sp k).inUnit = s.inUnit := rfl
@[simp] theorem State.setSpan_outPairs (sp : SpanId) (k : Span) : (s.setSpan sp k).outPairs = s.outPairs := rfl
@[simp] theorem State.setSpan_twin (sp : SpanId) (k : Span) : (s.setSpan sp k).twin = s.twin := rfl
@[simp] theorem State.setSpan_twins (sp : SpanId) (k : Span) : (s.setSpan sp k).twins = s.twins := rfl
@[simp] theorem State.setSpan_power (sp : SpanId) (k : Span) : (s.setSpan sp k).power = s.power := rfl
@[simp] theorem State.setSpan_pwr (sp : SpanId) (k : Span) : (s.setSpan sp k).pwr = s.pwr := rfl
@[simp] theorem State.setSpan_bist (sp : SpanId) (k : Span) : (s.setSpan sp k).bist = s.bist := rfl
@[simp] theorem State.setSpan_sec (sp : SpanId) (k : Span) : (s.setSpan sp k).sec = s.sec := rfl
@[simp] theorem State.setSpan_wire (sp : SpanId) (k : Span) : (s.setSpan sp k).wire = s.wire := rfl
@[simp] theorem State.setSpan_droverIrq (sp : SpanId) (k : Span) : (s.setSpan sp k).droverIrq = s.droverIrq := rfl
@[simp] theorem State.setSpan_debugger (sp : SpanId) (k : Span) : (s.setSpan sp k).debugger = s.debugger := rfl
@[simp] theorem State.setSpan_debugData (sp : SpanId) (k : Span) : (s.setSpan sp k).debugData = s.debugData := rfl
@[simp] theorem State.setSpan_debugFailed (sp : SpanId) (k : Span) : (s.setSpan sp k).debugFailed = s.debugFailed := rfl
@[simp] theorem State.setSpan_straps (sp : SpanId) (k : Span) : (s.setSpan sp k).straps = s.straps := rfl
@[simp] theorem State.setSpan_flash (sp : SpanId) (k : Span) : (s.setSpan sp k).flash = s.flash := rfl
@[simp] theorem State.setSpan_stamp (sp : SpanId) (k : Span) : (s.setSpan sp k).stamp = s.stamp := rfl
@[simp] theorem State.setSpan_freeN (sp : SpanId) (k : Span) : (s.setSpan sp k).freeN = s.freeN := rfl

@[simp] theorem State.setFold_pending (f : FoldId) (k : Fold) : (s.setFold f k).pending = s.pending := rfl
@[simp] theorem State.setFold_clk (f : FoldId) (k : Fold) : (s.setFold f k).clk = s.clk := rfl
@[simp] theorem State.setFold_regs (f : FoldId) (k : Fold) : (s.setFold f k).regs = s.regs := rfl
@[simp] theorem State.setFold_mem (f : FoldId) (k : Fold) : (s.setFold f k).mem = s.mem := rfl
@[simp] theorem State.setFold_memErr (f : FoldId) (k : Fold) : (s.setFold f k).memErr = s.memErr := rfl
@[simp] theorem State.setFold_writeback (f : FoldId) (k : Fold) : (s.setFold f k).writeback = s.writeback := rfl
@[simp] theorem State.setFold_fabricFails (f : FoldId) (k : Fold) : (s.setFold f k).fabricFails = s.fabricFails := rfl
@[simp] theorem State.setFold_cutNodes (f : FoldId) (k : Fold) : (s.setFold f k).cutNodes = s.cutNodes := rfl
@[simp] theorem State.setFold_releasing (f : FoldId) (k : Fold) : (s.setFold f k).releasing = s.releasing := rfl
@[simp] theorem State.setFold_yokes (f : FoldId) (k : Fold) : (s.setFold f k).yokes = s.yokes := rfl
@[simp] theorem State.setFold_spans (f : FoldId) (k : Fold) : (s.setFold f k).spans = s.spans := rfl
@[simp] theorem State.setFold_dma (f : FoldId) (k : Fold) : (s.setFold f k).dma = s.dma := rfl
@[simp] theorem State.setFold_reports (f : FoldId) (k : Fold) : (s.setFold f k).reports = s.reports := rfl
@[simp] theorem State.setFold_fm (f : FoldId) (k : Fold) : (s.setFold f k).fm = s.fm := rfl
@[simp] theorem State.setFold_fr (f : FoldId) (k : Fold) : (s.setFold f k).fr = s.fr := rfl
@[simp] theorem State.setFold_aon (f : FoldId) (k : Fold) : (s.setFold f k).aon = s.aon := rfl
@[simp] theorem State.setFold_xch (f : FoldId) (k : Fold) : (s.setFold f k).xch = s.xch := rfl
@[simp] theorem State.setFold_slotPlan (f : FoldId) (k : Fold) : (s.setFold f k).slotPlan = s.slotPlan := rfl
@[simp] theorem State.setFold_slotLent (f : FoldId) (k : Fold) : (s.setFold f k).slotLent = s.slotLent := rfl
@[simp] theorem State.setFold_queues (f : FoldId) (k : Fold) : (s.setFold f k).queues = s.queues := rfl
@[simp] theorem State.setFold_linkUp (f : FoldId) (k : Fold) : (s.setFold f k).linkUp = s.linkUp := rfl
@[simp] theorem State.setFold_gateAt (f : FoldId) (k : Fold) : (s.setFold f k).gateAt = s.gateAt := rfl
@[simp] theorem State.setFold_served (f : FoldId) (k : Fold) : (s.setFold f k).served = s.served := rfl
@[simp] theorem State.setFold_conns (f : FoldId) (k : Fold) : (s.setFold f k).conns = s.conns := rfl
@[simp] theorem State.setFold_pcie (f : FoldId) (k : Fold) : (s.setFold f k).pcie = s.pcie := rfl
@[simp] theorem State.setFold_service (f : FoldId) (k : Fold) : (s.setFold f k).service = s.service := rfl
@[simp] theorem State.setFold_inPairs (f : FoldId) (k : Fold) : (s.setFold f k).inPairs = s.inPairs := rfl
@[simp] theorem State.setFold_inUnit (f : FoldId) (k : Fold) : (s.setFold f k).inUnit = s.inUnit := rfl
@[simp] theorem State.setFold_outPairs (f : FoldId) (k : Fold) : (s.setFold f k).outPairs = s.outPairs := rfl
@[simp] theorem State.setFold_twin (f : FoldId) (k : Fold) : (s.setFold f k).twin = s.twin := rfl
@[simp] theorem State.setFold_twins (f : FoldId) (k : Fold) : (s.setFold f k).twins = s.twins := rfl
@[simp] theorem State.setFold_power (f : FoldId) (k : Fold) : (s.setFold f k).power = s.power := rfl
@[simp] theorem State.setFold_pwr (f : FoldId) (k : Fold) : (s.setFold f k).pwr = s.pwr := rfl
@[simp] theorem State.setFold_bist (f : FoldId) (k : Fold) : (s.setFold f k).bist = s.bist := rfl
@[simp] theorem State.setFold_sec (f : FoldId) (k : Fold) : (s.setFold f k).sec = s.sec := rfl
@[simp] theorem State.setFold_wire (f : FoldId) (k : Fold) : (s.setFold f k).wire = s.wire := rfl
@[simp] theorem State.setFold_droverIrq (f : FoldId) (k : Fold) : (s.setFold f k).droverIrq = s.droverIrq := rfl
@[simp] theorem State.setFold_debugger (f : FoldId) (k : Fold) : (s.setFold f k).debugger = s.debugger := rfl
@[simp] theorem State.setFold_debugData (f : FoldId) (k : Fold) : (s.setFold f k).debugData = s.debugData := rfl
@[simp] theorem State.setFold_debugFailed (f : FoldId) (k : Fold) : (s.setFold f k).debugFailed = s.debugFailed := rfl
@[simp] theorem State.setFold_straps (f : FoldId) (k : Fold) : (s.setFold f k).straps = s.straps := rfl
@[simp] theorem State.setFold_flash (f : FoldId) (k : Fold) : (s.setFold f k).flash = s.flash := rfl
@[simp] theorem State.setFold_stamp (f : FoldId) (k : Fold) : (s.setFold f k).stamp = s.stamp := rfl
@[simp] theorem State.setFold_freeN (f : FoldId) (k : Fold) : (s.setFold f k).freeN = s.freeN := rfl

@[simp] theorem State.setReg_pending (a : Nat) (v : Word) : (s.setReg a v).pending = s.pending := rfl
@[simp] theorem State.setReg_clk (a : Nat) (v : Word) : (s.setReg a v).clk = s.clk := rfl
@[simp] theorem State.setReg_mem (a : Nat) (v : Word) : (s.setReg a v).mem = s.mem := rfl
@[simp] theorem State.setReg_memErr (a : Nat) (v : Word) : (s.setReg a v).memErr = s.memErr := rfl
@[simp] theorem State.setReg_writeback (a : Nat) (v : Word) : (s.setReg a v).writeback = s.writeback := rfl
@[simp] theorem State.setReg_fabricFails (a : Nat) (v : Word) : (s.setReg a v).fabricFails = s.fabricFails := rfl
@[simp] theorem State.setReg_cutNodes (a : Nat) (v : Word) : (s.setReg a v).cutNodes = s.cutNodes := rfl
@[simp] theorem State.setReg_releasing (a : Nat) (v : Word) : (s.setReg a v).releasing = s.releasing := rfl
@[simp] theorem State.setReg_yokes (a : Nat) (v : Word) : (s.setReg a v).yokes = s.yokes := rfl
@[simp] theorem State.setReg_spans (a : Nat) (v : Word) : (s.setReg a v).spans = s.spans := rfl
@[simp] theorem State.setReg_folds (a : Nat) (v : Word) : (s.setReg a v).folds = s.folds := rfl
@[simp] theorem State.setReg_dma (a : Nat) (v : Word) : (s.setReg a v).dma = s.dma := rfl
@[simp] theorem State.setReg_reports (a : Nat) (v : Word) : (s.setReg a v).reports = s.reports := rfl
@[simp] theorem State.setReg_fm (a : Nat) (v : Word) : (s.setReg a v).fm = s.fm := rfl
@[simp] theorem State.setReg_fr (a : Nat) (v : Word) : (s.setReg a v).fr = s.fr := rfl
@[simp] theorem State.setReg_aon (a : Nat) (v : Word) : (s.setReg a v).aon = s.aon := rfl
@[simp] theorem State.setReg_xch (a : Nat) (v : Word) : (s.setReg a v).xch = s.xch := rfl
@[simp] theorem State.setReg_slotPlan (a : Nat) (v : Word) : (s.setReg a v).slotPlan = s.slotPlan := rfl
@[simp] theorem State.setReg_slotLent (a : Nat) (v : Word) : (s.setReg a v).slotLent = s.slotLent := rfl
@[simp] theorem State.setReg_queues (a : Nat) (v : Word) : (s.setReg a v).queues = s.queues := rfl
@[simp] theorem State.setReg_linkUp (a : Nat) (v : Word) : (s.setReg a v).linkUp = s.linkUp := rfl
@[simp] theorem State.setReg_gateAt (a : Nat) (v : Word) : (s.setReg a v).gateAt = s.gateAt := rfl
@[simp] theorem State.setReg_served (a : Nat) (v : Word) : (s.setReg a v).served = s.served := rfl
@[simp] theorem State.setReg_conns (a : Nat) (v : Word) : (s.setReg a v).conns = s.conns := rfl
@[simp] theorem State.setReg_pcie (a : Nat) (v : Word) : (s.setReg a v).pcie = s.pcie := rfl
@[simp] theorem State.setReg_service (a : Nat) (v : Word) : (s.setReg a v).service = s.service := rfl
@[simp] theorem State.setReg_inPairs (a : Nat) (v : Word) : (s.setReg a v).inPairs = s.inPairs := rfl
@[simp] theorem State.setReg_inUnit (a : Nat) (v : Word) : (s.setReg a v).inUnit = s.inUnit := rfl
@[simp] theorem State.setReg_outPairs (a : Nat) (v : Word) : (s.setReg a v).outPairs = s.outPairs := rfl
@[simp] theorem State.setReg_twin (a : Nat) (v : Word) : (s.setReg a v).twin = s.twin := rfl
@[simp] theorem State.setReg_twins (a : Nat) (v : Word) : (s.setReg a v).twins = s.twins := rfl
@[simp] theorem State.setReg_power (a : Nat) (v : Word) : (s.setReg a v).power = s.power := rfl
@[simp] theorem State.setReg_pwr (a : Nat) (v : Word) : (s.setReg a v).pwr = s.pwr := rfl
@[simp] theorem State.setReg_bist (a : Nat) (v : Word) : (s.setReg a v).bist = s.bist := rfl
@[simp] theorem State.setReg_sec (a : Nat) (v : Word) : (s.setReg a v).sec = s.sec := rfl
@[simp] theorem State.setReg_wire (a : Nat) (v : Word) : (s.setReg a v).wire = s.wire := rfl
@[simp] theorem State.setReg_droverIrq (a : Nat) (v : Word) : (s.setReg a v).droverIrq = s.droverIrq := rfl
@[simp] theorem State.setReg_debugger (a : Nat) (v : Word) : (s.setReg a v).debugger = s.debugger := rfl
@[simp] theorem State.setReg_debugData (a : Nat) (v : Word) : (s.setReg a v).debugData = s.debugData := rfl
@[simp] theorem State.setReg_debugFailed (a : Nat) (v : Word) : (s.setReg a v).debugFailed = s.debugFailed := rfl
@[simp] theorem State.setReg_straps (a : Nat) (v : Word) : (s.setReg a v).straps = s.straps := rfl
@[simp] theorem State.setReg_flash (a : Nat) (v : Word) : (s.setReg a v).flash = s.flash := rfl
@[simp] theorem State.setReg_stamp (a : Nat) (v : Word) : (s.setReg a v).stamp = s.stamp := rfl
@[simp] theorem State.setReg_freeN (a : Nat) (v : Word) : (s.setReg a v).freeN = s.freeN := rfl

@[simp] theorem State.report_pending (r : Report) : (s.report r).pending = s.pending := rfl
@[simp] theorem State.report_clk (r : Report) : (s.report r).clk = s.clk := rfl
@[simp] theorem State.report_regs (r : Report) : (s.report r).regs = s.regs := rfl
@[simp] theorem State.report_mem (r : Report) : (s.report r).mem = s.mem := rfl
@[simp] theorem State.report_memErr (r : Report) : (s.report r).memErr = s.memErr := rfl
@[simp] theorem State.report_writeback (r : Report) : (s.report r).writeback = s.writeback := rfl
@[simp] theorem State.report_fabricFails (r : Report) : (s.report r).fabricFails = s.fabricFails := rfl
@[simp] theorem State.report_cutNodes (r : Report) : (s.report r).cutNodes = s.cutNodes := rfl
@[simp] theorem State.report_releasing (r : Report) : (s.report r).releasing = s.releasing := rfl
@[simp] theorem State.report_yokes (r : Report) : (s.report r).yokes = s.yokes := rfl
@[simp] theorem State.report_spans (r : Report) : (s.report r).spans = s.spans := rfl
@[simp] theorem State.report_folds (r : Report) : (s.report r).folds = s.folds := rfl
@[simp] theorem State.report_dma (r : Report) : (s.report r).dma = s.dma := rfl
@[simp] theorem State.report_fm (r : Report) : (s.report r).fm = s.fm := rfl
@[simp] theorem State.report_fr (r : Report) : (s.report r).fr = s.fr := rfl
@[simp] theorem State.report_aon (r : Report) : (s.report r).aon = s.aon := rfl
@[simp] theorem State.report_xch (r : Report) : (s.report r).xch = s.xch := rfl
@[simp] theorem State.report_slotPlan (r : Report) : (s.report r).slotPlan = s.slotPlan := rfl
@[simp] theorem State.report_slotLent (r : Report) : (s.report r).slotLent = s.slotLent := rfl
@[simp] theorem State.report_queues (r : Report) : (s.report r).queues = s.queues := rfl
@[simp] theorem State.report_linkUp (r : Report) : (s.report r).linkUp = s.linkUp := rfl
@[simp] theorem State.report_gateAt (r : Report) : (s.report r).gateAt = s.gateAt := rfl
@[simp] theorem State.report_served (r : Report) : (s.report r).served = s.served := rfl
@[simp] theorem State.report_conns (r : Report) : (s.report r).conns = s.conns := rfl
@[simp] theorem State.report_pcie (r : Report) : (s.report r).pcie = s.pcie := rfl
@[simp] theorem State.report_service (r : Report) : (s.report r).service = s.service := rfl
@[simp] theorem State.report_inPairs (r : Report) : (s.report r).inPairs = s.inPairs := rfl
@[simp] theorem State.report_inUnit (r : Report) : (s.report r).inUnit = s.inUnit := rfl
@[simp] theorem State.report_outPairs (r : Report) : (s.report r).outPairs = s.outPairs := rfl
@[simp] theorem State.report_twin (r : Report) : (s.report r).twin = s.twin := rfl
@[simp] theorem State.report_twins (r : Report) : (s.report r).twins = s.twins := rfl
@[simp] theorem State.report_power (r : Report) : (s.report r).power = s.power := rfl
@[simp] theorem State.report_pwr (r : Report) : (s.report r).pwr = s.pwr := rfl
@[simp] theorem State.report_bist (r : Report) : (s.report r).bist = s.bist := rfl
@[simp] theorem State.report_sec (r : Report) : (s.report r).sec = s.sec := rfl
@[simp] theorem State.report_wire (r : Report) : (s.report r).wire = s.wire := rfl
@[simp] theorem State.report_droverIrq (r : Report) : (s.report r).droverIrq = s.droverIrq := rfl
@[simp] theorem State.report_debugger (r : Report) : (s.report r).debugger = s.debugger := rfl
@[simp] theorem State.report_debugData (r : Report) : (s.report r).debugData = s.debugData := rfl
@[simp] theorem State.report_debugFailed (r : Report) : (s.report r).debugFailed = s.debugFailed := rfl
@[simp] theorem State.report_straps (r : Report) : (s.report r).straps = s.straps := rfl
@[simp] theorem State.report_flash (r : Report) : (s.report r).flash = s.flash := rfl
@[simp] theorem State.report_stamp (r : Report) : (s.report r).stamp = s.stamp := rfl
@[simp] theorem State.report_freeN (r : Report) : (s.report r).freeN = s.freeN := rfl

@[simp] theorem State.setDma_pending (c : DmaId) (d : Dma) : (s.setDma c d).pending = s.pending := rfl
@[simp] theorem State.setDma_clk (c : DmaId) (d : Dma) : (s.setDma c d).clk = s.clk := rfl
@[simp] theorem State.setDma_regs (c : DmaId) (d : Dma) : (s.setDma c d).regs = s.regs := rfl
@[simp] theorem State.setDma_mem (c : DmaId) (d : Dma) : (s.setDma c d).mem = s.mem := rfl
@[simp] theorem State.setDma_memErr (c : DmaId) (d : Dma) : (s.setDma c d).memErr = s.memErr := rfl
@[simp] theorem State.setDma_writeback (c : DmaId) (d : Dma) : (s.setDma c d).writeback = s.writeback := rfl
@[simp] theorem State.setDma_fabricFails (c : DmaId) (d : Dma) : (s.setDma c d).fabricFails = s.fabricFails := rfl
@[simp] theorem State.setDma_cutNodes (c : DmaId) (d : Dma) : (s.setDma c d).cutNodes = s.cutNodes := rfl
@[simp] theorem State.setDma_releasing (c : DmaId) (d : Dma) : (s.setDma c d).releasing = s.releasing := rfl
@[simp] theorem State.setDma_yokes (c : DmaId) (d : Dma) : (s.setDma c d).yokes = s.yokes := rfl
@[simp] theorem State.setDma_spans (c : DmaId) (d : Dma) : (s.setDma c d).spans = s.spans := rfl
@[simp] theorem State.setDma_folds (c : DmaId) (d : Dma) : (s.setDma c d).folds = s.folds := rfl
@[simp] theorem State.setDma_reports (c : DmaId) (d : Dma) : (s.setDma c d).reports = s.reports := rfl
@[simp] theorem State.setDma_fm (c : DmaId) (d : Dma) : (s.setDma c d).fm = s.fm := rfl
@[simp] theorem State.setDma_fr (c : DmaId) (d : Dma) : (s.setDma c d).fr = s.fr := rfl
@[simp] theorem State.setDma_aon (c : DmaId) (d : Dma) : (s.setDma c d).aon = s.aon := rfl
@[simp] theorem State.setDma_xch (c : DmaId) (d : Dma) : (s.setDma c d).xch = s.xch := rfl
@[simp] theorem State.setDma_slotPlan (c : DmaId) (d : Dma) : (s.setDma c d).slotPlan = s.slotPlan := rfl
@[simp] theorem State.setDma_slotLent (c : DmaId) (d : Dma) : (s.setDma c d).slotLent = s.slotLent := rfl
@[simp] theorem State.setDma_queues (c : DmaId) (d : Dma) : (s.setDma c d).queues = s.queues := rfl
@[simp] theorem State.setDma_linkUp (c : DmaId) (d : Dma) : (s.setDma c d).linkUp = s.linkUp := rfl
@[simp] theorem State.setDma_gateAt (c : DmaId) (d : Dma) : (s.setDma c d).gateAt = s.gateAt := rfl
@[simp] theorem State.setDma_served (c : DmaId) (d : Dma) : (s.setDma c d).served = s.served := rfl
@[simp] theorem State.setDma_conns (c : DmaId) (d : Dma) : (s.setDma c d).conns = s.conns := rfl
@[simp] theorem State.setDma_pcie (c : DmaId) (d : Dma) : (s.setDma c d).pcie = s.pcie := rfl
@[simp] theorem State.setDma_service (c : DmaId) (d : Dma) : (s.setDma c d).service = s.service := rfl
@[simp] theorem State.setDma_inPairs (c : DmaId) (d : Dma) : (s.setDma c d).inPairs = s.inPairs := rfl
@[simp] theorem State.setDma_inUnit (c : DmaId) (d : Dma) : (s.setDma c d).inUnit = s.inUnit := rfl
@[simp] theorem State.setDma_outPairs (c : DmaId) (d : Dma) : (s.setDma c d).outPairs = s.outPairs := rfl
@[simp] theorem State.setDma_twin (c : DmaId) (d : Dma) : (s.setDma c d).twin = s.twin := rfl
@[simp] theorem State.setDma_twins (c : DmaId) (d : Dma) : (s.setDma c d).twins = s.twins := rfl
@[simp] theorem State.setDma_power (c : DmaId) (d : Dma) : (s.setDma c d).power = s.power := rfl
@[simp] theorem State.setDma_pwr (c : DmaId) (d : Dma) : (s.setDma c d).pwr = s.pwr := rfl
@[simp] theorem State.setDma_bist (c : DmaId) (d : Dma) : (s.setDma c d).bist = s.bist := rfl
@[simp] theorem State.setDma_sec (c : DmaId) (d : Dma) : (s.setDma c d).sec = s.sec := rfl
@[simp] theorem State.setDma_wire (c : DmaId) (d : Dma) : (s.setDma c d).wire = s.wire := rfl
@[simp] theorem State.setDma_droverIrq (c : DmaId) (d : Dma) : (s.setDma c d).droverIrq = s.droverIrq := rfl
@[simp] theorem State.setDma_debugger (c : DmaId) (d : Dma) : (s.setDma c d).debugger = s.debugger := rfl
@[simp] theorem State.setDma_debugData (c : DmaId) (d : Dma) : (s.setDma c d).debugData = s.debugData := rfl
@[simp] theorem State.setDma_debugFailed (c : DmaId) (d : Dma) : (s.setDma c d).debugFailed = s.debugFailed := rfl
@[simp] theorem State.setDma_straps (c : DmaId) (d : Dma) : (s.setDma c d).straps = s.straps := rfl
@[simp] theorem State.setDma_flash (c : DmaId) (d : Dma) : (s.setDma c d).flash = s.flash := rfl
@[simp] theorem State.setDma_stamp (c : DmaId) (d : Dma) : (s.setDma c d).stamp = s.stamp := rfl
@[simp] theorem State.setDma_freeN (c : DmaId) (d : Dma) : (s.setDma c d).freeN = s.freeN := rfl

@[simp] theorem State.setQueue_pending (p q : Nat) (k : PortQueue) : (s.setQueue p q k).pending = s.pending := rfl
@[simp] theorem State.setQueue_clk (p q : Nat) (k : PortQueue) : (s.setQueue p q k).clk = s.clk := rfl
@[simp] theorem State.setQueue_regs (p q : Nat) (k : PortQueue) : (s.setQueue p q k).regs = s.regs := rfl
@[simp] theorem State.setQueue_mem (p q : Nat) (k : PortQueue) : (s.setQueue p q k).mem = s.mem := rfl
@[simp] theorem State.setQueue_memErr (p q : Nat) (k : PortQueue) : (s.setQueue p q k).memErr = s.memErr := rfl
@[simp] theorem State.setQueue_writeback (p q : Nat) (k : PortQueue) : (s.setQueue p q k).writeback = s.writeback := rfl
@[simp] theorem State.setQueue_fabricFails (p q : Nat) (k : PortQueue) : (s.setQueue p q k).fabricFails = s.fabricFails := rfl
@[simp] theorem State.setQueue_cutNodes (p q : Nat) (k : PortQueue) : (s.setQueue p q k).cutNodes = s.cutNodes := rfl
@[simp] theorem State.setQueue_releasing (p q : Nat) (k : PortQueue) : (s.setQueue p q k).releasing = s.releasing := rfl
@[simp] theorem State.setQueue_yokes (p q : Nat) (k : PortQueue) : (s.setQueue p q k).yokes = s.yokes := rfl
@[simp] theorem State.setQueue_spans (p q : Nat) (k : PortQueue) : (s.setQueue p q k).spans = s.spans := rfl
@[simp] theorem State.setQueue_folds (p q : Nat) (k : PortQueue) : (s.setQueue p q k).folds = s.folds := rfl
@[simp] theorem State.setQueue_dma (p q : Nat) (k : PortQueue) : (s.setQueue p q k).dma = s.dma := rfl
@[simp] theorem State.setQueue_reports (p q : Nat) (k : PortQueue) : (s.setQueue p q k).reports = s.reports := rfl
@[simp] theorem State.setQueue_fm (p q : Nat) (k : PortQueue) : (s.setQueue p q k).fm = s.fm := rfl
@[simp] theorem State.setQueue_fr (p q : Nat) (k : PortQueue) : (s.setQueue p q k).fr = s.fr := rfl
@[simp] theorem State.setQueue_aon (p q : Nat) (k : PortQueue) : (s.setQueue p q k).aon = s.aon := rfl
@[simp] theorem State.setQueue_xch (p q : Nat) (k : PortQueue) : (s.setQueue p q k).xch = s.xch := rfl
@[simp] theorem State.setQueue_slotPlan (p q : Nat) (k : PortQueue) : (s.setQueue p q k).slotPlan = s.slotPlan := rfl
@[simp] theorem State.setQueue_slotLent (p q : Nat) (k : PortQueue) : (s.setQueue p q k).slotLent = s.slotLent := rfl
@[simp] theorem State.setQueue_linkUp (p q : Nat) (k : PortQueue) : (s.setQueue p q k).linkUp = s.linkUp := rfl
@[simp] theorem State.setQueue_gateAt (p q : Nat) (k : PortQueue) : (s.setQueue p q k).gateAt = s.gateAt := rfl
@[simp] theorem State.setQueue_served (p q : Nat) (k : PortQueue) : (s.setQueue p q k).served = s.served := rfl
@[simp] theorem State.setQueue_conns (p q : Nat) (k : PortQueue) : (s.setQueue p q k).conns = s.conns := rfl
@[simp] theorem State.setQueue_pcie (p q : Nat) (k : PortQueue) : (s.setQueue p q k).pcie = s.pcie := rfl
@[simp] theorem State.setQueue_service (p q : Nat) (k : PortQueue) : (s.setQueue p q k).service = s.service := rfl
@[simp] theorem State.setQueue_inPairs (p q : Nat) (k : PortQueue) : (s.setQueue p q k).inPairs = s.inPairs := rfl
@[simp] theorem State.setQueue_inUnit (p q : Nat) (k : PortQueue) : (s.setQueue p q k).inUnit = s.inUnit := rfl
@[simp] theorem State.setQueue_outPairs (p q : Nat) (k : PortQueue) : (s.setQueue p q k).outPairs = s.outPairs := rfl
@[simp] theorem State.setQueue_twin (p q : Nat) (k : PortQueue) : (s.setQueue p q k).twin = s.twin := rfl
@[simp] theorem State.setQueue_twins (p q : Nat) (k : PortQueue) : (s.setQueue p q k).twins = s.twins := rfl
@[simp] theorem State.setQueue_power (p q : Nat) (k : PortQueue) : (s.setQueue p q k).power = s.power := rfl
@[simp] theorem State.setQueue_pwr (p q : Nat) (k : PortQueue) : (s.setQueue p q k).pwr = s.pwr := rfl
@[simp] theorem State.setQueue_bist (p q : Nat) (k : PortQueue) : (s.setQueue p q k).bist = s.bist := rfl
@[simp] theorem State.setQueue_sec (p q : Nat) (k : PortQueue) : (s.setQueue p q k).sec = s.sec := rfl
@[simp] theorem State.setQueue_wire (p q : Nat) (k : PortQueue) : (s.setQueue p q k).wire = s.wire := rfl
@[simp] theorem State.setQueue_droverIrq (p q : Nat) (k : PortQueue) : (s.setQueue p q k).droverIrq = s.droverIrq := rfl
@[simp] theorem State.setQueue_debugger (p q : Nat) (k : PortQueue) : (s.setQueue p q k).debugger = s.debugger := rfl
@[simp] theorem State.setQueue_debugData (p q : Nat) (k : PortQueue) : (s.setQueue p q k).debugData = s.debugData := rfl
@[simp] theorem State.setQueue_debugFailed (p q : Nat) (k : PortQueue) : (s.setQueue p q k).debugFailed = s.debugFailed := rfl
@[simp] theorem State.setQueue_straps (p q : Nat) (k : PortQueue) : (s.setQueue p q k).straps = s.straps := rfl
@[simp] theorem State.setQueue_flash (p q : Nat) (k : PortQueue) : (s.setQueue p q k).flash = s.flash := rfl
@[simp] theorem State.setQueue_stamp (p q : Nat) (k : PortQueue) : (s.setQueue p q k).stamp = s.stamp := rfl
@[simp] theorem State.setQueue_freeN (p q : Nat) (k : PortQueue) : (s.setQueue p q k).freeN = s.freeN := rfl

@[simp] theorem State.setOutPair_pending (n : Nat) (o : OutPair) : (s.setOutPair n o).pending = s.pending := rfl
@[simp] theorem State.setOutPair_clk (n : Nat) (o : OutPair) : (s.setOutPair n o).clk = s.clk := rfl
@[simp] theorem State.setOutPair_regs (n : Nat) (o : OutPair) : (s.setOutPair n o).regs = s.regs := rfl
@[simp] theorem State.setOutPair_mem (n : Nat) (o : OutPair) : (s.setOutPair n o).mem = s.mem := rfl
@[simp] theorem State.setOutPair_memErr (n : Nat) (o : OutPair) : (s.setOutPair n o).memErr = s.memErr := rfl
@[simp] theorem State.setOutPair_writeback (n : Nat) (o : OutPair) : (s.setOutPair n o).writeback = s.writeback := rfl
@[simp] theorem State.setOutPair_fabricFails (n : Nat) (o : OutPair) : (s.setOutPair n o).fabricFails = s.fabricFails := rfl
@[simp] theorem State.setOutPair_cutNodes (n : Nat) (o : OutPair) : (s.setOutPair n o).cutNodes = s.cutNodes := rfl
@[simp] theorem State.setOutPair_releasing (n : Nat) (o : OutPair) : (s.setOutPair n o).releasing = s.releasing := rfl
@[simp] theorem State.setOutPair_yokes (n : Nat) (o : OutPair) : (s.setOutPair n o).yokes = s.yokes := rfl
@[simp] theorem State.setOutPair_spans (n : Nat) (o : OutPair) : (s.setOutPair n o).spans = s.spans := rfl
@[simp] theorem State.setOutPair_folds (n : Nat) (o : OutPair) : (s.setOutPair n o).folds = s.folds := rfl
@[simp] theorem State.setOutPair_dma (n : Nat) (o : OutPair) : (s.setOutPair n o).dma = s.dma := rfl
@[simp] theorem State.setOutPair_reports (n : Nat) (o : OutPair) : (s.setOutPair n o).reports = s.reports := rfl
@[simp] theorem State.setOutPair_fm (n : Nat) (o : OutPair) : (s.setOutPair n o).fm = s.fm := rfl
@[simp] theorem State.setOutPair_fr (n : Nat) (o : OutPair) : (s.setOutPair n o).fr = s.fr := rfl
@[simp] theorem State.setOutPair_aon (n : Nat) (o : OutPair) : (s.setOutPair n o).aon = s.aon := rfl
@[simp] theorem State.setOutPair_xch (n : Nat) (o : OutPair) : (s.setOutPair n o).xch = s.xch := rfl
@[simp] theorem State.setOutPair_slotPlan (n : Nat) (o : OutPair) : (s.setOutPair n o).slotPlan = s.slotPlan := rfl
@[simp] theorem State.setOutPair_slotLent (n : Nat) (o : OutPair) : (s.setOutPair n o).slotLent = s.slotLent := rfl
@[simp] theorem State.setOutPair_queues (n : Nat) (o : OutPair) : (s.setOutPair n o).queues = s.queues := rfl
@[simp] theorem State.setOutPair_linkUp (n : Nat) (o : OutPair) : (s.setOutPair n o).linkUp = s.linkUp := rfl
@[simp] theorem State.setOutPair_gateAt (n : Nat) (o : OutPair) : (s.setOutPair n o).gateAt = s.gateAt := rfl
@[simp] theorem State.setOutPair_served (n : Nat) (o : OutPair) : (s.setOutPair n o).served = s.served := rfl
@[simp] theorem State.setOutPair_conns (n : Nat) (o : OutPair) : (s.setOutPair n o).conns = s.conns := rfl
@[simp] theorem State.setOutPair_pcie (n : Nat) (o : OutPair) : (s.setOutPair n o).pcie = s.pcie := rfl
@[simp] theorem State.setOutPair_service (n : Nat) (o : OutPair) : (s.setOutPair n o).service = s.service := rfl
@[simp] theorem State.setOutPair_inPairs (n : Nat) (o : OutPair) : (s.setOutPair n o).inPairs = s.inPairs := rfl
@[simp] theorem State.setOutPair_inUnit (n : Nat) (o : OutPair) : (s.setOutPair n o).inUnit = s.inUnit := rfl
@[simp] theorem State.setOutPair_twin (n : Nat) (o : OutPair) : (s.setOutPair n o).twin = s.twin := rfl
@[simp] theorem State.setOutPair_twins (n : Nat) (o : OutPair) : (s.setOutPair n o).twins = s.twins := rfl
@[simp] theorem State.setOutPair_power (n : Nat) (o : OutPair) : (s.setOutPair n o).power = s.power := rfl
@[simp] theorem State.setOutPair_pwr (n : Nat) (o : OutPair) : (s.setOutPair n o).pwr = s.pwr := rfl
@[simp] theorem State.setOutPair_bist (n : Nat) (o : OutPair) : (s.setOutPair n o).bist = s.bist := rfl
@[simp] theorem State.setOutPair_sec (n : Nat) (o : OutPair) : (s.setOutPair n o).sec = s.sec := rfl
@[simp] theorem State.setOutPair_wire (n : Nat) (o : OutPair) : (s.setOutPair n o).wire = s.wire := rfl
@[simp] theorem State.setOutPair_droverIrq (n : Nat) (o : OutPair) : (s.setOutPair n o).droverIrq = s.droverIrq := rfl
@[simp] theorem State.setOutPair_debugger (n : Nat) (o : OutPair) : (s.setOutPair n o).debugger = s.debugger := rfl
@[simp] theorem State.setOutPair_debugData (n : Nat) (o : OutPair) : (s.setOutPair n o).debugData = s.debugData := rfl
@[simp] theorem State.setOutPair_debugFailed (n : Nat) (o : OutPair) : (s.setOutPair n o).debugFailed = s.debugFailed := rfl
@[simp] theorem State.setOutPair_straps (n : Nat) (o : OutPair) : (s.setOutPair n o).straps = s.straps := rfl
@[simp] theorem State.setOutPair_flash (n : Nat) (o : OutPair) : (s.setOutPair n o).flash = s.flash := rfl
@[simp] theorem State.setOutPair_stamp (n : Nat) (o : OutPair) : (s.setOutPair n o).stamp = s.stamp := rfl
@[simp] theorem State.setOutPair_freeN (n : Nat) (o : OutPair) : (s.setOutPair n o).freeN = s.freeN := rfl

@[simp] theorem State.setInPair_pending (n : Nat) (o : InPair) : (s.setInPair n o).pending = s.pending := rfl
@[simp] theorem State.setInPair_clk (n : Nat) (o : InPair) : (s.setInPair n o).clk = s.clk := rfl
@[simp] theorem State.setInPair_regs (n : Nat) (o : InPair) : (s.setInPair n o).regs = s.regs := rfl
@[simp] theorem State.setInPair_mem (n : Nat) (o : InPair) : (s.setInPair n o).mem = s.mem := rfl
@[simp] theorem State.setInPair_memErr (n : Nat) (o : InPair) : (s.setInPair n o).memErr = s.memErr := rfl
@[simp] theorem State.setInPair_writeback (n : Nat) (o : InPair) : (s.setInPair n o).writeback = s.writeback := rfl
@[simp] theorem State.setInPair_fabricFails (n : Nat) (o : InPair) : (s.setInPair n o).fabricFails = s.fabricFails := rfl
@[simp] theorem State.setInPair_cutNodes (n : Nat) (o : InPair) : (s.setInPair n o).cutNodes = s.cutNodes := rfl
@[simp] theorem State.setInPair_releasing (n : Nat) (o : InPair) : (s.setInPair n o).releasing = s.releasing := rfl
@[simp] theorem State.setInPair_yokes (n : Nat) (o : InPair) : (s.setInPair n o).yokes = s.yokes := rfl
@[simp] theorem State.setInPair_spans (n : Nat) (o : InPair) : (s.setInPair n o).spans = s.spans := rfl
@[simp] theorem State.setInPair_folds (n : Nat) (o : InPair) : (s.setInPair n o).folds = s.folds := rfl
@[simp] theorem State.setInPair_dma (n : Nat) (o : InPair) : (s.setInPair n o).dma = s.dma := rfl
@[simp] theorem State.setInPair_reports (n : Nat) (o : InPair) : (s.setInPair n o).reports = s.reports := rfl
@[simp] theorem State.setInPair_fm (n : Nat) (o : InPair) : (s.setInPair n o).fm = s.fm := rfl
@[simp] theorem State.setInPair_fr (n : Nat) (o : InPair) : (s.setInPair n o).fr = s.fr := rfl
@[simp] theorem State.setInPair_aon (n : Nat) (o : InPair) : (s.setInPair n o).aon = s.aon := rfl
@[simp] theorem State.setInPair_xch (n : Nat) (o : InPair) : (s.setInPair n o).xch = s.xch := rfl
@[simp] theorem State.setInPair_slotPlan (n : Nat) (o : InPair) : (s.setInPair n o).slotPlan = s.slotPlan := rfl
@[simp] theorem State.setInPair_slotLent (n : Nat) (o : InPair) : (s.setInPair n o).slotLent = s.slotLent := rfl
@[simp] theorem State.setInPair_queues (n : Nat) (o : InPair) : (s.setInPair n o).queues = s.queues := rfl
@[simp] theorem State.setInPair_linkUp (n : Nat) (o : InPair) : (s.setInPair n o).linkUp = s.linkUp := rfl
@[simp] theorem State.setInPair_gateAt (n : Nat) (o : InPair) : (s.setInPair n o).gateAt = s.gateAt := rfl
@[simp] theorem State.setInPair_served (n : Nat) (o : InPair) : (s.setInPair n o).served = s.served := rfl
@[simp] theorem State.setInPair_conns (n : Nat) (o : InPair) : (s.setInPair n o).conns = s.conns := rfl
@[simp] theorem State.setInPair_pcie (n : Nat) (o : InPair) : (s.setInPair n o).pcie = s.pcie := rfl
@[simp] theorem State.setInPair_service (n : Nat) (o : InPair) : (s.setInPair n o).service = s.service := rfl
@[simp] theorem State.setInPair_inUnit (n : Nat) (o : InPair) : (s.setInPair n o).inUnit = s.inUnit := rfl
@[simp] theorem State.setInPair_outPairs (n : Nat) (o : InPair) : (s.setInPair n o).outPairs = s.outPairs := rfl
@[simp] theorem State.setInPair_twin (n : Nat) (o : InPair) : (s.setInPair n o).twin = s.twin := rfl
@[simp] theorem State.setInPair_twins (n : Nat) (o : InPair) : (s.setInPair n o).twins = s.twins := rfl
@[simp] theorem State.setInPair_power (n : Nat) (o : InPair) : (s.setInPair n o).power = s.power := rfl
@[simp] theorem State.setInPair_pwr (n : Nat) (o : InPair) : (s.setInPair n o).pwr = s.pwr := rfl
@[simp] theorem State.setInPair_bist (n : Nat) (o : InPair) : (s.setInPair n o).bist = s.bist := rfl
@[simp] theorem State.setInPair_sec (n : Nat) (o : InPair) : (s.setInPair n o).sec = s.sec := rfl
@[simp] theorem State.setInPair_wire (n : Nat) (o : InPair) : (s.setInPair n o).wire = s.wire := rfl
@[simp] theorem State.setInPair_droverIrq (n : Nat) (o : InPair) : (s.setInPair n o).droverIrq = s.droverIrq := rfl
@[simp] theorem State.setInPair_debugger (n : Nat) (o : InPair) : (s.setInPair n o).debugger = s.debugger := rfl
@[simp] theorem State.setInPair_debugData (n : Nat) (o : InPair) : (s.setInPair n o).debugData = s.debugData := rfl
@[simp] theorem State.setInPair_debugFailed (n : Nat) (o : InPair) : (s.setInPair n o).debugFailed = s.debugFailed := rfl
@[simp] theorem State.setInPair_straps (n : Nat) (o : InPair) : (s.setInPair n o).straps = s.straps := rfl
@[simp] theorem State.setInPair_flash (n : Nat) (o : InPair) : (s.setInPair n o).flash = s.flash := rfl
@[simp] theorem State.setInPair_stamp (n : Nat) (o : InPair) : (s.setInPair n o).stamp = s.stamp := rfl
@[simp] theorem State.setInPair_freeN (n : Nat) (o : InPair) : (s.setInPair n o).freeN = s.freeN := rfl

@[simp] theorem State.emit_pending (m : WireMsg) : (s.emit m).pending = s.pending := rfl
@[simp] theorem State.emit_clk (m : WireMsg) : (s.emit m).clk = s.clk := rfl
@[simp] theorem State.emit_regs (m : WireMsg) : (s.emit m).regs = s.regs := rfl
@[simp] theorem State.emit_mem (m : WireMsg) : (s.emit m).mem = s.mem := rfl
@[simp] theorem State.emit_memErr (m : WireMsg) : (s.emit m).memErr = s.memErr := rfl
@[simp] theorem State.emit_writeback (m : WireMsg) : (s.emit m).writeback = s.writeback := rfl
@[simp] theorem State.emit_fabricFails (m : WireMsg) : (s.emit m).fabricFails = s.fabricFails := rfl
@[simp] theorem State.emit_cutNodes (m : WireMsg) : (s.emit m).cutNodes = s.cutNodes := rfl
@[simp] theorem State.emit_releasing (m : WireMsg) : (s.emit m).releasing = s.releasing := rfl
@[simp] theorem State.emit_yokes (m : WireMsg) : (s.emit m).yokes = s.yokes := rfl
@[simp] theorem State.emit_spans (m : WireMsg) : (s.emit m).spans = s.spans := rfl
@[simp] theorem State.emit_folds (m : WireMsg) : (s.emit m).folds = s.folds := rfl
@[simp] theorem State.emit_dma (m : WireMsg) : (s.emit m).dma = s.dma := rfl
@[simp] theorem State.emit_reports (m : WireMsg) : (s.emit m).reports = s.reports := rfl
@[simp] theorem State.emit_fm (m : WireMsg) : (s.emit m).fm = s.fm := rfl
@[simp] theorem State.emit_fr (m : WireMsg) : (s.emit m).fr = s.fr := rfl
@[simp] theorem State.emit_aon (m : WireMsg) : (s.emit m).aon = s.aon := rfl
@[simp] theorem State.emit_xch (m : WireMsg) : (s.emit m).xch = s.xch := rfl
@[simp] theorem State.emit_slotPlan (m : WireMsg) : (s.emit m).slotPlan = s.slotPlan := rfl
@[simp] theorem State.emit_slotLent (m : WireMsg) : (s.emit m).slotLent = s.slotLent := rfl
@[simp] theorem State.emit_queues (m : WireMsg) : (s.emit m).queues = s.queues := rfl
@[simp] theorem State.emit_linkUp (m : WireMsg) : (s.emit m).linkUp = s.linkUp := rfl
@[simp] theorem State.emit_gateAt (m : WireMsg) : (s.emit m).gateAt = s.gateAt := rfl
@[simp] theorem State.emit_served (m : WireMsg) : (s.emit m).served = s.served := rfl
@[simp] theorem State.emit_conns (m : WireMsg) : (s.emit m).conns = s.conns := rfl
@[simp] theorem State.emit_pcie (m : WireMsg) : (s.emit m).pcie = s.pcie := rfl
@[simp] theorem State.emit_service (m : WireMsg) : (s.emit m).service = s.service := rfl
@[simp] theorem State.emit_inPairs (m : WireMsg) : (s.emit m).inPairs = s.inPairs := rfl
@[simp] theorem State.emit_inUnit (m : WireMsg) : (s.emit m).inUnit = s.inUnit := rfl
@[simp] theorem State.emit_outPairs (m : WireMsg) : (s.emit m).outPairs = s.outPairs := rfl
@[simp] theorem State.emit_twin (m : WireMsg) : (s.emit m).twin = s.twin := rfl
@[simp] theorem State.emit_twins (m : WireMsg) : (s.emit m).twins = s.twins := rfl
@[simp] theorem State.emit_power (m : WireMsg) : (s.emit m).power = s.power := rfl
@[simp] theorem State.emit_pwr (m : WireMsg) : (s.emit m).pwr = s.pwr := rfl
@[simp] theorem State.emit_bist (m : WireMsg) : (s.emit m).bist = s.bist := rfl
@[simp] theorem State.emit_sec (m : WireMsg) : (s.emit m).sec = s.sec := rfl
@[simp] theorem State.emit_droverIrq (m : WireMsg) : (s.emit m).droverIrq = s.droverIrq := rfl
@[simp] theorem State.emit_debugger (m : WireMsg) : (s.emit m).debugger = s.debugger := rfl
@[simp] theorem State.emit_debugData (m : WireMsg) : (s.emit m).debugData = s.debugData := rfl
@[simp] theorem State.emit_debugFailed (m : WireMsg) : (s.emit m).debugFailed = s.debugFailed := rfl
@[simp] theorem State.emit_straps (m : WireMsg) : (s.emit m).straps = s.straps := rfl
@[simp] theorem State.emit_flash (m : WireMsg) : (s.emit m).flash = s.flash := rfl
@[simp] theorem State.emit_stamp (m : WireMsg) : (s.emit m).stamp = s.stamp := rfl
@[simp] theorem State.emit_freeN (m : WireMsg) : (s.emit m).freeN = s.freeN := rfl

@[simp] theorem State.setTwinFold_pending (f : FoldId) (t : TwinFold) : (s.setTwinFold f t).pending = s.pending := rfl
@[simp] theorem State.setTwinFold_clk (f : FoldId) (t : TwinFold) : (s.setTwinFold f t).clk = s.clk := rfl
@[simp] theorem State.setTwinFold_regs (f : FoldId) (t : TwinFold) : (s.setTwinFold f t).regs = s.regs := rfl
@[simp] theorem State.setTwinFold_mem (f : FoldId) (t : TwinFold) : (s.setTwinFold f t).mem = s.mem := rfl
@[simp] theorem State.setTwinFold_memErr (f : FoldId) (t : TwinFold) : (s.setTwinFold f t).memErr = s.memErr := rfl
@[simp] theorem State.setTwinFold_writeback (f : FoldId) (t : TwinFold) : (s.setTwinFold f t).writeback = s.writeback := rfl
@[simp] theorem State.setTwinFold_fabricFails (f : FoldId) (t : TwinFold) : (s.setTwinFold f t).fabricFails = s.fabricFails := rfl
@[simp] theorem State.setTwinFold_cutNodes (f : FoldId) (t : TwinFold) : (s.setTwinFold f t).cutNodes = s.cutNodes := rfl
@[simp] theorem State.setTwinFold_releasing (f : FoldId) (t : TwinFold) : (s.setTwinFold f t).releasing = s.releasing := rfl
@[simp] theorem State.setTwinFold_yokes (f : FoldId) (t : TwinFold) : (s.setTwinFold f t).yokes = s.yokes := rfl
@[simp] theorem State.setTwinFold_spans (f : FoldId) (t : TwinFold) : (s.setTwinFold f t).spans = s.spans := rfl
@[simp] theorem State.setTwinFold_folds (f : FoldId) (t : TwinFold) : (s.setTwinFold f t).folds = s.folds := rfl
@[simp] theorem State.setTwinFold_dma (f : FoldId) (t : TwinFold) : (s.setTwinFold f t).dma = s.dma := rfl
@[simp] theorem State.setTwinFold_reports (f : FoldId) (t : TwinFold) : (s.setTwinFold f t).reports = s.reports := rfl
@[simp] theorem State.setTwinFold_fm (f : FoldId) (t : TwinFold) : (s.setTwinFold f t).fm = s.fm := rfl
@[simp] theorem State.setTwinFold_fr (f : FoldId) (t : TwinFold) : (s.setTwinFold f t).fr = s.fr := rfl
@[simp] theorem State.setTwinFold_aon (f : FoldId) (t : TwinFold) : (s.setTwinFold f t).aon = s.aon := rfl
@[simp] theorem State.setTwinFold_xch (f : FoldId) (t : TwinFold) : (s.setTwinFold f t).xch = s.xch := rfl
@[simp] theorem State.setTwinFold_slotPlan (f : FoldId) (t : TwinFold) : (s.setTwinFold f t).slotPlan = s.slotPlan := rfl
@[simp] theorem State.setTwinFold_slotLent (f : FoldId) (t : TwinFold) : (s.setTwinFold f t).slotLent = s.slotLent := rfl
@[simp] theorem State.setTwinFold_queues (f : FoldId) (t : TwinFold) : (s.setTwinFold f t).queues = s.queues := rfl
@[simp] theorem State.setTwinFold_linkUp (f : FoldId) (t : TwinFold) : (s.setTwinFold f t).linkUp = s.linkUp := rfl
@[simp] theorem State.setTwinFold_gateAt (f : FoldId) (t : TwinFold) : (s.setTwinFold f t).gateAt = s.gateAt := rfl
@[simp] theorem State.setTwinFold_served (f : FoldId) (t : TwinFold) : (s.setTwinFold f t).served = s.served := rfl
@[simp] theorem State.setTwinFold_conns (f : FoldId) (t : TwinFold) : (s.setTwinFold f t).conns = s.conns := rfl
@[simp] theorem State.setTwinFold_pcie (f : FoldId) (t : TwinFold) : (s.setTwinFold f t).pcie = s.pcie := rfl
@[simp] theorem State.setTwinFold_service (f : FoldId) (t : TwinFold) : (s.setTwinFold f t).service = s.service := rfl
@[simp] theorem State.setTwinFold_inPairs (f : FoldId) (t : TwinFold) : (s.setTwinFold f t).inPairs = s.inPairs := rfl
@[simp] theorem State.setTwinFold_inUnit (f : FoldId) (t : TwinFold) : (s.setTwinFold f t).inUnit = s.inUnit := rfl
@[simp] theorem State.setTwinFold_outPairs (f : FoldId) (t : TwinFold) : (s.setTwinFold f t).outPairs = s.outPairs := rfl
@[simp] theorem State.setTwinFold_twin (f : FoldId) (t : TwinFold) : (s.setTwinFold f t).twin = s.twin := rfl
@[simp] theorem State.setTwinFold_power (f : FoldId) (t : TwinFold) : (s.setTwinFold f t).power = s.power := rfl
@[simp] theorem State.setTwinFold_pwr (f : FoldId) (t : TwinFold) : (s.setTwinFold f t).pwr = s.pwr := rfl
@[simp] theorem State.setTwinFold_bist (f : FoldId) (t : TwinFold) : (s.setTwinFold f t).bist = s.bist := rfl
@[simp] theorem State.setTwinFold_sec (f : FoldId) (t : TwinFold) : (s.setTwinFold f t).sec = s.sec := rfl
@[simp] theorem State.setTwinFold_wire (f : FoldId) (t : TwinFold) : (s.setTwinFold f t).wire = s.wire := rfl
@[simp] theorem State.setTwinFold_droverIrq (f : FoldId) (t : TwinFold) : (s.setTwinFold f t).droverIrq = s.droverIrq := rfl
@[simp] theorem State.setTwinFold_debugger (f : FoldId) (t : TwinFold) : (s.setTwinFold f t).debugger = s.debugger := rfl
@[simp] theorem State.setTwinFold_debugData (f : FoldId) (t : TwinFold) : (s.setTwinFold f t).debugData = s.debugData := rfl
@[simp] theorem State.setTwinFold_debugFailed (f : FoldId) (t : TwinFold) : (s.setTwinFold f t).debugFailed = s.debugFailed := rfl
@[simp] theorem State.setTwinFold_straps (f : FoldId) (t : TwinFold) : (s.setTwinFold f t).straps = s.straps := rfl
@[simp] theorem State.setTwinFold_flash (f : FoldId) (t : TwinFold) : (s.setTwinFold f t).flash = s.flash := rfl
@[simp] theorem State.setTwinFold_stamp (f : FoldId) (t : TwinFold) : (s.setTwinFold f t).stamp = s.stamp := rfl
@[simp] theorem State.setTwinFold_freeN (f : FoldId) (t : TwinFold) : (s.setTwinFold f t).freeN = s.freeN := rfl

@[simp] theorem State.setYoke_span (y : YokeId) (k : Yoke) (z : SpanId) : (s.setYoke y k).span z = s.span z := rfl
@[simp] theorem State.setYoke_fold (y : YokeId) (k : Yoke) (z : FoldId) : (s.setYoke y k).fold z = s.fold z := rfl
@[simp] theorem State.setYoke_reg (y : YokeId) (k : Yoke) (z : Nat) (w : Word) : (s.setYoke y k).reg z w = s.reg z w := rfl
@[simp] theorem State.setSpan_yoke (sp : SpanId) (k : Span) (z : YokeId) : (s.setSpan sp k).yoke z = s.yoke z := rfl
@[simp] theorem State.setSpan_fold (sp : SpanId) (k : Span) (z : FoldId) : (s.setSpan sp k).fold z = s.fold z := rfl
@[simp] theorem State.setSpan_reg (sp : SpanId) (k : Span) (z : Nat) (w : Word) : (s.setSpan sp k).reg z w = s.reg z w := rfl
@[simp] theorem State.setFold_yoke (f : FoldId) (k : Fold) (z : YokeId) : (s.setFold f k).yoke z = s.yoke z := rfl
@[simp] theorem State.setFold_span (f : FoldId) (k : Fold) (z : SpanId) : (s.setFold f k).span z = s.span z := rfl
@[simp] theorem State.setFold_reg (f : FoldId) (k : Fold) (z : Nat) (w : Word) : (s.setFold f k).reg z w = s.reg z w := rfl
@[simp] theorem State.setReg_yoke (a : Nat) (v : Word) (z : YokeId) : (s.setReg a v).yoke z = s.yoke z := rfl
@[simp] theorem State.setReg_span (a : Nat) (v : Word) (z : SpanId) : (s.setReg a v).span z = s.span z := rfl
@[simp] theorem State.setReg_fold (a : Nat) (v : Word) (z : FoldId) : (s.setReg a v).fold z = s.fold z := rfl
@[simp] theorem State.report_yoke (r : Report) (z : YokeId) : (s.report r).yoke z = s.yoke z := rfl
@[simp] theorem State.report_span (r : Report) (z : SpanId) : (s.report r).span z = s.span z := rfl
@[simp] theorem State.report_fold (r : Report) (z : FoldId) : (s.report r).fold z = s.fold z := rfl
@[simp] theorem State.report_reg (r : Report) (z : Nat) (w : Word) : (s.report r).reg z w = s.reg z w := rfl
@[simp] theorem State.setDma_yoke (c : DmaId) (d : Dma) (z : YokeId) : (s.setDma c d).yoke z = s.yoke z := rfl
@[simp] theorem State.setDma_span (c : DmaId) (d : Dma) (z : SpanId) : (s.setDma c d).span z = s.span z := rfl
@[simp] theorem State.setDma_fold (c : DmaId) (d : Dma) (z : FoldId) : (s.setDma c d).fold z = s.fold z := rfl
@[simp] theorem State.setDma_reg (c : DmaId) (d : Dma) (z : Nat) (w : Word) : (s.setDma c d).reg z w = s.reg z w := rfl
@[simp] theorem State.setQueue_yoke (p q : Nat) (k : PortQueue) (z : YokeId) : (s.setQueue p q k).yoke z = s.yoke z := rfl
@[simp] theorem State.setQueue_span (p q : Nat) (k : PortQueue) (z : SpanId) : (s.setQueue p q k).span z = s.span z := rfl
@[simp] theorem State.setQueue_fold (p q : Nat) (k : PortQueue) (z : FoldId) : (s.setQueue p q k).fold z = s.fold z := rfl
@[simp] theorem State.setQueue_reg (p q : Nat) (k : PortQueue) (z : Nat) (w : Word) : (s.setQueue p q k).reg z w = s.reg z w := rfl
@[simp] theorem State.setOutPair_yoke (n : Nat) (o : OutPair) (z : YokeId) : (s.setOutPair n o).yoke z = s.yoke z := rfl
@[simp] theorem State.setOutPair_span (n : Nat) (o : OutPair) (z : SpanId) : (s.setOutPair n o).span z = s.span z := rfl
@[simp] theorem State.setOutPair_fold (n : Nat) (o : OutPair) (z : FoldId) : (s.setOutPair n o).fold z = s.fold z := rfl
@[simp] theorem State.setOutPair_reg (n : Nat) (o : OutPair) (z : Nat) (w : Word) : (s.setOutPair n o).reg z w = s.reg z w := rfl
@[simp] theorem State.setInPair_yoke (n : Nat) (o : InPair) (z : YokeId) : (s.setInPair n o).yoke z = s.yoke z := rfl
@[simp] theorem State.setInPair_span (n : Nat) (o : InPair) (z : SpanId) : (s.setInPair n o).span z = s.span z := rfl
@[simp] theorem State.setInPair_fold (n : Nat) (o : InPair) (z : FoldId) : (s.setInPair n o).fold z = s.fold z := rfl
@[simp] theorem State.setInPair_reg (n : Nat) (o : InPair) (z : Nat) (w : Word) : (s.setInPair n o).reg z w = s.reg z w := rfl
@[simp] theorem State.emit_yoke (m : WireMsg) (z : YokeId) : (s.emit m).yoke z = s.yoke z := rfl
@[simp] theorem State.emit_span (m : WireMsg) (z : SpanId) : (s.emit m).span z = s.span z := rfl
@[simp] theorem State.emit_fold (m : WireMsg) (z : FoldId) : (s.emit m).fold z = s.fold z := rfl
@[simp] theorem State.emit_reg (m : WireMsg) (z : Nat) (w : Word) : (s.emit m).reg z w = s.reg z w := rfl
@[simp] theorem State.setTwinFold_yoke (f : FoldId) (t : TwinFold) (z : YokeId) : (s.setTwinFold f t).yoke z = s.yoke z := rfl
@[simp] theorem State.setTwinFold_span (f : FoldId) (t : TwinFold) (z : SpanId) : (s.setTwinFold f t).span z = s.span z := rfl
@[simp] theorem State.setTwinFold_fold (f : FoldId) (t : TwinFold) (z : FoldId) : (s.setTwinFold f t).fold z = s.fold z := rfl
@[simp] theorem State.setTwinFold_reg (f : FoldId) (t : TwinFold) (z : Nat) (w : Word) : (s.setTwinFold f t).reg z w = s.reg z w := rfl

@[simp] theorem State.yoke_setYoke_same (i : YokeId) (k : Yoke) : (s.setYoke i k).yoke i = k := kget_kset_same _ _ _ _

theorem State.yoke_setYoke (i j : YokeId) (k : Yoke) : (s.setYoke i k).yoke j = if j = i then k else s.yoke j := kget_kset _ _ _ _ _

theorem State.yoke_setYoke_ne {i j : YokeId} (k : Yoke) (h : j ≠ i) : (s.setYoke i k).yoke j = s.yoke j := kget_kset_ne _ _ _ h

@[simp] theorem State.span_setSpan_same (i : SpanId) (k : Span) : (s.setSpan i k).span i = k := kget_kset_same _ _ _ _

theorem State.span_setSpan (i j : SpanId) (k : Span) : (s.setSpan i k).span j = if j = i then k else s.span j := kget_kset _ _ _ _ _

theorem State.span_setSpan_ne {i j : SpanId} (k : Span) (h : j ≠ i) : (s.setSpan i k).span j = s.span j := kget_kset_ne _ _ _ h

@[simp] theorem State.fold_setFold_same (i : FoldId) (k : Fold) : (s.setFold i k).fold i = k := kget_kset_same _ _ _ _

theorem State.fold_setFold (i j : FoldId) (k : Fold) : (s.setFold i k).fold j = if j = i then k else s.fold j := kget_kset _ _ _ _ _

theorem State.fold_setFold_ne {i j : FoldId} (k : Fold) (h : j ≠ i) : (s.setFold i k).fold j = s.fold j := kget_kset_ne _ _ _ h

@[simp] theorem State.reg_setReg_same (a : Nat) (v w : Word) : (s.setReg a v).reg a w = v := kget_kset_same _ _ _ _

theorem State.reg_setReg (a b : Nat) (v w : Word) : (s.setReg a v).reg b w = if b = a then v else s.reg b w := kget_kset _ _ _ _ _

theorem State.reg_setReg_ne {a b : Nat} (v w : Word) (h : b ≠ a) : (s.setReg a v).reg b w = s.reg b w := kget_kset_ne _ _ _ h

@[simp] theorem State.setYoke_setYoke (i : YokeId) (k j : Yoke) : (s.setYoke i k).setYoke i j = s.setYoke i j := by
  simp [State.setYoke]

@[simp] theorem State.setSpan_setSpan (i : SpanId) (k j : Span) : (s.setSpan i k).setSpan i j = s.setSpan i j := by
  simp [State.setSpan]

@[simp] theorem State.setFold_setFold (i : FoldId) (k j : Fold) : (s.setFold i k).setFold i j = s.setFold i j := by
  simp [State.setFold]

@[simp] theorem State.setReg_setReg (a : Nat) (v w : Word) : (s.setReg a v).setReg a w = s.setReg a w := by
  simp [State.setReg]

end Sys2Proof.Machine
end

