-- ==== Sys2Proof/Laws/Lead.lean ====
section
/-! SUPPORT. When the leading core executes an instruction, and what the yoke then holds. -/

namespace Sys2Proof.Machine

@[simp] theorem State.going_run (s : State) (y : YokeId) : (s.going y).run = (s.yoke y).run := rfl
@[simp] theorem State.going_stalled (s : State) (y : YokeId) : (s.going y).stalled = (s.yoke y).stalled := rfl
@[simp] theorem State.going_bist (s : State) (y : YokeId) : (s.going y).bist = (s.yoke y).bist := rfl
@[simp] theorem State.going_debug (s : State) (y : YokeId) : (s.going y).debug = (s.yoke y).debug := rfl
@[simp] theorem State.going_bpSkip (s : State) (y : YokeId) : (s.going y).bpSkip = (s.yoke y).bpSkip := rfl
@[simp] theorem State.going_lead (s : State) (y : YokeId) : (s.going y).lead = (s.yoke y).lead := rfl
@[simp] theorem State.going_trailC (s : State) (y : YokeId) : (s.going y).trailC = (s.yoke y).trailC := rfl
@[simp] theorem State.going_spec (s : State) (y : YokeId) : (s.going y).spec = (s.yoke y).spec := rfl
@[simp] theorem State.going_fpu (s : State) (y : YokeId) : (s.going y).fpu = (s.yoke y).fpu := rfl
@[simp] theorem State.going_cq (s : State) (y : YokeId) : (s.going y).cq = (s.yoke y).cq := rfl
@[simp] theorem State.going_lvq (s : State) (y : YokeId) : (s.going y).lvq = (s.yoke y).lvq := rfl
@[simp] theorem State.going_fetchLane (s : State) (y : YokeId) : (s.going y).fetchLane = (s.yoke y).fetchLane := rfl
@[simp] theorem State.going_fetchBuf (s : State) (y : YokeId) : (s.going y).fetchBuf = (s.yoke y).fetchBuf := rfl
@[simp] theorem State.going_fetchReq (s : State) (y : YokeId) : (s.going y).fetchReq = (s.yoke y).fetchReq := rfl
@[simp] theorem State.going_loads (s : State) (y : YokeId) : (s.going y).loads = (s.yoke y).loads := rfl
@[simp] theorem State.going_branch (s : State) (y : YokeId) : (s.going y).branch = (s.yoke y).branch := rfl
@[simp] theorem State.going_whb (s : State) (y : YokeId) : (s.going y).whb = (s.yoke y).whb := rfl
@[simp] theorem State.going_interval (s : State) (y : YokeId) : (s.going y).interval = (s.yoke y).interval := rfl
@[simp] theorem State.going_committed (s : State) (y : YokeId) : (s.going y).committed = (s.yoke y).committed := rfl
@[simp] theorem State.going_pend (s : State) (y : YokeId) : (s.going y).pend = (s.yoke y).pend := rfl
@[simp] theorem State.going_ckptDue (s : State) (y : YokeId) : (s.going y).ckptDue = (s.yoke y).ckptDue := rfl
@[simp] theorem State.going_entryEvent (s : State) (y : YokeId) : (s.going y).entryEvent = (s.yoke y).entryEvent := rfl
@[simp] theorem State.going_retired (s : State) (y : YokeId) : (s.going y).retired = (s.yoke y).retired := rfl
@[simp] theorem State.going_ckFc (s : State) (y : YokeId) : (s.going y).ckFc = (s.yoke y).ckFc := rfl
@[simp] theorem State.going_seq (s : State) (y : YokeId) : (s.going y).seq = (s.yoke y).seq := rfl
@[simp] theorem State.going_prev (s : State) (y : YokeId) : (s.going y).prev = (s.yoke y).prev := rfl
@[simp] theorem State.going_mcount (s : State) (y : YokeId) : (s.going y).mcount = (s.yoke y).mcount := rfl
@[simp] theorem State.going_inj (s : State) (y : YokeId) : (s.going y).inj = (s.yoke y).inj := rfl
@[simp] theorem State.going_collapse (s : State) (y : YokeId) : (s.going y).collapse = (s.yoke y).collapse := rfl
@[simp] theorem State.going_deque (s : State) (y : YokeId) : (s.going y).deque = (s.yoke y).deque := rfl
@[simp] theorem State.going_idleFc (s : State) (y : YokeId) : (s.going y).idleFc = (s.yoke y).idleFc := rfl
@[simp] theorem State.going_effects (s : State) (y : YokeId) : (s.going y).effects = (s.yoke y).effects := rfl
@[simp] theorem State.going_heldReports (s : State) (y : YokeId) : (s.going y).heldReports = (s.yoke y).heldReports := rfl
@[simp] theorem State.going_wait (s : State) (y : YokeId) : (s.going y).wait = .none := rfl
@[simp] theorem State.going_replaying (s : State) (y : YokeId) : (s.going y).replaying = false := rfl

section push

variable (k : Yoke) (i : CoreIns) (c : Core) (out : BusOut) (vals : List (QWord × LoadStatus)) (whb : Option Nat) (data : QWord)

@[simp] theorem Yoke.push_run : (k.push i c out vals whb data).run = k.run := by
  unfold Yoke.push; dsimp only; split <;> rfl
@[simp] theorem Yoke.push_stalled : (k.push i c out vals whb data).stalled = k.stalled := by
  unfold Yoke.push; dsimp only; split <;> rfl
@[simp] theorem Yoke.push_bist : (k.push i c out vals whb data).bist = k.bist := by
  unfold Yoke.push; dsimp only; split <;> rfl
@[simp] theorem Yoke.push_debug : (k.push i c out vals whb data).debug = k.debug := by
  unfold Yoke.push; dsimp only; split <;> rfl
@[simp] theorem Yoke.push_replaying : (k.push i c out vals whb data).replaying = k.replaying := by
  unfold Yoke.push; dsimp only; split <;> rfl
@[simp] theorem Yoke.push_trailC : (k.push i c out vals whb data).trailC = k.trailC := by
  unfold Yoke.push; dsimp only; split <;> rfl
@[simp] theorem Yoke.push_spec : (k.push i c out vals whb data).spec = k.spec := by
  unfold Yoke.push; dsimp only; split <;> rfl
@[simp] theorem Yoke.push_fpu : (k.push i c out vals whb data).fpu = k.fpu := by
  unfold Yoke.push; dsimp only; split <;> rfl
@[simp] theorem Yoke.push_fetchLane : (k.push i c out vals whb data).fetchLane = k.fetchLane := by
  unfold Yoke.push; dsimp only; split <;> rfl
@[simp] theorem Yoke.push_fetchBuf : (k.push i c out vals whb data).fetchBuf = k.fetchBuf := by
  unfold Yoke.push; dsimp only; split <;> rfl
@[simp] theorem Yoke.push_branch : (k.push i c out vals whb data).branch = k.branch := by
  unfold Yoke.push; dsimp only; split <;> rfl
@[simp] theorem Yoke.push_wait : (k.push i c out vals whb data).wait = k.wait := by
  unfold Yoke.push; dsimp only; split <;> rfl
@[simp] theorem Yoke.push_whb : (k.push i c out vals whb data).whb = k.whb := by
  unfold Yoke.push; dsimp only; split <;> rfl
@[simp] theorem Yoke.push_interval : (k.push i c out vals whb data).interval = k.interval := by
  unfold Yoke.push; dsimp only; split <;> rfl
@[simp] theorem Yoke.push_committed : (k.push i c out vals whb data).committed = k.committed := by
  unfold Yoke.push; dsimp only; split <;> rfl
@[simp] theorem Yoke.push_pend : (k.push i c out vals whb data).pend = k.pend := by
  unfold Yoke.push; dsimp only; split <;> rfl
@[simp] theorem Yoke.push_ckptDue : (k.push i c out vals whb data).ckptDue = k.ckptDue := by
  unfold Yoke.push; dsimp only; split <;> rfl
@[simp] theorem Yoke.push_entryEvent : (k.push i c out vals whb data).entryEvent = k.entryEvent := by
  unfold Yoke.push; dsimp only; split <;> rfl
@[simp] theorem Yoke.push_ckFc : (k.push i c out vals whb data).ckFc = k.ckFc := by
  unfold Yoke.push; dsimp only; split <;> rfl
@[simp] theorem Yoke.push_trailFc : (k.push i c out vals whb data).trailFc = k.trailFc := by
  unfold Yoke.push; dsimp only; split <;> rfl
@[simp] theorem Yoke.push_prev : (k.push i c out vals whb data).prev = k.prev := by
  unfold Yoke.push; dsimp only; split <;> rfl
@[simp] theorem Yoke.push_mcount : (k.push i c out vals whb data).mcount = k.mcount := by
  unfold Yoke.push; dsimp only; split <;> rfl
@[simp] theorem Yoke.push_inj : (k.push i c out vals whb data).inj = k.inj := by
  unfold Yoke.push; dsimp only; split <;> rfl
@[simp] theorem Yoke.push_collapse : (k.push i c out vals whb data).collapse = k.collapse := by
  unfold Yoke.push; dsimp only; split <;> rfl
@[simp] theorem Yoke.push_deque : (k.push i c out vals whb data).deque = k.deque := by
  unfold Yoke.push; dsimp only; split <;> rfl
@[simp] theorem Yoke.push_idleFc : (k.push i c out vals whb data).idleFc = k.idleFc := by
  unfold Yoke.push; dsimp only; split <;> rfl
@[simp] theorem Yoke.push_effects : (k.push i c out vals whb data).effects = k.effects := by
  unfold Yoke.push; dsimp only; split <;> rfl
@[simp] theorem Yoke.push_heldReports : (k.push i c out vals whb data).heldReports = k.heldReports := by
  unfold Yoke.push; dsimp only; split <;> rfl
@[simp] theorem Yoke.push_lead : (k.push i c out vals whb data).lead = c := by
  unfold Yoke.push; dsimp only; split <;> rfl
@[simp] theorem Yoke.push_seq : (k.push i c out vals whb data).seq = k.seq + 1 := by
  unfold Yoke.push; dsimp only; split <;> rfl
@[simp] theorem Yoke.push_fetchReq : (k.push i c out vals whb data).fetchReq = none := by
  unfold Yoke.push; dsimp only; split <;> rfl
@[simp] theorem Yoke.push_bpSkip : (k.push i c out vals whb data).bpSkip = false := by
  unfold Yoke.push; dsimp only; split <;> rfl

end push

variable {s : State} {y : YokeId} {i : CoreIns} {room : Nat}

/-- With no debugger, nothing follows an instruction. -/
theorem State.afterIns_off (seq : Nat) (hits : Word) (hd : s.debugger = false) (hk : (s.yoke y).debug = .off) :
    s.afterIns y seq hits = s := by
  simp [State.afterIns, hd, hk]

/-- A leading core that is ready runs its action, with its wait over. -/
theorem State.lead_ready (h : s.Ready y i room) (act : State → State)
    (hd : (act (s.setYoke y (s.going y))).debugger = false)
    (hk : ((act (s.setYoke y (s.going y))).yoke y).debug = .off) :
    s.lead y i room act = act (s.setYoke y (s.going y)) := by
  have h1 : ¬((s.yoke y).run ≠ .task ∨ (s.yoke y).collapse.isSome ∨ (s.yoke y).debug = .halted ∨
      (s.span (spanOf y)).power ≠ .run ∨ (s.yoke y).lead.task.abort = .due) := by
    simp [h.run, h.collapse, h.debug, h.power, h.abort]
  unfold State.lead
  dsimp only
  rw [if_neg h1, if_neg (by simp [h.debugger])]
  have h2 : ¬((s.yoke y).ckptDue = true) := by simp [h.due]
  rw [if_neg h2, if_neg h2, if_neg (by simp [h.trigger, h.free, h.event])]
  exact State.afterIns_off _ _ hd hk

/-- An instruction that touches nothing outside the core. -/
theorem State.issue_ready (h : s.Ready y i 1) :
    s.issue y i = s.executed y i (i.run (s.yoke y).lead ⟨[], 0⟩).1 (i.run (s.yoke y).lead ⟨[], 0⟩).2 := by
  unfold State.issue
  rw [State.lead_ready h]
  · simp [State.executed]
  · simp [h.debugger]
  · simp [h.debug]

/-- An instruction whose checks look at the core and pass. -/
theorem State.issueWhen_ready (h : s.Ready y i 1) (chk : Core → Option Raise) (hc : chk (i.sees (s.yoke y).lead) = none) :
    s.issueWhen y i chk = s.executed y i (i.run (s.yoke y).lead ⟨[], 0⟩).1 (i.run (s.yoke y).lead ⟨[], 0⟩).2 := by
  unfold State.issueWhen
  rw [State.lead_ready h]
  · simp [State.executed, hc]
  · simp [hc, h.debugger]
  · simp [hc, h.debug]

end Sys2Proof.Machine
end

