-- ==== Sys2Proof/Laws/Calm.lean ====
section
/-! SUPPORT. A slip-collapsing instruction at a yoke with nothing outstanding: it is compared and performs its effect in the
same command. -/

namespace Sys2Proof.Machine

variable {s : State} {y : YokeId}

/-- Complementing a vector of words twice gives it back. -/
theorem map_not_not {n w : Nat} (v : Vector (BitVec w) n) : v.map ((fun x => ~~~x) ∘ fun x => ~~~x) = v := by
  ext i hi; simp

/-- Complementing the values of a shadow latch twice gives them back. -/
@[simp] theorem Shadow.inv_inv (h : Shadow) : h.inv.inv = h := by
  cases h; simp [Shadow.inv, List.map_map, Function.comp_def]

/-- Complementing a task's registers twice gives them back. -/
@[simp] theorem TaskRegs.inv_inv (t : TaskRegs) : t.inv.inv = t := by
  cases t; simp [TaskRegs.inv, List.map_map, Function.comp_def]

/-- A core's complement has the core as its own complement (R52). -/
@[simp] theorem Core.inv_inv (c : Core) : c.inv.inv = c := by
  have h : Shadow.inv ∘ Shadow.inv = id := funext fun x => Shadow.inv_inv x
  cases c; simp [Core.inv, map_not_not, h]

/-- Complementing what the trailing core receives twice gives it back (R53). -/
@[simp] theorem CoreIn.inv_inv (x : CoreIn) : x.inv.inv = x := by
  cases x; simp [CoreIn.inv, List.map_map, Function.comp_def]

/-- A trailing core that holds the complement of a core computes the complement of what that core computes, and drives the
same outputs (R52). -/
theorem trailStep_inv (c : Core) (e : CqEntry) :
    trailStep c.inv e [] = ((e.op.run c ⟨[], e.data⟩).1.inv, (e.op.run c ⟨[], e.data⟩).2) := by
  simp [trailStep, CoreIns.runInv]

/-- Outputs that agree differ in no field. -/
@[simp] theorem busDiff_self (o : BusOut) : busDiff o o none = none := by
  have h : ∀ f, busField o o none f = none ∨ busField o o none f = some 0 := by
    intro f
    cases hf : o.field f with
    | none => simp [busField, hf]
    | some a => simp [busField, hf]
  unfold busDiff
  rw [List.findSome?_eq_none_iff]
  rintro ⟨f, kind⟩ -
  rcases h f with h | h <;> simp [h]

/-- A core differs in nothing from itself (R69). -/
@[simp] theorem ckDiff_self (c : Core) : ckDiff c c = none := by
  have h : (c.words.zip c.words).filter (fun w => w.1.2 != w.2.2) = [] := by
    rw [List.filter_eq_nil_iff]
    intro w hw
    have : w.1 = w.2 := by
      generalize c.words = l at hw
      induction l with
      | nil => simp at hw
      | cons x xs ih =>
        simp only [List.zip_cons_cons, List.mem_cons] at hw
        rcases hw with rfl | hw
        · rfl
        · exact ih hw
    simp [this]
  simp [ckDiff, h]

/-- No instruction needs more than 3 entries of the data lane as it issues. -/
theorem CoreIns.lvqNeed_le (i : CoreIns) : i.lvqNeed ≤ 3 := by
  unfold CoreIns.lvqNeed; split <;> omega

/-- A calm yoke is ready for any instruction that needs no float unit. -/
theorem State.Calm.ready (h : s.Calm y) (i : CoreIns) (room : Nat) (hr : room ≤ 96) (hl : ∀ op d m, i ≠ .load op d m)
    (hf : i.isFloat = false) : s.Ready y i room where
  run := h.run
  collapse := h.collapse
  power := h.power
  debug := h.debug
  debugger := h.debugger
  due := h.due
  trigger := h.trigger
  event := h.event
  abort := h.abort
  free := by
    have hb : ∀ r, (s.yoke y).awaits r = false := by simp [Yoke.awaits, h.loads]
    simp [Yoke.stalls, Yoke.unchecked, h.debug, Yoke.slip, h.cq, h.lvq, h.lane, Yoke.floatHolds, Yoke.awaitsFloat, h.queue,
      h.busy, h.branch, h.loads, Yoke.readsAwaited, Yoke.floatActive, hf, hb]
    exact ⟨hr, by have := i.lvqNeed_le; omega⟩

/-- What one yoke holds is nothing that it waits for. -/
@[simp] theorem State.heldElsewhere_setYoke (s : State) (y : YokeId) (k : Yoke) (a : Nat) :
    (s.setYoke y k).heldElsewhere y a = s.heldElsewhere y a :=
  any_kset s.yokes y k _ fun _ => by simp

/-- At a calm yoke no word an instruction acts on is held back. -/
theorem State.Calm.notHeld (h : s.Calm y) (k : Yoke) : (s.setYoke y k).collapseHeld y = false := by
  unfold State.collapseHeld
  split
  · rfl
  · simp [h.clear]

/-- Where no word is held back, no descriptor read waits. -/
theorem State.entryHeld_clear (h : ∀ a, s.heldElsewhere y a = false) (vec : Byte) : s.entryHeld y vec = false := by
  simp only [State.entryHeld, State.descHeld, h]
  split <;> (try split) <;> simp

/-- At a calm yoke an effect that takes an entry waits for no descriptor. -/
theorem State.Calm.faultFree (h : s.Calm y) (k : Yoke) (t : State) : (s.setYoke y k).faultHeld y t = false := by
  simp [State.faultHeld, State.entryHeld_clear, h.clear]

/-- With no store in the buffer there is nothing to correct. -/
theorem State.correctHeld_empty (s : State) (y : YokeId) (n : Nat) (h : (s.yoke y).whb = []) :
    s.correctHeld y n = s.setYoke y (s.yoke y) := by
  unfold State.correctHeld
  have : { s.yoke y with whb := [] } = s.yoke y := by rw [← h]
  simp [h, this]

/-- A commit with nothing held and no effect outstanding stores the checkpoint and changes nothing else. -/
theorem State.commit_empty (s : State) (y : YokeId) (ck : Ckpt) (n : Nat) (h : (s.yoke y).whb = []) (he : (s.yoke y).effects = []) :
    s.commit y ck n none = s.setYoke y { s.yoke y with committed := ck, pend := none, effects := [] } := by
  unfold State.commit State.handOver
  cases hf : s.foldOf y with
  | none => simp [Yoke.release, h, he]
  | some f => simp [Yoke.release, h, he, State.eventDone, State.takeEffect]

/-- The pending slot that a calm yoke's checkpoint fills: the trailing core is there already. -/
def State.calmPend (s : State) (y : YokeId) : PendCk :=
  ⟨(s.yoke y).seq, (s.yoke y).interval, (s.yoke y).lead, some ((s.yoke y).fpu.f, (s.yoke y).fpu.fcsr), none,
    some (s.yoke y).trailC⟩

/-- At a calm yoke a checkpoint is captured and reached at once. -/
theorem State.capture_calm (h : s.Calm y) :
    (s.setYoke y (s.going y)).capture y = s.setYoke y { s.going y with
      pend := some (s.calmPend y), ckptDue := false, entryEvent := none, retired := 0, ckFc := s.clk.fc,
      interval := (s.yoke y).interval + 1 } := by
  simp [State.capture, State.going, h.pend, h.loads, h.branch, Yoke.unchecked, h.debug, Yoke.captureFloat, Yoke.floatHolds,
    Yoke.awaitsFloat, Yoke.floatActive, h.queue, h.busy, h.entry, Yoke.reach, h.cq, State.calmPend]

/-- Outputs that agree, undisturbed, give no mismatch. -/
theorem compareResult_self (o : BusOut) : compareResult false .none none o o false = none := by
  have h1 : Disturb.check .none = none := rfl
  have h2 : Disturb.busMask .none = none := rfl
  simp only [compareResult, h1, h2, busDiff_self]
  rfl

/-- The trailing core, level with the leading one, reaches a slip-collapsing instruction that is alone in the queue: its
outputs agree. -/
theorem State.trailCycle_level (s : State) (y : YokeId) (o : CollapseOut) (n : Nat)
    (hq : (s.yoke y).cq = [⟨n, .collapse o, o.drives (s.yoke y).lead, none, false, 0, none, 0⟩])
    (hl : (s.yoke y).lvq = []) (hi : (s.yoke y).inj = false) (hr : (s.yoke y).heldReports = [])
    (hc : (s.yoke y).trailC = (s.yoke y).lead.inv) :
    s.trailCycle y .none = s.setYoke y { s.yoke y with cq := [], spec := none, trailFc := s.clk.fc }.reach := by
  have ht : trailStep (s.yoke y).lead.inv ⟨n, .collapse o, o.drives (s.yoke y).lead, none, false, 0, none, 0⟩ [] =
      ((s.yoke y).lead.inv, o.drives (s.yoke y).lead) := by
    rw [trailStep_inv]; rfl
  have hp : laneParity [] none = none := rfl
  have he : (CoreIns.collapse o).refusedEvent (s.yoke y).lead = false := rfl
  unfold State.trailCycle
  simp only [hq, hl, hr, hi, Yoke.trailAt, hc, List.filter_nil, ht, Core.inv_inv, trailOut, Option.isSome_none, Bool.false_eq_true,
    if_false, hp, he, compareResult_self, List.foldl_nil]
  rfl

/-- A calm yoke whose leading core arrives at a slip-collapsing instruction, its checkpoint captured. -/
def State.arrived (s : State) (y : YokeId) (op : CollapseOp) (o : CollapseOut) (len : Nat) : State :=
  let t := (s.setYoke y (s.going y)).capture y
  t.setYoke y ((t.yoke y).arriveAt ⟨op, len⟩ o)

/-- At a calm yoke the outputs of a slip-collapsing instruction are compared when it arrives, and agree. -/
theorem State.level_calm (h : s.Calm y) (op : CollapseOp) (o : CollapseOut) (len : Nat) :
    (s.arrived y op o len).trailCycle y .none = s.setYoke y { s.yoke y with
      wait := .none, replaying := false, collapse := some ⟨op, len⟩, seq := (s.yoke y).seq + 1, spec := none,
      trailFc := s.clk.fc, pend := some (s.calmPend y), retired := 0, ckFc := s.clk.fc,
      interval := (s.yoke y).interval + 1 } := by
  unfold State.arrived
  rw [State.capture_calm h, State.trailCycle_level (o := o) (n := (s.yoke y).seq + 1)]
  · simp [Yoke.reach, Yoke.arriveAt, Yoke.unchecked, h.debug, State.calmPend, h.cq, h.due, h.entry, h.fetch]
  all_goals simp [Yoke.arriveAt, Yoke.unchecked, h.debug, Yoke.entry, h.cq, h.fetch, h.lvq, h.inj, h.held, h.trailC]

/-- At a calm yoke the checkpoint before a slip-collapsing instruction is then confirmed. -/
theorem State.confirmed_calm (h : s.Calm y) (op : CollapseOp) (o : CollapseOut) (len : Nat) (hb : op.bounded = true) :
    ((s.arrived y op o len).trailCycle y .none).confirmBefore y .none = s.atCollapse y op len := by
  have hc : op.checkpoints = true := by cases op <;> simp_all [CollapseOp.bounded, CollapseOp.checkpoints]
  rw [State.level_calm h]
  simp [State.confirmBefore, hc, Yoke.unchecked, h.debug, h.due, State.calmPend, Yoke.confirmReady, State.confirm,
    h.inj, h.trailC, Disturb.onCk, CkDisturb.onCore, CkDisturb.onHeld, Yoke.heldBad, h.whb]
  rw [State.correctHeld_empty _ _ _ (by simp), State.commit_empty _ _ _ _ (by simp) (by simp [h.effects])]
  simp [State.atCollapse, h.debug, h.whb, h.cq, h.pend, h.due, h.entry, h.inj, h.trailC, h.fetch, h.effects]

/-- At a calm yoke a checkpoint-bounded instruction is compared, has its checkpoint taken, and its effect performed, at
once. -/
theorem State.arrive_calm (h : s.Calm y) (op : CollapseOp) (o : CollapseOut) (len : Nat) (hb : op.bounded = true)
    (hn : ∀ c l, (((s.atCollapse y op len).perform y).yoke y).collapse ≠ some ⟨.fenced c, l⟩) :
    (s.setYoke y (s.going y)).arrive y op o len = (s.atCollapse y op len).perform y := by
  have hc : op.checkpoints = true := by cases op <;> simp_all [CollapseOp.bounded, CollapseOp.checkpoints]
  have ha : (s.setYoke y (s.going y)).arrive y op o len = (s.arrived y op o len).collapseComplete y .none := by
    unfold State.arrive State.arrived
    rw [State.capture_calm h]
    simp [hc, hb, h.pend]
  have hk : ((s.arrived y op o len).yoke y).collapse.isNone = false ∧
      ((s.arrived y op o len).yoke y).cq = [⟨(s.yoke y).seq + 1, .collapse o, o.drives (s.yoke y).lead, none, false, 0, none, 0⟩] ∧
      ((s.arrived y op o len).yoke y).branch = none := by
    unfold State.arrived
    rw [State.capture_calm h]
    simp [Yoke.arriveAt, Yoke.unchecked, h.debug, Yoke.entry, h.cq, h.fetch, h.branch]
  have hq : (((s.arrived y op o len).trailCycle y .none).yoke y).cq = [] := by rw [State.level_calm h]; simp [h.cq]
  have hr : ((s.atCollapse y op len).yoke y).collapseReady = true := by
    cases op <;> simp_all [Yoke.collapseReady, State.atCollapse, CollapseOp.bounded, h.cq, h.pend, h.whb]
  have hp : ((s.arrived y op o len).trailCycle y .none).performReady y .none = (s.atCollapse y op len).perform y := by
    unfold State.performReady
    rw [State.confirmed_calm h op o len hb]
    have h1 : (s.atCollapse y op len).collapseHeld y = false := by unfold State.atCollapse; exact h.notHeld _
    have h2 : ∀ t, (s.atCollapse y op len).faultHeld y t = false := fun t => by unfold State.atCollapse; exact h.faultFree _ t
    simp [hr, h1, h2]
  rw [ha]
  unfold State.collapseComplete
  simp only [hk.1, hk.2.1, Bool.false_eq_true, if_false]
  simp only [Yoke.trailReady, hk.2.2, hq, List.isEmpty_nil, State.tryCollapse, hp]
  simp

/-- The whole command: the leading core issues, arrives and the effect is performed. -/
theorem State.collapse_calm (h : s.Calm y) (op : CollapseOp) (o : CollapseOut) (len : Nat) (hb : op.bounded = true)
    (hn : ∀ c l, (((s.atCollapse y op len).perform y).yoke y).collapse ≠ some ⟨.fenced c, l⟩)
    (hd : ((s.atCollapse y op len).perform y).debugger = false)
    (hk : (((s.atCollapse y op len).perform y).yoke y).debug = .off) :
    s.lead y (.collapse o) 1 (fun s => s.arrive y op o len) = (s.atCollapse y op len).perform y := by
  rw [← State.arrive_calm h op o len hb hn] at *
  exact State.lead_ready (h.ready _ 1 (by omega) (by simp) rfl) _ hd hk

/-- What remains of a completed instruction: both cores hold the result, and it is committed. -/
theorem State.finish_collapsed (s t : State) (y : YokeId) (op : CollapseOp) (len : Nat) (c : Core) (h : s.Calm y)
    (hk : t.yoke y = (s.atCollapse y op len).yoke y) (hc : t.clk = s.clk) (hd : t.debugger = false) :
    t.finish y c true = t.setYoke y ((s.collapsed y c).yoke y) := by
  simp [State.finish, hk, hd, hc, State.collapsed, State.atCollapse, h.debug]

end Sys2Proof.Machine
end

