-- ==== Sys2Proof/Laws/Memory.lean ====
section
/-! SUPPORT. Laws of memory: reading after writing, and the canonical form that every memory operation keeps. -/

namespace Sys2Proof.Machine

theorem memGet_memSet_same (m : List Host.Cell) (a : Nat) (v : Byte) (h : Memory.wf m = true) :
    memGet (memSet m a v) a = v := by
  have aux : ∀ (m : List Host.Cell) (lo : Option Nat), memWfFrom lo m = true → memGet (memSet m a v) a = v := by
    intro m
    induction m with
    | nil => intro lo _; by_cases hv : v = 0#8 <;> simp [memSet, memGet, hv]
    | cons c t ih =>
      intro lo hm
      obtain ⟨k, x⟩ := c
      simp only [memWfFrom, Bool.and_eq_true] at hm
      by_cases h1 : k < a
      · simp [memSet, h1, memGet, Nat.ne_of_lt h1, ih _ hm.2]
      · by_cases h2 : k = a
        · subst h2
          by_cases hv : v = 0#8
          · have above : ∀ (t : List Host.Cell) (lo : Nat), memWfFrom (some lo) t = true → lo ≥ k → memGet t k = 0 := by
              intro t
              induction t with
              | nil => intros; rfl
              | cons c t ih2 =>
                intro lo ht hlo
                obtain ⟨j, y⟩ := c
                simp only [memWfFrom, Bool.and_eq_true, decide_eq_true_eq] at ht
                have hj : j ≠ k := by omega
                simp [memGet, hj, ih2 j ht.2 (by omega)]
            simp [memSet, hv, above t k hm.2 (le_refl k)]
          · simp [memSet, hv, memGet]
        · by_cases hv : v = 0#8
          · have above : ∀ (t : List Host.Cell) (lo : Nat), memWfFrom (some lo) t = true → lo ≥ a → memGet t a = 0 := by
              intro t
              induction t with
              | nil => intros; rfl
              | cons c t ih2 =>
                intro lo ht hlo
                obtain ⟨j, y⟩ := c
                simp only [memWfFrom, Bool.and_eq_true, decide_eq_true_eq] at ht
                have hj : j ≠ a := by omega
                simp [memGet, hj, ih2 j ht.2 (by omega)]
            simp [memSet, h1, h2, hv, memGet, above t k hm.2 (by omega)]
          · simp [memSet, h1, h2, hv, memGet]
  exact aux m none h

theorem memGet_memSet_ne (m : List Host.Cell) {a b : Nat} (v : Byte) (h : b ≠ a) : memGet (memSet m a v) b = memGet m b := by
  have hs : a ≠ b := Ne.symm h
  induction m with
  | nil => by_cases hv : v = 0#8 <;> simp [memSet, memGet, hv, hs]
  | cons c t ih =>
    obtain ⟨k, x⟩ := c
    by_cases h1 : k < a
    · by_cases hk : k = b
      · have hb : b < a := hk ▸ h1
        simp [memSet, memGet, hk, hb]
      · simp [memSet, h1, memGet, hk, ih]
    · by_cases h2 : k = a
      · subst h2
        by_cases hv : v = 0#8 <;> simp [memSet, hv, memGet, hs]
      · by_cases hv : v = 0#8 <;> simp [memSet, h1, h2, hv, memGet, hs]

theorem memWfFrom_memSet (m : List Host.Cell) (lo : Option Nat) (a : Nat) (v : Byte) (h : memWfFrom lo m = true)
    (ha : ∀ l, lo = some l → l < a) : memWfFrom lo (memSet m a v) = true := by
  induction m generalizing lo with
  | nil =>
    by_cases hv : v = 0#8
    · simp [memSet, hv, memWfFrom]
    · cases lo with
      | none => simp [memSet, hv, memWfFrom]
      | some l => simp [memSet, hv, memWfFrom, ha l rfl]
  | cons c t ih =>
    obtain ⟨k, x⟩ := c
    simp only [memWfFrom, Bool.and_eq_true] at h
    obtain ⟨⟨hlo, hx⟩, ht⟩ := h
    have hx' : ¬ x = 0#8 := by simpa using hx
    by_cases h1 : k < a
    · have := ih (some k) ht (by intro l hl; cases hl; exact h1)
      simp [memSet, h1, memWfFrom, hlo, hx', this]
    · by_cases h2 : k = a
      · subst h2
        by_cases hv : v = 0#8
        · simp only [memSet, if_neg h1, if_true, hv]
          cases t with
          | nil => rfl
          | cons c' t' =>
            obtain ⟨k', x'⟩ := c'
            cases lo with
            | none => simp_all [memWfFrom]
            | some l => simp_all [memWfFrom]; omega
        · simp [memSet, hv, memWfFrom, hlo, ht]
      · by_cases hv : v = 0#8
        · simp [memSet, h1, h2, hv, memWfFrom, hlo, hx', ht]
        · have hak : a < k := by omega
          have hset : memSet ((k, x) :: t) a v = (a, v) :: (k, x) :: t := by simp [memSet, h1, h2, hv]
          rw [hset]
          cases lo with
          | none => simp [memWfFrom, hv, hx', ht, hak]
          | some l => simp [memWfFrom, hv, hx', ht, hak, ha l rfl]

/-- A write of one byte keeps the canonical form. -/
theorem memSet_wf (m : List Host.Cell) (a : Nat) (v : Byte) (h : Memory.wf m = true) : Memory.wf (memSet m a v) = true :=
  memWfFrom_memSet m none a v h (by simp)

/-- A write of consecutive bytes keeps the canonical form. -/
theorem memWrite_wf (m : List Host.Cell) (a : Nat) (bs : List Byte) (h : Memory.wf m = true) :
    Memory.wf (memWrite m a bs) = true := by
  induction bs generalizing m a with
  | nil => exact h
  | cons b t ih => exact ih _ _ (memSet_wf m a b h)

/-- Inverting bits keeps the canonical form. -/
theorem memFlip_wf (m : List Host.Cell) (a : Nat) (d : DWord) (h : Memory.wf m = true) : Memory.wf (memFlip m a d) = true :=
  memWrite_wf _ _ _ h

theorem memWfFrom_filter (p : Host.Cell → Bool) (m : List Host.Cell) (lo : Option Nat) (h : memWfFrom lo m = true) :
    memWfFrom lo (m.filter p) = true := by
  induction m generalizing lo with
  | nil => rfl
  | cons c t ih =>
    obtain ⟨k, x⟩ := c
    simp only [memWfFrom, Bool.and_eq_true] at h
    by_cases hp : p (k, x) = true
    · have hx : ¬ x = 0#8 := by simpa using h.1.2
      simp [List.filter, hp, memWfFrom, h.1.1, hx, ih _ h.2]
    · have hp' : p (k, x) = false := by simpa using hp
      rw [List.filter_cons, hp']
      simp only [Bool.false_eq_true, if_false]
      have weaken : ∀ (t : List Host.Cell), memWfFrom (some k) t = true → memWfFrom lo t = true := by
        intro t ht
        cases t with
        | nil => rfl
        | cons c' t' =>
          obtain ⟨k', x'⟩ := c'
          simp only [memWfFrom, Bool.and_eq_true, decide_eq_true_eq] at ht ⊢
          refine ⟨⟨?_, ht.1.2⟩, ht.2⟩
          cases lo with
          | none => rfl
          | some l =>
            have := h.1.1
            simp only [decide_eq_true_eq] at this ⊢
            omega
      exact weaken _ (ih _ h.2)

/-- Leaving bytes out keeps the canonical form. -/
theorem filter_wf (p : Host.Cell → Bool) (m : List Host.Cell) (h : Memory.wf m = true) : Memory.wf (m.filter p) = true :=
  memWfFrom_filter p m none h

/-- A wipe keeps the canonical form. -/
theorem memWipe_wf (m : List Host.Cell) (a n : Nat) (h : Memory.wf m = true) : Memory.wf (memWipe m a n) = true :=
  filter_wf _ m h

/-- Writes given one by one keep the canonical form. -/
theorem foldl_memSet_wf {α : Type} (l : List α) (f : List Host.Cell → α → List Host.Cell)
    (hf : ∀ m x, Memory.wf m = true → Memory.wf (f m x) = true) (m : List Host.Cell) (h : Memory.wf m = true) :
    Memory.wf (l.foldl f m) = true := by
  induction l generalizing m with
  | nil => exact h
  | cons x t ih => exact ih _ (hf m x h)

end Sys2Proof.Machine
end

