-- ==== Sys2Proof/Laws/Follows.lean ====
section
/-! SUPPORT. What every operation of the block keeps: the queue of commands, the invariant, and programmed OTP bits. -/

namespace Sys2Proof.Machine

/-- `s` is reached from `p` by operations that leave the queue alone, keep the invariant and return no OTP bit to 0. -/
structure Follows (p s : State) : Prop where
  queue : s.pending = p.pending
  sound : p.Sound → s.Sound
  otp : p.otpKept s

/-- A command's outcome, when it is a next state, follows from the state before. -/
def FollowsOut (p : State) (o : Host.Outcome State Fault Refusal) : Prop := ∀ t, o = .next t → Follows p t

theorem Follows.refl (s : State) : Follows s s := ⟨rfl, id, fun _ _ h => h⟩

theorem follows_next {p t : State} (h : Follows p t) : FollowsOut p (.next t) := by
  rintro _ ⟨⟩
  exact h

/-- Any state with the same queue and memory, bounded counters, safe-state bits, life-cycle state and OTP. -/
theorem follows_same {p s t : State} (h : Follows p s) (hq : t.pending = s.pending) (hm : t.mem = s.mem) (hf : t.clk.frac = s.clk.frac)
    (ha : t.clk.btAcc = s.clk.btAcc) (hb : t.clk.bt = s.clk.bt)
    (hd : t.fm.dsafe = s.fm.dsafe) (hn : t.fm.nsafe = s.fm.nsafe) (hl : t.sec.lc = s.sec.lc) (ho : t.sec.otp = s.sec.otp) :
    Follows p t := by
  refine ⟨hq.trans h.queue, fun w => ?_, fun i b w => ?_⟩
  · have v := h.sound w
    exact ⟨hm ▸ v.mem, by rw [hd, hn]; exact v.dsafe, by rw [hl, hn]; exact v.opened, hf ▸ v.frac, ha ▸ v.btAcc, hb ▸ v.bt⟩
  · rw [ho]; exact h.otp i b w

/-- An update of any fields but the queue and the memory that keeps the bounded
counters, safe-state bits, life-cycle state and OTP. -/
theorem follows_mk {p s : State} {xclk : Clock} {xregs : KMap Nat Word} {xmemErr : KMap Nat (DWord × Byte)}
    {xwriteback : List Nat} {xfabricFails : List Nat} {xcutNodes : List SpanId} {xreleasing : KMap GroupId Word}
    {xyokes : KMap YokeId Yoke} {xspans : KMap SpanId Span} {xfolds : KMap FoldId Fold} {xdma : KMap DmaId Dma}
    {xreports : List Report} {xfm : FaultMgr} {xfr : Recorder} {xaon : AonWd} {xxch : KMap Nat XchQueue} {xslotPlan
    : KMap Nat Word} {xslotLent : KMap Nat FoldId} {xqueues : KMap Nat PortQueue} {xlinkUp : List Nat} {xgateAt :
    KMap Nat (Nat × Nat)} {xserved : KMap Nat Nat} {xconns : KMap Nat Conn} {xpcie : Pcie} {xservice : Service}
    {xinPairs : KMap Nat InPair} {xinUnit : InUnit} {xoutPairs : KMap Nat OutPair} {xtwin : Twin} {xtwins : KMap
    FoldId TwinFold} {xpower : Power} {xpwr : PwrMgr} {xbist : Bist} {xsec : Sec} {xwire : List WireMsg} {xdroverIrq
    : List (Nat × Nat)} {xdebugger : Bool} {xdebugData : QWord} {xdebugFailed : Bool} {xstraps : Word} {xflash :
    Flash} {xstamp : Nat} {xfreeN : Nat} (h : Follows p s)
    (hf : xclk.frac = s.clk.frac) (ha : xclk.btAcc = s.clk.btAcc)
    (hb : xclk.bt = s.clk.bt) (hd : xfm.dsafe = s.fm.dsafe) (hn : xfm.nsafe = s.fm.nsafe) (hl : xsec.lc = s.sec.lc)
    (ho : xsec.otp = s.sec.otp) :
    Follows p (State.mk s.pending xclk xregs s.mem xmemErr xwriteback xfabricFails xcutNodes xreleasing xyokes xspans
      xfolds xdma xreports xfm xfr xaon xxch xslotPlan xslotLent xqueues xlinkUp xgateAt xserved xconns
      xpcie xservice xinPairs xinUnit xoutPairs xtwin xtwins xpower xpwr xbist xsec xwire xdroverIrq
      xdebugger xdebugData xdebugFailed xstraps xflash xstamp xfreeN) :=
  follows_same h rfl rfl hf ha hb hd hn hl ho

theorem follows_foldl {α : Type} {p s : State} {f : State → α → State} {l : List α}
    (hf : ∀ s x, Follows p s → Follows p (f s x)) (h : Follows p s) : Follows p (l.foldl f s) := by
  induction l generalizing s with
  | nil => exact h
  | cons x t ih => exact ih (hf s x h)

theorem follows_foldl_fst {α β : Type} {p : State} {q : State × β} {f : State × β → α → State × β} {l : List α}
    (hf : ∀ q x, Follows p q.1 → Follows p (f q x).1) (h : Follows p q.1) : Follows p (l.foldl f q).1 := by
  induction l generalizing q with
  | nil => exact h
  | cons x t ih => exact ih (hf q x h)

theorem follows_ite {p a b : State} {c : Prop} [Decidable c] (ha : Follows p a) (hb : Follows p b) :
    Follows p (if c then a else b) := by
  split
  · exact ha
  · exact hb

/-- An update of any fields but the queue, with new memory contents in canonical form, that keeps the bounded
counters, safe-state bits, life-cycle state and OTP. -/
theorem follows_mk_mem {p s : State} {xclk : Clock} {xregs : KMap Nat Word} {xmem : List Host.Cell} {xmemErr : KMap
    Nat (DWord × Byte)} {xwriteback : List Nat} {xfabricFails : List Nat} {xcutNodes : List SpanId} {xreleasing :
    KMap GroupId Word} {xyokes : KMap YokeId Yoke} {xspans : KMap SpanId Span} {xfolds : KMap FoldId Fold} {xdma :
    KMap DmaId Dma} {xreports : List Report} {xfm : FaultMgr} {xfr : Recorder} {xaon : AonWd} {xxch : KMap Nat
    XchQueue} {xslotPlan : KMap Nat Word} {xslotLent : KMap Nat FoldId} {xqueues : KMap Nat PortQueue} {xlinkUp :
    List Nat} {xgateAt : KMap Nat (Nat × Nat)} {xserved : KMap Nat Nat} {xconns : KMap Nat Conn} {xpcie : Pcie}
    {xservice : Service} {xinPairs : KMap Nat InPair} {xinUnit : InUnit} {xoutPairs : KMap Nat OutPair} {xtwin :
    Twin} {xtwins : KMap FoldId TwinFold} {xpower : Power} {xpwr : PwrMgr} {xbist : Bist} {xsec : Sec} {xwire : List
    WireMsg} {xdroverIrq : List (Nat × Nat)} {xdebugger : Bool} {xdebugData : QWord} {xdebugFailed : Bool} {xstraps
    : Word} {xflash : Flash} {xstamp : Nat} {xfreeN : Nat} (h : Follows p s)
    (hm : p.Sound → Memory.wf xmem = true) (hf : xclk.frac = s.clk.frac) (ha : xclk.btAcc = s.clk.btAcc)
    (hb : xclk.bt = s.clk.bt) (hd : xfm.dsafe = s.fm.dsafe) (hn : xfm.nsafe = s.fm.nsafe) (hl : xsec.lc = s.sec.lc)
    (ho : xsec.otp = s.sec.otp) :
    Follows p (State.mk s.pending xclk xregs xmem xmemErr xwriteback xfabricFails xcutNodes xreleasing xyokes xspans
      xfolds xdma xreports xfm xfr xaon xxch xslotPlan xslotLent xqueues xlinkUp xgateAt xserved xconns
      xpcie xservice xinPairs xinUnit xoutPairs xtwin xtwins xpower xpwr xbist xsec xwire xdroverIrq
      xdebugger xdebugData xdebugFailed xstraps xflash xstamp xfreeN) :=
  ⟨h.queue, fun w => ⟨hm w, by rw [hd, hn]; exact (h.sound w).dsafe, by rw [hl, hn]; exact (h.sound w).opened,
    hf ▸ (h.sound w).frac, ha ▸ (h.sound w).btAcc, hb ▸ (h.sound w).bt⟩, fun i b w => by
    show (kget xsec.otp 0 i).getLsbD b = true
    rw [ho]; exact h.otp i b w⟩

theorem follows_memOk {p s : State} (h : Follows p s) (w : p.Sound) : Memory.wf s.mem = true := (h.sound w).mem

theorem follows_ite_fst {α : Type} {p : State} {a b : State × α} {c : Prop} [Decidable c] (ha : Follows p a.1)
    (hb : Follows p b.1) : Follows p (if c then a else b).1 := by
  split
  · exact ha
  · exact hb

/-- A state with nSAFE asserted and the same queue and OTP. -/
theorem follows_asserted {p s t : State} (h : Follows p s) (hq : t.pending = s.pending) (hn : t.fm.nsafe = true)
    (ho : t.sec.otp = s.sec.otp) (hm : s.Sound → Memory.wf t.mem = true) (hf : s.Sound → t.clk.frac < 2 ^ 32)
    (ha : s.Sound → t.clk.btAcc < 1600000000) (hb : s.Sound → t.clk.bt < 2 ^ 48) : Follows p t :=
  ⟨hq.trans h.queue, fun w => ⟨hm (h.sound w), fun _ => hn, fun _ => hn, hf (h.sound w), ha (h.sound w), hb (h.sound w)⟩,
    fun i b w => by rw [ho]; exact h.otp i b w⟩

/-- A state that differs in its clock, which stays within its widths, and in what the invariant does not speak of. -/
theorem follows_clk {p s t : State} (h : Follows p s) (hq : t.pending = s.pending) (hm : t.mem = s.mem)
    (hd : t.fm.dsafe = s.fm.dsafe) (hn : t.fm.nsafe = s.fm.nsafe) (hl : t.sec.lc = s.sec.lc) (ho : t.sec.otp = s.sec.otp)
    (hf : s.Sound → t.clk.frac < 2 ^ 32) (ha : s.Sound → t.clk.btAcc < 1600000000) (hb : s.Sound → t.clk.bt < 2 ^ 48) :
    Follows p t := by
  refine ⟨hq.trans h.queue, fun w => ?_, fun i b w => ?_⟩
  · have v := h.sound w
    exact ⟨hm ▸ v.mem, by rw [hd, hn]; exact v.dsafe, by rw [hl, hn]; exact v.opened, hf v, ha v, hb v⟩
  · rw [ho]; exact h.otp i b w

/-- New contents of memory in canonical form. -/
theorem follows_mem {p s : State} (h : Follows p s) {m : List Host.Cell} (hm : Memory.wf s.mem = true → Memory.wf m = true) :
    Follows p { s with mem := m } :=
  ⟨h.queue, fun w => ⟨hm (h.sound w).mem, (h.sound w).dsafe, (h.sound w).opened, (h.sound w).frac, (h.sound w).btAcc,
    (h.sound w).bt⟩, h.otp⟩

end Sys2Proof.Machine
end

