-- ==== Sys2Proof/Laws/FollowsRegs.lean ====
section
/-! SUPPORT. What the operations of Machine/Regs.lean keep: the queue, the invariant, programmed OTP bits. -/

namespace Sys2Proof.Machine

theorem State.setYoke_follows {p0 : State} (s : State) (y : YokeId) (k : Yoke) (hF : Follows p0 s) :
    Follows p0 (State.setYoke s y k) := by
  unfold State.setYoke
  try dsimp only
  repeat' first
    | with_reducible assumption | with_reducible apply follows_ite
    | ((conv => arg 2; arg 45; skip); with_reducible apply follows_mk) | exact Eq.refl _

theorem State.setSpan_follows {p0 : State} (s : State) (i : SpanId) (k : Span) (hF : Follows p0 s) :
    Follows p0 (State.setSpan s i k) := by
  unfold State.setSpan
  try dsimp only
  repeat' first
    | with_reducible assumption | with_reducible apply follows_ite
    | ((conv => arg 2; arg 45; skip); with_reducible apply follows_mk) | exact Eq.refl _

theorem State.setFold_follows {p0 : State} (s : State) (f : FoldId) (k : Fold) (hF : Follows p0 s) :
    Follows p0 (State.setFold s f k) := by
  unfold State.setFold
  try dsimp only
  repeat' first
    | with_reducible assumption | with_reducible apply follows_ite
    | ((conv => arg 2; arg 45; skip); with_reducible apply follows_mk) | exact Eq.refl _

theorem State.whenMain_follows {p0 : State} (s : State) (f : State → State) (hF : Follows p0 s) (hFf : ∀ x0, Follows p0 x0 → Follows p0 (f x0)) :
    Follows p0 (State.whenMain s f) := by
  unfold State.whenMain
  try dsimp only
  repeat' first
    | with_reducible assumption | with_reducible apply follows_ite | with_reducible apply hFf
    | ((conv => arg 2; arg 45; skip); with_reducible apply follows_mk) | exact Eq.refl _

theorem State.whenFirmware_follows {p0 : State} (s : State) (f : State → State) (hF : Follows p0 s) (hFf : ∀ x0, Follows p0 x0 → Follows p0 (f x0)) :
    Follows p0 (State.whenFirmware s f) := by
  unfold State.whenFirmware
  try dsimp only
  repeat' first
    | with_reducible assumption | intro _ | with_reducible apply follows_foldl | with_reducible apply follows_ite
    | with_reducible apply follows_ite_fst | with_reducible apply hFf | with_reducible apply follows_foldl_fst
    | ((conv => arg 2; arg 45; skip); with_reducible apply follows_mk)
    | ((conv => arg 2; arg 45; skip); with_reducible apply follows_mk_mem) | with_reducible exact Eq.refl _
    | exact Eq.refl _ | with_reducible exact follows_memOk (by assumption) (by assumption)
    | with_reducible apply memFlip_wf | with_reducible apply memWrite_wf | with_reducible apply memWipe_wf
    | with_reducible apply filter_wf | split | (rename_i e; injection e; done)
    | (rename_i e; injection e with e; subst e) | (rename_i e; injection e with e e2; subst e)
    | (rename_i e; injection e with e; revert e; intro _) | (rename_i e; split at e <;> (revert e; intro _))
    | (rename_i e; rw [Option.map_eq_some_iff] at e; obtain ⟨_, _, rfl⟩ := e) | dsimp only | (rename_i e; clear e)

end Sys2Proof.Machine
end

