-- ==== Sys2Proof/Laws/FollowsMemory.lean ====
section
/-! SUPPORT. What the operations of Machine/Memory.lean keep: the queue, the invariant, programmed OTP bits. -/

namespace Sys2Proof.Machine

theorem State.setReg_follows {p0 : State} (s : State) (a : Nat) (v : Word) (hF : Follows p0 s) :
    Follows p0 (State.setReg s a v) := by
  unfold State.setReg
  try dsimp only
  repeat' first
    | with_reducible assumption | with_reducible apply follows_ite
    | ((conv => arg 2; arg 45; skip); with_reducible apply follows_mk) | exact Eq.refl _

theorem State.report_follows {p0 : State} (s : State) (r : Report) (hF : Follows p0 s) :
    Follows p0 (State.report s r) := by
  unfold State.report
  try dsimp only
  repeat' first
    | with_reducible assumption | with_reducible apply follows_ite
    | ((conv => arg 2; arg 45; skip); with_reducible apply follows_mk) | exact Eq.refl _

theorem State.reportU_follows {p0 : State} (s : State) (src : Byte) (kind : RegionKind) (region : Nat) (unit : Nat) (hF : Follows p0 s) :
    Follows p0 (State.reportU s src kind region unit) := by
  unfold State.reportU
  try dsimp only
  repeat' first
    | with_reducible assumption | with_reducible apply follows_ite | with_reducible apply State.report_follows
    | ((conv => arg 2; arg 45; skip); with_reducible apply follows_mk) | exact Eq.refl _

theorem State.countEcc_follows {p0 : State} (s : State) (cw : Nat) (e : Ecc) (src : Byte) (hF : Follows p0 s) :
    Follows p0 (State.countEcc s cw e src) := by
  unfold State.countEcc
  try dsimp only
  repeat' first
    | with_reducible assumption | with_reducible apply follows_ite | with_reducible apply State.reportU_follows
    | with_reducible apply State.setFold_follows | with_reducible apply State.setReg_follows
    | ((conv => arg 2; arg 45; skip); with_reducible apply follows_mk) | exact Eq.refl _ | split

theorem State.flip_follows {p0 : State} (s : State) (cw : Nat) (e : CwFlip) (hF : Follows p0 s) :
    Follows p0 (State.flip s cw e) := by
  unfold State.flip
  try dsimp only
  repeat' first
    | with_reducible assumption | intro _ | with_reducible apply follows_foldl | with_reducible apply follows_ite
    | with_reducible apply follows_ite_fst | with_reducible apply follows_foldl_fst
    | ((conv => arg 2; arg 45; skip); with_reducible apply follows_mk)
    | ((conv => arg 2; arg 45; skip); with_reducible apply follows_mk_mem) | with_reducible exact Eq.refl _
    | exact Eq.refl _ | with_reducible exact follows_memOk (by assumption) (by assumption)
    | with_reducible apply memFlip_wf | with_reducible apply memWrite_wf | with_reducible apply memWipe_wf
    | with_reducible apply filter_wf | split | (rename_i e; injection e; done)
    | (rename_i e; injection e with e; subst e) | (rename_i e; injection e with e e2; subst e)
    | (rename_i e; injection e with e; revert e; intro _) | (rename_i e; split at e <;> (revert e; intro _))
    | (rename_i e; rw [Option.map_eq_some_iff] at e; obtain ⟨_, _, rfl⟩ := e) | dsimp only | (rename_i e; clear e)

theorem State.misread_follows {p0 : State} (s : State) (cw : Nat) (other : Option (BitVec 37)) (hF : Follows p0 s) :
    Follows p0 (State.misread s cw other) := by
  unfold State.misread
  try dsimp only
  repeat' first
    | with_reducible assumption | intro _ | with_reducible apply follows_foldl | with_reducible apply follows_ite
    | with_reducible apply follows_ite_fst | with_reducible apply follows_foldl_fst
    | ((conv => arg 2; arg 45; skip); with_reducible apply follows_mk)
    | ((conv => arg 2; arg 45; skip); with_reducible apply follows_mk_mem) | with_reducible exact Eq.refl _
    | exact Eq.refl _ | with_reducible exact follows_memOk (by assumption) (by assumption)
    | with_reducible apply memFlip_wf | with_reducible apply memWrite_wf | with_reducible apply memWipe_wf
    | with_reducible apply filter_wf | split | (rename_i e; injection e; done)
    | (rename_i e; injection e with e; subst e) | (rename_i e; injection e with e e2; subst e)
    | (rename_i e; injection e with e; revert e; intro _) | (rename_i e; split at e <;> (revert e; intro _))
    | (rename_i e; rw [Option.map_eq_some_iff] at e; obtain ⟨_, _, rfl⟩ := e) | dsimp only | (rename_i e; clear e)

theorem State.rawWrite_follows {p0 : State} (s : State) (a : Nat) (bs : List Byte) (hF : Follows p0 s) :
    Follows p0 (State.rawWrite s a bs) := by
  unfold State.rawWrite
  try dsimp only
  repeat' first
    | with_reducible assumption | intro _ | with_reducible apply follows_foldl | with_reducible apply follows_ite
    | with_reducible apply follows_ite_fst | with_reducible apply follows_foldl_fst
    | ((conv => arg 2; arg 45; skip); with_reducible apply follows_mk)
    | ((conv => arg 2; arg 45; skip); with_reducible apply follows_mk_mem) | with_reducible exact Eq.refl _
    | exact Eq.refl _ | with_reducible exact follows_memOk (by assumption) (by assumption)
    | with_reducible apply memFlip_wf | with_reducible apply memWrite_wf | with_reducible apply memWipe_wf
    | with_reducible apply filter_wf | split | (rename_i e; injection e; done)
    | (rename_i e; injection e with e; subst e) | (rename_i e; injection e with e e2; subst e)
    | (rename_i e; injection e with e; revert e; intro _) | (rename_i e; split at e <;> (revert e; intro _))
    | (rename_i e; rw [Option.map_eq_some_iff] at e; obtain ⟨_, _, rfl⟩ := e) | dsimp only | (rename_i e; clear e)

theorem State.vaultWrite_follows {p0 : State} (s : State) (a : Nat) (bs : List Byte) (hF : Follows p0 s) :
    Follows p0 (State.vaultWrite s a bs) := by
  unfold State.vaultWrite
  try dsimp only
  repeat' first
    | with_reducible assumption | intro _ | with_reducible apply follows_foldl | with_reducible apply follows_ite
    | with_reducible apply follows_ite_fst | with_reducible apply State.rawWrite_follows
    | with_reducible apply State.reportU_follows | with_reducible apply follows_foldl_fst
    | ((conv => arg 2; arg 45; skip); with_reducible apply follows_mk)
    | ((conv => arg 2; arg 45; skip); with_reducible apply follows_mk_mem) | with_reducible exact Eq.refl _
    | exact Eq.refl _ | with_reducible exact follows_memOk (by assumption) (by assumption)
    | with_reducible apply memFlip_wf | with_reducible apply memWrite_wf | with_reducible apply memWipe_wf
    | with_reducible apply filter_wf | split | (rename_i e; injection e; done)
    | (rename_i e; injection e with e; subst e) | (rename_i e; injection e with e e2; subst e)
    | (rename_i e; injection e with e; revert e; intro _) | (rename_i e; split at e <;> (revert e; intro _))
    | (rename_i e; rw [Option.map_eq_some_iff] at e; obtain ⟨_, _, rfl⟩ := e) | dsimp only | (rename_i e; clear e)

theorem State.vaultDecode_follows {p0 : State} (s : State) (cws : List Nat) (hF : Follows p0 s) :
    Follows p0 (State.vaultDecode s cws) := by
  unfold State.vaultDecode
  try dsimp only
  repeat' first
    | with_reducible assumption | intro _ | with_reducible apply follows_foldl | with_reducible apply follows_ite
    | with_reducible apply follows_ite_fst | with_reducible apply State.reportU_follows
    | with_reducible apply follows_foldl_fst | ((conv => arg 2; arg 45; skip); with_reducible apply follows_mk)
    | ((conv => arg 2; arg 45; skip); with_reducible apply follows_mk_mem) | with_reducible exact Eq.refl _
    | exact Eq.refl _ | with_reducible exact follows_memOk (by assumption) (by assumption)
    | with_reducible apply memFlip_wf | with_reducible apply memWrite_wf | with_reducible apply memWipe_wf
    | with_reducible apply filter_wf | split | (rename_i e; injection e; done)
    | (rename_i e; injection e with e; subst e) | (rename_i e; injection e with e e2; subst e)
    | (rename_i e; injection e with e; revert e; intro _) | (rename_i e; split at e <;> (revert e; intro _))
    | (rename_i e; rw [Option.map_eq_some_iff] at e; obtain ⟨_, _, rfl⟩ := e) | dsimp only | (rename_i e; clear e)

theorem State.asStored_follows {p0 : State} (s : State) (s0 : State) (hF : Follows p0 s) (hFs0 : Follows p0 s0) :
    Follows p0 (State.asStored s s0) := by
  unfold State.asStored
  try dsimp only
  repeat' first
    | with_reducible assumption | intro _ | with_reducible apply follows_foldl | with_reducible apply follows_ite
    | with_reducible apply follows_ite_fst | with_reducible apply follows_foldl_fst
    | ((conv => arg 2; arg 45; skip); with_reducible apply follows_mk)
    | ((conv => arg 2; arg 45; skip); with_reducible apply follows_mk_mem) | with_reducible exact Eq.refl _
    | exact Eq.refl _ | with_reducible exact follows_memOk (by assumption) (by assumption)
    | with_reducible apply memFlip_wf | with_reducible apply memWrite_wf | with_reducible apply memWipe_wf
    | with_reducible apply filter_wf | split | (rename_i e; injection e; done)
    | (rename_i e; injection e with e; subst e) | (rename_i e; injection e with e e2; subst e)
    | (rename_i e; injection e with e; revert e; intro _) | (rename_i e; split at e <;> (revert e; intro _))
    | (rename_i e; rw [Option.map_eq_some_iff] at e; obtain ⟨_, _, rfl⟩ := e) | dsimp only | (rename_i e; clear e)

theorem State.fabricUp_follows {p0 : State} (s : State) (a : Nat) (n : Nat) (hF : Follows p0 s) :
    Follows p0 (State.fabricUp s a n) := by
  unfold State.fabricUp
  try dsimp only
  repeat' first
    | with_reducible assumption | intro _ | with_reducible apply follows_foldl | with_reducible apply follows_ite
    | with_reducible apply follows_ite_fst | with_reducible apply follows_foldl_fst
    | ((conv => arg 2; arg 45; skip); with_reducible apply follows_mk)
    | ((conv => arg 2; arg 45; skip); with_reducible apply follows_mk_mem) | with_reducible exact Eq.refl _
    | exact Eq.refl _ | with_reducible exact follows_memOk (by assumption) (by assumption)
    | with_reducible apply memFlip_wf | with_reducible apply memWrite_wf | with_reducible apply memWipe_wf
    | with_reducible apply filter_wf | split | (rename_i e; injection e; done)
    | (rename_i e; injection e with e; subst e) | (rename_i e; injection e with e e2; subst e)
    | (rename_i e; injection e with e; revert e; intro _) | (rename_i e; split at e <;> (revert e; intro _))
    | (rename_i e; rw [Option.map_eq_some_iff] at e; obtain ⟨_, _, rfl⟩ := e) | dsimp only | (rename_i e; clear e)

theorem State.decodeWord_follows {p0 : State} (s : State) (cw : Nat) (hF : Follows p0 s) :
    Follows p0 (State.decodeWord s cw) := by
  unfold State.decodeWord
  try dsimp only
  repeat' first
    | with_reducible assumption | intro _ | with_reducible apply follows_foldl | with_reducible apply follows_ite
    | with_reducible apply follows_ite_fst | with_reducible apply State.countEcc_follows
    | with_reducible apply follows_foldl_fst | ((conv => arg 2; arg 45; skip); with_reducible apply follows_mk)
    | ((conv => arg 2; arg 45; skip); with_reducible apply follows_mk_mem) | with_reducible exact Eq.refl _
    | exact Eq.refl _ | with_reducible exact follows_memOk (by assumption) (by assumption)
    | with_reducible apply memFlip_wf | with_reducible apply memWrite_wf | with_reducible apply memWipe_wf
    | with_reducible apply filter_wf | split | (rename_i e; injection e; done)
    | (rename_i e; injection e with e; subst e) | (rename_i e; injection e with e e2; subst e)
    | (rename_i e; injection e with e; revert e; intro _) | (rename_i e; split at e <;> (revert e; intro _))
    | (rename_i e; rw [Option.map_eq_some_iff] at e; obtain ⟨_, _, rfl⟩ := e) | dsimp only | (rename_i e; clear e)

theorem State.decodeAccess_follows {p0 : State} (s : State) (a : Nat) (n : Nat) (hF : Follows p0 s) :
    Follows p0 (State.decodeAccess s a n).1 := by
  unfold State.decodeAccess
  try dsimp only
  repeat' first
    | with_reducible assumption | intro _ | with_reducible apply follows_foldl | with_reducible apply follows_ite
    | with_reducible apply follows_ite_fst | with_reducible apply State.decodeWord_follows
    | with_reducible apply State.fabricUp_follows | with_reducible apply follows_foldl_fst
    | ((conv => arg 2; arg 45; skip); with_reducible apply follows_mk) | with_reducible exact Eq.refl _
    | exact Eq.refl _ | split | dsimp only

theorem State.decodeAccess_follows_eq {p0 t : State} {x : LoadStatus} {s : State} {a : Nat} {n : Nat} (e0 : State.decodeAccess s a n = (t, x)) (hF : Follows p0 s) : Follows p0 t := by
  have w := State.decodeAccess_follows s a n hF
  rw [e0] at w
  exact w

theorem State.markDirty_follows {p0 : State} (s : State) (a : Nat) (hF : Follows p0 s) :
    Follows p0 (State.markDirty s a) := by
  unfold State.markDirty
  try dsimp only
  repeat' first
    | with_reducible assumption | with_reducible apply follows_ite
    | ((conv => arg 2; arg 45; skip); with_reducible apply follows_mk) | exact Eq.refl _

theorem State.bankWrite_follows {p0 : State} (s : State) (a : Nat) (bs : List (Nat × Byte)) (h : Follows p0 s) :
    Follows p0 (State.bankWrite s a bs).1 := by
  unfold State.bankWrite
  dsimp only
  split
  · exact h
  split
  · exact follows_mk h rfl rfl rfl rfl rfl rfl rfl
  have hd : ∀ l : List Nat, Follows p0 (l.foldl (fun s cw => s.decodeWord cw) s) := fun l =>
    follows_foldl (fun s x h => State.decodeWord_follows _ _ h) h
  split
  · exact hd _
  · refine follows_mk_mem (s := List.foldl (fun s cw => s.markDirty (cw * 8)) _ _)
      (follows_foldl (fun s x h => State.markDirty_follows _ _ h) (hd _)) (fun w => ?_) rfl rfl rfl rfl rfl rfl rfl
    exact foldl_memSet_wf _ _ (fun m x => memSet_wf _ _ _) _ ((hd _).sound w).mem

theorem State.bankWrite_follows_eq {p0 t : State} {x : Bool} {s : State} {a : Nat} {bs : List (Nat × Byte)}
    (e0 : State.bankWrite s a bs = (t, x)) (h : Follows p0 s) : Follows p0 t := by
  have w := State.bankWrite_follows s a bs h
  rw [e0] at w
  exact w

end Sys2Proof.Machine
end

