-- ==== Sys2Proof/Laws/FollowsRecorder.lean ====
section
/-! SUPPORT. What the operations of Machine/Recorder.lean keep: the queue, the invariant, programmed OTP bits. -/

namespace Sys2Proof.Machine

theorem State.record_follows {p0 : State} (s : State) (rec : Record) (trigger : Bool) (hF : Follows p0 s) :
    Follows p0 (State.record s rec trigger) := by
  unfold State.record
  try dsimp only
  repeat' first
    | with_reducible assumption | with_reducible apply follows_ite
    | ((conv => arg 2; arg 45; skip); with_reducible apply follows_mk) | exact Eq.refl _

theorem State.flipRecord_follows {p0 : State} (s : State) (cw : Nat) (e : CwFlip) (hF : Follows p0 s) :
    Follows p0 (State.flipRecord s cw e) := by
  unfold State.flipRecord
  try dsimp only
  repeat' first
    | with_reducible assumption | intro _ | with_reducible apply follows_foldl | with_reducible apply follows_ite
    | with_reducible apply follows_ite_fst | with_reducible apply follows_foldl_fst
    | ((conv => arg 2; arg 45; skip); with_reducible apply follows_mk)
    | ((conv => arg 2; arg 45; skip); with_reducible apply follows_mk_mem) | with_reducible exact Eq.refl _
    | exact Eq.refl _ | with_reducible exact follows_memOk (by assumption) (by assumption)
    | with_reducible apply memFlip_wf | with_reducible apply memWrite_wf | with_reducible apply memWipe_wf
    | with_reducible apply filter_wf | split | (rename_i e; injection e; done)
    | (rename_i e; injection e with e; subst e) | (rename_i e; injection e with e e2; subst e)
    | (rename_i e; injection e with e; revert e; intro _) | (rename_i e; split at e <;> (revert e; intro _))
    | (rename_i e; rw [Option.map_eq_some_iff] at e; obtain ⟨_, _, rfl⟩ := e) | dsimp only | (rename_i e; clear e)

theorem State.readRecord_follows {p0 : State} (s : State) (i : Nat) (hF : Follows p0 s) :
    Follows p0 (State.readRecord s i).1 := by
  unfold State.readRecord
  try dsimp only
  repeat' first
    | with_reducible assumption | intro _ | with_reducible apply follows_foldl | with_reducible apply follows_ite
    | with_reducible apply follows_ite_fst | with_reducible apply State.reportU_follows
    | with_reducible apply follows_foldl_fst | ((conv => arg 2; arg 45; skip); with_reducible apply follows_mk)
    | ((conv => arg 2; arg 45; skip); with_reducible apply follows_mk_mem) | with_reducible exact Eq.refl _
    | exact Eq.refl _ | with_reducible exact follows_memOk (by assumption) (by assumption)
    | with_reducible apply memFlip_wf | with_reducible apply memWrite_wf | with_reducible apply memWipe_wf
    | with_reducible apply filter_wf | split | (rename_i e; injection e; done)
    | (rename_i e; injection e with e; subst e) | (rename_i e; injection e with e e2; subst e)
    | (rename_i e; injection e with e; revert e; intro _) | (rename_i e; split at e <;> (revert e; intro _))
    | (rename_i e; rw [Option.map_eq_some_iff] at e; obtain ⟨_, _, rfl⟩ := e) | dsimp only | (rename_i e; clear e)

theorem State.readRecord_follows_eq {p0 t : State} {x : Word} {s : State} {i : Nat} (e0 : State.readRecord s i = (t, x)) (hF : Follows p0 s) : Follows p0 t := by
  have w := State.readRecord_follows s i hF
  rw [e0] at w
  exact w

end Sys2Proof.Machine
end

