-- ==== Sys2Proof/Laws/FollowsDmaRegs.lean ====
section
/-! SUPPORT. What the operations of Machine/DmaRegs.lean keep: the queue, the invariant, programmed OTP bits. -/

namespace Sys2Proof.Machine

theorem State.setDma_follows {p0 : State} (s : State) (c : DmaId) (d : Dma) (hF : Follows p0 s) :
    Follows p0 (State.setDma s c d) := by
  unfold State.setDma
  try dsimp only
  repeat' first
    | with_reducible assumption | with_reducible apply follows_ite
    | ((conv => arg 2; arg 45; skip); with_reducible apply follows_mk) | exact Eq.refl _

theorem State.setRet_follows {p0 : State} (s : State) (n : SpanId) (b : Nat) (on : Bool) (hF : Follows p0 s) :
    Follows p0 (State.setRet s n b on) := by
  unfold State.setRet
  repeat' first
    | with_reducible assumption | with_reducible apply State.setReg_follows

theorem State.retainFold_follows {p0 : State} (s : State) (f : FoldId) (hF : Follows p0 s) :
    Follows p0 (State.retainFold s f) := by
  unfold State.retainFold
  try dsimp only
  repeat' first
    | with_reducible assumption | intro _ | with_reducible apply follows_foldl | with_reducible apply follows_ite
    | with_reducible apply follows_ite_fst | with_reducible apply State.setRet_follows
    | with_reducible apply follows_foldl_fst | ((conv => arg 2; arg 45; skip); with_reducible apply follows_mk)
    | ((conv => arg 2; arg 45; skip); with_reducible apply follows_mk_mem) | with_reducible exact Eq.refl _
    | exact Eq.refl _ | with_reducible exact follows_memOk (by assumption) (by assumption)
    | with_reducible apply memFlip_wf | with_reducible apply memWrite_wf | with_reducible apply memWipe_wf
    | with_reducible apply filter_wf | split | (rename_i e; injection e; done)
    | (rename_i e; injection e with e; subst e) | (rename_i e; injection e with e e2; subst e)
    | (rename_i e; injection e with e; revert e; intro _) | (rename_i e; split at e <;> (revert e; intro _))
    | (rename_i e; rw [Option.map_eq_some_iff] at e; obtain ⟨_, _, rfl⟩ := e) | dsimp only | (rename_i e; clear e)

theorem State.retainAfter_follows {p0 : State} (s : State) (c : DmaId) (hF : Follows p0 s) :
    Follows p0 (State.retainAfter s c) := by
  unfold State.retainAfter
  try dsimp only
  repeat' first
    | with_reducible assumption | intro _ | with_reducible apply follows_foldl | with_reducible apply follows_ite
    | with_reducible apply follows_ite_fst | with_reducible apply State.retainFold_follows
    | with_reducible apply follows_foldl_fst | ((conv => arg 2; arg 45; skip); with_reducible apply follows_mk)
    | ((conv => arg 2; arg 45; skip); with_reducible apply follows_mk_mem) | with_reducible exact Eq.refl _
    | exact Eq.refl _ | with_reducible exact follows_memOk (by assumption) (by assumption)
    | with_reducible apply memFlip_wf | with_reducible apply memWrite_wf | with_reducible apply memWipe_wf
    | with_reducible apply filter_wf | split | (rename_i e; injection e; done)
    | (rename_i e; injection e with e; subst e) | (rename_i e; injection e with e e2; subst e)
    | (rename_i e; injection e with e; revert e; intro _) | (rename_i e; split at e <;> (revert e; intro _))
    | (rename_i e; rw [Option.map_eq_some_iff] at e; obtain ⟨_, _, rfl⟩ := e) | dsimp only | (rename_i e; clear e)

theorem State.unretainFold_follows {p0 : State} (s : State) (f : FoldId) (hF : Follows p0 s) :
    Follows p0 (State.unretainFold s f) := by
  unfold State.unretainFold
  try dsimp only
  repeat' first
    | with_reducible assumption | intro _ | with_reducible apply follows_foldl | with_reducible apply follows_ite
    | with_reducible apply follows_ite_fst | with_reducible apply State.setRet_follows
    | with_reducible apply follows_foldl_fst | ((conv => arg 2; arg 45; skip); with_reducible apply follows_mk)
    | ((conv => arg 2; arg 45; skip); with_reducible apply follows_mk_mem) | with_reducible exact Eq.refl _
    | exact Eq.refl _ | with_reducible exact follows_memOk (by assumption) (by assumption)
    | with_reducible apply memFlip_wf | with_reducible apply memWrite_wf | with_reducible apply memWipe_wf
    | with_reducible apply filter_wf | split | (rename_i e; injection e; done)
    | (rename_i e; injection e with e; subst e) | (rename_i e; injection e with e e2; subst e)
    | (rename_i e; injection e with e; revert e; intro _) | (rename_i e; split at e <;> (revert e; intro _))
    | (rename_i e; rw [Option.map_eq_some_iff] at e; obtain ⟨_, _, rfl⟩ := e) | dsimp only | (rename_i e; clear e)

end Sys2Proof.Machine
end

