-- ==== Sys2Proof/Laws/FollowsIoWindow.lean ====
section
/-! SUPPORT. What the operations of Machine/IoWindow.lean keep: the queue, the invariant, programmed OTP bits. -/

namespace Sys2Proof.Machine

theorem State.setQueue_follows {p0 : State} (s : State) (p : Nat) (q : Nat) (k : PortQueue) (hF : Follows p0 s) :
    Follows p0 (State.setQueue s p q k) := by
  unfold State.setQueue
  try dsimp only
  repeat' first
    | with_reducible assumption | with_reducible apply follows_ite
    | ((conv => arg 2; arg 45; skip); with_reducible apply follows_mk) | exact Eq.refl _

theorem State.setOutPair_follows {p0 : State} (s : State) (k : Nat) (o : OutPair) (hF : Follows p0 s) :
    Follows p0 (State.setOutPair s k o) := by
  unfold State.setOutPair
  try dsimp only
  repeat' first
    | with_reducible assumption | with_reducible apply follows_ite
    | ((conv => arg 2; arg 45; skip); with_reducible apply follows_mk) | exact Eq.refl _

theorem State.emit_follows {p0 : State} (s : State) (m : WireMsg) (hF : Follows p0 s) :
    Follows p0 (State.emit s m) := by
  unfold State.emit
  try dsimp only
  repeat' first
    | with_reducible assumption | with_reducible apply follows_ite
    | ((conv => arg 2; arg 45; skip); with_reducible apply follows_mk) | exact Eq.refl _

theorem State.lateOutput_follows {p0 : State} (s : State) (f : FoldId) (tag : Word) (hF : Follows p0 s) :
    Follows p0 (State.lateOutput s f tag) := by
  unfold State.lateOutput
  try dsimp only
  repeat' first
    | with_reducible assumption | with_reducible apply follows_ite | with_reducible apply State.reportU_follows
    | with_reducible apply State.setFold_follows | with_reducible apply State.setReg_follows
    | ((conv => arg 2; arg 45; skip); with_reducible apply follows_mk) | exact Eq.refl _

theorem State.enterOutput_follows {p0 : State} (s : State) (f : FoldId) (dest : Half) (bs : List Byte) (loc : Bool) (tag : Word) (o : Origin) (hF : Follows p0 s) :
    Follows p0 (State.enterOutput s f dest bs loc tag o).1 := by
  unfold State.enterOutput
  try dsimp only
  repeat' first
    | with_reducible assumption | with_reducible apply follows_ite | with_reducible apply State.lateOutput_follows
    | with_reducible apply State.reportU_follows | with_reducible apply State.setFold_follows
    | ((conv => arg 2; arg 45; skip); with_reducible apply follows_mk) | exact Eq.refl _ | split

theorem State.enterOutput_follows_eq {p0 t : State} {x : Bool} {s : State} {f : FoldId} {dest : Half} {bs : List Byte} {loc : Bool} {tag : Word} {o : Origin} (e0 : State.enterOutput s f dest bs loc tag o = (t, x)) (hF : Follows p0 s) : Follows p0 t := by
  have w := State.enterOutput_follows s f dest bs loc tag o hF
  rw [e0] at w
  exact w

theorem State.ioStore_follows {p0 : State} (s : State) (w : IoWrite) (hF : Follows p0 s) :
    Follows p0 (State.ioStore s w) := by
  unfold State.ioStore
  try dsimp only
  repeat' first
    | with_reducible assumption | with_reducible apply follows_ite | with_reducible apply State.enterOutput_follows
    | with_reducible apply State.setDma_follows | ((conv => arg 2; arg 45; skip); with_reducible apply follows_mk)
    | exact Eq.refl _ | split

theorem State.ioLoad_follows {p0 : State} (s : State) (f : FoldId) (bank : Nat) (off : Nat) (size : Nat) (hF : Follows p0 s) :
    Follows p0 (State.ioLoad s f bank off size).1 := by
  unfold State.ioLoad
  try dsimp only
  repeat' first
    | with_reducible assumption | intro _ | with_reducible apply follows_foldl | with_reducible apply follows_ite
    | with_reducible apply follows_ite_fst | with_reducible apply State.fabricUp_follows
    | with_reducible apply State.setQueue_follows | with_reducible apply follows_foldl_fst
    | ((conv => arg 2; arg 45; skip); with_reducible apply follows_mk) | with_reducible exact Eq.refl _
    | exact Eq.refl _ | split | dsimp only

theorem State.ioLoad_follows_eq {p0 t : State} {x : QWord × LoadStatus} {s : State} {f : FoldId} {bank : Nat} {off : Nat} {size : Nat} (e0 : State.ioLoad s f bank off size = (t, x)) (hF : Follows p0 s) : Follows p0 t := by
  have w := State.ioLoad_follows s f bank off size hF
  rw [e0] at w
  exact w

theorem State.deenergise_follows {p0 : State} (s : State) (f : Option FoldId) (hF : Follows p0 s) :
    Follows p0 (State.deenergise s f) := by
  unfold State.deenergise
  try dsimp only
  repeat' first
    | with_reducible assumption | intro _ | with_reducible apply follows_foldl | with_reducible apply follows_ite
    | with_reducible apply State.setOutPair_follows | ((conv => arg 2; arg 45; skip); with_reducible apply follows_mk)
    | with_reducible exact Eq.refl _ | exact Eq.refl _ | split

theorem State.emptyTx_follows {p0 : State} (s : State) (f : FoldId) (hF : Follows p0 s) :
    Follows p0 (State.emptyTx s f) := by
  unfold State.emptyTx
  try dsimp only
  repeat' first
    | with_reducible assumption | with_reducible apply follows_ite
    | ((conv => arg 2; arg 45; skip); with_reducible apply follows_mk) | exact Eq.refl _

end Sys2Proof.Machine
end

