-- ==== Sys2Proof/Laws/FollowsOps.lean ====
section
/-! SUPPORT. What the operations of Machine/Ops.lean keep: the queue, the invariant, programmed OTP bits. -/

namespace Sys2Proof.Machine

theorem State.handOver_follows {p0 : State} (s : State) (y : YokeId) (interval : Nat) (hF : Follows p0 s) :
    Follows p0 (State.handOver s y interval) := by
  unfold State.handOver
  try dsimp only
  repeat' first
    | with_reducible assumption | intro _ | with_reducible apply follows_foldl | with_reducible apply follows_ite
    | with_reducible apply State.ioStore_follows | with_reducible apply State.setYoke_follows
    | ((conv => arg 2; arg 45; skip); with_reducible apply follows_mk) | with_reducible exact Eq.refl _
    | exact Eq.refl _ | split

theorem State.eventDone_follows {p0 : State} (s : State) (f : FoldId) (v : Option Byte) (hF : Follows p0 s) :
    Follows p0 (State.eventDone s f v) := by
  unfold State.eventDone
  try dsimp only
  repeat' first
    | with_reducible assumption | with_reducible apply follows_ite | with_reducible apply State.setFold_follows
    | ((conv => arg 2; arg 45; skip); with_reducible apply follows_mk) | exact Eq.refl _ | split

theorem State.takeEffect_follows {p0 : State} (s : State) (f : FoldId) (es : List YokeEffect) (hF : Follows p0 s) :
    Follows p0 (State.takeEffect s f es) := by
  unfold State.takeEffect
  try dsimp only
  repeat' first
    | with_reducible assumption | intro _ | with_reducible apply follows_foldl | with_reducible apply follows_ite
    | with_reducible apply follows_ite_fst | with_reducible apply State.setFold_follows
    | with_reducible apply follows_foldl_fst | ((conv => arg 2; arg 45; skip); with_reducible apply follows_mk)
    | ((conv => arg 2; arg 45; skip); with_reducible apply follows_mk_mem) | with_reducible exact Eq.refl _
    | exact Eq.refl _ | with_reducible exact follows_memOk (by assumption) (by assumption)
    | with_reducible apply memFlip_wf | with_reducible apply memWrite_wf | with_reducible apply memWipe_wf
    | with_reducible apply filter_wf | split | (rename_i e; injection e; done)
    | (rename_i e; injection e with e; subst e) | (rename_i e; injection e with e e2; subst e)
    | (rename_i e; injection e with e; revert e; intro _) | (rename_i e; split at e <;> (revert e; intro _))
    | (rename_i e; rw [Option.map_eq_some_iff] at e; obtain ⟨_, _, rfl⟩ := e) | dsimp only | (rename_i e; clear e)

theorem State.commit_follows {p0 : State} (s : State) (y : YokeId) (ck : Ckpt) (interval : Nat) (event : Option Byte) (hF : Follows p0 s) :
    Follows p0 (State.commit s y ck interval event) := by
  unfold State.commit
  try dsimp only
  repeat' first
    | with_reducible assumption | with_reducible apply follows_ite | with_reducible apply State.eventDone_follows
    | with_reducible apply State.handOver_follows | with_reducible apply State.setYoke_follows
    | with_reducible apply State.takeEffect_follows | ((conv => arg 2; arg 45; skip); with_reducible apply follows_mk)
    | exact Eq.refl _ | split

theorem State.capture_follows {p0 : State} (s : State) (y : YokeId) (hF : Follows p0 s) :
    Follows p0 (State.capture s y) := by
  unfold State.capture
  try dsimp only
  repeat' first
    | with_reducible assumption | with_reducible apply follows_ite | with_reducible apply State.commit_follows
    | with_reducible apply State.setYoke_follows | ((conv => arg 2; arg 45; skip); with_reducible apply follows_mk)
    | exact Eq.refl _

theorem State.reportHeld_follows {p0 : State} (s : State) (y : YokeId) (e : WhbEntry) (hF : Follows p0 s) :
    Follows p0 (State.reportHeld s y e) := by
  unfold State.reportHeld
  try dsimp only
  repeat' first
    | with_reducible assumption | intro _ | with_reducible apply follows_foldl | with_reducible apply follows_ite
    | with_reducible apply follows_ite_fst | with_reducible apply State.reportU_follows
    | with_reducible apply follows_foldl_fst | ((conv => arg 2; arg 45; skip); with_reducible apply follows_mk)
    | ((conv => arg 2; arg 45; skip); with_reducible apply follows_mk_mem) | with_reducible exact Eq.refl _
    | exact Eq.refl _ | with_reducible exact follows_memOk (by assumption) (by assumption)
    | with_reducible apply memFlip_wf | with_reducible apply memWrite_wf | with_reducible apply memWipe_wf
    | with_reducible apply filter_wf | split | (rename_i e; injection e; done)
    | (rename_i e; injection e with e; subst e) | (rename_i e; injection e with e e2; subst e)
    | (rename_i e; injection e with e; revert e; intro _) | (rename_i e; split at e <;> (revert e; intro _))
    | (rename_i e; rw [Option.map_eq_some_iff] at e; obtain ⟨_, _, rfl⟩ := e) | dsimp only | (rename_i e; clear e)

theorem State.correctHeld_follows {p0 : State} (s : State) (y : YokeId) (interval : Nat) (hF : Follows p0 s) :
    Follows p0 (State.correctHeld s y interval) := by
  unfold State.correctHeld
  try dsimp only
  repeat' first
    | with_reducible assumption | intro _ | with_reducible apply follows_foldl | with_reducible apply follows_ite
    | with_reducible apply follows_ite_fst | with_reducible apply State.reportHeld_follows
    | with_reducible apply State.setYoke_follows | with_reducible apply follows_foldl_fst
    | ((conv => arg 2; arg 45; skip); with_reducible apply follows_mk)
    | ((conv => arg 2; arg 45; skip); with_reducible apply follows_mk_mem) | with_reducible exact Eq.refl _
    | exact Eq.refl _ | with_reducible exact follows_memOk (by assumption) (by assumption)
    | with_reducible apply memFlip_wf | with_reducible apply memWrite_wf | with_reducible apply memWipe_wf
    | with_reducible apply filter_wf | split | (rename_i e; injection e; done)
    | (rename_i e; injection e with e; subst e) | (rename_i e; injection e with e e2; subst e)
    | (rename_i e; injection e with e; revert e; intro _) | (rename_i e; split at e <;> (revert e; intro _))
    | (rename_i e; rw [Option.map_eq_some_iff] at e; obtain ⟨_, _, rfl⟩ := e) | dsimp only | (rename_i e; clear e)

theorem State.after96_follows {p0 : State} (s : State) (y : YokeId) (hF : Follows p0 s) :
    Follows p0 (State.after96 s y) := by
  unfold State.after96
  try dsimp only
  repeat' first
    | with_reducible assumption | with_reducible apply follows_ite | with_reducible apply State.capture_follows
    | ((conv => arg 2; arg 45; skip); with_reducible apply follows_mk) | exact Eq.refl _

theorem State.escalationFails_follows {p0 : State} (s : State) (y : YokeId) (hF : Follows p0 s) :
    Follows p0 (State.escalationFails s y) := by
  unfold State.escalationFails
  try dsimp only
  repeat' first
    | with_reducible assumption | with_reducible apply follows_ite | with_reducible apply State.capture_follows
    | with_reducible apply State.reportU_follows | with_reducible apply State.setYoke_follows
    | ((conv => arg 2; arg 45; skip); with_reducible apply follows_mk) | exact Eq.refl _ | split

theorem State.fetchCode_follows {p0 : State} (s : State) (f : FoldId) (y : YokeId) (ring : BitVec 2) (a : Word) (got : List Byte)
    (fuel : Nat) (hF : Follows p0 s) : Follows p0 (State.fetchCode s f y ring a got fuel).1 := by
  induction fuel generalizing s got with
  | zero => unfold State.fetchCode; exact hF
  | succ n ih =>
    unfold State.fetchCode
    split
    · rename_i e _
      obtain rfl := Nat.succ.inj e
      dsimp only
      split
      · exact hF
      · have h : ∀ p, Follows p0 (if got.isEmpty || decide (p % 8 = 0) then s.decodeAccess p 1 else (s, .completed)).1 := by
          intro p
          split
          · exact State.decodeAccess_follows _ _ _ hF
          · exact hF
        split
        · exact h _
        · exact ih _ _ (h _)
    · exact hF

theorem State.fetchCode_follows_eq {p0 t : State} {x : Option (Byte × Word × Word)} {s : State} {f : FoldId} {y : YokeId}
    {ring : BitVec 2} {a : Word} {got : List Byte} {fuel : Nat} (e0 : State.fetchCode s f y ring a got fuel = (t, x))
    (hF : Follows p0 s) : Follows p0 t := by
  have w := State.fetchCode_follows s f y ring a got fuel hF
  rw [e0] at w
  exact w

theorem State.fetchFails_follows {p0 : State} (s : State) (f : FoldId) (y : YokeId) (ring : BitVec 2) (a : Word) (hF : Follows p0 s) :
    Follows p0 (State.fetchFails s f y ring a).1 := by
  unfold State.fetchFails
  try dsimp only
  repeat' first
    | with_reducible assumption | intro _ | with_reducible apply follows_foldl | with_reducible apply follows_ite
    | with_reducible apply follows_ite_fst | with_reducible apply State.fetchCode_follows
    | with_reducible refine State.fetchCode_follows_eq (by assumption) ?_ | with_reducible apply follows_foldl_fst
    | ((conv => arg 2; arg 45; skip); with_reducible apply follows_mk)
    | ((conv => arg 2; arg 45; skip); with_reducible apply follows_mk_mem) | with_reducible exact Eq.refl _
    | exact Eq.refl _ | with_reducible exact follows_memOk (by assumption) (by assumption)
    | with_reducible apply memFlip_wf | with_reducible apply memWrite_wf | with_reducible apply memWipe_wf
    | with_reducible apply filter_wf | split | (rename_i e; injection e; done)
    | (rename_i e; injection e with e; subst e) | (rename_i e; injection e with e e2; subst e)
    | (rename_i e; injection e with e; revert e; intro _) | (rename_i e; split at e <;> (revert e; intro _))
    | (rename_i e; rw [Option.map_eq_some_iff] at e; obtain ⟨_, _, rfl⟩ := e) | dsimp only | (rename_i e; clear e)

theorem State.fetchFails_follows_eq {p0 t : State} {x : Option (Byte × Word × Word)} {s : State} {f : FoldId} {y : YokeId} {ring : BitVec 2} {a : Word} (e0 : State.fetchFails s f y ring a = (t, x)) (hF : Follows p0 s) : Follows p0 t := by
  have w := State.fetchFails_follows s f y ring a hF
  rw [e0] at w
  exact w

theorem State.frameStores_follows {p0 : State} (s : State) (y : YokeId) (e : EntryInfo) (phys : List Nat) (hF : Follows p0 s) :
    Follows p0 (State.frameStores s y e phys) := by
  unfold State.frameStores
  try dsimp only
  repeat' first
    | with_reducible assumption | intro _ | with_reducible apply follows_foldl | with_reducible apply follows_ite
    | with_reducible apply State.setYoke_follows | ((conv => arg 2; arg 45; skip); with_reducible apply follows_mk)
    | with_reducible exact Eq.refl _ | exact Eq.refl _ | split

theorem State.entered_follows {p0 : State} (s : State) (y : YokeId) (e : EntryInfo) (event : Option Byte) (phys : List Nat) (hF : Follows p0 s) :
    Follows p0 (State.entered s y e event phys) := by
  unfold State.entered
  repeat' first
    | with_reducible assumption | with_reducible apply State.capture_follows
    | with_reducible apply State.frameStores_follows | with_reducible apply State.setYoke_follows

theorem State.escalate_follows {p0 : State} (s : State) (y : YokeId) (f : FoldId) (vec : Byte) (sec : Byte) (inEntry : Bool) (masked : Bool) (info : Word) (syn : Word) (oinfo : Word) (osyn : Word) (skip : Nat) (event : Option Byte) (floor : BitVec 2) (hF : Follows p0 s) :
    Follows p0 (State.escalate s y f vec sec inEntry masked info syn oinfo osyn skip event floor) := by
  unfold State.escalate
  try dsimp only
  repeat' first
    | with_reducible assumption | with_reducible apply follows_ite | with_reducible apply State.entered_follows
    | with_reducible apply State.escalationFails_follows | with_reducible apply State.fetchFails_follows
    | with_reducible apply State.setYoke_follows | ((conv => arg 2; arg 45; skip); with_reducible apply follows_mk)
    | exact Eq.refl _ | split

theorem State.readDescriptor_follows {p0 : State} (s : State) (f : FoldId) (y : YokeId) (vec : Byte) (hF : Follows p0 s) :
    Follows p0 (State.readDescriptor s f y vec).1 := by
  unfold State.readDescriptor
  try dsimp only
  repeat' first
    | with_reducible assumption | intro _ | with_reducible apply follows_foldl | with_reducible apply follows_ite
    | with_reducible apply follows_ite_fst | with_reducible apply State.decodeAccess_follows
    | with_reducible refine State.decodeAccess_follows_eq (by assumption) ?_ | with_reducible apply follows_foldl_fst
    | ((conv => arg 2; arg 45; skip); with_reducible apply follows_mk)
    | ((conv => arg 2; arg 45; skip); with_reducible apply follows_mk_mem) | with_reducible exact Eq.refl _
    | exact Eq.refl _ | with_reducible exact follows_memOk (by assumption) (by assumption)
    | with_reducible apply memFlip_wf | with_reducible apply memWrite_wf | with_reducible apply memWipe_wf
    | with_reducible apply filter_wf | split | (rename_i e; injection e; done)
    | (rename_i e; injection e with e; subst e) | (rename_i e; injection e with e e2; subst e)
    | (rename_i e; injection e with e; revert e; intro _) | (rename_i e; split at e <;> (revert e; intro _))
    | (rename_i e; rw [Option.map_eq_some_iff] at e; obtain ⟨_, _, rfl⟩ := e) | dsimp only | (rename_i e; clear e)

theorem State.readDescriptor_follows_eq {p0 t : State} {x : (Word × Word ⊕ Byte × Word × Word)} {s : State} {f : FoldId} {y : YokeId} {vec : Byte} (e0 : State.readDescriptor s f y vec = (t, x)) (hF : Follows p0 s) : Follows p0 t := by
  have w := State.readDescriptor_follows s f y vec hF
  rw [e0] at w
  exact w

theorem State.planFrame_follows {p0 : State} (s : State) (f : FoldId) (y : YokeId) (vec : Byte) (cause : EntryCause) (info : Word) (syn : Word) (skip : Nat) (hF : Follows p0 s) :
    Follows p0 (State.planFrame s f y vec cause info syn skip).1 := by
  unfold State.planFrame
  try dsimp only
  repeat' first
    | with_reducible assumption | intro _ | with_reducible apply follows_foldl | with_reducible apply follows_ite
    | with_reducible apply follows_ite_fst | with_reducible apply State.readDescriptor_follows
    | with_reducible refine State.readDescriptor_follows_eq (by assumption) ?_ | with_reducible apply follows_foldl_fst
    | ((conv => arg 2; arg 45; skip); with_reducible apply follows_mk)
    | ((conv => arg 2; arg 45; skip); with_reducible apply follows_mk_mem) | with_reducible exact Eq.refl _
    | exact Eq.refl _ | with_reducible exact follows_memOk (by assumption) (by assumption)
    | with_reducible apply memFlip_wf | with_reducible apply memWrite_wf | with_reducible apply memWipe_wf
    | with_reducible apply filter_wf | split | (rename_i e; injection e; done)
    | (rename_i e; injection e with e; subst e) | (rename_i e; injection e with e e2; subst e)
    | (rename_i e; injection e with e; revert e; intro _) | (rename_i e; split at e <;> (revert e; intro _))
    | (rename_i e; rw [Option.map_eq_some_iff] at e; obtain ⟨_, _, rfl⟩ := e) | dsimp only | (rename_i e; clear e)

theorem State.planFrame_follows_eq {p0 t : State} {x : (EntryInfo × List Nat ⊕ Byte × Word × Word)} {s : State} {f : FoldId} {y : YokeId} {vec : Byte} {cause : EntryCause} {info : Word} {syn : Word} {skip : Nat} (e0 : State.planFrame s f y vec cause info syn skip = (t, x)) (hF : Follows p0 s) : Follows p0 t := by
  have w := State.planFrame_follows s f y vec cause info syn skip hF
  rw [e0] at w
  exact w

theorem State.planEntry_follows {p0 : State} (s : State) (f : FoldId) (y : YokeId) (vec : Byte) (cause : EntryCause) (info : Word) (syn : Word) (skip : Nat) (hF : Follows p0 s) :
    Follows p0 (State.planEntry s f y vec cause info syn skip).1 := by
  unfold State.planEntry
  try dsimp only
  repeat' first
    | with_reducible assumption | intro _ | with_reducible apply follows_foldl | with_reducible apply follows_ite
    | with_reducible apply follows_ite_fst | with_reducible apply State.fetchFails_follows
    | with_reducible apply State.planFrame_follows
    | with_reducible refine State.fetchFails_follows_eq (by assumption) ?_
    | with_reducible refine State.planFrame_follows_eq (by assumption) ?_ | with_reducible apply follows_foldl_fst
    | ((conv => arg 2; arg 45; skip); with_reducible apply follows_mk)
    | ((conv => arg 2; arg 45; skip); with_reducible apply follows_mk_mem) | with_reducible exact Eq.refl _
    | exact Eq.refl _ | with_reducible exact follows_memOk (by assumption) (by assumption)
    | with_reducible apply memFlip_wf | with_reducible apply memWrite_wf | with_reducible apply memWipe_wf
    | with_reducible apply filter_wf | split | (rename_i e; injection e; done)
    | (rename_i e; injection e with e; subst e) | (rename_i e; injection e with e e2; subst e)
    | (rename_i e; injection e with e; revert e; intro _) | (rename_i e; split at e <;> (revert e; intro _))
    | (rename_i e; rw [Option.map_eq_some_iff] at e; obtain ⟨_, _, rfl⟩ := e) | dsimp only | (rename_i e; clear e)

theorem State.planEntry_follows_eq {p0 t : State} {x : (EntryInfo × List Nat ⊕ Byte × Word × Word)} {s : State} {f : FoldId} {y : YokeId} {vec : Byte} {cause : EntryCause} {info : Word} {syn : Word} {skip : Nat} (e0 : State.planEntry s f y vec cause info syn skip = (t, x)) (hF : Follows p0 s) : Follows p0 t := by
  have w := State.planEntry_follows s f y vec cause info syn skip hF
  rw [e0] at w
  exact w

theorem State.raise_follows {p0 : State} (s : State) (y : YokeId) (vec : Byte) (info : Word) (syn : Word) (hF : Follows p0 s) :
    Follows p0 (State.raise s y vec info syn) := by
  unfold State.raise
  try dsimp only
  repeat' first
    | with_reducible assumption | with_reducible apply follows_ite | with_reducible apply State.entered_follows
    | with_reducible apply State.escalate_follows | with_reducible apply State.escalationFails_follows
    | with_reducible apply State.planEntry_follows | ((conv => arg 2; arg 45; skip); with_reducible apply follows_mk)
    | exact Eq.refl _ | split

theorem State.trap_follows {p0 : State} (s : State) (y : YokeId) (vec : Byte) (info : Word) (syn : Word) (hF : Follows p0 s) :
    Follows p0 (State.trap s y vec info syn) := by
  unfold State.trap
  try dsimp only
  repeat' first
    | with_reducible assumption | with_reducible apply follows_ite | with_reducible apply State.raise_follows
    | with_reducible apply State.setYoke_follows | ((conv => arg 2; arg 45; skip); with_reducible apply follows_mk)
    | exact Eq.refl _

theorem State.trapOf_follows {p0 : State} (s : State) (y : YokeId) (i : CoreIns) (vec : Byte) (info : Word) (syn : Word) (hF : Follows p0 s) :
    Follows p0 (State.trapOf s y i vec info syn) := by
  unfold State.trapOf
  try dsimp only
  repeat' first
    | with_reducible assumption | intro _ | with_reducible apply follows_foldl | with_reducible apply follows_ite
    | with_reducible apply follows_ite_fst | with_reducible apply State.raise_follows
    | with_reducible apply State.setYoke_follows | with_reducible apply follows_foldl_fst
    | ((conv => arg 2; arg 45; skip); with_reducible apply follows_mk)
    | ((conv => arg 2; arg 45; skip); with_reducible apply follows_mk_mem) | with_reducible exact Eq.refl _
    | exact Eq.refl _ | with_reducible exact follows_memOk (by assumption) (by assumption)
    | with_reducible apply memFlip_wf | with_reducible apply memWrite_wf | with_reducible apply memWipe_wf
    | with_reducible apply filter_wf | split | (rename_i e; injection e; done)
    | (rename_i e; injection e with e; subst e) | (rename_i e; injection e with e e2; subst e)
    | (rename_i e; injection e with e; revert e; intro _) | (rename_i e; split at e <;> (revert e; intro _))
    | (rename_i e; rw [Option.map_eq_some_iff] at e; obtain ⟨_, _, rfl⟩ := e) | dsimp only | (rename_i e; clear e)

theorem State.call_follows {p0 : State} (s : State) (y : YokeId) (cause : EntryCause) (n : Byte) (hF : Follows p0 s) :
    Follows p0 (State.call s y cause n) := by
  unfold State.call
  try dsimp only
  repeat' first
    | with_reducible assumption | with_reducible apply follows_ite | with_reducible apply State.entered_follows
    | with_reducible apply State.escalate_follows | with_reducible apply State.escalationFails_follows
    | with_reducible apply State.fetchFails_follows | with_reducible apply State.planFrame_follows
    | with_reducible apply State.raise_follows | with_reducible apply State.setYoke_follows
    | with_reducible apply State.trap_follows | ((conv => arg 2; arg 45; skip); with_reducible apply follows_mk)
    | exact Eq.refl _ | split

theorem State.commitUnchecked_follows {p0 : State} (s : State) (y : YokeId) (hF : Follows p0 s) :
    Follows p0 (State.commitUnchecked s y) := by
  unfold State.commitUnchecked
  try dsimp only
  repeat' first
    | with_reducible assumption | intro _ | with_reducible apply follows_foldl | with_reducible apply follows_ite
    | with_reducible apply follows_ite_fst | with_reducible apply State.commit_follows
    | with_reducible apply State.correctHeld_follows | with_reducible apply follows_foldl_fst
    | ((conv => arg 2; arg 45; skip); with_reducible apply follows_mk)
    | ((conv => arg 2; arg 45; skip); with_reducible apply follows_mk_mem) | with_reducible exact Eq.refl _
    | exact Eq.refl _ | with_reducible exact follows_memOk (by assumption) (by assumption)
    | with_reducible apply memFlip_wf | with_reducible apply memWrite_wf | with_reducible apply memWipe_wf
    | with_reducible apply filter_wf | split | (rename_i e; injection e; done)
    | (rename_i e; injection e with e; subst e) | (rename_i e; injection e with e e2; subst e)
    | (rename_i e; injection e with e; revert e; intro _) | (rename_i e; split at e <;> (revert e; intro _))
    | (rename_i e; rw [Option.map_eq_some_iff] at e; obtain ⟨_, _, rfl⟩ := e) | dsimp only | (rename_i e; clear e)

theorem State.debugError_follows {p0 : State} (s : State) (y : YokeId) (hF : Follows p0 s) :
    Follows p0 (State.debugError s y) := by
  unfold State.debugError
  try dsimp only
  repeat' first
    | with_reducible assumption | intro _ | with_reducible apply follows_foldl | with_reducible apply follows_ite
    | with_reducible apply follows_ite_fst | with_reducible apply State.raise_follows
    | with_reducible apply State.setYoke_follows | with_reducible apply follows_foldl_fst
    | ((conv => arg 2; arg 45; skip); with_reducible apply follows_mk)
    | ((conv => arg 2; arg 45; skip); with_reducible apply follows_mk_mem) | with_reducible exact Eq.refl _
    | exact Eq.refl _ | with_reducible exact follows_memOk (by assumption) (by assumption)
    | with_reducible apply memFlip_wf | with_reducible apply memWrite_wf | with_reducible apply memWipe_wf
    | with_reducible apply filter_wf | split | (rename_i e; injection e; done)
    | (rename_i e; injection e with e; subst e) | (rename_i e; injection e with e e2; subst e)
    | (rename_i e; injection e with e; revert e; intro _) | (rename_i e; split at e <;> (revert e; intro _))
    | (rename_i e; rw [Option.map_eq_some_iff] at e; obtain ⟨_, _, rfl⟩ := e) | dsimp only | (rename_i e; clear e)

theorem State.debugHalt_follows {p0 : State} (s : State) (y : YokeId) (hits : Word) (hF : Follows p0 s) :
    Follows p0 (State.debugHalt s y hits) := by
  unfold State.debugHalt
  try dsimp only
  repeat' first
    | with_reducible assumption | with_reducible apply follows_ite | with_reducible apply State.commitUnchecked_follows
    | with_reducible apply State.debugError_follows | with_reducible apply State.setFold_follows
    | with_reducible apply State.setYoke_follows | ((conv => arg 2; arg 45; skip); with_reducible apply follows_mk)
    | exact Eq.refl _ | split

theorem State.afterIns_follows {p0 : State} (s : State) (y : YokeId) (seq : Nat) (hits : Word) (hF : Follows p0 s) :
    Follows p0 (State.afterIns s y seq hits) := by
  unfold State.afterIns
  try dsimp only
  repeat' first
    | with_reducible assumption | with_reducible apply follows_ite | with_reducible apply State.debugHalt_follows
    | ((conv => arg 2; arg 45; skip); with_reducible apply follows_mk) | exact Eq.refl _

theorem State.lead_follows {p0 : State} (s : State) (y : YokeId) (i : CoreIns) (room : Nat) (act : State → State) (hF : Follows p0 s) (hFact : ∀ x0, Follows p0 x0 → Follows p0 (act x0)) :
    Follows p0 (State.lead s y i room act) := by
  unfold State.lead
  try dsimp only
  repeat' first
    | with_reducible assumption | with_reducible apply follows_ite | with_reducible apply hFact
    | with_reducible apply State.afterIns_follows | with_reducible apply State.capture_follows
    | with_reducible apply State.debugHalt_follows | with_reducible apply State.setYoke_follows
    | ((conv => arg 2; arg 45; skip); with_reducible apply follows_mk) | exact Eq.refl _

theorem State.issue_follows {p0 : State} (s : State) (y : YokeId) (i : CoreIns) (hF : Follows p0 s) :
    Follows p0 (State.issue s y i) := by
  unfold State.issue
  try dsimp only
  repeat' first
    | with_reducible assumption | intro _ | with_reducible apply follows_foldl | with_reducible apply follows_ite
    | with_reducible apply State.lead_follows | with_reducible apply State.setYoke_follows
    | ((conv => arg 2; arg 45; skip); with_reducible apply follows_mk) | with_reducible exact Eq.refl _
    | exact Eq.refl _ | split

theorem State.pendEvent_follows {p0 : State} (s : State) (f : FoldId) (vec : Byte) (info : Word) (syn : Word) (hF : Follows p0 s) :
    Follows p0 (State.pendEvent s f vec info syn) := by
  unfold State.pendEvent
  try dsimp only
  repeat' first
    | with_reducible assumption | with_reducible apply follows_ite | with_reducible apply State.setFold_follows
    | ((conv => arg 2; arg 45; skip); with_reducible apply follows_mk) | exact Eq.refl _

theorem State.abandonWhere_follows {p0 : State} (s : State) (f : FoldId) (p : MemTest → Bool) (hF : Follows p0 s) :
    Follows p0 (State.abandonWhere s f p) := by
  unfold State.abandonWhere
  try dsimp only
  repeat' first
    | with_reducible assumption | intro _ | with_reducible apply follows_foldl | with_reducible apply follows_ite
    | with_reducible apply follows_ite_fst | with_reducible apply State.setReg_follows
    | with_reducible apply follows_foldl_fst | ((conv => arg 2; arg 45; skip); with_reducible apply follows_mk)
    | ((conv => arg 2; arg 45; skip); with_reducible apply follows_mk_mem) | with_reducible exact Eq.refl _
    | exact Eq.refl _ | with_reducible exact follows_memOk (by assumption) (by assumption)
    | with_reducible apply memFlip_wf | with_reducible apply memWrite_wf | with_reducible apply memWipe_wf
    | with_reducible apply filter_wf | split | (rename_i e; injection e; done)
    | (rename_i e; injection e with e; subst e) | (rename_i e; injection e with e e2; subst e)
    | (rename_i e; injection e with e; revert e; intro _) | (rename_i e; split at e <;> (revert e; intro _))
    | (rename_i e; rw [Option.map_eq_some_iff] at e; obtain ⟨_, _, rfl⟩ := e) | dsimp only | (rename_i e; clear e)

theorem State.abandonFoldTests_follows {p0 : State} (s : State) (f : FoldId) (hF : Follows p0 s) :
    Follows p0 (State.abandonFoldTests s f) := by
  unfold State.abandonFoldTests
  try dsimp only
  repeat' first
    | with_reducible assumption | intro _ | with_reducible apply follows_foldl | with_reducible apply follows_ite
    | with_reducible apply follows_ite_fst | with_reducible apply State.abandonWhere_follows
    | with_reducible apply follows_foldl_fst | ((conv => arg 2; arg 45; skip); with_reducible apply follows_mk)
    | ((conv => arg 2; arg 45; skip); with_reducible apply follows_mk_mem) | with_reducible exact Eq.refl _
    | exact Eq.refl _ | with_reducible exact follows_memOk (by assumption) (by assumption)
    | with_reducible apply memFlip_wf | with_reducible apply memWrite_wf | with_reducible apply memWipe_wf
    | with_reducible apply filter_wf | split | (rename_i e; injection e; done)
    | (rename_i e; injection e with e; subst e) | (rename_i e; injection e with e e2; subst e)
    | (rename_i e; injection e with e; revert e; intro _) | (rename_i e; split at e <;> (revert e; intro _))
    | (rename_i e; rw [Option.map_eq_some_iff] at e; obtain ⟨_, _, rfl⟩ := e) | dsimp only | (rename_i e; clear e)

theorem State.abandonOnline_follows {p0 : State} (s : State) (f : FoldId) (hF : Follows p0 s) :
    Follows p0 (State.abandonOnline s f) := by
  unfold State.abandonOnline
  try dsimp only
  repeat' first
    | with_reducible assumption | intro _ | with_reducible apply follows_foldl | with_reducible apply follows_ite
    | with_reducible apply follows_ite_fst | with_reducible apply State.abandonWhere_follows
    | with_reducible apply follows_foldl_fst | ((conv => arg 2; arg 45; skip); with_reducible apply follows_mk)
    | ((conv => arg 2; arg 45; skip); with_reducible apply follows_mk_mem) | with_reducible exact Eq.refl _
    | exact Eq.refl _ | with_reducible exact follows_memOk (by assumption) (by assumption)
    | with_reducible apply memFlip_wf | with_reducible apply memWrite_wf | with_reducible apply memWipe_wf
    | with_reducible apply filter_wf | split | (rename_i e; injection e; done)
    | (rename_i e; injection e with e; subst e) | (rename_i e; injection e with e e2; subst e)
    | (rename_i e; injection e with e; revert e; intro _) | (rename_i e; split at e <;> (revert e; intro _))
    | (rename_i e; rw [Option.map_eq_some_iff] at e; obtain ⟨_, _, rfl⟩ := e) | dsimp only | (rename_i e; clear e)

theorem State.abandonTests_follows {p0 : State} (s : State) (sp : SpanId) (hF : Follows p0 s) :
    Follows p0 (State.abandonTests s sp) := by
  unfold State.abandonTests
  try dsimp only
  repeat' first
    | with_reducible assumption | with_reducible apply follows_ite | with_reducible apply State.abandonFoldTests_follows
    | ((conv => arg 2; arg 45; skip); with_reducible apply follows_mk) | exact Eq.refl _ | split

theorem State.wakeSpan_follows {p0 : State} (s : State) (sp : SpanId) (hF : Follows p0 s) :
    Follows p0 (State.wakeSpan s sp) := by
  unfold State.wakeSpan
  try dsimp only
  repeat' first
    | with_reducible assumption | with_reducible apply follows_ite | with_reducible apply State.abandonTests_follows
    | with_reducible apply State.setSpan_follows | ((conv => arg 2; arg 45; skip); with_reducible apply follows_mk)
    | exact Eq.refl _ | split

theorem State.endWait_follows {p0 : State} (s : State) (y : YokeId) (w : WaitInfo) (v : Word) (hF : Follows p0 s) :
    Follows p0 (State.endWait s y w v) := by
  unfold State.endWait
  try dsimp only
  repeat' first
    | with_reducible assumption | intro _ | with_reducible apply follows_foldl | with_reducible apply follows_ite
    | with_reducible apply follows_ite_fst | with_reducible apply State.debugHalt_follows
    | with_reducible apply State.setYoke_follows | with_reducible apply State.wakeSpan_follows
    | with_reducible apply follows_foldl_fst | ((conv => arg 2; arg 45; skip); with_reducible apply follows_mk)
    | ((conv => arg 2; arg 45; skip); with_reducible apply follows_mk_mem) | with_reducible exact Eq.refl _
    | exact Eq.refl _ | with_reducible exact follows_memOk (by assumption) (by assumption)
    | with_reducible apply memFlip_wf | with_reducible apply memWrite_wf | with_reducible apply memWipe_wf
    | with_reducible apply filter_wf | split | (rename_i e; injection e; done)
    | (rename_i e; injection e with e; subst e) | (rename_i e; injection e with e e2; subst e)
    | (rename_i e; injection e with e; revert e; intro _) | (rename_i e; split at e <;> (revert e; intro _))
    | (rename_i e; rw [Option.map_eq_some_iff] at e; obtain ⟨_, _, rfl⟩ := e) | dsimp only | (rename_i e; clear e)

theorem State.edge_follows {p0 : State} (s : State) (f : FoldId) (vec : Byte) (info : Word) (syn : Word) (always : Bool) (hF : Follows p0 s) :
    Follows p0 (State.edge s f vec info syn always) := by
  unfold State.edge
  try dsimp only
  repeat' first
    | with_reducible assumption | intro _ | with_reducible apply follows_foldl | with_reducible apply follows_ite
    | with_reducible apply State.endWait_follows | with_reducible apply State.pendEvent_follows
    | ((conv => arg 2; arg 45; skip); with_reducible apply follows_mk) | with_reducible exact Eq.refl _
    | exact Eq.refl _ | split

end Sys2Proof.Machine
end

