-- ==== Sys2Proof/Laws/FollowsSched.lean ====
section
/-! SUPPORT. What the operations of Machine/Sched.lean keep: the queue, the invariant, programmed OTP bits. -/

namespace Sys2Proof.Machine

theorem State.pushOverflow_follows {p0 : State} (s : State) (sp : SpanId) (limit : Nat) (e : OvfEntry) (hF : Follows p0 s) :
    Follows p0 (State.pushOverflow s sp limit e).1 := by
  unfold State.pushOverflow
  try dsimp only
  repeat' first
    | with_reducible assumption | with_reducible apply follows_ite | with_reducible apply State.setSpan_follows
    | with_reducible apply State.wakeSpan_follows | ((conv => arg 2; arg 45; skip); with_reducible apply follows_mk)
    | exact Eq.refl _ | split

theorem State.pushOverflow_follows_eq {p0 t : State} {x : Bool} {s : State} {sp : SpanId} {limit : Nat} {e : OvfEntry} (e0 : State.pushOverflow s sp limit e = (t, x)) (hF : Follows p0 s) : Follows p0 t := by
  have w := State.pushOverflow_follows s sp limit e hF
  rw [e0] at w
  exact w

theorem State.pushOrWait_follows {p0 : State} (s : State) (sp : SpanId) (e : OvfEntry) (hF : Follows p0 s) :
    Follows p0 (State.pushOrWait s sp e) := by
  unfold State.pushOrWait
  try dsimp only
  repeat' first
    | with_reducible assumption | with_reducible apply follows_ite | with_reducible apply State.pushOverflow_follows
    | with_reducible apply State.setSpan_follows | ((conv => arg 2; arg 45; skip); with_reducible apply follows_mk)
    | exact Eq.refl _

theorem State.logRec_follows {p0 : State} (s : State) (sp : SpanId) (r : LogRec) (hF : Follows p0 s) :
    Follows p0 (State.logRec s sp r) := by
  unfold State.logRec
  try dsimp only
  repeat' first
    | with_reducible assumption | with_reducible apply follows_ite | with_reducible apply State.setSpan_follows
    | ((conv => arg 2; arg 45; skip); with_reducible apply follows_mk) | exact Eq.refl _

theorem State.startTask_follows {p0 : State} (s : State) (y : YokeId) (d : TaskDesc) (hF : Follows p0 s) :
    Follows p0 (State.startTask s y d) := by
  unfold State.startTask
  repeat' first
    | with_reducible assumption | with_reducible apply State.logRec_follows | with_reducible apply State.setYoke_follows

theorem State.resumeTask_follows {p0 : State} (s : State) (y : YokeId) (sp : SpanId) (slot : Nat) (hF : Follows p0 s) :
    Follows p0 (State.resumeTask s y sp slot) := by
  unfold State.resumeTask
  try dsimp only
  repeat' first
    | with_reducible assumption | with_reducible apply follows_ite | with_reducible apply State.logRec_follows
    | with_reducible apply State.setSpan_follows | with_reducible apply State.setYoke_follows
    | ((conv => arg 2; arg 45; skip); with_reducible apply follows_mk) | exact Eq.refl _ | split

theorem State.startEntry_follows {p0 : State} (s : State) (y : YokeId) (sp : SpanId) (e : OvfEntry) (hF : Follows p0 s) :
    Follows p0 (State.startEntry s y sp e) := by
  unfold State.startEntry
  try dsimp only
  repeat' first
    | with_reducible assumption | with_reducible apply follows_ite | with_reducible apply State.resumeTask_follows
    | with_reducible apply State.startTask_follows | ((conv => arg 2; arg 45; skip); with_reducible apply follows_mk)
    | exact Eq.refl _ | split

theorem State.unpark_follows {p0 : State} (s : State) (r : ParkRef) (f : SavedTask → SavedTask) (hF : Follows p0 s) :
    Follows p0 (State.unpark s r f) := by
  unfold State.unpark
  try dsimp only
  repeat' first
    | with_reducible assumption | with_reducible apply follows_ite | with_reducible apply State.pushOrWait_follows
    | with_reducible apply State.setSpan_follows | ((conv => arg 2; arg 45; skip); with_reducible apply follows_mk)
    | exact Eq.refl _ | split

theorem State.joinDecrement_follows {p0 : State} (s : State) (f : FoldId) (phys : Nat) (abort : Bool) (hF : Follows p0 s) :
    Follows p0 (State.joinDecrement s f phys abort) := by
  unfold State.joinDecrement
  try dsimp only
  repeat' first
    | with_reducible assumption | with_reducible apply follows_ite | with_reducible apply State.bankWrite_follows
    | with_reducible apply State.setFold_follows | with_reducible apply State.unpark_follows
    | ((conv => arg 2; arg 45; skip); with_reducible apply follows_mk) | exact Eq.refl _ | split

theorem State.newIdent_follows {p0 : State} (s : State) (f : FoldId) (hF : Follows p0 s) :
    Follows p0 (State.newIdent s f).1 := by
  unfold State.newIdent
  repeat' first
    | with_reducible assumption | with_reducible apply State.setFold_follows

theorem State.newIdent_follows_eq {p0 t : State} {x : Word} {s : State} {f : FoldId} (e0 : State.newIdent s f = (t, x)) (hF : Follows p0 s) : Follows p0 t := by
  have w := State.newIdent_follows s f hF
  rw [e0] at w
  exact w

theorem State.spanLost_follows {p0 : State} (s : State) (sp : SpanId) (hF : Follows p0 s) :
    Follows p0 (State.spanLost s sp) := by
  unfold State.spanLost
  try dsimp only
  repeat' first
    | with_reducible assumption | with_reducible apply follows_ite | with_reducible apply State.reportU_follows
    | ((conv => arg 2; arg 45; skip); with_reducible apply follows_mk) | exact Eq.refl _

theorem State.moveDeque_follows {p0 : State} (s : State) (y : YokeId) (hF : Follows p0 s) :
    Follows p0 (State.moveDeque s y) := by
  unfold State.moveDeque
  try dsimp only
  repeat' first
    | with_reducible assumption | intro _ | with_reducible apply follows_foldl | with_reducible apply follows_ite
    | with_reducible apply State.pushOverflow_follows | with_reducible apply State.setYoke_follows
    | ((conv => arg 2; arg 45; skip); with_reducible apply follows_mk) | with_reducible exact Eq.refl _
    | exact Eq.refl _ | split

theorem State.offerAgain_follows {p0 : State} (s : State) (y : YokeId) (hF : Follows p0 s) :
    Follows p0 (State.offerAgain s y) := by
  unfold State.offerAgain
  try dsimp only
  repeat' first
    | with_reducible assumption | intro _ | with_reducible apply follows_foldl | with_reducible apply follows_ite
    | with_reducible apply follows_ite_fst | with_reducible apply State.setFold_follows
    | with_reducible apply follows_foldl_fst | ((conv => arg 2; arg 45; skip); with_reducible apply follows_mk)
    | ((conv => arg 2; arg 45; skip); with_reducible apply follows_mk_mem) | with_reducible exact Eq.refl _
    | exact Eq.refl _ | with_reducible exact follows_memOk (by assumption) (by assumption)
    | with_reducible apply memFlip_wf | with_reducible apply memWrite_wf | with_reducible apply memWipe_wf
    | with_reducible apply filter_wf | split | (rename_i e; injection e; done)
    | (rename_i e; injection e with e; subst e) | (rename_i e; injection e with e e2; subst e)
    | (rename_i e; injection e with e; revert e; intro _) | (rename_i e; split at e <;> (revert e; intro _))
    | (rename_i e; rw [Option.map_eq_some_iff] at e; obtain ⟨_, _, rfl⟩ := e) | dsimp only | (rename_i e; clear e)

theorem State.retire_follows {p0 : State} (s : State) (y : YokeId) (hF : Follows p0 s) :
    Follows p0 (State.retire s y) := by
  unfold State.retire
  try dsimp only
  repeat' first
    | with_reducible assumption | with_reducible apply follows_ite | with_reducible apply State.moveDeque_follows
    | with_reducible apply State.offerAgain_follows | with_reducible apply State.pushOrWait_follows
    | with_reducible apply State.setSpan_follows | with_reducible apply State.setYoke_follows
    | with_reducible apply State.spanLost_follows | ((conv => arg 2; arg 45; skip); with_reducible apply follows_mk)
    | exact Eq.refl _ | split

theorem State.replay_follows {p0 : State} (s : State) (y : YokeId) (hF : Follows p0 s) :
    Follows p0 (State.replay s y) := by
  unfold State.replay
  repeat' first
    | with_reducible assumption | with_reducible apply State.offerAgain_follows
    | with_reducible apply State.setYoke_follows

theorem State.mismatch_follows {p0 : State} (s : State) (y : YokeId) (kind : BitVec 4) (first : Byte) (ndiff : Byte) (side : BitVec 2) (pc : Word) (shadowErr : Bool) (hF : Follows p0 s) :
    Follows p0 (State.mismatch s y kind first ndiff side pc shadowErr) := by
  unfold State.mismatch
  try dsimp only
  repeat' first
    | with_reducible assumption | with_reducible apply follows_ite | with_reducible apply State.replay_follows
    | with_reducible apply State.reportU_follows | with_reducible apply State.retire_follows
    | with_reducible apply State.setReg_follows | with_reducible apply State.setYoke_follows
    | ((conv => arg 2; arg 45; skip); with_reducible apply follows_mk) | exact Eq.refl _

end Sys2Proof.Machine
end

