-- ==== Sys2Proof/Laws/FollowsSysRegs.lean ====
section
/-! SUPPORT. What the operations of Machine/SysRegs.lean keep: the queue, the invariant, programmed OTP bits. -/

namespace Sys2Proof.Machine

theorem State.wdReload_follows {p0 : State} (s : State) (f : FoldId) (hF : Follows p0 s) :
    Follows p0 (State.wdReload s f) := by
  unfold State.wdReload
  repeat' first
    | with_reducible assumption | with_reducible apply State.setFold_follows

theorem State.wdExpire_follows {p0 : State} (s : State) (f : FoldId) (hF : Follows p0 s) :
    Follows p0 (State.wdExpire s f) := by
  unfold State.wdExpire
  repeat' first
    | with_reducible assumption | with_reducible apply State.record_follows | with_reducible apply State.reportU_follows
    | with_reducible apply State.setFold_follows

theorem State.chanWrite_follows {p0 : State} (s : State) (y : YokeId) (f : FoldId) (n : Nat) (v : Word) (hF : Follows p0 s) :
    Follows p0 (State.chanWrite s y f n v) := by
  unfold State.chanWrite
  try dsimp only
  repeat' first
    | with_reducible assumption | with_reducible apply follows_ite | with_reducible apply State.bankWrite_follows
    | with_reducible apply State.setFold_follows | ((conv => arg 2; arg 45; skip); with_reducible apply follows_mk)
    | exact Eq.refl _ | split

theorem State.completeChput_follows {p0 : State} (s : State) (y : YokeId) (f : FoldId) (n : Nat) (r : ParkRef) (hF : Follows p0 s) :
    Follows p0 (State.completeChput s y f n r) := by
  unfold State.completeChput
  try dsimp only
  repeat' first
    | with_reducible assumption | intro _ | with_reducible apply follows_foldl | with_reducible apply follows_ite
    | with_reducible apply follows_ite_fst | with_reducible apply State.chanWrite_follows
    | with_reducible apply State.setFold_follows | with_reducible apply State.unpark_follows
    | with_reducible apply follows_foldl_fst | ((conv => arg 2; arg 45; skip); with_reducible apply follows_mk)
    | ((conv => arg 2; arg 45; skip); with_reducible apply follows_mk_mem) | with_reducible exact Eq.refl _
    | exact Eq.refl _ | with_reducible exact follows_memOk (by assumption) (by assumption)
    | with_reducible apply memFlip_wf | with_reducible apply memWrite_wf | with_reducible apply memWipe_wf
    | with_reducible apply filter_wf | split | (rename_i e; injection e; done)
    | (rename_i e; injection e with e; subst e) | (rename_i e; injection e with e e2; subst e)
    | (rename_i e; injection e with e; revert e; intro _) | (rename_i e; split at e <;> (revert e; intro _))
    | (rename_i e; rw [Option.map_eq_some_iff] at e; obtain ⟨_, _, rfl⟩ := e) | dsimp only | (rename_i e; clear e)

theorem State.sysWriteOutside_follows_inl {p0 t : State}  {s : State} {y : YokeId} {f : FoldId} {num : BitVec 12} {v : Word} (e0 : State.sysWriteOutside s y f num v = .inl t) (hF : Follows p0 s) : Follows p0 t := by
  unfold State.sysWriteOutside at e0
  try dsimp only at e0
  revert e0
  intro _
  repeat' first
    | with_reducible assumption | intro _ | with_reducible apply follows_foldl | with_reducible apply follows_ite
    | with_reducible apply follows_ite_fst | with_reducible apply State.completeChput_follows
    | with_reducible apply State.setFold_follows | with_reducible apply State.setReg_follows
    | with_reducible apply State.wdExpire_follows | with_reducible apply State.wdReload_follows
    | with_reducible apply follows_foldl_fst | ((conv => arg 2; arg 45; skip); with_reducible apply follows_mk)
    | ((conv => arg 2; arg 45; skip); with_reducible apply follows_mk_mem) | with_reducible exact Eq.refl _
    | exact Eq.refl _ | with_reducible exact follows_memOk (by assumption) (by assumption)
    | with_reducible apply memFlip_wf | with_reducible apply memWrite_wf | with_reducible apply memWipe_wf
    | with_reducible apply filter_wf | split | (rename_i e; injection e; done)
    | (rename_i e; injection e with e; subst e) | (rename_i e; injection e with e e2; subst e)
    | (rename_i e; injection e with e; revert e; intro _) | (rename_i e; split at e <;> (revert e; intro _))
    | (rename_i e; rw [Option.map_eq_some_iff] at e; obtain ⟨_, _, rfl⟩ := e) | dsimp only | (rename_i e; clear e)


end Sys2Proof.Machine
end

