-- ==== Sys2Proof/Laws/FollowsCollapse.lean ====
section
/-! SUPPORT. What the operations of Machine/Collapse.lean keep: the queue, the invariant, programmed OTP bits. -/

namespace Sys2Proof.Machine

theorem State.finish_follows {p0 : State} (s : State) (y : YokeId) (c : Core) (bounded : Bool) (hF : Follows p0 s) :
    Follows p0 (State.finish s y c bounded) := by
  unfold State.finish
  try dsimp only
  repeat' first
    | with_reducible assumption | with_reducible apply follows_ite | with_reducible apply State.debugHalt_follows
    | with_reducible apply State.setYoke_follows | ((conv => arg 2; arg 45; skip); with_reducible apply follows_mk)
    | exact Eq.refl _

theorem State.collapseFault_follows {p0 : State} (s : State) (y : YokeId) (vec : Byte) (info : Word) (syn : Word) (hF : Follows p0 s) :
    Follows p0 (State.collapseFault s y vec info syn) := by
  unfold State.collapseFault
  repeat' first
    | with_reducible assumption | with_reducible apply State.raise_follows | with_reducible apply State.setYoke_follows

theorem State.park_follows {p0 : State} (s : State) (y : YokeId) (slot : Nat) (c : Core) (why : ParkKind) (hF : Follows p0 s) :
    Follows p0 (State.park s y slot c why) := by
  unfold State.park
  repeat' first
    | with_reducible assumption | with_reducible apply State.setSpan_follows
    | with_reducible apply State.setYoke_follows

theorem State.rmw_follows {p0 : State} (s : State) (phys : Nat) (size : Nat) (f : Nat → Option Nat) (hF : Follows p0 s) :
    Follows p0 (State.rmw s phys size f).1 := by
  unfold State.rmw
  try dsimp only
  repeat' first
    | with_reducible assumption | with_reducible apply follows_ite | with_reducible apply State.bankWrite_follows
    | with_reducible apply State.decodeAccess_follows | ((conv => arg 2; arg 45; skip); with_reducible apply follows_mk)
    | exact Eq.refl _ | split

theorem State.rmw_follows_eq {p0 t : State} {x : (Nat ⊕ BitVec 3)} {s : State} {phys : Nat} {size : Nat} {f : Nat → Option Nat} (e0 : State.rmw s phys size f = (t, x)) (hF : Follows p0 s) : Follows p0 t := by
  have w := State.rmw_follows s phys size f hF
  rw [e0] at w
  exact w

theorem State.followDrop_follows {p0 : State} (s : State) (sp : SpanId) (n : Nat) (hF : Follows p0 s) :
    Follows p0 (State.followDrop s sp n) := by
  unfold State.followDrop
  try dsimp only
  repeat' first
    | with_reducible assumption | intro _ | with_reducible apply follows_foldl | with_reducible apply follows_ite
    | with_reducible apply follows_ite_fst | with_reducible apply State.setSpan_follows
    | with_reducible apply follows_foldl_fst | ((conv => arg 2; arg 45; skip); with_reducible apply follows_mk)
    | ((conv => arg 2; arg 45; skip); with_reducible apply follows_mk_mem) | with_reducible exact Eq.refl _
    | exact Eq.refl _ | with_reducible exact follows_memOk (by assumption) (by assumption)
    | with_reducible apply memFlip_wf | with_reducible apply memWrite_wf | with_reducible apply memWipe_wf
    | with_reducible apply filter_wf | split | (rename_i e; injection e; done)
    | (rename_i e; injection e with e; subst e) | (rename_i e; injection e with e e2; subst e)
    | (rename_i e; injection e with e; revert e; intro _) | (rename_i e; split at e <;> (revert e; intro _))
    | (rename_i e; rw [Option.map_eq_some_iff] at e; obtain ⟨_, _, rfl⟩ := e) | dsimp only | (rename_i e; clear e)

theorem State.orderedRec_follows {p0 : State} (s : State) (y : YokeId) (addr : Word) (phys : Nat) (hF : Follows p0 s) :
    Follows p0 (State.orderedRec s y addr phys) := by
  unfold State.orderedRec
  try dsimp only
  repeat' first
    | with_reducible assumption | intro _ | with_reducible apply follows_foldl | with_reducible apply follows_ite
    | with_reducible apply follows_ite_fst | with_reducible apply State.followDrop_follows
    | with_reducible apply State.logRec_follows | with_reducible apply follows_foldl_fst
    | ((conv => arg 2; arg 45; skip); with_reducible apply follows_mk)
    | ((conv => arg 2; arg 45; skip); with_reducible apply follows_mk_mem) | with_reducible exact Eq.refl _
    | exact Eq.refl _ | with_reducible exact follows_memOk (by assumption) (by assumption)
    | with_reducible apply memFlip_wf | with_reducible apply memWrite_wf | with_reducible apply memWipe_wf
    | with_reducible apply filter_wf | split | (rename_i e; injection e; done)
    | (rename_i e; injection e with e; subst e) | (rename_i e; injection e with e e2; subst e)
    | (rename_i e; injection e with e; revert e; intro _) | (rename_i e; split at e <;> (revert e; intro _))
    | (rename_i e; rw [Option.map_eq_some_iff] at e; obtain ⟨_, _, rfl⟩ := e) | dsimp only | (rename_i e; clear e)

theorem State.orderedDone_follows {p0 : State} (s : State) (y : YokeId) (addr : Word) (phys : Nat) (hF : Follows p0 s) :
    Follows p0 (State.orderedDone s y addr phys) := by
  unfold State.orderedDone
  try dsimp only
  repeat' first
    | with_reducible assumption | with_reducible apply follows_ite | with_reducible apply State.orderedRec_follows
    | with_reducible apply State.setYoke_follows | ((conv => arg 2; arg 45; skip); with_reducible apply follows_mk)
    | exact Eq.refl _ | split

theorem State.performAtomic_follows {p0 : State} (s : State) (y : YokeId) (wide : Bool) (ord : Bool) (d : Gpr) (addr : Word) (phys : Nat) (len : Nat) (f : Nat → Option Nat) (fin : Core → Nat → Core) (hF : Follows p0 s) :
    Follows p0 (State.performAtomic s y wide ord d addr phys len f fin) := by
  unfold State.performAtomic
  try dsimp only
  repeat' first
    | with_reducible assumption | with_reducible apply follows_ite | with_reducible apply State.collapseFault_follows
    | with_reducible apply State.finish_follows | with_reducible apply State.orderedDone_follows
    | with_reducible apply State.rmw_follows | ((conv => arg 2; arg 45; skip); with_reducible apply follows_mk)
    | exact Eq.refl _ | split

theorem State.performTlock_follows {p0 : State} (s : State) (y : YokeId) (d : Gpr) (addr : Word) (phys : Nat) (len : Nat) (hF : Follows p0 s) :
    Follows p0 (State.performTlock s y d addr phys len) := by
  unfold State.performTlock
  try dsimp only
  repeat' first
    | with_reducible assumption | with_reducible apply follows_ite | with_reducible apply State.bankWrite_follows
    | with_reducible apply State.collapseFault_follows | with_reducible apply State.decodeAccess_follows
    | with_reducible apply State.finish_follows | with_reducible apply State.orderedDone_follows
    | ((conv => arg 2; arg 45; skip); with_reducible apply follows_mk) | exact Eq.refl _ | split

theorem State.performTunlock_follows {p0 : State} (s : State) (y : YokeId) (addr : Word) (phys : Nat) (len : Nat) (hF : Follows p0 s) :
    Follows p0 (State.performTunlock s y addr phys len) := by
  unfold State.performTunlock
  try dsimp only
  repeat' first
    | with_reducible assumption | with_reducible apply follows_ite | with_reducible apply State.bankWrite_follows
    | with_reducible apply State.collapseFault_follows | with_reducible apply State.decodeAccess_follows
    | with_reducible apply State.finish_follows | with_reducible apply State.orderedDone_follows
    | ((conv => arg 2; arg 45; skip); with_reducible apply follows_mk) | exact Eq.refl _ | split

theorem State.performAlias_follows {p0 : State} (s : State) (y : YokeId) (clear : Bool) (size : Nat) (addr : Word) (phys : Nat) (v : QWord) (len : Nat) (hF : Follows p0 s) :
    Follows p0 (State.performAlias s y clear size addr phys v len) := by
  unfold State.performAlias
  try dsimp only
  repeat' first
    | with_reducible assumption | with_reducible apply follows_ite | with_reducible apply State.collapseFault_follows
    | with_reducible apply State.finish_follows | with_reducible apply State.rmw_follows
    | ((conv => arg 2; arg 45; skip); with_reducible apply follows_mk) | exact Eq.refl _ | split

theorem State.performIoLoad_follows {p0 : State} (s : State) (y : YokeId) (f : FoldId) (dest : LoadDest) (addr : Word) (size : Nat) (len : Nat) (hF : Follows p0 s) :
    Follows p0 (State.performIoLoad s y f dest addr size len) := by
  unfold State.performIoLoad
  try dsimp only
  repeat' first
    | with_reducible assumption | with_reducible apply follows_ite | with_reducible apply State.collapseFault_follows
    | with_reducible apply State.finish_follows | with_reducible apply State.ioLoad_follows
    | with_reducible apply State.setYoke_follows | ((conv => arg 2; arg 45; skip); with_reducible apply follows_mk)
    | exact Eq.refl _ | split

theorem State.pushDeque_follows {p0 t : State}  {s : State} {y : YokeId} {d : TaskDesc} (e0 : State.pushDeque s y d = some t) (hF : Follows p0 s) : Follows p0 t := by
  unfold State.pushDeque at e0
  try dsimp only at e0
  revert e0
  intro _
  repeat' first
    | with_reducible assumption | intro _ | with_reducible apply follows_foldl | with_reducible apply follows_ite
    | with_reducible apply follows_ite_fst | with_reducible apply State.pushOverflow_follows
    | with_reducible apply State.setYoke_follows
    | with_reducible refine State.pushOverflow_follows_eq (by assumption) ?_ | with_reducible apply follows_foldl_fst
    | ((conv => arg 2; arg 45; skip); with_reducible apply follows_mk)
    | ((conv => arg 2; arg 45; skip); with_reducible apply follows_mk_mem) | with_reducible exact Eq.refl _
    | exact Eq.refl _ | with_reducible exact follows_memOk (by assumption) (by assumption)
    | with_reducible apply memFlip_wf | with_reducible apply memWrite_wf | with_reducible apply memWipe_wf
    | with_reducible apply filter_wf | split | (rename_i e; injection e; done)
    | (rename_i e; injection e with e; subst e) | (rename_i e; injection e with e e2; subst e)
    | (rename_i e; injection e with e; revert e; intro _) | (rename_i e; split at e <;> (revert e; intro _))
    | (rename_i e; rw [Option.map_eq_some_iff] at e; obtain ⟨_, _, rfl⟩ := e) | dsimp only | (rename_i e; clear e)


theorem State.childIdent_follows {p0 t : State} {x : Word} {s : State} {y : YokeId} {f : FoldId} (e0 : State.childIdent s y f = some (t, x)) (hF : Follows p0 s) : Follows p0 t := by
  unfold State.childIdent at e0
  try dsimp only at e0
  revert e0
  intro _
  repeat' first
    | with_reducible assumption | intro _ | with_reducible apply follows_foldl | with_reducible apply follows_ite
    | with_reducible apply follows_ite_fst | with_reducible apply State.followDrop_follows
    | with_reducible apply State.newIdent_follows | with_reducible refine State.newIdent_follows_eq (by assumption) ?_
    | with_reducible apply follows_foldl_fst | ((conv => arg 2; arg 45; skip); with_reducible apply follows_mk)
    | ((conv => arg 2; arg 45; skip); with_reducible apply follows_mk_mem) | with_reducible exact Eq.refl _
    | exact Eq.refl _ | with_reducible exact follows_memOk (by assumption) (by assumption)
    | with_reducible apply memFlip_wf | with_reducible apply memWrite_wf | with_reducible apply memWipe_wf
    | with_reducible apply filter_wf | split | (rename_i e; injection e; done)
    | (rename_i e; injection e with e; subst e) | (rename_i e; injection e with e e2; subst e)
    | (rename_i e; injection e with e; revert e; intro _) | (rename_i e; split at e <;> (revert e; intro _))
    | (rename_i e; rw [Option.map_eq_some_iff] at e; obtain ⟨_, _, rfl⟩ := e) | dsimp only | (rename_i e; clear e)


theorem State.performSpawn_follows {p0 : State} (s : State) (y : YokeId) (f : FoldId) (addr : Word) (len : Nat) (hF : Follows p0 s) :
    Follows p0 (State.performSpawn s y f addr len) := by
  unfold State.performSpawn
  try dsimp only
  repeat' first
    | with_reducible assumption | intro _ | with_reducible apply follows_foldl | with_reducible apply follows_ite
    | with_reducible apply follows_ite_fst | with_reducible apply State.collapseFault_follows
    | with_reducible apply State.decodeAccess_follows | with_reducible apply State.finish_follows
    | with_reducible apply State.logRec_follows | with_reducible refine State.childIdent_follows (by assumption) ?_
    | with_reducible refine State.decodeAccess_follows_eq (by assumption) ?_
    | with_reducible refine State.pushDeque_follows (by assumption) ?_ | with_reducible apply follows_foldl_fst
    | ((conv => arg 2; arg 45; skip); with_reducible apply follows_mk) | with_reducible exact Eq.refl _
    | exact Eq.refl _ | split | dsimp only

theorem State.performJoin_follows {p0 : State} (s : State) (y : YokeId) (f : FoldId) (addr : Word) (phys : Nat) (len : Nat) (hF : Follows p0 s) :
    Follows p0 (State.performJoin s y f addr phys len) := by
  unfold State.performJoin
  try dsimp only
  repeat' first
    | with_reducible assumption | with_reducible apply follows_ite | with_reducible apply State.collapseFault_follows
    | with_reducible apply State.decodeAccess_follows | with_reducible apply State.finish_follows
    | with_reducible apply State.park_follows | with_reducible apply State.setFold_follows
    | ((conv => arg 2; arg 45; skip); with_reducible apply follows_mk) | exact Eq.refl _ | split

theorem State.ownerPop_follows {p0 t : State}  {s : State} {y : YokeId} (e0 : State.ownerPop s y = some t) (hF : Follows p0 s) : Follows p0 t := by
  unfold State.ownerPop at e0
  try dsimp only at e0
  revert e0
  intro _
  repeat' first
    | with_reducible assumption | intro _ | with_reducible apply follows_foldl | with_reducible apply follows_ite
    | with_reducible apply follows_ite_fst | with_reducible apply State.setYoke_follows
    | with_reducible apply State.startTask_follows | with_reducible apply follows_foldl_fst
    | ((conv => arg 2; arg 45; skip); with_reducible apply follows_mk)
    | ((conv => arg 2; arg 45; skip); with_reducible apply follows_mk_mem) | with_reducible exact Eq.refl _
    | exact Eq.refl _ | with_reducible exact follows_memOk (by assumption) (by assumption)
    | with_reducible apply memFlip_wf | with_reducible apply memWrite_wf | with_reducible apply memWipe_wf
    | with_reducible apply filter_wf | split | (rename_i e; injection e; done)
    | (rename_i e; injection e with e; subst e) | (rename_i e; injection e with e e2; subst e)
    | (rename_i e; injection e with e; revert e; intro _) | (rename_i e; split at e <;> (revert e; intro _))
    | (rename_i e; rw [Option.map_eq_some_iff] at e; obtain ⟨_, _, rfl⟩ := e) | dsimp only | (rename_i e; clear e)


theorem State.takeOverflow_follows {p0 t : State}  {s : State} {y : YokeId} (e0 : State.takeOverflow s y = some t) (hF : Follows p0 s) : Follows p0 t := by
  unfold State.takeOverflow at e0
  try dsimp only at e0
  revert e0
  intro _
  repeat' first
    | with_reducible assumption | intro _ | with_reducible apply follows_foldl | with_reducible apply follows_ite
    | with_reducible apply follows_ite_fst | with_reducible apply State.setSpan_follows
    | with_reducible apply State.startEntry_follows | with_reducible apply follows_foldl_fst
    | ((conv => arg 2; arg 45; skip); with_reducible apply follows_mk)
    | ((conv => arg 2; arg 45; skip); with_reducible apply follows_mk_mem) | with_reducible exact Eq.refl _
    | exact Eq.refl _ | with_reducible exact follows_memOk (by assumption) (by assumption)
    | with_reducible apply memFlip_wf | with_reducible apply memWrite_wf | with_reducible apply memWipe_wf
    | with_reducible apply filter_wf | split | (rename_i e; injection e; done)
    | (rename_i e; injection e with e; subst e) | (rename_i e; injection e with e e2; subst e)
    | (rename_i e; injection e with e; revert e; intro _) | (rename_i e; split at e <;> (revert e; intro _))
    | (rename_i e; rw [Option.map_eq_some_iff] at e; obtain ⟨_, _, rfl⟩ := e) | dsimp only | (rename_i e; clear e)


theorem State.stealLocal_follows {p0 t : State}  {s : State} {y : YokeId} (e0 : State.stealLocal s y = some t) (hF : Follows p0 s) : Follows p0 t := by
  unfold State.stealLocal at e0
  try dsimp only at e0
  revert e0
  intro _
  repeat' first
    | with_reducible assumption | intro _ | with_reducible apply follows_foldl | with_reducible apply follows_ite
    | with_reducible apply follows_ite_fst | with_reducible apply State.setSpan_follows
    | with_reducible apply State.setYoke_follows | with_reducible apply State.startTask_follows
    | with_reducible apply follows_foldl_fst | ((conv => arg 2; arg 45; skip); with_reducible apply follows_mk)
    | ((conv => arg 2; arg 45; skip); with_reducible apply follows_mk_mem) | with_reducible exact Eq.refl _
    | exact Eq.refl _ | with_reducible exact follows_memOk (by assumption) (by assumption)
    | with_reducible apply memFlip_wf | with_reducible apply memWrite_wf | with_reducible apply memWipe_wf
    | with_reducible apply filter_wf | split | (rename_i e; injection e; done)
    | (rename_i e; injection e with e; subst e) | (rename_i e; injection e with e e2; subst e)
    | (rename_i e; injection e with e; revert e; intro _) | (rename_i e; split at e <;> (revert e; intro _))
    | (rename_i e; rw [Option.map_eq_some_iff] at e; obtain ⟨_, _, rfl⟩ := e) | dsimp only | (rename_i e; clear e)


theorem State.takeLocal_follows {p0 t : State}  {s : State} {y : YokeId} (e0 : State.takeLocal s y = some t) (hF : Follows p0 s) : Follows p0 t := by
  unfold State.takeLocal at e0
  try dsimp only at e0
  revert e0
  intro _
  repeat' first
    | with_reducible assumption | intro _ | with_reducible apply follows_foldl | with_reducible apply follows_ite
    | with_reducible apply follows_ite_fst | with_reducible refine State.ownerPop_follows (by assumption) ?_
    | with_reducible refine State.stealLocal_follows (by assumption) ?_
    | with_reducible refine State.takeOverflow_follows (by assumption) ?_ | with_reducible apply follows_foldl_fst
    | ((conv => arg 2; arg 45; skip); with_reducible apply follows_mk)
    | ((conv => arg 2; arg 45; skip); with_reducible apply follows_mk_mem) | with_reducible exact Eq.refl _
    | exact Eq.refl _ | with_reducible exact follows_memOk (by assumption) (by assumption)
    | with_reducible apply memFlip_wf | with_reducible apply memWrite_wf | with_reducible apply memWipe_wf
    | with_reducible apply filter_wf | split | (rename_i e; injection e; done)
    | (rename_i e; injection e with e; subst e) | (rename_i e; injection e with e e2; subst e)
    | (rename_i e; injection e with e; revert e; intro _) | (rename_i e; split at e <;> (revert e; intro _))
    | (rename_i e; rw [Option.map_eq_some_iff] at e; obtain ⟨_, _, rfl⟩ := e) | dsimp only | (rename_i e; clear e)


theorem State.takeNamed_follows {p0 t : State}  {s : State} {f : FoldId} {y : YokeId} {id : Word} (e0 : State.takeNamed s f y id = some t) (hF : Follows p0 s) : Follows p0 t := by
  unfold State.takeNamed at e0
  try dsimp only at e0
  revert e0
  intro _
  repeat' first
    | with_reducible assumption | intro _ | with_reducible apply follows_foldl | with_reducible apply follows_ite
    | with_reducible apply follows_ite_fst | with_reducible apply State.setSpan_follows
    | with_reducible apply State.setYoke_follows | with_reducible apply State.startEntry_follows
    | with_reducible apply State.startTask_follows | with_reducible apply follows_foldl_fst
    | ((conv => arg 2; arg 45; skip); with_reducible apply follows_mk)
    | ((conv => arg 2; arg 45; skip); with_reducible apply follows_mk_mem) | with_reducible exact Eq.refl _
    | exact Eq.refl _ | with_reducible exact follows_memOk (by assumption) (by assumption)
    | with_reducible apply memFlip_wf | with_reducible apply memWrite_wf | with_reducible apply memWipe_wf
    | with_reducible apply filter_wf | split | (rename_i e; injection e; done)
    | (rename_i e; injection e with e; subst e) | (rename_i e; injection e with e e2; subst e)
    | (rename_i e; injection e with e; revert e; intro _) | (rename_i e; split at e <;> (revert e; intro _))
    | (rename_i e; rw [Option.map_eq_some_iff] at e; obtain ⟨_, _, rfl⟩ := e) | dsimp only | (rename_i e; clear e)


theorem State.followTake_follows {p0 t : State}  {s : State} {y : YokeId} (e0 : State.followTake s y = some t) (hF : Follows p0 s) : Follows p0 t := by
  unfold State.followTake at e0
  try dsimp only at e0
  revert e0
  intro _
  repeat' first
    | with_reducible assumption | intro _ | with_reducible apply follows_foldl | with_reducible apply follows_ite
    | with_reducible apply follows_ite_fst | with_reducible apply State.followDrop_follows
    | with_reducible refine State.takeNamed_follows (by assumption) ?_ | with_reducible apply follows_foldl_fst
    | ((conv => arg 2; arg 45; skip); with_reducible apply follows_mk)
    | ((conv => arg 2; arg 45; skip); with_reducible apply follows_mk_mem) | with_reducible exact Eq.refl _
    | exact Eq.refl _ | with_reducible exact follows_memOk (by assumption) (by assumption)
    | with_reducible apply memFlip_wf | with_reducible apply memWrite_wf | with_reducible apply memWipe_wf
    | with_reducible apply filter_wf | split | (rename_i e; injection e; done)
    | (rename_i e; injection e with e; subst e) | (rename_i e; injection e with e e2; subst e)
    | (rename_i e; injection e with e; revert e; intro _) | (rename_i e; split at e <;> (revert e; intro _))
    | (rename_i e; rw [Option.map_eq_some_iff] at e; obtain ⟨_, _, rfl⟩ := e) | dsimp only | (rename_i e; clear e)


theorem State.takeNow_follows {p0 t : State}  {s : State} {y : YokeId} (e0 : State.takeNow s y = some t) (hF : Follows p0 s) : Follows p0 t := by
  unfold State.takeNow at e0
  try dsimp only at e0
  revert e0
  intro _
  repeat' first
    | with_reducible assumption | intro _ | with_reducible apply follows_foldl | with_reducible apply follows_ite
    | with_reducible apply follows_ite_fst | with_reducible refine State.followTake_follows (by assumption) ?_
    | with_reducible refine State.takeLocal_follows (by assumption) ?_ | with_reducible apply follows_foldl_fst
    | ((conv => arg 2; arg 45; skip); with_reducible apply follows_mk)
    | ((conv => arg 2; arg 45; skip); with_reducible apply follows_mk_mem) | with_reducible exact Eq.refl _
    | exact Eq.refl _ | with_reducible exact follows_memOk (by assumption) (by assumption)
    | with_reducible apply memFlip_wf | with_reducible apply memWrite_wf | with_reducible apply memWipe_wf
    | with_reducible apply filter_wf | split | (rename_i e; injection e; done)
    | (rename_i e; injection e with e; subst e) | (rename_i e; injection e with e e2; subst e)
    | (rename_i e; injection e with e; revert e; intro _) | (rename_i e; split at e <;> (revert e; intro _))
    | (rename_i e; rw [Option.map_eq_some_iff] at e; obtain ⟨_, _, rfl⟩ := e) | dsimp only | (rename_i e; clear e)


theorem State.performYield_follows {p0 : State} (s : State) (y : YokeId) (len : Nat) (hF : Follows p0 s) :
    Follows p0 (State.performYield s y len) := by
  unfold State.performYield
  try dsimp only
  repeat' first
    | with_reducible assumption | intro _ | with_reducible apply follows_foldl | with_reducible apply follows_ite
    | with_reducible apply follows_ite_fst | with_reducible apply State.finish_follows
    | with_reducible apply State.park_follows | with_reducible apply State.pushOverflow_follows
    | with_reducible refine State.pushOverflow_follows_eq (by assumption) ?_
    | with_reducible refine State.takeNow_follows (by assumption) ?_ | with_reducible apply follows_foldl_fst
    | ((conv => arg 2; arg 45; skip); with_reducible apply follows_mk) | with_reducible exact Eq.refl _
    | exact Eq.refl _ | split | dsimp only

theorem State.deferYokeError_follows {p0 : State} (s : State) (f : FoldId) (pc : Word) (hF : Follows p0 s) :
    Follows p0 (State.deferYokeError s f pc) := by
  unfold State.deferYokeError
  repeat' first
    | with_reducible assumption | with_reducible apply State.pendEvent_follows

theorem State.abandon_follows {p0 : State} (s : State) (y : YokeId) (a : Word) (hF : Follows p0 s) :
    Follows p0 (State.abandon s y a).1 := by
  unfold State.abandon
  try dsimp only
  repeat' first
    | with_reducible assumption | with_reducible apply follows_ite | with_reducible apply State.rmw_follows
    | ((conv => arg 2; arg 45; skip); with_reducible apply follows_mk) | exact Eq.refl _ | split

theorem State.abandon_follows_eq {p0 t : State} {x : Bool} {s : State} {y : YokeId} {a : Word} (e0 : State.abandon s y a = (t, x)) (hF : Follows p0 s) : Follows p0 t := by
  have w := State.abandon_follows s y a hF
  rw [e0] at w
  exact w

theorem State.endTask_follows {p0 : State} (s : State) (y : YokeId) (f : FoldId) (hF : Follows p0 s) :
    Follows p0 (State.endTask s y f) := by
  unfold State.endTask
  try dsimp only
  repeat' first
    | with_reducible assumption | with_reducible apply follows_ite | with_reducible apply State.setFold_follows
    | with_reducible apply State.setYoke_follows | ((conv => arg 2; arg 45; skip); with_reducible apply follows_mk)
    | exact Eq.refl _

theorem State.settleJoin_follows_inl {p0 t : State}  {s : State} {y : YokeId} {f : FoldId} {jr : Word} {pc : Word} {abort : Bool} (e0 : State.settleJoin s y f jr pc abort = .inl t) (hF : Follows p0 s) : Follows p0 t := by
  unfold State.settleJoin at e0
  try dsimp only at e0
  revert e0
  intro _
  repeat' first
    | with_reducible assumption | intro _ | with_reducible apply follows_foldl | with_reducible apply follows_ite
    | with_reducible apply follows_ite_fst | with_reducible apply State.bankWrite_follows
    | with_reducible apply State.collapseFault_follows | with_reducible apply State.decodeAccess_follows
    | with_reducible apply State.deferYokeError_follows | with_reducible apply State.joinDecrement_follows
    | with_reducible refine State.bankWrite_follows_eq (by assumption) ?_
    | with_reducible refine State.decodeAccess_follows_eq (by assumption) ?_ | with_reducible apply follows_foldl_fst
    | ((conv => arg 2; arg 45; skip); with_reducible apply follows_mk)
    | ((conv => arg 2; arg 45; skip); with_reducible apply follows_mk_mem) | with_reducible exact Eq.refl _
    | exact Eq.refl _ | with_reducible exact follows_memOk (by assumption) (by assumption)
    | with_reducible apply memFlip_wf | with_reducible apply memWrite_wf | with_reducible apply memWipe_wf
    | with_reducible apply filter_wf | split | (rename_i e; injection e; done)
    | (rename_i e; injection e with e; subst e) | (rename_i e; injection e with e e2; subst e)
    | (rename_i e; injection e with e; revert e; intro _) | (rename_i e; split at e <;> (revert e; intro _))
    | (rename_i e; rw [Option.map_eq_some_iff] at e; obtain ⟨_, _, rfl⟩ := e) | dsimp only | (rename_i e; clear e)

theorem State.settleJoin_follows_inr {p0 t : State}  {s : State} {y : YokeId} {f : FoldId} {jr : Word} {pc : Word} {abort : Bool} (e0 : State.settleJoin s y f jr pc abort = .inr t) (hF : Follows p0 s) : Follows p0 t := by
  unfold State.settleJoin at e0
  try dsimp only at e0
  revert e0
  intro _
  repeat' first
    | with_reducible assumption | intro _ | with_reducible apply follows_foldl | with_reducible apply follows_ite
    | with_reducible apply follows_ite_fst | with_reducible apply State.bankWrite_follows
    | with_reducible apply State.collapseFault_follows | with_reducible apply State.decodeAccess_follows
    | with_reducible apply State.deferYokeError_follows | with_reducible apply State.joinDecrement_follows
    | with_reducible refine State.bankWrite_follows_eq (by assumption) ?_
    | with_reducible refine State.decodeAccess_follows_eq (by assumption) ?_ | with_reducible apply follows_foldl_fst
    | ((conv => arg 2; arg 45; skip); with_reducible apply follows_mk)
    | ((conv => arg 2; arg 45; skip); with_reducible apply follows_mk_mem) | with_reducible exact Eq.refl _
    | exact Eq.refl _ | with_reducible exact follows_memOk (by assumption) (by assumption)
    | with_reducible apply memFlip_wf | with_reducible apply memWrite_wf | with_reducible apply memWipe_wf
    | with_reducible apply filter_wf | split | (rename_i e; injection e; done)
    | (rename_i e; injection e with e; subst e) | (rename_i e; injection e with e e2; subst e)
    | (rename_i e; injection e with e; revert e; intro _) | (rename_i e; split at e <;> (revert e; intro _))
    | (rename_i e; rw [Option.map_eq_some_iff] at e; obtain ⟨_, _, rfl⟩ := e) | dsimp only | (rename_i e; clear e)


theorem State.performTend_follows {p0 : State} (s : State) (y : YokeId) (f : FoldId) (abort : Bool) (hF : Follows p0 s) :
    Follows p0 (State.performTend s y f abort) := by
  unfold State.performTend
  try dsimp only
  repeat' first
    | with_reducible assumption | intro _ | with_reducible apply follows_foldl | with_reducible apply follows_ite
    | with_reducible apply follows_ite_fst | with_reducible apply State.abandon_follows
    | with_reducible apply State.collapseFault_follows | with_reducible apply State.deferYokeError_follows
    | with_reducible apply State.endTask_follows | with_reducible refine State.abandon_follows_eq (by assumption) ?_
    | with_reducible refine State.settleJoin_follows_inl (by assumption) ?_
    | with_reducible refine State.settleJoin_follows_inr (by assumption) ?_ | with_reducible apply follows_foldl_fst
    | ((conv => arg 2; arg 45; skip); with_reducible apply follows_mk) | with_reducible exact Eq.refl _
    | exact Eq.refl _ | split | dsimp only

theorem State.chanHead_follows {p0 : State} (s : State) (y : YokeId) (f : FoldId) (n : Nat) (hF : Follows p0 s) :
    Follows p0 (State.chanHead s y f n).1 := by
  unfold State.chanHead
  try dsimp only
  repeat' first
    | with_reducible assumption | intro _ | with_reducible apply follows_foldl | with_reducible apply follows_ite
    | with_reducible apply follows_ite_fst | with_reducible apply State.decodeAccess_follows
    | with_reducible refine State.decodeAccess_follows_eq (by assumption) ?_ | with_reducible apply follows_foldl_fst
    | ((conv => arg 2; arg 45; skip); with_reducible apply follows_mk)
    | ((conv => arg 2; arg 45; skip); with_reducible apply follows_mk_mem) | with_reducible exact Eq.refl _
    | exact Eq.refl _ | with_reducible exact follows_memOk (by assumption) (by assumption)
    | with_reducible apply memFlip_wf | with_reducible apply memWrite_wf | with_reducible apply memWipe_wf
    | with_reducible apply filter_wf | split | (rename_i e; injection e; done)
    | (rename_i e; injection e with e; subst e) | (rename_i e; injection e with e e2; subst e)
    | (rename_i e; injection e with e; revert e; intro _) | (rename_i e; split at e <;> (revert e; intro _))
    | (rename_i e; rw [Option.map_eq_some_iff] at e; obtain ⟨_, _, rfl⟩ := e) | dsimp only | (rename_i e; clear e)

theorem State.chanHead_follows_eq {p0 t : State} {x : Option Word} {s : State} {y : YokeId} {f : FoldId} {n : Nat} (e0 : State.chanHead s y f n = (t, x)) (hF : Follows p0 s) : Follows p0 t := by
  have w := State.chanHead_follows s y f n hF
  rw [e0] at w
  exact w

theorem State.chanDrop_follows {p0 : State} (s : State) (f : FoldId) (n : Nat) (hF : Follows p0 s) :
    Follows p0 (State.chanDrop s f n) := by
  unfold State.chanDrop
  try dsimp only
  repeat' first
    | with_reducible assumption | intro _ | with_reducible apply follows_foldl | with_reducible apply follows_ite
    | with_reducible apply follows_ite_fst | with_reducible apply State.setFold_follows
    | with_reducible apply follows_foldl_fst | ((conv => arg 2; arg 45; skip); with_reducible apply follows_mk)
    | ((conv => arg 2; arg 45; skip); with_reducible apply follows_mk_mem) | with_reducible exact Eq.refl _
    | exact Eq.refl _ | with_reducible exact follows_memOk (by assumption) (by assumption)
    | with_reducible apply memFlip_wf | with_reducible apply memWrite_wf | with_reducible apply memWipe_wf
    | with_reducible apply filter_wf | split | (rename_i e; injection e; done)
    | (rename_i e; injection e with e; subst e) | (rename_i e; injection e with e e2; subst e)
    | (rename_i e; injection e with e; revert e; intro _) | (rename_i e; split at e <;> (revert e; intro _))
    | (rename_i e; rw [Option.map_eq_some_iff] at e; obtain ⟨_, _, rfl⟩ := e) | dsimp only | (rename_i e; clear e)

theorem State.chanTake_follows {p0 : State} (s : State) (y : YokeId) (f : FoldId) (n : Nat) (hF : Follows p0 s) :
    Follows p0 (State.chanTake s y f n).1 := by
  unfold State.chanTake
  try dsimp only
  repeat' first
    | with_reducible assumption | intro _ | with_reducible apply follows_foldl | with_reducible apply follows_ite
    | with_reducible apply follows_ite_fst | with_reducible apply State.chanDrop_follows
    | with_reducible apply State.chanHead_follows | with_reducible refine State.chanHead_follows_eq (by assumption) ?_
    | with_reducible apply follows_foldl_fst | ((conv => arg 2; arg 45; skip); with_reducible apply follows_mk)
    | ((conv => arg 2; arg 45; skip); with_reducible apply follows_mk_mem) | with_reducible exact Eq.refl _
    | exact Eq.refl _ | with_reducible exact follows_memOk (by assumption) (by assumption)
    | with_reducible apply memFlip_wf | with_reducible apply memWrite_wf | with_reducible apply memWipe_wf
    | with_reducible apply filter_wf | split | (rename_i e; injection e; done)
    | (rename_i e; injection e with e; subst e) | (rename_i e; injection e with e e2; subst e)
    | (rename_i e; injection e with e; revert e; intro _) | (rename_i e; split at e <;> (revert e; intro _))
    | (rename_i e; rw [Option.map_eq_some_iff] at e; obtain ⟨_, _, rfl⟩ := e) | dsimp only | (rename_i e; clear e)

theorem State.chanTake_follows_eq {p0 t : State} {x : Word} {s : State} {y : YokeId} {f : FoldId} {n : Nat} (e0 : State.chanTake s y f n = (t, x)) (hF : Follows p0 s) : Follows p0 t := by
  have w := State.chanTake_follows s y f n hF
  rw [e0] at w
  exact w

theorem State.performChput_follows {p0 : State} (s : State) (y : YokeId) (f : FoldId) (h : Word) (data : Word) (len : Nat) (hF : Follows p0 s) :
    Follows p0 (State.performChput s y f h data len) := by
  unfold State.performChput
  try dsimp only
  repeat' first
    | with_reducible assumption | with_reducible apply follows_ite | with_reducible apply State.chanTake_follows
    | with_reducible apply State.chanWrite_follows | with_reducible apply State.collapseFault_follows
    | with_reducible apply State.finish_follows | with_reducible apply State.park_follows
    | with_reducible apply State.setFold_follows | with_reducible apply State.unpark_follows
    | ((conv => arg 2; arg 45; skip); with_reducible apply follows_mk) | exact Eq.refl _ | split

theorem State.performChget_follows {p0 : State} (s : State) (y : YokeId) (f : FoldId) (d : Gpr) (h : Word) (len : Nat) (hF : Follows p0 s) :
    Follows p0 (State.performChget s y f d h len) := by
  unfold State.performChget
  try dsimp only
  repeat' first
    | with_reducible assumption | with_reducible apply follows_ite | with_reducible apply State.chanTake_follows
    | with_reducible apply State.collapseFault_follows | with_reducible apply State.completeChput_follows
    | with_reducible apply State.finish_follows | with_reducible apply State.park_follows
    | with_reducible apply State.setFold_follows | ((conv => arg 2; arg 45; skip); with_reducible apply follows_mk)
    | exact Eq.refl _ | split

theorem State.performWait_follows {p0 : State} (s : State) (y : YokeId) (f : FoldId) (d : Gpr) (set : Word) (hF : Follows p0 s) :
    Follows p0 (State.performWait s y f d set) := by
  unfold State.performWait
  try dsimp only
  repeat' first
    | with_reducible assumption | with_reducible apply follows_ite | with_reducible apply State.collapseFault_follows
    | with_reducible apply State.endWait_follows | with_reducible apply State.setYoke_follows
    | ((conv => arg 2; arg 45; skip); with_reducible apply follows_mk) | exact Eq.refl _ | split

theorem State.performSample_follows {p0 : State} (s : State) (y : YokeId) (f : FoldId) (d : Gpr) (pair : Byte) (v : SampleVal) (len : Nat) (hF : Follows p0 s) :
    Follows p0 (State.performSample s y f d pair v len) := by
  unfold State.performSample
  try dsimp only
  repeat' first
    | with_reducible assumption | with_reducible apply follows_ite | with_reducible apply State.collapseFault_follows
    | with_reducible apply State.finish_follows | ((conv => arg 2; arg 45; skip); with_reducible apply follows_mk)
    | exact Eq.refl _

theorem State.performFence_follows {p0 : State} (s : State) (y : YokeId) (code : Bool) (len : Nat) (hF : Follows p0 s) :
    Follows p0 (State.performFence s y code len) := by
  unfold State.performFence
  try dsimp only
  repeat' first
    | with_reducible assumption | intro _ | with_reducible apply follows_foldl | with_reducible apply follows_ite
    | with_reducible apply follows_ite_fst | with_reducible apply State.capture_follows
    | with_reducible apply State.setYoke_follows | with_reducible apply follows_foldl_fst
    | ((conv => arg 2; arg 45; skip); with_reducible apply follows_mk)
    | ((conv => arg 2; arg 45; skip); with_reducible apply follows_mk_mem) | with_reducible exact Eq.refl _
    | exact Eq.refl _ | with_reducible exact follows_memOk (by assumption) (by assumption)
    | with_reducible apply memFlip_wf | with_reducible apply memWrite_wf | with_reducible apply memWipe_wf
    | with_reducible apply filter_wf | split | (rename_i e; injection e; done)
    | (rename_i e; injection e with e; subst e) | (rename_i e; injection e with e e2; subst e)
    | (rename_i e; injection e with e; revert e; intro _) | (rename_i e; split at e <;> (revert e; intro _))
    | (rename_i e; rw [Option.map_eq_some_iff] at e; obtain ⟨_, _, rfl⟩ := e) | dsimp only | (rename_i e; clear e)

theorem State.finishFence_follows {p0 : State} (s : State) (y : YokeId) (code : Bool) (hF : Follows p0 s) :
    Follows p0 (State.finishFence s y code) := by
  unfold State.finishFence
  try dsimp only
  repeat' first
    | with_reducible assumption | intro _ | with_reducible apply follows_foldl | with_reducible apply follows_ite
    | with_reducible apply follows_ite_fst | with_reducible apply State.debugHalt_follows
    | with_reducible apply State.setYoke_follows | with_reducible apply follows_foldl_fst
    | ((conv => arg 2; arg 45; skip); with_reducible apply follows_mk)
    | ((conv => arg 2; arg 45; skip); with_reducible apply follows_mk_mem) | with_reducible exact Eq.refl _
    | exact Eq.refl _ | with_reducible exact follows_memOk (by assumption) (by assumption)
    | with_reducible apply memFlip_wf | with_reducible apply memWrite_wf | with_reducible apply memWipe_wf
    | with_reducible apply filter_wf | split | (rename_i e; injection e; done)
    | (rename_i e; injection e with e; subst e) | (rename_i e; injection e with e e2; subst e)
    | (rename_i e; injection e with e; revert e; intro _) | (rename_i e; split at e <;> (revert e; intro _))
    | (rename_i e; rw [Option.map_eq_some_iff] at e; obtain ⟨_, _, rfl⟩ := e) | dsimp only | (rename_i e; clear e)

theorem State.perform_follows {p0 : State} (s : State) (y : YokeId) (hF : Follows p0 s) :
    Follows p0 (State.perform s y) := by
  unfold State.perform
  try dsimp only
  repeat' first
    | with_reducible assumption | intro _ | with_reducible apply follows_foldl | with_reducible apply follows_ite
    | with_reducible apply follows_ite_fst | with_reducible apply State.collapseFault_follows
    | with_reducible apply State.finish_follows | with_reducible apply State.finishFence_follows
    | with_reducible apply State.performAlias_follows | with_reducible apply State.performAtomic_follows
    | with_reducible apply State.performChget_follows | with_reducible apply State.performChput_follows
    | with_reducible apply State.performFence_follows | with_reducible apply State.performIoLoad_follows
    | with_reducible apply State.performJoin_follows | with_reducible apply State.performSample_follows
    | with_reducible apply State.performSpawn_follows | with_reducible apply State.performTend_follows
    | with_reducible apply State.performTlock_follows | with_reducible apply State.performTunlock_follows
    | with_reducible apply State.performWait_follows | with_reducible apply State.performYield_follows
    | with_reducible refine State.sysWriteOutside_follows_inl (by assumption) ?_
    | with_reducible apply follows_foldl_fst | ((conv => arg 2; arg 45; skip); with_reducible apply follows_mk)
    | with_reducible exact Eq.refl _ | exact Eq.refl _ | split | dsimp only

end Sys2Proof.Machine
end

