-- ==== Sys2Proof/Laws/FollowsChecker.lean ====
section
/-! SUPPORT. What the operations of Machine/Checker.lean keep: the queue, the invariant, programmed OTP bits. -/

namespace Sys2Proof.Machine

theorem State.trailCycle_follows {p0 : State} (s : State) (y : YokeId) (d : Disturb) (hF : Follows p0 s) :
    Follows p0 (State.trailCycle s y d) := by
  unfold State.trailCycle
  try dsimp only
  repeat' first
    | with_reducible assumption | intro _ | with_reducible apply follows_foldl | with_reducible apply follows_ite
    | with_reducible apply State.mismatch_follows | with_reducible apply State.report_follows
    | with_reducible apply State.setYoke_follows | ((conv => arg 2; arg 45; skip); with_reducible apply follows_mk)
    | with_reducible exact Eq.refl _ | exact Eq.refl _ | split

theorem State.confirm_follows {p0 : State} (s : State) (y : YokeId) (d : CkDisturb) (hF : Follows p0 s) :
    Follows p0 (State.confirm s y d) := by
  unfold State.confirm
  try dsimp only
  repeat' first
    | with_reducible assumption | with_reducible apply follows_ite | with_reducible apply State.capture_follows
    | with_reducible apply State.commit_follows | with_reducible apply State.correctHeld_follows
    | with_reducible apply State.mismatch_follows | with_reducible apply State.setYoke_follows
    | ((conv => arg 2; arg 45; skip); with_reducible apply follows_mk) | exact Eq.refl _ | split

theorem State.drainFails_follows {p0 : State} (s : State) (y : YokeId) (pc : Word) (hF : Follows p0 s) :
    Follows p0 (State.drainFails s y pc) := by
  unfold State.drainFails
  try dsimp only
  repeat' first
    | with_reducible assumption | with_reducible apply follows_ite | with_reducible apply State.deferYokeError_follows
    | with_reducible apply State.reportU_follows | ((conv => arg 2; arg 45; skip); with_reducible apply follows_mk)
    | exact Eq.refl _ | split

theorem State.countRefused_follows {p0 : State} (s : State) (e : WhbEntry) (hF : Follows p0 s) :
    Follows p0 (State.countRefused s e) := by
  unfold State.countRefused
  try dsimp only
  repeat' first
    | with_reducible assumption | intro _ | with_reducible apply follows_foldl | with_reducible apply follows_ite
    | with_reducible apply follows_ite_fst | with_reducible apply State.countEcc_follows
    | with_reducible apply State.fabricUp_follows | with_reducible apply follows_foldl_fst
    | ((conv => arg 2; arg 45; skip); with_reducible apply follows_mk)
    | ((conv => arg 2; arg 45; skip); with_reducible apply follows_mk_mem) | with_reducible exact Eq.refl _
    | exact Eq.refl _ | with_reducible exact follows_memOk (by assumption) (by assumption)
    | with_reducible apply memFlip_wf | with_reducible apply memWrite_wf | with_reducible apply memWipe_wf
    | with_reducible apply filter_wf | split | (rename_i e; injection e; done)
    | (rename_i e; injection e with e; subst e) | (rename_i e; injection e with e e2; subst e)
    | (rename_i e; injection e with e; revert e; intro _) | (rename_i e; split at e <;> (revert e; intro _))
    | (rename_i e; rw [Option.map_eq_some_iff] at e; obtain ⟨_, _, rfl⟩ := e) | dsimp only | (rename_i e; clear e)

theorem State.drain_follows {p0 : State} (s : State) (y : YokeId) (ecc : Ecc) (hF : Follows p0 s) :
    Follows p0 (State.drain s y ecc) := by
  unfold State.drain
  try dsimp only
  repeat' first
    | with_reducible assumption | with_reducible apply follows_ite | with_reducible apply State.countRefused_follows
    | with_reducible apply State.drainFails_follows | with_reducible apply State.reportHeld_follows
    | with_reducible apply State.setYoke_follows | ((conv => arg 2; arg 45; skip); with_reducible apply follows_mk)
    | exact Eq.refl _ | split

theorem State.pageWrite_follows {p0 : State} (s : State) (f : FoldId) (off : Nat) (sysc : Bool) (bs : List (Nat × Byte)) (q : QWord) (hF : Follows p0 s) :
    Follows p0 (State.pageWrite s f off sysc bs q) := by
  unfold State.pageWrite
  try dsimp only
  repeat' first
    | with_reducible assumption | intro _ | with_reducible apply follows_foldl | with_reducible apply follows_ite
    | with_reducible apply State.reportU_follows | with_reducible apply State.setFold_follows
    | ((conv => arg 2; arg 45; skip); with_reducible apply follows_mk) | with_reducible exact Eq.refl _
    | exact Eq.refl _ | split

theorem State.makeVisible_follows {p0 : State} (s : State) (y : YokeId) (e : WhbEntry) (hF : Follows p0 s) :
    Follows p0 (State.makeVisible s y e) := by
  unfold State.makeVisible
  try dsimp only
  repeat' first
    | with_reducible assumption | with_reducible apply follows_ite | with_reducible apply State.bankWrite_follows
    | with_reducible apply State.drainFails_follows | with_reducible apply State.pageWrite_follows
    | ((conv => arg 2; arg 45; skip); with_reducible apply follows_mk) | exact Eq.refl _

theorem State.releaseGroup_follows {p0 : State} (s : State) (g : GroupId) (v : Word) (hF : Follows p0 s) :
    Follows p0 (State.releaseGroup s g v) := by
  unfold State.releaseGroup
  try dsimp only
  repeat' first
    | with_reducible assumption | intro _ | with_reducible apply follows_foldl | with_reducible apply follows_ite
    | with_reducible apply follows_ite_fst | with_reducible apply State.setReg_follows
    | with_reducible apply follows_foldl_fst | ((conv => arg 2; arg 45; skip); with_reducible apply follows_mk)
    | ((conv => arg 2; arg 45; skip); with_reducible apply follows_mk_mem) | with_reducible exact Eq.refl _
    | exact Eq.refl _ | with_reducible exact follows_memOk (by assumption) (by assumption)
    | with_reducible apply memFlip_wf | with_reducible apply memWrite_wf | with_reducible apply memWipe_wf
    | with_reducible apply filter_wf | split | (rename_i e; injection e; done)
    | (rename_i e; injection e with e; subst e) | (rename_i e; injection e with e e2; subst e)
    | (rename_i e; injection e with e; revert e; intro _) | (rename_i e; split at e <;> (revert e; intro _))
    | (rename_i e; rw [Option.map_eq_some_iff] at e; obtain ⟨_, _, rfl⟩ := e) | dsimp only | (rename_i e; clear e)

theorem State.finishReleases_follows {p0 : State} (s : State) (hF : Follows p0 s) :
    Follows p0 (State.finishReleases s) := by
  unfold State.finishReleases
  try dsimp only
  repeat' first
    | with_reducible assumption | intro _ | with_reducible apply follows_foldl | with_reducible apply follows_ite
    | with_reducible apply follows_ite_fst | with_reducible apply State.releaseGroup_follows
    | with_reducible apply follows_foldl_fst | ((conv => arg 2; arg 45; skip); with_reducible apply follows_mk)
    | ((conv => arg 2; arg 45; skip); with_reducible apply follows_mk_mem) | with_reducible exact Eq.refl _
    | exact Eq.refl _ | with_reducible exact follows_memOk (by assumption) (by assumption)
    | with_reducible apply memFlip_wf | with_reducible apply memWrite_wf | with_reducible apply memWipe_wf
    | with_reducible apply filter_wf | split | (rename_i e; injection e; done)
    | (rename_i e; injection e with e; subst e) | (rename_i e; injection e with e e2; subst e)
    | (rename_i e; injection e with e; revert e; intro _) | (rename_i e; split at e <;> (revert e; intro _))
    | (rename_i e; rw [Option.map_eq_some_iff] at e; obtain ⟨_, _, rfl⟩ := e) | dsimp only | (rename_i e; clear e)

theorem State.groupVisible_follows {p0 : State} (s : State) (y : YokeId) (hF : Follows p0 s) :
    Follows p0 (State.groupVisible s y) := by
  unfold State.groupVisible
  try dsimp only
  repeat' first
    | with_reducible assumption | intro _ | with_reducible apply follows_foldl | with_reducible apply follows_ite
    | with_reducible apply State.finishReleases_follows | with_reducible apply State.makeVisible_follows
    | with_reducible apply State.setYoke_follows | ((conv => arg 2; arg 45; skip); with_reducible apply follows_mk)
    | with_reducible exact Eq.refl _ | exact Eq.refl _ | split

theorem State.confirmBefore_follows {p0 : State} (s : State) (y : YokeId) (d : Disturb) (hF : Follows p0 s) :
    Follows p0 (State.confirmBefore s y d) := by
  unfold State.confirmBefore
  try dsimp only
  repeat' first
    | with_reducible assumption | with_reducible apply follows_ite | with_reducible apply State.capture_follows
    | with_reducible apply State.commitUnchecked_follows | with_reducible apply State.confirm_follows
    | ((conv => arg 2; arg 45; skip); with_reducible apply follows_mk) | exact Eq.refl _ | split

theorem State.performReady_follows {p0 : State} (s : State) (y : YokeId) (d : Disturb) (hF : Follows p0 s) :
    Follows p0 (State.performReady s y d) := by
  unfold State.performReady
  try dsimp only
  repeat' first
    | with_reducible assumption | intro _ | with_reducible apply follows_foldl | with_reducible apply follows_ite
    | with_reducible apply follows_ite_fst | with_reducible apply State.confirmBefore_follows
    | with_reducible apply State.perform_follows | with_reducible apply follows_foldl_fst
    | ((conv => arg 2; arg 45; skip); with_reducible apply follows_mk)
    | ((conv => arg 2; arg 45; skip); with_reducible apply follows_mk_mem) | with_reducible exact Eq.refl _
    | exact Eq.refl _ | with_reducible exact follows_memOk (by assumption) (by assumption)
    | with_reducible apply memFlip_wf | with_reducible apply memWrite_wf | with_reducible apply memWipe_wf
    | with_reducible apply filter_wf | split | (rename_i e; injection e; done)
    | (rename_i e; injection e with e; subst e) | (rename_i e; injection e with e e2; subst e)
    | (rename_i e; injection e with e; revert e; intro _) | (rename_i e; split at e <;> (revert e; intro _))
    | (rename_i e; rw [Option.map_eq_some_iff] at e; obtain ⟨_, _, rfl⟩ := e) | dsimp only | (rename_i e; clear e)

theorem State.tryCollapse_follows {p0 : State} (s : State) (y : YokeId) (d : Disturb) (hF : Follows p0 s) :
    Follows p0 (State.tryCollapse s y d) := by
  unfold State.tryCollapse
  try dsimp only
  repeat' first
    | with_reducible assumption | with_reducible apply follows_ite | with_reducible apply State.performReady_follows
    | ((conv => arg 2; arg 45; skip); with_reducible apply follows_mk) | exact Eq.refl _ | split

theorem State.collapseComplete_follows {p0 : State} (s : State) (y : YokeId) (d : Disturb) (hF : Follows p0 s) :
    Follows p0 (State.collapseComplete s y d) := by
  unfold State.collapseComplete
  try dsimp only
  repeat' first
    | with_reducible assumption | with_reducible apply follows_ite | with_reducible apply State.debugError_follows
    | with_reducible apply State.trailCycle_follows | with_reducible apply State.tryCollapse_follows
    | ((conv => arg 2; arg 45; skip); with_reducible apply follows_mk) | exact Eq.refl _ | split

theorem State.arrive_follows {p0 : State} (s : State) (y : YokeId) (op : CollapseOp) (o : CollapseOut) (len : Nat) (hF : Follows p0 s) :
    Follows p0 (State.arrive s y op o len) := by
  unfold State.arrive
  try dsimp only
  repeat' first
    | with_reducible assumption | with_reducible apply follows_ite | with_reducible apply State.capture_follows
    | with_reducible apply State.collapseComplete_follows | with_reducible apply State.setYoke_follows
    | ((conv => arg 2; arg 45; skip); with_reducible apply follows_mk) | exact Eq.refl _

end Sys2Proof.Machine
end

