-- ==== Sys2Proof/Laws/FollowsIssue.lean ====
section
/-! SUPPORT. What the operations of Machine/Issue.lean keep: the queue, the invariant, programmed OTP bits. -/

namespace Sys2Proof.Machine

theorem State.illegal_follows {p0 : State} (s : State) (y : YokeId) (hF : Follows p0 s) :
    Follows p0 (State.illegal s y) := by
  unfold State.illegal
  try dsimp only
  repeat' first
    | with_reducible assumption | intro _ | with_reducible apply follows_foldl | with_reducible apply follows_ite
    | with_reducible apply State.lead_follows | with_reducible apply State.trap_follows
    | ((conv => arg 2; arg 45; skip); with_reducible apply follows_mk) | with_reducible exact Eq.refl _
    | exact Eq.refl _ | split

theorem State.issueWhen_follows {p0 : State} (s : State) (y : YokeId) (i : CoreIns) (chk : Core → Option Raise) (hF : Follows p0 s) :
    Follows p0 (State.issueWhen s y i chk) := by
  unfold State.issueWhen
  try dsimp only
  repeat' first
    | with_reducible assumption | intro _ | with_reducible apply follows_foldl | with_reducible apply follows_ite
    | with_reducible apply State.lead_follows | with_reducible apply State.setYoke_follows
    | with_reducible apply State.trapOf_follows | ((conv => arg 2; arg 45; skip); with_reducible apply follows_mk)
    | with_reducible exact Eq.refl _ | exact Eq.refl _ | split

theorem State.issueAlu_follows {p0 : State} (s : State) (y : YokeId) (op : AluOp) (wide : Bool) (rep : Rep) (d : Gpr) (a : AluArg) (hF : Follows p0 s) :
    Follows p0 (State.issueAlu s y op wide rep d a) := by
  unfold State.issueAlu
  try dsimp only
  repeat' first
    | with_reducible assumption | with_reducible apply follows_ite | with_reducible apply State.illegal_follows
    | with_reducible apply State.issueWhen_follows | ((conv => arg 2; arg 45; skip); with_reducible apply follows_mk)
    | exact Eq.refl _

theorem State.issueMul_follows {p0 : State} (s : State) (y : YokeId) (op : MulOp) (d : Gpr) (src : Gpr) (hF : Follows p0 s) :
    Follows p0 (State.issueMul s y op d src) := by
  unfold State.issueMul
  try dsimp only
  repeat' first
    | with_reducible assumption | with_reducible apply follows_ite | with_reducible apply State.illegal_follows
    | with_reducible apply State.issue_follows | ((conv => arg 2; arg 45; skip); with_reducible apply follows_mk)
    | exact Eq.refl _ | split

theorem State.issueDstep_follows {p0 : State} (s : State) (y : YokeId) (signed : Bool) (rep : Rep) (d : Gpr) (src : Gpr) (hF : Follows p0 s) :
    Follows p0 (State.issueDstep s y signed rep d src) := by
  unfold State.issueDstep
  try dsimp only
  repeat' first
    | with_reducible assumption | with_reducible apply follows_ite | with_reducible apply State.illegal_follows
    | with_reducible apply State.issueWhen_follows | ((conv => arg 2; arg 45; skip); with_reducible apply follows_mk)
    | exact Eq.refl _

theorem State.setLead_follows {p0 : State} (s : State) (y : YokeId) (f : Core → Core) (hF : Follows p0 s) :
    Follows p0 (State.setLead s y f) := by
  unfold State.setLead
  try dsimp only
  repeat' first
    | with_reducible assumption | intro _ | with_reducible apply follows_foldl | with_reducible apply follows_ite
    | with_reducible apply follows_ite_fst | with_reducible apply State.setYoke_follows
    | with_reducible apply follows_foldl_fst | ((conv => arg 2; arg 45; skip); with_reducible apply follows_mk)
    | ((conv => arg 2; arg 45; skip); with_reducible apply follows_mk_mem) | with_reducible exact Eq.refl _
    | exact Eq.refl _ | with_reducible exact follows_memOk (by assumption) (by assumption)
    | with_reducible apply memFlip_wf | with_reducible apply memWrite_wf | with_reducible apply memWipe_wf
    | with_reducible apply filter_wf | split | (rename_i e; injection e; done)
    | (rename_i e; injection e with e; subst e) | (rename_i e; injection e with e e2; subst e)
    | (rename_i e; injection e with e; revert e; intro _) | (rename_i e; split at e <;> (revert e; intro _))
    | (rename_i e; rw [Option.map_eq_some_iff] at e; obtain ⟨_, _, rfl⟩ := e) | dsimp only | (rename_i e; clear e)

theorem State.waits_follows {p0 : State} (s : State) (y : YokeId) (hF : Follows p0 s) :
    Follows p0 (State.waits s y) := by
  unfold State.waits
  repeat' first
    | with_reducible assumption | with_reducible apply State.setYoke_follows

theorem State.accessThen_follows {p0 : State} (s : State) (y : YokeId) (a : Word) (size : Nat) (n : Need) (act : State → FoldId → Target → State) (hF : Follows p0 s) (hFact : ∀ x0 x1 x2, Follows p0 x0 → Follows p0 (act x0 x1 x2)) :
    Follows p0 (State.accessThen s y a size n act) := by
  unfold State.accessThen
  try dsimp only
  repeat' first
    | with_reducible assumption | with_reducible apply follows_ite | with_reducible apply hFact
    | with_reducible apply State.trap_follows | ((conv => arg 2; arg 45; skip); with_reducible apply follows_mk)
    | exact Eq.refl _ | split

theorem State.loadGo_follows {p0 : State} (s : State) (y : YokeId) (op : LoadOp) (d : Gpr) (m : MemAddr) (a : Word) (p : Nat) (hF : Follows p0 s) :
    Follows p0 (State.loadGo s y op d m a p) := by
  unfold State.loadGo
  repeat' first
    | with_reducible assumption | with_reducible apply State.setYoke_follows

theorem State.readViolates_follows {p0 : State} (s : State) (y : YokeId) (i : CoreIns) (a : Word) (size : Nat) (hF : Follows p0 s) :
    Follows p0 (State.readViolates s y i a size) := by
  unfold State.readViolates
  try dsimp only
  repeat' first
    | with_reducible assumption | intro _ | with_reducible apply follows_foldl | with_reducible apply follows_ite
    | with_reducible apply follows_ite_fst | with_reducible apply State.raise_follows
    | with_reducible apply State.setYoke_follows | with_reducible apply State.waits_follows
    | with_reducible apply follows_foldl_fst | ((conv => arg 2; arg 45; skip); with_reducible apply follows_mk)
    | ((conv => arg 2; arg 45; skip); with_reducible apply follows_mk_mem) | with_reducible exact Eq.refl _
    | exact Eq.refl _ | with_reducible exact follows_memOk (by assumption) (by assumption)
    | with_reducible apply memFlip_wf | with_reducible apply memWrite_wf | with_reducible apply memWipe_wf
    | with_reducible apply filter_wf | split | (rename_i e; injection e; done)
    | (rename_i e; injection e with e; subst e) | (rename_i e; injection e with e e2; subst e)
    | (rename_i e; injection e with e; revert e; intro _) | (rename_i e; split at e <;> (revert e; intro _))
    | (rename_i e; rw [Option.map_eq_some_iff] at e; obtain ⟨_, _, rfl⟩ := e) | dsimp only | (rename_i e; clear e)

theorem State.readThen_follows {p0 : State} (s : State) (y : YokeId) (i : CoreIns) (a : Word) (size : Nat) (act : State → FoldId → Target → State) (hF : Follows p0 s) (hFact : ∀ x0 x1 x2, Follows p0 x0 → Follows p0 (act x0 x1 x2)) :
    Follows p0 (State.readThen s y i a size act) := by
  unfold State.readThen
  try dsimp only
  repeat' first
    | with_reducible assumption | intro _ | with_reducible apply follows_foldl | with_reducible apply follows_ite
    | with_reducible apply follows_ite_fst | with_reducible apply hFact
    | with_reducible apply State.readViolates_follows | with_reducible apply State.trap_follows
    | with_reducible apply follows_foldl_fst | ((conv => arg 2; arg 45; skip); with_reducible apply follows_mk)
    | ((conv => arg 2; arg 45; skip); with_reducible apply follows_mk_mem) | with_reducible exact Eq.refl _
    | exact Eq.refl _ | with_reducible exact follows_memOk (by assumption) (by assumption)
    | with_reducible apply memFlip_wf | with_reducible apply memWrite_wf | with_reducible apply memWipe_wf
    | with_reducible apply filter_wf | split | (rename_i e; injection e; done)
    | (rename_i e; injection e with e; subst e) | (rename_i e; injection e with e e2; subst e)
    | (rename_i e; injection e with e; revert e; intro _) | (rename_i e; split at e <;> (revert e; intro _))
    | (rename_i e; rw [Option.map_eq_some_iff] at e; obtain ⟨_, _, rfl⟩ := e) | dsimp only | (rename_i e; clear e)

theorem State.issueLoad_follows {p0 : State} (s : State) (y : YokeId) (op : LoadOp) (d : Gpr) (m : MemAddr) (hF : Follows p0 s) :
    Follows p0 (State.issueLoad s y op d m) := by
  unfold State.issueLoad
  try dsimp only
  repeat' first
    | with_reducible assumption | intro _ | with_reducible apply follows_foldl | with_reducible apply follows_ite
    | with_reducible apply State.arrive_follows | with_reducible apply State.illegal_follows
    | with_reducible apply State.lead_follows | with_reducible apply State.loadGo_follows
    | with_reducible apply State.readThen_follows | with_reducible apply State.readViolates_follows
    | with_reducible apply State.waits_follows | ((conv => arg 2; arg 45; skip); with_reducible apply follows_mk)
    | with_reducible exact Eq.refl _ | exact Eq.refl _ | split

theorem State.storeGo_follows {p0 : State} (s : State) (y : YokeId) (i : CoreIns) (a : Word) (p : Nat) (size : Nat) (v : QWord) (fdata : QWord) (io : Bool) (loc : Bool) (sysc : Bool) (hF : Follows p0 s) :
    Follows p0 (State.storeGo s y i a p size v fdata io loc sysc) := by
  unfold State.storeGo
  try dsimp only
  repeat' first
    | with_reducible assumption | with_reducible apply follows_ite | with_reducible apply State.after96_follows
    | with_reducible apply State.setYoke_follows | with_reducible apply State.waits_follows
    | ((conv => arg 2; arg 45; skip); with_reducible apply follows_mk) | exact Eq.refl _

theorem State.issueStore_follows {p0 : State} (s : State) (y : YokeId) (op : StoreOp) (d : Gpr) (m : MemAddr) (hF : Follows p0 s) :
    Follows p0 (State.issueStore s y op d m) := by
  unfold State.issueStore
  try dsimp only
  repeat' first
    | with_reducible assumption | intro _ | with_reducible apply follows_foldl | with_reducible apply follows_ite
    | with_reducible apply State.accessThen_follows | with_reducible apply State.arrive_follows
    | with_reducible apply State.illegal_follows | with_reducible apply State.lead_follows
    | with_reducible apply State.storeGo_follows | with_reducible apply State.trap_follows
    | ((conv => arg 2; arg 45; skip); with_reducible apply follows_mk) | with_reducible exact Eq.refl _
    | exact Eq.refl _ | split

theorem State.issueEmit_follows {p0 : State} (s : State) (y : YokeId) (loc : Bool) (sz : BitVec 3) (d : Gpr) (m : MemAddr) (hF : Follows p0 s) :
    Follows p0 (State.issueEmit s y loc sz d m) := by
  unfold State.issueEmit
  try dsimp only
  repeat' first
    | with_reducible assumption | intro _ | with_reducible apply follows_foldl | with_reducible apply follows_ite
    | with_reducible apply State.accessThen_follows | with_reducible apply State.illegal_follows
    | with_reducible apply State.lead_follows | with_reducible apply State.storeGo_follows
    | with_reducible apply State.trap_follows | ((conv => arg 2; arg 45; skip); with_reducible apply follows_mk)
    | with_reducible exact Eq.refl _ | exact Eq.refl _ | split

theorem State.fldGo_follows {p0 : State} (s : State) (y : YokeId) (x : Bool) (d : Freg) (m : MemAddr) (a : Word) (p : Nat) (hF : Follows p0 s) :
    Follows p0 (State.fldGo s y x d m a p) := by
  unfold State.fldGo
  repeat' first
    | with_reducible assumption | with_reducible apply State.setYoke_follows

theorem State.issueFld_follows {p0 : State} (s : State) (y : YokeId) (x : Bool) (d : Freg) (m : MemAddr) (hF : Follows p0 s) :
    Follows p0 (State.issueFld s y x d m) := by
  unfold State.issueFld
  try dsimp only
  repeat' first
    | with_reducible assumption | intro _ | with_reducible apply follows_foldl | with_reducible apply follows_ite
    | with_reducible apply State.fldGo_follows | with_reducible apply State.lead_follows
    | with_reducible apply State.readThen_follows | with_reducible apply State.readViolates_follows
    | ((conv => arg 2; arg 45; skip); with_reducible apply follows_mk) | with_reducible exact Eq.refl _
    | exact Eq.refl _ | split

theorem State.issueFst_follows {p0 : State} (s : State) (y : YokeId) (x : Bool) (d : Freg) (m : MemAddr) (hF : Follows p0 s) :
    Follows p0 (State.issueFst s y x d m) := by
  unfold State.issueFst
  try dsimp only
  repeat' first
    | with_reducible assumption | intro _ | with_reducible apply follows_foldl | with_reducible apply follows_ite
    | with_reducible apply State.accessThen_follows | with_reducible apply State.lead_follows
    | with_reducible apply State.storeGo_follows | with_reducible apply State.trap_follows
    | with_reducible apply State.waits_follows | ((conv => arg 2; arg 45; skip); with_reducible apply follows_mk)
    | with_reducible exact Eq.refl _ | exact Eq.refl _ | split

theorem State.issueSysc_follows {p0 : State} (s : State) (y : YokeId) (n : Byte) (hF : Follows p0 s) :
    Follows p0 (State.issueSysc s y n) := by
  unfold State.issueSysc
  try dsimp only
  repeat' first
    | with_reducible assumption | intro _ | with_reducible apply follows_foldl | with_reducible apply follows_ite
    | with_reducible apply State.lead_follows | with_reducible apply State.storeGo_follows
    | with_reducible apply State.trap_follows | ((conv => arg 2; arg 45; skip); with_reducible apply follows_mk)
    | with_reducible exact Eq.refl _ | exact Eq.refl _ | split

theorem State.blockReadFails_follows {p0 : State} (s : State) (y : YokeId) (i : CoreIns) (r : Gpr) (a : Word) (st : LoadStatus) (reps : List Report) (vec : Byte) (syn : Word) (hF : Follows p0 s) :
    Follows p0 (State.blockReadFails s y i r a st reps vec syn) := by
  unfold State.blockReadFails
  try dsimp only
  repeat' first
    | with_reducible assumption | intro _ | with_reducible apply follows_foldl | with_reducible apply follows_ite
    | with_reducible apply follows_ite_fst | with_reducible apply State.raise_follows
    | with_reducible apply State.setLead_follows | with_reducible apply State.setYoke_follows
    | with_reducible apply follows_foldl_fst | ((conv => arg 2; arg 45; skip); with_reducible apply follows_mk)
    | ((conv => arg 2; arg 45; skip); with_reducible apply follows_mk_mem) | with_reducible exact Eq.refl _
    | exact Eq.refl _ | with_reducible exact follows_memOk (by assumption) (by assumption)
    | with_reducible apply memFlip_wf | with_reducible apply memWrite_wf | with_reducible apply memWipe_wf
    | with_reducible apply filter_wf | split | (rename_i e; injection e; done)
    | (rename_i e; injection e with e; subst e) | (rename_i e; injection e with e e2; subst e)
    | (rename_i e; injection e with e; revert e; intro _) | (rename_i e; split at e <;> (revert e; intro _))
    | (rename_i e; rw [Option.map_eq_some_iff] at e; obtain ⟨_, _, rfl⟩ := e) | dsimp only | (rename_i e; clear e)

theorem State.blockRead_follows {p0 : State} (s : State) (y : YokeId) (p : Nat) (hF : Follows p0 s) :
    Follows p0 (State.blockRead s y p).1 := by
  unfold State.blockRead
  try dsimp only
  repeat' first
    | with_reducible assumption | intro _ | with_reducible apply follows_foldl | with_reducible apply follows_ite
    | with_reducible apply follows_ite_fst | with_reducible apply State.decodeAccess_follows
    | with_reducible refine State.decodeAccess_follows_eq (by assumption) ?_ | with_reducible apply follows_foldl_fst
    | ((conv => arg 2; arg 45; skip); with_reducible apply follows_mk)
    | ((conv => arg 2; arg 45; skip); with_reducible apply follows_mk_mem) | with_reducible exact Eq.refl _
    | exact Eq.refl _ | with_reducible exact follows_memOk (by assumption) (by assumption)
    | with_reducible apply memFlip_wf | with_reducible apply memWrite_wf | with_reducible apply memWipe_wf
    | with_reducible apply filter_wf | split | (rename_i e; injection e; done)
    | (rename_i e; injection e with e; subst e) | (rename_i e; injection e with e e2; subst e)
    | (rename_i e; injection e with e; revert e; intro _) | (rename_i e; split at e <;> (revert e; intro _))
    | (rename_i e; rw [Option.map_eq_some_iff] at e; obtain ⟨_, _, rfl⟩ := e) | dsimp only | (rename_i e; clear e)

theorem State.blockRead_follows_eq {p0 t : State} {x : QWord × LoadStatus × List Report} {s : State} {y : YokeId} {p : Nat} (e0 : State.blockRead s y p = (t, x)) (hF : Follows p0 s) : Follows p0 t := by
  have w := State.blockRead_follows s y p hF
  rw [e0] at w
  exact w

theorem State.blockReadThen_follows {p0 : State} (s : State) (y : YokeId) (i : CoreIns) (r : Gpr) (a : Word) (p : Nat) (act : State → QWord → LoadStatus → State) (hF : Follows p0 s) (hFact : ∀ x0 x1 x2, Follows p0 x0 → Follows p0 (act x0 x1 x2)) :
    Follows p0 (State.blockReadThen s y i r a p act) := by
  unfold State.blockReadThen
  try dsimp only
  repeat' first
    | with_reducible assumption | intro _ | with_reducible apply follows_foldl | with_reducible apply follows_ite
    | with_reducible apply follows_ite_fst | with_reducible apply hFact | with_reducible apply State.blockRead_follows
    | with_reducible apply State.blockReadFails_follows
    | with_reducible refine State.blockRead_follows_eq (by assumption) ?_ | with_reducible apply follows_foldl_fst
    | ((conv => arg 2; arg 45; skip); with_reducible apply follows_mk)
    | ((conv => arg 2; arg 45; skip); with_reducible apply follows_mk_mem) | with_reducible exact Eq.refl _
    | exact Eq.refl _ | with_reducible exact follows_memOk (by assumption) (by assumption)
    | with_reducible apply memFlip_wf | with_reducible apply memWrite_wf | with_reducible apply memWipe_wf
    | with_reducible apply filter_wf | split | (rename_i e; injection e; done)
    | (rename_i e; injection e with e; subst e) | (rename_i e; injection e with e e2; subst e)
    | (rename_i e; injection e with e; revert e; intro _) | (rename_i e; split at e <;> (revert e; intro _))
    | (rename_i e; rw [Option.map_eq_some_iff] at e; obtain ⟨_, _, rfl⟩ := e) | dsimp only | (rename_i e; clear e)

theorem State.blockIterate_follows {p0 : State} (s : State) (y : YokeId) (f : FoldId) (i : CoreIns) (op : BlockOp) (d : Gpr) (src : Gpr) (ps : Word) (pd : Word) (hF : Follows p0 s) :
    Follows p0 (State.blockIterate s y f i op d src ps pd) := by
  unfold State.blockIterate
  try dsimp only
  repeat' first
    | with_reducible assumption | intro _ | with_reducible apply follows_foldl | with_reducible apply follows_ite
    | with_reducible apply follows_ite_fst | with_reducible apply State.after96_follows
    | with_reducible apply State.blockReadFails_follows | with_reducible apply State.blockReadThen_follows
    | with_reducible apply State.setYoke_follows | with_reducible apply State.trapOf_follows
    | with_reducible apply State.waits_follows | with_reducible apply follows_foldl_fst
    | ((conv => arg 2; arg 45; skip); with_reducible apply follows_mk) | with_reducible exact Eq.refl _
    | exact Eq.refl _ | split | dsimp only

theorem State.issueBlock_follows {p0 : State} (s : State) (y : YokeId) (op : BlockOp) (rep : Rep) (d : Gpr) (src : Gpr) (hF : Follows p0 s) :
    Follows p0 (State.issueBlock s y op rep d src) := by
  unfold State.issueBlock
  try dsimp only
  repeat' first
    | with_reducible assumption | intro _ | with_reducible apply follows_foldl | with_reducible apply follows_ite
    | with_reducible apply State.blockIterate_follows | with_reducible apply State.lead_follows
    | with_reducible apply State.setYoke_follows | with_reducible apply State.trapOf_follows
    | ((conv => arg 2; arg 45; skip); with_reducible apply follows_mk) | with_reducible exact Eq.refl _
    | exact Eq.refl _ | split

theorem State.issueBranch_follows {p0 : State} (s : State) (y : YokeId) (b : BranchOp) (hF : Follows p0 s) :
    Follows p0 (State.issueBranch s y b) := by
  unfold State.issueBranch
  try dsimp only
  repeat' first
    | with_reducible assumption | intro _ | with_reducible apply follows_foldl | with_reducible apply follows_ite
    | with_reducible apply State.lead_follows | with_reducible apply State.setYoke_follows
    | ((conv => arg 2; arg 45; skip); with_reducible apply follows_mk) | with_reducible exact Eq.refl _
    | exact Eq.refl _ | split

theorem State.issueFloat_follows {p0 : State} (s : State) (y : YokeId) (fi : FloatIns) (hF : Follows p0 s) :
    Follows p0 (State.issueFloat s y fi) := by
  unfold State.issueFloat
  try dsimp only
  repeat' first
    | with_reducible assumption | intro _ | with_reducible apply follows_foldl | with_reducible apply follows_ite
    | with_reducible apply State.lead_follows | with_reducible apply State.setYoke_follows
    | ((conv => arg 2; arg 45; skip); with_reducible apply follows_mk) | with_reducible exact Eq.refl _
    | exact Eq.refl _ | split

theorem State.issueCollapse_follows {p0 : State} (s : State) (y : YokeId) (o : CollapseOut) (len : Nat) (op : Core → CollapseOp) (hF : Follows p0 s) :
    Follows p0 (State.issueCollapse s y o len op) := by
  unfold State.issueCollapse
  try dsimp only
  repeat' first
    | with_reducible assumption | intro _ | with_reducible apply follows_foldl | with_reducible apply follows_ite
    | with_reducible apply State.arrive_follows | with_reducible apply State.lead_follows
    | ((conv => arg 2; arg 45; skip); with_reducible apply follows_mk) | with_reducible exact Eq.refl _
    | exact Eq.refl _ | split

theorem State.issueAtomic_follows {p0 : State} (s : State) (y : YokeId) (kind : AccKind) (m : MemAddr) (size : Nat) (len : Nat) (op : Core → Word → Nat → CollapseOp) (hF : Follows p0 s) :
    Follows p0 (State.issueAtomic s y kind m size len op) := by
  unfold State.issueAtomic
  try dsimp only
  repeat' first
    | with_reducible assumption | intro _ | with_reducible apply follows_foldl | with_reducible apply follows_ite
    | with_reducible apply State.accessThen_follows | with_reducible apply State.arrive_follows
    | with_reducible apply State.lead_follows | with_reducible apply State.trap_follows
    | ((conv => arg 2; arg 45; skip); with_reducible apply follows_mk) | with_reducible exact Eq.refl _
    | exact Eq.refl _ | split

theorem State.trailingCompare_follows {p0 : State} (s : State) (y : YokeId) (d : Disturb) (hF : Follows p0 s) :
    Follows p0 (State.trailingCompare s y d) := by
  unfold State.trailingCompare
  try dsimp only
  repeat' first
    | with_reducible assumption | with_reducible apply follows_ite | with_reducible apply State.debugError_follows
    | with_reducible apply State.trailCycle_follows | ((conv => arg 2; arg 45; skip); with_reducible apply follows_mk)
    | exact Eq.refl _ | split

end Sys2Proof.Machine
end

