-- ==== Sys2Proof/Laws/FollowsFloatUnit.lean ====
section
/-! SUPPORT. What the operations of Machine/FloatUnit.lean keep: the queue, the invariant, programmed OTP bits. -/

namespace Sys2Proof.Machine

theorem State.floatBegin_follows {p0 : State} (s : State) (y : YokeId) (hF : Follows p0 s) :
    Follows p0 (State.floatBegin s y) := by
  unfold State.floatBegin
  repeat' first
    | with_reducible assumption | with_reducible apply State.setYoke_follows

theorem State.floatRetire_follows {p0 : State} (s : State) (y : YokeId) (hF : Follows p0 s) :
    Follows p0 (State.floatRetire s y) := by
  unfold State.floatRetire
  try dsimp only
  repeat' first
    | with_reducible assumption | with_reducible apply follows_ite | with_reducible apply State.commitUnchecked_follows
    | with_reducible apply State.raise_follows | with_reducible apply State.setYoke_follows
    | ((conv => arg 2; arg 45; skip); with_reducible apply follows_mk) | exact Eq.refl _ | split

end Sys2Proof.Machine
end

