-- ==== Sys2Proof/Laws/FollowsYokeOps.lean ====
section
/-! SUPPORT. What the operations of Machine/YokeOps.lean keep: the queue, the invariant, programmed OTP bits. -/

namespace Sys2Proof.Machine

theorem State.performLoad_follows {p0 : State} (s : State) (y : YokeId) (n : Nat) (e : CwFlip) (hF : Follows p0 s) :
    Follows p0 (State.performLoad s y n e) := by
  unfold State.performLoad
  try dsimp only
  repeat' first
    | with_reducible assumption | intro _ | with_reducible apply follows_foldl | with_reducible apply follows_ite
    | with_reducible apply follows_ite_fst | with_reducible apply State.asStored_follows
    | with_reducible apply State.decodeAccess_follows | with_reducible apply State.fabricUp_follows
    | with_reducible apply State.flip_follows | with_reducible apply State.misread_follows
    | with_reducible apply State.setYoke_follows
    | with_reducible refine State.decodeAccess_follows_eq (by assumption) ?_ | with_reducible apply follows_foldl_fst
    | ((conv => arg 2; arg 45; skip); with_reducible apply follows_mk)
    | ((conv => arg 2; arg 45; skip); with_reducible apply follows_mk_mem) | with_reducible exact Eq.refl _
    | exact Eq.refl _ | with_reducible exact follows_memOk (by assumption) (by assumption)
    | with_reducible apply memFlip_wf | with_reducible apply memWrite_wf | with_reducible apply memWipe_wf
    | with_reducible apply filter_wf | split | (rename_i e; injection e; done)
    | (rename_i e; injection e with e; subst e) | (rename_i e; injection e with e e2; subst e)
    | (rename_i e; injection e with e; revert e; intro _) | (rename_i e; split at e <;> (revert e; intro _))
    | (rename_i e; rw [Option.map_eq_some_iff] at e; obtain ⟨_, _, rfl⟩ := e) | dsimp only | (rename_i e; clear e)

theorem State.loadFails_follows {p0 : State} (s : State) (y : YokeId) (l : PendLoad) (b : BitVec 3) (reps : List Report) (hF : Follows p0 s) :
    Follows p0 (State.loadFails s y l b reps) := by
  unfold State.loadFails
  try dsimp only
  repeat' first
    | with_reducible assumption | with_reducible apply follows_ite | with_reducible apply State.raise_follows
    | with_reducible apply State.setYoke_follows | ((conv => arg 2; arg 45; skip); with_reducible apply follows_mk)
    | exact Eq.refl _

theorem State.retireLoad_follows {p0 : State} (s : State) (y : YokeId) (hF : Follows p0 s) :
    Follows p0 (State.retireLoad s y) := by
  unfold State.retireLoad
  try dsimp only
  repeat' first
    | with_reducible assumption | intro _ | with_reducible apply follows_foldl | with_reducible apply follows_ite
    | with_reducible apply follows_ite_fst | with_reducible apply State.loadFails_follows
    | with_reducible apply State.setYoke_follows | with_reducible apply follows_foldl_fst
    | ((conv => arg 2; arg 45; skip); with_reducible apply follows_mk)
    | ((conv => arg 2; arg 45; skip); with_reducible apply follows_mk_mem) | with_reducible exact Eq.refl _
    | exact Eq.refl _ | with_reducible exact follows_memOk (by assumption) (by assumption)
    | with_reducible apply memFlip_wf | with_reducible apply memWrite_wf | with_reducible apply memWipe_wf
    | with_reducible apply filter_wf | split | (rename_i e; injection e; done)
    | (rename_i e; injection e with e; subst e) | (rename_i e; injection e with e e2; subst e)
    | (rename_i e; injection e with e; revert e; intro _) | (rename_i e; split at e <;> (revert e; intro _))
    | (rename_i e; rw [Option.map_eq_some_iff] at e; obtain ⟨_, _, rfl⟩ := e) | dsimp only | (rename_i e; clear e)

theorem State.loadComplete_follows {p0 : State} (s : State) (y : YokeId) (n : Nat) (e : CwFlip) (hF : Follows p0 s) :
    Follows p0 (State.loadComplete s y n e) := by
  unfold State.loadComplete
  try dsimp only
  repeat' first
    | with_reducible assumption | intro _ | with_reducible apply follows_foldl | with_reducible apply follows_ite
    | with_reducible apply follows_ite_fst | with_reducible apply State.performLoad_follows
    | with_reducible apply State.retireLoad_follows | with_reducible apply follows_foldl_fst
    | ((conv => arg 2; arg 45; skip); with_reducible apply follows_mk)
    | ((conv => arg 2; arg 45; skip); with_reducible apply follows_mk_mem) | with_reducible exact Eq.refl _
    | exact Eq.refl _ | with_reducible exact follows_memOk (by assumption) (by assumption)
    | with_reducible apply memFlip_wf | with_reducible apply memWrite_wf | with_reducible apply memWipe_wf
    | with_reducible apply filter_wf | split | (rename_i e; injection e; done)
    | (rename_i e; injection e with e; subst e) | (rename_i e; injection e with e e2; subst e)
    | (rename_i e; injection e with e; revert e; intro _) | (rename_i e; split at e <;> (revert e; intro _))
    | (rename_i e; rw [Option.map_eq_some_iff] at e; obtain ⟨_, _, rfl⟩ := e) | dsimp only | (rename_i e; clear e)

theorem State.branchResolve_follows {p0 : State} (s : State) (y : YokeId) (hF : Follows p0 s) :
    Follows p0 (State.branchResolve s y) := by
  unfold State.branchResolve
  try dsimp only
  repeat' first
    | with_reducible assumption | with_reducible apply follows_ite | with_reducible apply State.setYoke_follows
    | ((conv => arg 2; arg 45; skip); with_reducible apply follows_mk) | exact Eq.refl _ | split

theorem State.fetchComplete_follows {p0 : State} (s : State) (y : YokeId) (n : Nat) (needed : BitVec 16) (e : CwFlip) (hF : Follows p0 s) :
    Follows p0 (State.fetchComplete s y n needed e) := by
  unfold State.fetchComplete
  try dsimp only
  repeat' first
    | with_reducible assumption | intro _ | with_reducible apply follows_foldl | with_reducible apply follows_ite
    | with_reducible apply follows_ite_fst | with_reducible apply State.asStored_follows
    | with_reducible apply State.decodeAccess_follows | with_reducible apply State.flip_follows
    | with_reducible apply State.misread_follows | with_reducible apply State.setYoke_follows
    | with_reducible apply State.trap_follows | with_reducible refine State.decodeAccess_follows_eq (by assumption) ?_
    | with_reducible apply follows_foldl_fst | ((conv => arg 2; arg 45; skip); with_reducible apply follows_mk)
    | ((conv => arg 2; arg 45; skip); with_reducible apply follows_mk_mem) | with_reducible exact Eq.refl _
    | exact Eq.refl _ | with_reducible exact follows_memOk (by assumption) (by assumption)
    | with_reducible apply memFlip_wf | with_reducible apply memWrite_wf | with_reducible apply memWipe_wf
    | with_reducible apply filter_wf | split | (rename_i e; injection e; done)
    | (rename_i e; injection e with e; subst e) | (rename_i e; injection e with e e2; subst e)
    | (rename_i e; injection e with e; revert e; intro _) | (rename_i e; split at e <;> (revert e; intro _))
    | (rename_i e; rw [Option.map_eq_some_iff] at e; obtain ⟨_, _, rfl⟩ := e) | dsimp only | (rename_i e; clear e)

theorem State.eventAccept_follows {p0 : State} (s : State) (y : YokeId) (hF : Follows p0 s) :
    Follows p0 (State.eventAccept s y) := by
  unfold State.eventAccept
  try dsimp only
  repeat' first
    | with_reducible assumption | with_reducible apply follows_ite | with_reducible apply State.entered_follows
    | with_reducible apply State.escalate_follows | with_reducible apply State.planEntry_follows
    | with_reducible apply State.setFold_follows | with_reducible apply State.setYoke_follows
    | with_reducible apply State.wakeSpan_follows | ((conv => arg 2; arg 45; skip); with_reducible apply follows_mk)
    | exact Eq.refl _ | split

theorem State.releaseSlot_follows {p0 : State} (s : State) (y : YokeId) (f : FoldId) (hF : Follows p0 s) :
    Follows p0 (State.releaseSlot s y f) := by
  unfold State.releaseSlot
  try dsimp only
  repeat' first
    | with_reducible assumption | intro _ | with_reducible apply follows_foldl | with_reducible apply follows_ite
    | with_reducible apply follows_ite_fst | with_reducible apply State.setYoke_follows
    | with_reducible apply follows_foldl_fst | ((conv => arg 2; arg 45; skip); with_reducible apply follows_mk)
    | ((conv => arg 2; arg 45; skip); with_reducible apply follows_mk_mem) | with_reducible exact Eq.refl _
    | exact Eq.refl _ | with_reducible exact follows_memOk (by assumption) (by assumption)
    | with_reducible apply memFlip_wf | with_reducible apply memWrite_wf | with_reducible apply memWipe_wf
    | with_reducible apply filter_wf | split | (rename_i e; injection e; done)
    | (rename_i e; injection e with e; subst e) | (rename_i e; injection e with e e2; subst e)
    | (rename_i e; injection e with e; revert e; intro _) | (rename_i e; split at e <;> (revert e; intro _))
    | (rename_i e; rw [Option.map_eq_some_iff] at e; obtain ⟨_, _, rfl⟩ := e) | dsimp only | (rename_i e; clear e)

theorem State.abortDue_follows {p0 : State} (s : State) (y : YokeId) (hF : Follows p0 s) :
    Follows p0 (State.abortDue s y) := by
  unfold State.abortDue
  try dsimp only
  repeat' first
    | with_reducible assumption | intro _ | with_reducible apply follows_foldl | with_reducible apply follows_ite
    | with_reducible apply follows_ite_fst | with_reducible apply State.arrive_follows
    | with_reducible apply follows_foldl_fst | ((conv => arg 2; arg 45; skip); with_reducible apply follows_mk)
    | ((conv => arg 2; arg 45; skip); with_reducible apply follows_mk_mem) | with_reducible exact Eq.refl _
    | exact Eq.refl _ | with_reducible exact follows_memOk (by assumption) (by assumption)
    | with_reducible apply memFlip_wf | with_reducible apply memWrite_wf | with_reducible apply memWipe_wf
    | with_reducible apply filter_wf | split | (rename_i e; injection e; done)
    | (rename_i e; injection e with e; subst e) | (rename_i e; injection e with e e2; subst e)
    | (rename_i e; injection e with e; revert e; intro _) | (rename_i e; split at e <;> (revert e; intro _))
    | (rename_i e; rw [Option.map_eq_some_iff] at e; obtain ⟨_, _, rfl⟩ := e) | dsimp only | (rename_i e; clear e)

theorem State.collapseStep_follows {p0 : State} (s : State) (y : YokeId) (d : Disturb) (hF : Follows p0 s) :
    Follows p0 (State.collapseStep s y d) := by
  unfold State.collapseStep
  try dsimp only
  repeat' first
    | with_reducible assumption | intro _ | with_reducible apply follows_foldl | with_reducible apply follows_ite
    | with_reducible apply follows_ite_fst | with_reducible apply State.abortDue_follows
    | with_reducible apply State.collapseComplete_follows | with_reducible apply follows_foldl_fst
    | ((conv => arg 2; arg 45; skip); with_reducible apply follows_mk)
    | ((conv => arg 2; arg 45; skip); with_reducible apply follows_mk_mem) | with_reducible exact Eq.refl _
    | exact Eq.refl _ | with_reducible exact follows_memOk (by assumption) (by assumption)
    | with_reducible apply memFlip_wf | with_reducible apply memWrite_wf | with_reducible apply memWipe_wf
    | with_reducible apply filter_wf | split | (rename_i e; injection e; done)
    | (rename_i e; injection e with e; subst e) | (rename_i e; injection e with e e2; subst e)
    | (rename_i e; injection e with e; revert e; intro _) | (rename_i e; split at e <;> (revert e; intro _))
    | (rename_i e; rw [Option.map_eq_some_iff] at e; obtain ⟨_, _, rfl⟩ := e) | dsimp only | (rename_i e; clear e)

/-- The state a frame read leaves, whole or failed. -/
theorem State.readFrame_follows {p0 : State} (s : State) (y : YokeId) (f : FoldId) (n i : Nat) (qs : List (QWord × LoadStatus))
    (hF : Follows p0 s) :
    (∀ t q, s.readFrame y f n i qs = .ok t q → Follows p0 t) ∧
      ∀ t v a b, s.readFrame y f n i qs = .fails t v a b → Follows p0 t := by
  induction n generalizing s i qs with
  | zero =>
    refine ⟨fun t q e => ?_, fun t v a b e => ?_⟩
    · injection e with e _; subst e; exact hF
    · exact absurd e (by simp [State.readFrame])
  | succ m ih =>
    have hr : ∀ p, Follows p0 (if (s.yoke y).covers p 16 then (s, LoadStatus.completed) else s.decodeAccess p 16).1 := by
      intro p
      split
      · exact hF
      · exact State.decodeAccess_follows _ _ _ hF
    unfold State.readFrame
    dsimp only
    split
    · refine ⟨fun t q e => absurd e (by simp), fun t v a b e => ?_⟩
      injection e with e _ _ _; subst e
      exact State.setYoke_follows _ _ _ hF
    · split
      · refine ⟨fun t q e => absurd e (by simp), fun t v a b e => ?_⟩
        injection e with e _ _ _; subst e
        refine State.setYoke_follows _ _ _ ?_
        split
        · exact hr _
        · exact follows_mk (hr _) rfl rfl rfl rfl rfl rfl rfl
      · exact ih _ _ _ (State.setYoke_follows _ _ _ (hr _))

theorem State.issueIret_follows {p0 : State} (s : State) (y : YokeId) (hF : Follows p0 s) :
    Follows p0 (State.issueIret s y) := by
  unfold State.issueIret
  refine State.lead_follows _ _ _ _ _ hF fun t ht => ?_
  dsimp only
  split
  · exact ht
  · refine follows_ite (State.waits_follows _ _ ht) (follows_ite (State.trap_follows _ _ _ _ _ ht) ?_)
    split
    · exact follows_ite (State.waits_follows _ _ ht)
        (State.raise_follows _ _ _ _ _ ((State.readFrame_follows _ _ _ _ _ _ ht).2 _ _ _ _ (by assumption)))
    · have h1 := (State.readFrame_follows _ _ _ _ _ _ ht).1 _ _ (by assumption)
      exact follows_ite (follows_ite (State.waits_follows _ _ ht) (State.raise_follows _ _ _ _ _ h1))
        (State.abortDue_follows _ _ (State.setYoke_follows _ _ _ (State.releaseSlot_follows _ _ _ h1)))

theorem State.issueMask_follows {p0 : State} (s : State) (y : YokeId) (m : Bool) (hF : Follows p0 s) :
    Follows p0 (State.issueMask s y m) := by
  unfold State.issueMask
  repeat' first
    | with_reducible assumption | with_reducible apply State.issueWhen_follows

theorem State.issueBrk_follows {p0 : State} (s : State) (y : YokeId) (hF : Follows p0 s) :
    Follows p0 (State.issueBrk s y) := by
  unfold State.issueBrk
  try dsimp only
  repeat' first
    | with_reducible assumption | intro _ | with_reducible apply follows_foldl | with_reducible apply follows_ite
    | with_reducible apply State.lead_follows | with_reducible apply State.trap_follows
    | ((conv => arg 2; arg 45; skip); with_reducible apply follows_mk) | with_reducible exact Eq.refl _
    | exact Eq.refl _ | split

theorem State.issueCall_follows {p0 : State} (s : State) (y : YokeId) (cause : EntryCause) (n : Byte) (hF : Follows p0 s) :
    Follows p0 (State.issueCall s y cause n) := by
  unfold State.issueCall
  try dsimp only
  repeat' first
    | with_reducible assumption | intro _ | with_reducible apply follows_foldl | with_reducible apply follows_ite
    | with_reducible apply State.call_follows | with_reducible apply State.lead_follows
    | ((conv => arg 2; arg 45; skip); with_reducible apply follows_mk) | with_reducible exact Eq.refl _
    | exact Eq.refl _ | split

theorem State.issueCkpt_follows {p0 : State} (s : State) (y : YokeId) (hF : Follows p0 s) :
    Follows p0 (State.issueCkpt s y) := by
  unfold State.issueCkpt
  try dsimp only
  repeat' first
    | with_reducible assumption | intro _ | with_reducible apply follows_foldl | with_reducible apply follows_ite
    | with_reducible apply State.capture_follows | with_reducible apply State.lead_follows
    | with_reducible apply State.setYoke_follows | ((conv => arg 2; arg 45; skip); with_reducible apply follows_mk)
    | with_reducible exact Eq.refl _ | exact Eq.refl _ | split

theorem State.issueSysrd_follows {p0 : State} (s : State) (y : YokeId) (d : Gpr) (num : BitVec 12) (hF : Follows p0 s) :
    Follows p0 (State.issueSysrd s y d num) := by
  unfold State.issueSysrd
  try dsimp only
  repeat' first
    | with_reducible assumption | intro _ | with_reducible apply follows_foldl | with_reducible apply follows_ite
    | with_reducible apply State.lead_follows | with_reducible apply State.setYoke_follows
    | with_reducible apply State.trap_follows | with_reducible apply State.waits_follows
    | ((conv => arg 2; arg 45; skip); with_reducible apply follows_mk) | with_reducible exact Eq.refl _
    | exact Eq.refl _ | split

theorem State.sysWriteIn_follows {p0 : State} (s : State) (y : YokeId) (num : BitVec 12) (src : Gpr) (vals : List (QWord × LoadStatus)) (hF : Follows p0 s) :
    Follows p0 (State.sysWriteIn s y num src vals) := by
  unfold State.sysWriteIn
  repeat' first
    | with_reducible assumption | with_reducible apply State.setYoke_follows

theorem State.issueSyswr_follows {p0 : State} (s : State) (y : YokeId) (num : BitVec 12) (src : Gpr) (hF : Follows p0 s) :
    Follows p0 (State.issueSyswr s y num src) := by
  unfold State.issueSyswr
  try dsimp only
  repeat' first
    | with_reducible assumption | intro _ | with_reducible apply follows_foldl | with_reducible apply follows_ite
    | with_reducible apply State.arrive_follows | with_reducible apply State.lead_follows
    | with_reducible apply State.raise_follows | with_reducible apply State.setYoke_follows
    | with_reducible apply State.sysWriteIn_follows | with_reducible apply State.trap_follows
    | with_reducible apply State.waits_follows | ((conv => arg 2; arg 45; skip); with_reducible apply follows_mk)
    | with_reducible exact Eq.refl _ | exact Eq.refl _ | split

theorem State.issueTask_follows {p0 : State} (s : State) (y : YokeId) (len : Nat) (o : CollapseOut) (op : Core → CollapseOp) (hF : Follows p0 s) :
    Follows p0 (State.issueTask s y len o op) := by
  unfold State.issueTask
  repeat' first
    | with_reducible assumption | with_reducible apply State.issueCollapse_follows

theorem State.issueSample_follows {p0 : State} (s : State) (y : YokeId) (d : Gpr) (pair : Byte) (hF : Follows p0 s) :
    Follows p0 (State.issueSample s y d pair) := by
  unfold State.issueSample
  try dsimp only
  repeat' first
    | with_reducible assumption | intro _ | with_reducible apply follows_foldl | with_reducible apply follows_ite
    | with_reducible apply follows_ite_fst | with_reducible apply State.arrive_follows
    | with_reducible apply State.lead_follows | with_reducible apply follows_foldl_fst
    | ((conv => arg 2; arg 45; skip); with_reducible apply follows_mk)
    | ((conv => arg 2; arg 45; skip); with_reducible apply follows_mk_mem) | with_reducible exact Eq.refl _
    | exact Eq.refl _ | with_reducible exact follows_memOk (by assumption) (by assumption)
    | with_reducible apply memFlip_wf | with_reducible apply memWrite_wf | with_reducible apply memWipe_wf
    | with_reducible apply filter_wf | split | (rename_i e; injection e; done)
    | (rename_i e; injection e with e; subst e) | (rename_i e; injection e with e e2; subst e)
    | (rename_i e; injection e with e; revert e; intro _) | (rename_i e; split at e <;> (revert e; intro _))
    | (rename_i e; rw [Option.map_eq_some_iff] at e; obtain ⟨_, _, rfl⟩ := e) | dsimp only | (rename_i e; clear e)

theorem State.issueSpawn_follows {p0 : State} (s : State) (y : YokeId) (src : Gpr) (hF : Follows p0 s) :
    Follows p0 (State.issueSpawn s y src) := by
  unfold State.issueSpawn
  try dsimp only
  repeat' first
    | with_reducible assumption | intro _ | with_reducible apply follows_foldl | with_reducible apply follows_ite
    | with_reducible apply State.arrive_follows | with_reducible apply State.lead_follows
    | with_reducible apply State.trap_follows | ((conv => arg 2; arg 45; skip); with_reducible apply follows_mk)
    | with_reducible exact Eq.refl _ | exact Eq.refl _ | split

theorem State.issueJoin_follows {p0 : State} (s : State) (y : YokeId) (src : Gpr) (hF : Follows p0 s) :
    Follows p0 (State.issueJoin s y src) := by
  unfold State.issueJoin
  try dsimp only
  repeat' first
    | with_reducible assumption | intro _ | with_reducible apply follows_foldl | with_reducible apply follows_ite
    | with_reducible apply State.arrive_follows | with_reducible apply State.lead_follows
    | with_reducible apply State.trap_follows | ((conv => arg 2; arg 45; skip); with_reducible apply follows_mk)
    | with_reducible exact Eq.refl _ | exact Eq.refl _ | split

theorem State.waitTimeout_follows {p0 : State} (s : State) (y : YokeId) (hF : Follows p0 s) :
    Follows p0 (State.waitTimeout s y) := by
  unfold State.waitTimeout
  try dsimp only
  repeat' first
    | with_reducible assumption | with_reducible apply follows_ite | with_reducible apply State.endWait_follows
    | ((conv => arg 2; arg 45; skip); with_reducible apply follows_mk) | exact Eq.refl _ | split

theorem State.levelWaits_follows {p0 : State} (s : State) (f : FoldId) (hF : Follows p0 s) :
    Follows p0 (State.levelWaits s f) := by
  unfold State.levelWaits
  try dsimp only
  repeat' first
    | with_reducible assumption | intro _ | with_reducible apply follows_foldl | with_reducible apply follows_ite
    | with_reducible apply State.endWait_follows | ((conv => arg 2; arg 45; skip); with_reducible apply follows_mk)
    | with_reducible exact Eq.refl _ | exact Eq.refl _ | split

theorem State.trigger_follows {p0 : State} (s : State) (y : YokeId) (due : Yoke → Bool) (hF : Follows p0 s) :
    Follows p0 (State.trigger s y due) := by
  unfold State.trigger
  try dsimp only
  repeat' first
    | with_reducible assumption | with_reducible apply follows_ite | with_reducible apply State.capture_follows
    | ((conv => arg 2; arg 45; skip); with_reducible apply follows_mk) | exact Eq.refl _

theorem State.trailTimeout_follows {p0 : State} (s : State) (y : YokeId) (hF : Follows p0 s) :
    Follows p0 (State.trailTimeout s y) := by
  unfold State.trailTimeout
  try dsimp only
  repeat' first
    | with_reducible assumption | intro _ | with_reducible apply follows_foldl | with_reducible apply follows_ite
    | with_reducible apply follows_ite_fst | with_reducible apply State.mismatch_follows
    | with_reducible apply follows_foldl_fst | ((conv => arg 2; arg 45; skip); with_reducible apply follows_mk)
    | ((conv => arg 2; arg 45; skip); with_reducible apply follows_mk_mem) | with_reducible exact Eq.refl _
    | exact Eq.refl _ | with_reducible exact follows_memOk (by assumption) (by assumption)
    | with_reducible apply memFlip_wf | with_reducible apply memWrite_wf | with_reducible apply memWipe_wf
    | with_reducible apply filter_wf | split | (rename_i e; injection e; done)
    | (rename_i e; injection e with e; subst e) | (rename_i e; injection e with e e2; subst e)
    | (rename_i e; injection e with e; revert e; intro _) | (rename_i e; split at e <;> (revert e; intro _))
    | (rename_i e; rw [Option.map_eq_some_iff] at e; obtain ⟨_, _, rfl⟩ := e) | dsimp only | (rename_i e; clear e)

theorem State.decodeTrap_follows {p0 : State} (s : State) (y : YokeId) (bs : List Byte) (want : Decoded) (hF : Follows p0 s) :
    Follows p0 (State.decodeTrap s y bs want) := by
  unfold State.decodeTrap
  try dsimp only
  repeat' first
    | with_reducible assumption | intro _ | with_reducible apply follows_foldl | with_reducible apply follows_ite
    | with_reducible apply State.lead_follows | with_reducible apply State.trap_follows
    | ((conv => arg 2; arg 45; skip); with_reducible apply follows_mk) | with_reducible exact Eq.refl _
    | exact Eq.refl _ | split

end Sys2Proof.Machine
end

