-- ==== Sys2Proof/Laws/FollowsAlu.lean ====
section
/-! SUPPORT. What the operations of Machine/Alu.lean keep: the queue, the invariant, programmed OTP bits. -/

namespace Sys2Proof.Machine

theorem execAdd_follows (y : YokeId) (wide : Bool) (rep : Rep) (d : Gpr) (a : AluArg) (s : State) : FollowsOut s (execAdd y wide rep d a s) :=
  follows_next (State.issueAlu_follows (hF := .refl s) ..)

theorem execAdc_follows (y : YokeId) (wide : Bool) (rep : Rep) (d : Gpr) (a : AluArg) (s : State) : FollowsOut s (execAdc y wide rep d a s) :=
  follows_next (State.issueAlu_follows (hF := .refl s) ..)

theorem execSub_follows (y : YokeId) (wide : Bool) (rep : Rep) (d : Gpr) (a : AluArg) (s : State) : FollowsOut s (execSub y wide rep d a s) :=
  follows_next (State.issueAlu_follows (hF := .refl s) ..)

theorem execSbc_follows (y : YokeId) (wide : Bool) (rep : Rep) (d : Gpr) (a : AluArg) (s : State) : FollowsOut s (execSbc y wide rep d a s) :=
  follows_next (State.issueAlu_follows (hF := .refl s) ..)

theorem execAnd_follows (y : YokeId) (wide : Bool) (rep : Rep) (d : Gpr) (a : AluArg) (s : State) : FollowsOut s (execAnd y wide rep d a s) :=
  follows_next (State.issueAlu_follows (hF := .refl s) ..)

theorem execOr_follows (y : YokeId) (wide : Bool) (rep : Rep) (d : Gpr) (a : AluArg) (s : State) : FollowsOut s (execOr y wide rep d a s) :=
  follows_next (State.issueAlu_follows (hF := .refl s) ..)

theorem execXor_follows (y : YokeId) (wide : Bool) (rep : Rep) (d : Gpr) (a : AluArg) (s : State) : FollowsOut s (execXor y wide rep d a s) :=
  follows_next (State.issueAlu_follows (hF := .refl s) ..)

theorem execAndn_follows (y : YokeId) (wide : Bool) (rep : Rep) (d : Gpr) (a : AluArg) (s : State) : FollowsOut s (execAndn y wide rep d a s) :=
  follows_next (State.issueAlu_follows (hF := .refl s) ..)

theorem execShl_follows (y : YokeId) (wide : Bool) (rep : Rep) (d : Gpr) (a : AluArg) (s : State) : FollowsOut s (execShl y wide rep d a s) :=
  follows_next (State.issueAlu_follows (hF := .refl s) ..)

theorem execShr_follows (y : YokeId) (wide : Bool) (rep : Rep) (d : Gpr) (a : AluArg) (s : State) : FollowsOut s (execShr y wide rep d a s) :=
  follows_next (State.issueAlu_follows (hF := .refl s) ..)

theorem execSar_follows (y : YokeId) (wide : Bool) (rep : Rep) (d : Gpr) (a : AluArg) (s : State) : FollowsOut s (execSar y wide rep d a s) :=
  follows_next (State.issueAlu_follows (hF := .refl s) ..)

theorem execCmp_follows (y : YokeId) (wide : Bool) (rep : Rep) (d : Gpr) (a : AluArg) (s : State) : FollowsOut s (execCmp y wide rep d a s) :=
  follows_next (State.issueAlu_follows (hF := .refl s) ..)

theorem execTst_follows (y : YokeId) (wide : Bool) (rep : Rep) (d : Gpr) (a : AluArg) (s : State) : FollowsOut s (execTst y wide rep d a s) :=
  follows_next (State.issueAlu_follows (hF := .refl s) ..)

theorem execMov_follows (y : YokeId) (wide : Bool) (rep : Rep) (d : Gpr) (a : AluArg) (s : State) : FollowsOut s (execMov y wide rep d a s) :=
  follows_next (State.issueAlu_follows (hF := .refl s) ..)

theorem execNop_follows (y : YokeId) (s : State) : FollowsOut s (execNop y s) :=
  follows_next (State.issue_follows (hF := .refl s) ..)

theorem execMuls_follows (y : YokeId) (d : Gpr) (src : Gpr) (s : State) : FollowsOut s (execMuls y d src s) :=
  follows_next (State.issueMul_follows (hF := .refl s) ..)

theorem execMulu_follows (y : YokeId) (d : Gpr) (src : Gpr) (s : State) : FollowsOut s (execMulu y d src s) :=
  follows_next (State.issueMul_follows (hF := .refl s) ..)

theorem execMulws_follows (y : YokeId) (d : Gpr) (src : Gpr) (s : State) : FollowsOut s (execMulws y d src s) :=
  follows_next (State.issueMul_follows (hF := .refl s) ..)

theorem execMulwu_follows (y : YokeId) (d : Gpr) (src : Gpr) (s : State) : FollowsOut s (execMulwu y d src s) :=
  follows_next (State.issueMul_follows (hF := .refl s) ..)

theorem execDstep_follows (y : YokeId) (rep : Rep) (d : Gpr) (src : Gpr) (s : State) : FollowsOut s (execDstep y rep d src s) :=
  follows_next (State.issueDstep_follows (hF := .refl s) ..)

theorem execDsteps_follows (y : YokeId) (rep : Rep) (d : Gpr) (src : Gpr) (s : State) : FollowsOut s (execDsteps y rep d src s) :=
  follows_next (State.issueDstep_follows (hF := .refl s) ..)

theorem execDfix_follows (y : YokeId) (d : Gpr) (src : Gpr) (s : State) : FollowsOut s (execDfix y d src s) := by
  unfold execDfix
  apply follows_next
  have h := Follows.refl s
  repeat' first
    | with_reducible assumption | with_reducible apply follows_ite | with_reducible apply State.illegal_follows
    | with_reducible apply State.issue_follows | ((conv => arg 2; arg 45; skip); with_reducible apply follows_mk)
    | exact Eq.refl _

theorem execNeg_follows (y : YokeId) (d : Gpr) (src : Gpr) (s : State) : FollowsOut s (execNeg y d src s) :=
  follows_next (State.issue_follows (hF := .refl s) ..)

theorem execNot_follows (y : YokeId) (d : Gpr) (src : Gpr) (s : State) : FollowsOut s (execNot y d src s) :=
  follows_next (State.issue_follows (hF := .refl s) ..)

theorem execExtb_follows (y : YokeId) (d : Gpr) (src : Gpr) (s : State) : FollowsOut s (execExtb y d src s) :=
  follows_next (State.issue_follows (hF := .refl s) ..)

theorem execExth_follows (y : YokeId) (d : Gpr) (src : Gpr) (s : State) : FollowsOut s (execExth y d src s) :=
  follows_next (State.issue_follows (hF := .refl s) ..)

theorem execClz_follows (y : YokeId) (d : Gpr) (src : Gpr) (s : State) : FollowsOut s (execClz y d src s) :=
  follows_next (State.issue_follows (hF := .refl s) ..)

end Sys2Proof.Machine
end

