-- ==== Sys2Proof/Laws/FollowsControl.lean ====
section
/-! SUPPORT. What the operations of Machine/Control.lean keep: the queue, the invariant, programmed OTP bits. -/

namespace Sys2Proof.Machine

theorem execBr_follows (y : YokeId) (t : BrTarget) (s : State) : FollowsOut s (execBr y t s) :=
  follows_next (State.issueBranch_follows (hF := .refl s) ..)

theorem execBcc_follows (y : YokeId) (cond : BitVec 4) (t : BrTarget) (s : State) : FollowsOut s (execBcc y cond t s) := by
  unfold execBcc
  apply follows_next
  have h := Follows.refl s
  repeat' first
    | with_reducible assumption | with_reducible apply follows_ite | with_reducible apply State.illegal_follows
    | with_reducible apply State.issueBranch_follows | ((conv => arg 2; arg 45; skip); with_reducible apply follows_mk)
    | exact Eq.refl _

theorem execBrl_follows (y : YokeId) (t : BrTarget) (s : State) : FollowsOut s (execBrl y t s) :=
  follows_next (State.issueBranch_follows (hF := .refl s) ..)

theorem execJr_follows (y : YokeId) (src : Gpr) (s : State) : FollowsOut s (execJr y src s) :=
  follows_next (State.issueBranch_follows (hF := .refl s) ..)

theorem execJrl_follows (y : YokeId) (src : Gpr) (s : State) : FollowsOut s (execJrl y src s) :=
  follows_next (State.issueBranch_follows (hF := .refl s) ..)

theorem execRet_follows (y : YokeId) (s : State) : FollowsOut s (execRet y s) :=
  follows_next (State.issueBranch_follows (hF := .refl s) ..)

theorem execGate_follows (y : YokeId) (n : Byte) (s : State) : FollowsOut s (execGate y n s) :=
  follows_next (State.issueCall_follows (hF := .refl s) ..)

theorem execTrap_follows (y : YokeId) (n : Byte) (s : State) : FollowsOut s (execTrap y n s) :=
  follows_next (State.issueCall_follows (hF := .refl s) ..)

theorem execIret_follows (y : YokeId) (s : State) : FollowsOut s (execIret y s) :=
  follows_next (State.issueIret_follows (hF := .refl s) ..)

theorem execSysc_follows (y : YokeId) (n : Byte) (s : State) : FollowsOut s (execSysc y n s) :=
  follows_next (State.issueSysc_follows (hF := .refl s) ..)

theorem execLoop_follows (y : YokeId) (disp : Half) (s : State) : FollowsOut s (execLoop y disp s) :=
  follows_next (State.issueBranch_follows (hF := .refl s) ..)

theorem execSysrd_follows (y : YokeId) (d : Gpr) (num : BitVec 12) (s : State) : FollowsOut s (execSysrd y d num s) :=
  follows_next (State.issueSysrd_follows (hF := .refl s) ..)

theorem execSyswr_follows (y : YokeId) (num : BitVec 12) (src : Gpr) (s : State) : FollowsOut s (execSyswr y num src s) :=
  follows_next (State.issueSyswr_follows (hF := .refl s) ..)

theorem execFence_follows (y : YokeId) (code : Bool) (s : State) : FollowsOut s (execFence y code s) :=
  follows_next (State.issueTask_follows (hF := .refl s) ..)

theorem execCkpt_follows (y : YokeId) (s : State) : FollowsOut s (execCkpt y s) :=
  follows_next (State.issueCkpt_follows (hF := .refl s) ..)

theorem execWait_follows (y : YokeId) (d : Gpr) (src : Gpr) (s : State) : FollowsOut s (execWait y d src s) :=
  follows_next (State.issueTask_follows (hF := .refl s) ..)

theorem execWaitTimeout_follows (y : YokeId) (s : State) : FollowsOut s (execWaitTimeout y s) :=
  follows_next (State.waitTimeout_follows (hF := .refl s) ..)

theorem execSample_follows (y : YokeId) (d : Gpr) (pair : Byte) (s : State) : FollowsOut s (execSample y d pair s) :=
  follows_next (State.issueSample_follows (hF := .refl s) ..)

theorem execMask_follows (y : YokeId) (s : State) : FollowsOut s (execMask y s) :=
  follows_next (State.issueMask_follows (hF := .refl s) ..)

theorem execUnmask_follows (y : YokeId) (s : State) : FollowsOut s (execUnmask y s) :=
  follows_next (State.issueMask_follows (hF := .refl s) ..)

theorem execBkld_follows (y : YokeId) (b : Byte) (s : State) : FollowsOut s (execBkld y b s) :=
  follows_next (State.issue_follows (hF := .refl s) ..)

theorem execBrk_follows (y : YokeId) (s : State) : FollowsOut s (execBrk y s) :=
  follows_next (State.issueBrk_follows (hF := .refl s) ..)

theorem execStWrite_follows (y : YokeId) (src : Gpr) (s : State) : FollowsOut s (execStWrite y src s) :=
  follows_next (State.issueSyswr_follows (hF := .refl s) ..)

theorem execFcsrWrite_follows (y : YokeId) (src : Gpr) (s : State) : FollowsOut s (execFcsrWrite y src s) :=
  follows_next (State.issueSyswr_follows (hF := .refl s) ..)

theorem execOepochWrite_follows (y : YokeId) (src : Gpr) (s : State) : FollowsOut s (execOepochWrite y src s) :=
  follows_next (State.issueSyswr_follows (hF := .refl s) ..)

theorem execEspWrite_follows (y : YokeId) (src : Gpr) (s : State) : FollowsOut s (execEspWrite y src s) :=
  follows_next (State.issueSyswr_follows (hF := .refl s) ..)

theorem execSkszWrite_follows (y : YokeId) (src : Gpr) (s : State) : FollowsOut s (execSkszWrite y src s) :=
  follows_next (State.issueSyswr_follows (hF := .refl s) ..)

theorem execChbaseWrite_follows (y : YokeId) (src : Gpr) (s : State) : FollowsOut s (execChbaseWrite y src s) :=
  follows_next (State.issueSyswr_follows (hF := .refl s) ..)

theorem execChcfgWrite_follows (y : YokeId) (src : Gpr) (s : State) : FollowsOut s (execChcfgWrite y src s) :=
  follows_next (State.issueSyswr_follows (hF := .refl s) ..)

end Sys2Proof.Machine
end

