-- ==== Sys2Proof/Laws/FollowsDmaRun.lean ====
section
/-! SUPPORT. What the operations of Machine/DmaRun.lean keep: the queue, the invariant, programmed OTP bits. -/

namespace Sys2Proof.Machine

theorem State.dmaError_follows {p0 : State} (s : State) (c : DmaId) (code : Byte) (hF : Follows p0 s) :
    Follows p0 (State.dmaError s c code) := by
  unfold State.dmaError
  try dsimp only
  repeat' first
    | with_reducible assumption | with_reducible apply follows_ite | with_reducible apply State.edge_follows
    | with_reducible apply State.reportU_follows | with_reducible apply State.retainAfter_follows
    | with_reducible apply State.setDma_follows | with_reducible apply State.setReg_follows
    | ((conv => arg 2; arg 45; skip); with_reducible apply follows_mk) | exact Eq.refl _ | split

theorem State.dmaRead_follows {p0 : State} (s : State) (f : FoldId) (d : Dma) (a : Word) (n : Nat) (program : Bool) (hF : Follows p0 s) :
    Follows p0 (State.dmaRead s f d a n program).1 := by
  unfold State.dmaRead
  try dsimp only
  repeat' first
    | with_reducible assumption | with_reducible apply follows_ite | with_reducible apply State.decodeAccess_follows
    | ((conv => arg 2; arg 45; skip); with_reducible apply follows_mk) | exact Eq.refl _ | split

theorem State.dmaRead_follows_eq {p0 t : State} {x : (List Byte ⊕ Byte)} {s : State} {f : FoldId} {d : Dma} {a : Word} {n : Nat} {program : Bool} (e0 : State.dmaRead s f d a n program = (t, x)) (hF : Follows p0 s) : Follows p0 t := by
  have w := State.dmaRead_follows s f d a n program hF
  rw [e0] at w
  exact w

theorem State.dmaFetch_follows {p0 : State} (s : State) (f : FoldId) (d : Dma) (hF : Follows p0 s) :
    Follows p0 (State.dmaFetch s f d).1 := by
  unfold State.dmaFetch
  try dsimp only
  repeat' first
    | with_reducible assumption | with_reducible apply follows_ite | with_reducible apply State.dmaRead_follows
    | ((conv => arg 2; arg 45; skip); with_reducible apply follows_mk) | exact Eq.refl _ | split

theorem State.dmaFetch_follows_eq {p0 t : State} {x : (DmaIns ⊕ Byte)} {s : State} {f : FoldId} {d : Dma} (e0 : State.dmaFetch s f d = (t, x)) (hF : Follows p0 s) : Follows p0 t := by
  have w := State.dmaFetch_follows s f d hF
  rw [e0] at w
  exact w

theorem State.dmaNextEntry_follows {p0 : State} (s : State) (c : DmaId) (f : FoldId) (x : DmaXfer) (hF : Follows p0 s) :
    Follows p0 (State.dmaNextEntry s c f x) := by
  unfold State.dmaNextEntry
  try dsimp only
  repeat' first
    | with_reducible assumption | with_reducible apply follows_ite | with_reducible apply State.dmaError_follows
    | with_reducible apply State.dmaRead_follows | with_reducible apply State.setDma_follows
    | ((conv => arg 2; arg 45; skip); with_reducible apply follows_mk) | exact Eq.refl _ | split

theorem State.dmaTake_follows {p0 : State} (s : State) (c : DmaId) (hF : Follows p0 s) :
    Follows p0 (State.dmaTake s c) := by
  unfold State.dmaTake
  try dsimp only
  repeat' first
    | with_reducible assumption | intro _ | with_reducible apply follows_foldl | with_reducible apply follows_ite
    | with_reducible apply follows_ite_fst | with_reducible apply State.setDma_follows
    | with_reducible apply follows_foldl_fst | ((conv => arg 2; arg 45; skip); with_reducible apply follows_mk)
    | ((conv => arg 2; arg 45; skip); with_reducible apply follows_mk_mem) | with_reducible exact Eq.refl _
    | exact Eq.refl _ | with_reducible exact follows_memOk (by assumption) (by assumption)
    | with_reducible apply memFlip_wf | with_reducible apply memWrite_wf | with_reducible apply memWipe_wf
    | with_reducible apply filter_wf | split | (rename_i e; injection e; done)
    | (rename_i e; injection e with e; subst e) | (rename_i e; injection e with e e2; subst e)
    | (rename_i e; injection e with e; revert e; intro _) | (rename_i e; split at e <;> (revert e; intro _))
    | (rename_i e; rw [Option.map_eq_some_iff] at e; obtain ⟨_, _, rfl⟩ := e) | dsimp only | (rename_i e; clear e)

theorem State.dmaRuns_follows {p0 : State} (s : State) (c : DmaId) (flt : DmaFault) (act : FoldId → State) (hF : Follows p0 s) (hFact : ∀ x0, Follows p0 (act x0)) :
    Follows p0 (State.dmaRuns s c flt act) := by
  unfold State.dmaRuns
  try dsimp only
  repeat' first
    | with_reducible assumption | intro _ | with_reducible apply follows_foldl | with_reducible apply follows_ite
    | with_reducible apply follows_ite_fst | with_reducible apply hFact | with_reducible apply State.dmaError_follows
    | with_reducible apply follows_foldl_fst | ((conv => arg 2; arg 45; skip); with_reducible apply follows_mk)
    | ((conv => arg 2; arg 45; skip); with_reducible apply follows_mk_mem) | with_reducible exact Eq.refl _
    | exact Eq.refl _ | with_reducible exact follows_memOk (by assumption) (by assumption)
    | with_reducible apply memFlip_wf | with_reducible apply memWrite_wf | with_reducible apply memWipe_wf
    | with_reducible apply filter_wf | split | (rename_i e; injection e; done)
    | (rename_i e; injection e with e; subst e) | (rename_i e; injection e with e e2; subst e)
    | (rename_i e; injection e with e; revert e; intro _) | (rename_i e; split at e <;> (revert e; intro _))
    | (rename_i e; rw [Option.map_eq_some_iff] at e; obtain ⟨_, _, rfl⟩ := e) | dsimp only | (rename_i e; clear e)

theorem State.dmaAct_follows {p0 : State} (s : State) (c : DmaId) (flt : DmaFault) (want : DmaIns → Bool) (act : State → FoldId → Dma → DmaIns → State) (hF : Follows p0 s) (hFact : ∀ x0 x1 x2 x3, Follows p0 x0 → Follows p0 (act x0 x1 x2 x3)) :
    Follows p0 (State.dmaAct s c flt want act) := by
  unfold State.dmaAct
  try dsimp only
  repeat' first
    | with_reducible assumption | intro _ | with_reducible apply follows_foldl | with_reducible apply follows_ite
    | with_reducible apply follows_ite_fst | with_reducible apply hFact | with_reducible apply State.dmaError_follows
    | with_reducible apply State.dmaFetch_follows | with_reducible apply State.dmaRuns_follows
    | with_reducible apply State.dmaTake_follows | with_reducible refine State.dmaFetch_follows_eq (by assumption) ?_
    | with_reducible apply follows_foldl_fst | ((conv => arg 2; arg 45; skip); with_reducible apply follows_mk)
    | ((conv => arg 2; arg 45; skip); with_reducible apply follows_mk_mem) | with_reducible exact Eq.refl _
    | exact Eq.refl _ | with_reducible exact follows_memOk (by assumption) (by assumption)
    | with_reducible apply memFlip_wf | with_reducible apply memWrite_wf | with_reducible apply memWipe_wf
    | with_reducible apply filter_wf | split | (rename_i e; injection e; done)
    | (rename_i e; injection e with e; subst e) | (rename_i e; injection e with e e2; subst e)
    | (rename_i e; injection e with e; revert e; intro _) | (rename_i e; split at e <;> (revert e; intro _))
    | (rename_i e; rw [Option.map_eq_some_iff] at e; obtain ⟨_, _, rfl⟩ := e) | dsimp only | (rename_i e; clear e)

theorem State.dmaComplete_follows {p0 : State} (s : State) (c : DmaId) (flt : DmaFault) (act : State → State) (hF : Follows p0 s) (hFact : ∀ x0, Follows p0 x0 → Follows p0 (act x0)) :
    Follows p0 (State.dmaComplete s c flt act) := by
  unfold State.dmaComplete
  try dsimp only
  repeat' first
    | with_reducible assumption | intro _ | with_reducible apply follows_foldl | with_reducible apply follows_ite
    | with_reducible apply follows_ite_fst | with_reducible apply hFact
    | with_reducible apply State.decodeAccess_follows | with_reducible apply State.dmaError_follows
    | with_reducible apply State.setDma_follows | with_reducible refine State.decodeAccess_follows_eq (by assumption) ?_
    | with_reducible apply follows_foldl_fst | ((conv => arg 2; arg 45; skip); with_reducible apply follows_mk)
    | ((conv => arg 2; arg 45; skip); with_reducible apply follows_mk_mem) | with_reducible exact Eq.refl _
    | exact Eq.refl _ | with_reducible exact follows_memOk (by assumption) (by assumption)
    | with_reducible apply memFlip_wf | with_reducible apply memWrite_wf | with_reducible apply memWipe_wf
    | with_reducible apply filter_wf | split | (rename_i e; injection e; done)
    | (rename_i e; injection e with e; subst e) | (rename_i e; injection e with e e2; subst e)
    | (rename_i e; injection e with e; revert e; intro _) | (rename_i e; split at e <;> (revert e; intro _))
    | (rename_i e; rw [Option.map_eq_some_iff] at e; obtain ⟨_, _, rfl⟩ := e) | dsimp only | (rename_i e; clear e)

theorem State.dmaMove_follows {p0 : State} (s : State) (c : DmaId) (flt : DmaFault) (hF : Follows p0 s) :
    Follows p0 (State.dmaMove s c flt) := by
  unfold State.dmaMove
  try dsimp only
  repeat' first
    | with_reducible assumption | intro _ | with_reducible apply follows_foldl | with_reducible apply follows_ite
    | with_reducible apply State.dmaAct_follows | with_reducible apply State.dmaError_follows
    | with_reducible apply State.dmaRead_follows | with_reducible apply State.setDma_follows
    | ((conv => arg 2; arg 45; skip); with_reducible apply follows_mk) | with_reducible exact Eq.refl _
    | exact Eq.refl _ | split

theorem State.dmaGather_follows {p0 : State} (s : State) (c : DmaId) (flt : DmaFault) (hF : Follows p0 s) :
    Follows p0 (State.dmaGather s c flt) := by
  unfold State.dmaGather
  try dsimp only
  repeat' first
    | with_reducible assumption | intro _ | with_reducible apply follows_foldl | with_reducible apply follows_ite
    | with_reducible apply State.dmaAct_follows | with_reducible apply State.dmaError_follows
    | with_reducible apply State.dmaNextEntry_follows | with_reducible apply State.setDma_follows
    | ((conv => arg 2; arg 45; skip); with_reducible apply follows_mk) | with_reducible exact Eq.refl _
    | exact Eq.refl _ | split

theorem State.dmaScatter_follows {p0 : State} (s : State) (c : DmaId) (flt : DmaFault) (hF : Follows p0 s) :
    Follows p0 (State.dmaScatter s c flt) := by
  unfold State.dmaScatter
  try dsimp only
  repeat' first
    | with_reducible assumption | intro _ | with_reducible apply follows_foldl | with_reducible apply follows_ite
    | with_reducible apply State.dmaAct_follows | with_reducible apply State.dmaError_follows
    | with_reducible apply State.dmaNextEntry_follows | with_reducible apply State.setDma_follows
    | ((conv => arg 2; arg 45; skip); with_reducible apply follows_mk) | with_reducible exact Eq.refl _
    | exact Eq.refl _ | split

theorem State.dmaLoop_follows {p0 : State} (s : State) (c : DmaId) (flt : DmaFault) (hF : Follows p0 s) :
    Follows p0 (State.dmaLoop s c flt) := by
  unfold State.dmaLoop
  try dsimp only
  repeat' first
    | with_reducible assumption | intro _ | with_reducible apply follows_foldl | with_reducible apply follows_ite
    | with_reducible apply State.dmaAct_follows | with_reducible apply State.dmaError_follows
    | with_reducible apply State.setDma_follows | ((conv => arg 2; arg 45; skip); with_reducible apply follows_mk)
    | with_reducible exact Eq.refl _ | exact Eq.refl _ | split

theorem State.dmaWaitRead_follows {p0 : State} (s : State) (c : DmaId) (f : FoldId) (d : Dma) (w : DmaWait) (slot : Bool) (hF : Follows p0 s) :
    Follows p0 (State.dmaWaitRead s c f d w slot).1 := by
  unfold State.dmaWaitRead
  try dsimp only
  repeat' first
    | with_reducible assumption | intro _ | with_reducible apply follows_foldl | with_reducible apply follows_ite
    | with_reducible apply follows_ite_fst | with_reducible apply State.dmaRead_follows
    | with_reducible apply State.dmaTake_follows | with_reducible apply State.setDma_follows
    | with_reducible refine State.dmaRead_follows_eq (by assumption) ?_ | with_reducible apply follows_foldl_fst
    | ((conv => arg 2; arg 45; skip); with_reducible apply follows_mk)
    | ((conv => arg 2; arg 45; skip); with_reducible apply follows_mk_mem) | with_reducible exact Eq.refl _
    | exact Eq.refl _ | with_reducible exact follows_memOk (by assumption) (by assumption)
    | with_reducible apply memFlip_wf | with_reducible apply memWrite_wf | with_reducible apply memWipe_wf
    | with_reducible apply filter_wf | split | (rename_i e; injection e; done)
    | (rename_i e; injection e with e; subst e) | (rename_i e; injection e with e e2; subst e)
    | (rename_i e; injection e with e; revert e; intro _) | (rename_i e; split at e <;> (revert e; intro _))
    | (rename_i e; rw [Option.map_eq_some_iff] at e; obtain ⟨_, _, rfl⟩ := e) | dsimp only | (rename_i e; clear e)

theorem State.dmaWaitRead_follows_eq {p0 t : State} {x : (Bool ⊕ Byte)} {s : State} {c : DmaId} {f : FoldId} {d : Dma} {w : DmaWait} {slot : Bool} (e0 : State.dmaWaitRead s c f d w slot = (t, x)) (hF : Follows p0 s) : Follows p0 t := by
  have w := State.dmaWaitRead_follows s c f d w slot hF
  rw [e0] at w
  exact w

theorem State.dmaWaitDone_follows {p0 : State} (s : State) (c : DmaId) (f : FoldId) (d : Dma) (w : DmaWait) (slot : Bool) (hF : Follows p0 s) :
    Follows p0 (State.dmaWaitDone s c f d w slot).1 := by
  unfold State.dmaWaitDone
  try dsimp only
  repeat' first
    | with_reducible assumption | with_reducible apply follows_ite | with_reducible apply State.dmaWaitRead_follows
    | ((conv => arg 2; arg 45; skip); with_reducible apply follows_mk) | exact Eq.refl _ | split

theorem State.dmaWaitDone_follows_eq {p0 t : State} {x : (Bool ⊕ Byte)} {s : State} {c : DmaId} {f : FoldId} {d : Dma} {w : DmaWait} {slot : Bool} (e0 : State.dmaWaitDone s c f d w slot = (t, x)) (hF : Follows p0 s) : Follows p0 t := by
  have w := State.dmaWaitDone_follows s c f d w slot hF
  rw [e0] at w
  exact w

theorem State.dmaEndWait_follows {p0 : State} (s : State) (c : DmaId) (w : DmaWait) (hF : Follows p0 s) :
    Follows p0 (State.dmaEndWait s c w) := by
  unfold State.dmaEndWait
  repeat' first
    | with_reducible assumption | with_reducible apply State.setDma_follows

theorem State.dmaWait_follows {p0 : State} (s : State) (c : DmaId) (flt : DmaFault) (hF : Follows p0 s) :
    Follows p0 (State.dmaWait s c flt) := by
  unfold State.dmaWait
  try dsimp only
  repeat' first
    | with_reducible assumption | intro _ | with_reducible apply follows_foldl | with_reducible apply follows_ite
    | with_reducible apply State.dmaAct_follows | with_reducible apply State.dmaEndWait_follows
    | with_reducible apply State.dmaError_follows | with_reducible apply State.dmaWaitDone_follows
    | with_reducible apply State.setDma_follows | ((conv => arg 2; arg 45; skip); with_reducible apply follows_mk)
    | with_reducible exact Eq.refl _ | exact Eq.refl _ | split

theorem State.dmaWaitEnd_follows {p0 : State} (s : State) (c : DmaId) (flt : DmaFault) (hF : Follows p0 s) :
    Follows p0 (State.dmaWaitEnd s c flt) := by
  unfold State.dmaWaitEnd
  try dsimp only
  repeat' first
    | with_reducible assumption | intro _ | with_reducible apply follows_foldl | with_reducible apply follows_ite
    | with_reducible apply follows_ite_fst | with_reducible apply State.dmaEndWait_follows
    | with_reducible apply State.dmaError_follows | with_reducible apply State.dmaRuns_follows
    | with_reducible apply State.dmaWaitDone_follows
    | with_reducible refine State.dmaWaitDone_follows_eq (by assumption) ?_ | with_reducible apply follows_foldl_fst
    | ((conv => arg 2; arg 45; skip); with_reducible apply follows_mk)
    | ((conv => arg 2; arg 45; skip); with_reducible apply follows_mk_mem) | with_reducible exact Eq.refl _
    | exact Eq.refl _ | with_reducible exact follows_memOk (by assumption) (by assumption)
    | with_reducible apply memFlip_wf | with_reducible apply memWrite_wf | with_reducible apply memWipe_wf
    | with_reducible apply filter_wf | split | (rename_i e; injection e; done)
    | (rename_i e; injection e with e; subst e) | (rename_i e; injection e with e e2; subst e)
    | (rename_i e; injection e with e; revert e; intro _) | (rename_i e; split at e <;> (revert e; intro _))
    | (rename_i e; rw [Option.map_eq_some_iff] at e; obtain ⟨_, _, rfl⟩ := e) | dsimp only | (rename_i e; clear e)

theorem State.dmaWaitTimeout_follows {p0 : State} (s : State) (c : DmaId) (hF : Follows p0 s) :
    Follows p0 (State.dmaWaitTimeout s c) := by
  unfold State.dmaWaitTimeout
  try dsimp only
  repeat' first
    | with_reducible assumption | with_reducible apply follows_ite | with_reducible apply State.dmaEndWait_follows
    | with_reducible apply State.dmaError_follows | ((conv => arg 2; arg 45; skip); with_reducible apply follows_mk)
    | exact Eq.refl _ | split

theorem State.dmaEdge_follows {p0 : State} (s : State) (kind : Nat) (f : Option FoldId) (hF : Follows p0 s) :
    Follows p0 (State.dmaEdge s kind f) := by
  unfold State.dmaEdge
  try dsimp only
  repeat' first
    | with_reducible assumption | with_reducible apply follows_ite
    | ((conv => arg 2; arg 45; skip); with_reducible apply follows_mk) | exact Eq.refl _

theorem State.dmaSignal_follows {p0 : State} (s : State) (c : DmaId) (flt : DmaFault) (hF : Follows p0 s) :
    Follows p0 (State.dmaSignal s c flt) := by
  unfold State.dmaSignal
  try dsimp only
  repeat' first
    | with_reducible assumption | intro _ | with_reducible apply follows_foldl | with_reducible apply follows_ite
    | with_reducible apply State.dmaAct_follows | with_reducible apply State.dmaComplete_follows
    | with_reducible apply State.dmaError_follows | with_reducible apply State.edge_follows
    | with_reducible apply State.setDma_follows | ((conv => arg 2; arg 45; skip); with_reducible apply follows_mk)
    | with_reducible exact Eq.refl _ | exact Eq.refl _ | split

theorem State.dmaCheck_follows {p0 : State} (s : State) (c : DmaId) (flt : DmaFault) (hF : Follows p0 s) :
    Follows p0 (State.dmaCheck s c flt) := by
  unfold State.dmaCheck
  try dsimp only
  repeat' first
    | with_reducible assumption | intro _ | with_reducible apply follows_foldl | with_reducible apply follows_ite
    | with_reducible apply State.dmaAct_follows | with_reducible apply State.dmaError_follows
    | with_reducible apply State.dmaRead_follows | with_reducible apply State.setDma_follows
    | ((conv => arg 2; arg 45; skip); with_reducible apply follows_mk) | with_reducible exact Eq.refl _
    | exact Eq.refl _ | split

theorem State.dmaEnd_follows {p0 : State} (s : State) (c : DmaId) (flt : DmaFault) (hF : Follows p0 s) :
    Follows p0 (State.dmaEnd s c flt) := by
  unfold State.dmaEnd
  try dsimp only
  repeat' first
    | with_reducible assumption | intro _ | with_reducible apply follows_foldl | with_reducible apply follows_ite
    | with_reducible apply follows_ite_fst | with_reducible apply State.dmaComplete_follows
    | with_reducible apply State.dmaError_follows | with_reducible apply State.dmaFetch_follows
    | with_reducible apply State.dmaRuns_follows | with_reducible apply State.dmaTake_follows
    | with_reducible apply State.edge_follows | with_reducible apply State.retainAfter_follows
    | with_reducible apply State.setDma_follows | with_reducible refine State.dmaFetch_follows_eq (by assumption) ?_
    | with_reducible apply follows_foldl_fst | ((conv => arg 2; arg 45; skip); with_reducible apply follows_mk)
    | ((conv => arg 2; arg 45; skip); with_reducible apply follows_mk_mem) | with_reducible exact Eq.refl _
    | exact Eq.refl _ | with_reducible exact follows_memOk (by assumption) (by assumption)
    | with_reducible apply memFlip_wf | with_reducible apply memWrite_wf | with_reducible apply memWipe_wf
    | with_reducible apply filter_wf | split | (rename_i e; injection e; done)
    | (rename_i e; injection e with e; subst e) | (rename_i e; injection e with e e2; subst e)
    | (rename_i e; injection e with e; revert e; intro _) | (rename_i e; split at e <;> (revert e; intro _))
    | (rename_i e; rw [Option.map_eq_some_iff] at e; obtain ⟨_, _, rfl⟩ := e) | dsimp only | (rename_i e; clear e)

theorem State.dmaStopEffect_follows {p0 : State} (s : State) (c : DmaId) (flt : DmaFault) (hF : Follows p0 s) :
    Follows p0 (State.dmaStopEffect s c flt) := by
  unfold State.dmaStopEffect
  try dsimp only
  repeat' first
    | with_reducible assumption | intro _ | with_reducible apply follows_foldl | with_reducible apply follows_ite
    | with_reducible apply follows_ite_fst | with_reducible apply State.dmaComplete_follows
    | with_reducible apply State.dmaRuns_follows | with_reducible apply State.dmaTake_follows
    | with_reducible apply State.retainAfter_follows | with_reducible apply State.setDma_follows
    | with_reducible apply follows_foldl_fst | ((conv => arg 2; arg 45; skip); with_reducible apply follows_mk)
    | ((conv => arg 2; arg 45; skip); with_reducible apply follows_mk_mem) | with_reducible exact Eq.refl _
    | exact Eq.refl _ | with_reducible exact follows_memOk (by assumption) (by assumption)
    | with_reducible apply memFlip_wf | with_reducible apply memWrite_wf | with_reducible apply memWipe_wf
    | with_reducible apply filter_wf | split | (rename_i e; injection e; done)
    | (rename_i e; injection e with e; subst e) | (rename_i e; injection e with e e2; subst e)
    | (rename_i e; injection e with e; revert e; intro _) | (rename_i e; split at e <;> (revert e; intro _))
    | (rename_i e; rw [Option.map_eq_some_iff] at e; obtain ⟨_, _, rfl⟩ := e) | dsimp only | (rename_i e; clear e)

theorem State.dmaDeliver_follows {p0 : State} (s : State) (c : DmaId) (f : FoldId) (d : Dma) (d1 : Dma) (x : DmaXfer) (bs : List Byte) (hF : Follows p0 s) :
    Follows p0 (State.dmaDeliver s c f d d1 x bs) := by
  unfold State.dmaDeliver
  try dsimp only
  repeat' first
    | with_reducible assumption | intro _ | with_reducible apply follows_foldl | with_reducible apply follows_ite
    | with_reducible apply follows_ite_fst | with_reducible apply State.bankWrite_follows
    | with_reducible apply State.dmaError_follows | with_reducible apply State.enterOutput_follows
    | with_reducible apply State.setDma_follows | with_reducible refine State.bankWrite_follows_eq (by assumption) ?_
    | with_reducible refine State.enterOutput_follows_eq (by assumption) ?_ | with_reducible apply follows_foldl_fst
    | ((conv => arg 2; arg 45; skip); with_reducible apply follows_mk)
    | ((conv => arg 2; arg 45; skip); with_reducible apply follows_mk_mem) | with_reducible exact Eq.refl _
    | exact Eq.refl _ | with_reducible exact follows_memOk (by assumption) (by assumption)
    | with_reducible apply memFlip_wf | with_reducible apply memWrite_wf | with_reducible apply memWipe_wf
    | with_reducible apply filter_wf | split | (rename_i e; injection e; done)
    | (rename_i e; injection e with e; subst e) | (rename_i e; injection e with e e2; subst e)
    | (rename_i e; injection e with e; revert e; intro _) | (rename_i e; split at e <;> (revert e; intro _))
    | (rename_i e; rw [Option.map_eq_some_iff] at e; obtain ⟨_, _, rfl⟩ := e) | dsimp only | (rename_i e; clear e)

theorem State.dmaBurst_follows {p0 : State} (s : State) (c : DmaId) (flt : DmaFault) (hF : Follows p0 s) :
    Follows p0 (State.dmaBurst s c flt) := by
  unfold State.dmaBurst
  try dsimp only
  repeat' first
    | with_reducible assumption | intro _ | with_reducible apply follows_foldl | with_reducible apply follows_ite
    | with_reducible apply follows_ite_fst | with_reducible apply State.dmaDeliver_follows
    | with_reducible apply State.dmaError_follows | with_reducible apply State.dmaNextEntry_follows
    | with_reducible apply State.dmaRead_follows | with_reducible apply State.dmaRuns_follows
    | with_reducible apply State.dmaTake_follows | with_reducible apply State.setDma_follows
    | with_reducible refine State.dmaRead_follows_eq (by assumption) ?_ | with_reducible apply follows_foldl_fst
    | ((conv => arg 2; arg 45; skip); with_reducible apply follows_mk)
    | ((conv => arg 2; arg 45; skip); with_reducible apply follows_mk_mem) | with_reducible exact Eq.refl _
    | exact Eq.refl _ | with_reducible exact follows_memOk (by assumption) (by assumption)
    | with_reducible apply memFlip_wf | with_reducible apply memWrite_wf | with_reducible apply memWipe_wf
    | with_reducible apply filter_wf | split | (rename_i e; injection e; done)
    | (rename_i e; injection e with e; subst e) | (rename_i e; injection e with e e2; subst e)
    | (rename_i e; injection e with e; revert e; intro _) | (rename_i e; split at e <;> (revert e; intro _))
    | (rename_i e; rw [Option.map_eq_some_iff] at e; obtain ⟨_, _, rfl⟩ := e) | dsimp only | (rename_i e; clear e)

theorem State.dmaWatchdog_follows {p0 : State} (s : State) (c : DmaId) (hF : Follows p0 s) :
    Follows p0 (State.dmaWatchdog s c) := by
  unfold State.dmaWatchdog
  try dsimp only
  repeat' first
    | with_reducible assumption | with_reducible apply follows_ite | with_reducible apply State.dmaError_follows
    | ((conv => arg 2; arg 45; skip); with_reducible apply follows_mk) | exact Eq.refl _

theorem State.dmaBulkStop_follows {p0 : State} (s : State) (hi : Bool) (v : Word) (hF : Follows p0 s) :
    Follows p0 (State.dmaBulkStop s hi v) := by
  unfold State.dmaBulkStop
  try dsimp only
  repeat' first
    | with_reducible assumption | intro _ | with_reducible apply follows_foldl | with_reducible apply follows_ite
    | with_reducible apply State.setDma_follows | ((conv => arg 2; arg 45; skip); with_reducible apply follows_mk)
    | with_reducible exact Eq.refl _ | exact Eq.refl _ | split

theorem State.dmaDefer_follows {p0 : State} (s : State) (f : FoldId) (c : DmaId) (seq : Half) (pc : Word) (hF : Follows p0 s) :
    Follows p0 (State.dmaDefer s f c seq pc) := by
  unfold State.dmaDefer
  try dsimp only
  repeat' first
    | with_reducible assumption | with_reducible apply follows_ite | with_reducible apply State.pendEvent_follows
    | with_reducible apply State.setDma_follows | ((conv => arg 2; arg 45; skip); with_reducible apply follows_mk)
    | exact Eq.refl _ | split

theorem State.dmaStore_follows {p0 : State} (s : State) (c : DmaId) (off : Nat) (v : Word) (ring : BitVec 2) (oepoch : Word) (hF : Follows p0 s) :
    Follows p0 (State.dmaStore s c off v ring oepoch) := by
  unfold State.dmaStore
  try dsimp only
  repeat' first
    | with_reducible assumption | with_reducible apply follows_ite | with_reducible apply State.setDma_follows
    | ((conv => arg 2; arg 45; skip); with_reducible apply follows_mk) | exact Eq.refl _

end Sys2Proof.Machine
end

