-- ==== Sys2Proof/Laws/FollowsDmaEvents.lean ====
section
/-! SUPPORT. What the operations of Machine/DmaEvents.lean keep: the queue, the invariant, programmed OTP bits. -/

namespace Sys2Proof.Machine

theorem execDmaStart_follows (c : DmaId) (v : Word) (ring : BitVec 2) (oepoch : Word) (s : State) : FollowsOut s (execDmaStart c v ring oepoch s) :=
  follows_next (State.dmaStore_follows (hF := .refl s) ..)

theorem execDmaStop_follows (c : DmaId) (s : State) : FollowsOut s (execDmaStop c s) :=
  follows_next (State.dmaStore_follows (hF := .refl s) ..)

theorem execDmaStopEffect_follows (c : DmaId) (flt : DmaFault) (s : State) : FollowsOut s (execDmaStopEffect c flt s) :=
  follows_next (State.dmaStopEffect_follows (hF := .refl s) ..)

theorem execDmaBulkStop_follows (hi : Bool) (v : Word) (s : State) : FollowsOut s (execDmaBulkStop hi v s) := by
  unfold execDmaBulkStop
  apply follows_next
  have h := Follows.refl s
  repeat' first
    | with_reducible assumption | intro _ | with_reducible apply follows_foldl | with_reducible apply follows_ite
    | with_reducible apply follows_ite_fst | with_reducible apply State.dmaBulkStop_follows
    | with_reducible apply State.whenFirmware_follows | with_reducible apply follows_foldl_fst
    | ((conv => arg 2; arg 45; skip); with_reducible apply follows_mk)
    | ((conv => arg 2; arg 45; skip); with_reducible apply follows_mk_mem) | with_reducible exact Eq.refl _
    | exact Eq.refl _ | with_reducible exact follows_memOk (by assumption) (by assumption)
    | with_reducible apply memFlip_wf | with_reducible apply memWrite_wf | with_reducible apply memWipe_wf
    | with_reducible apply filter_wf | split | (rename_i e; injection e; done)
    | (rename_i e; injection e with e; subst e) | (rename_i e; injection e with e e2; subst e)
    | (rename_i e; injection e with e; revert e; intro _) | (rename_i e; split at e <;> (revert e; intro _))
    | (rename_i e; rw [Option.map_eq_some_iff] at e; obtain ⟨_, _, rfl⟩ := e) | dsimp only | (rename_i e; clear e)

theorem execDmaMove_follows (c : DmaId) (flt : DmaFault) (s : State) : FollowsOut s (execDmaMove c flt s) :=
  follows_next (State.dmaMove_follows (hF := .refl s) ..)

theorem execDmaGather_follows (c : DmaId) (flt : DmaFault) (s : State) : FollowsOut s (execDmaGather c flt s) :=
  follows_next (State.dmaGather_follows (hF := .refl s) ..)

theorem execDmaScatter_follows (c : DmaId) (flt : DmaFault) (s : State) : FollowsOut s (execDmaScatter c flt s) :=
  follows_next (State.dmaScatter_follows (hF := .refl s) ..)

theorem execDmaLoop_follows (c : DmaId) (flt : DmaFault) (s : State) : FollowsOut s (execDmaLoop c flt s) :=
  follows_next (State.dmaLoop_follows (hF := .refl s) ..)

theorem execDmaWait_follows (c : DmaId) (flt : DmaFault) (s : State) : FollowsOut s (execDmaWait c flt s) :=
  follows_next (State.dmaWait_follows (hF := .refl s) ..)

theorem execDmaWaitEnd_follows (c : DmaId) (flt : DmaFault) (s : State) : FollowsOut s (execDmaWaitEnd c flt s) :=
  follows_next (State.dmaWaitEnd_follows (hF := .refl s) ..)

theorem execDmaWaitTimeout_follows (c : DmaId) (s : State) : FollowsOut s (execDmaWaitTimeout c s) :=
  follows_next (State.dmaWaitTimeout_follows (hF := .refl s) ..)

theorem execDmaSignal_follows (c : DmaId) (flt : DmaFault) (s : State) : FollowsOut s (execDmaSignal c flt s) :=
  follows_next (State.dmaSignal_follows (hF := .refl s) ..)

theorem execDmaCheck_follows (c : DmaId) (flt : DmaFault) (s : State) : FollowsOut s (execDmaCheck c flt s) :=
  follows_next (State.dmaCheck_follows (hF := .refl s) ..)

theorem execDmaEnd_follows (c : DmaId) (flt : DmaFault) (s : State) : FollowsOut s (execDmaEnd c flt s) :=
  follows_next (State.dmaEnd_follows (hF := .refl s) ..)

theorem execDmaBurst_follows (c : DmaId) (flt : DmaFault) (s : State) : FollowsOut s (execDmaBurst c flt s) :=
  follows_next (State.dmaBurst_follows (hF := .refl s) ..)

theorem execDmaWatchdogExpiry_follows (c : DmaId) (s : State) : FollowsOut s (execDmaWatchdogExpiry c s) :=
  follows_next (State.dmaWatchdog_follows (hF := .refl s) ..)

theorem execCevtSet_follows (c : DmaId) (s : State) : FollowsOut s (execCevtSet c s) :=
  follows_next (State.dmaStore_follows (hF := .refl s) ..)

end Sys2Proof.Machine
end

