-- ==== Sys2Proof/Laws/FollowsRegSpec.lean ====
section
/-! SUPPORT. What the operations of Machine/RegSpec.lean keep: the queue, the invariant, programmed OTP bits. -/

namespace Sys2Proof.Machine

theorem State.badWrite_follows {p0 : State} (s : State) (hF : Follows p0 s) :
    Follows p0 (State.badWrite s) := by
  unfold State.badWrite
  repeat' first
    | with_reducible assumption | with_reducible apply State.reportU_follows

theorem State.writeCkctl_follows {p0 : State} (s : State) (sp : SpanId) (v : Word) (hF : Follows p0 s) :
    Follows p0 (State.writeCkctl s sp v) := by
  unfold State.writeCkctl
  try dsimp only
  repeat' first
    | with_reducible assumption | with_reducible apply follows_ite | with_reducible apply State.badWrite_follows
    | with_reducible apply State.setReg_follows | with_reducible apply State.setYoke_follows
    | ((conv => arg 2; arg 45; skip); with_reducible apply follows_mk) | exact Eq.refl _

theorem State.writeSchctl_follows {p0 : State} (s : State) (sp : SpanId) (v : Word) (hF : Follows p0 s) :
    Follows p0 (State.writeSchctl s sp v) := by
  unfold State.writeSchctl
  repeat' first
    | with_reducible assumption | with_reducible apply State.setReg_follows

theorem State.writeMemctl_follows {p0 : State} (s : State) (sp : SpanId) (v : Word) (hF : Follows p0 s) :
    Follows p0 (State.writeMemctl s sp v) := by
  unfold State.writeMemctl
  try dsimp only
  repeat' first
    | with_reducible assumption | with_reducible apply follows_ite | with_reducible apply State.setReg_follows
    | ((conv => arg 2; arg 45; skip); with_reducible apply follows_mk) | exact Eq.refl _

theorem State.groupWipeDone_follows {p0 : State} (s : State) (g : GroupId) (hF : Follows p0 s) :
    Follows p0 (State.groupWipeDone s g) := by
  unfold State.groupWipeDone
  try dsimp only
  repeat' first
    | with_reducible assumption | intro _ | with_reducible apply follows_foldl | with_reducible apply follows_ite
    | with_reducible apply follows_ite_fst | with_reducible apply State.setReg_follows
    | with_reducible apply follows_foldl_fst | ((conv => arg 2; arg 45; skip); with_reducible apply follows_mk)
    | ((conv => arg 2; arg 45; skip); with_reducible apply follows_mk_mem) | with_reducible exact Eq.refl _
    | exact Eq.refl _ | with_reducible exact follows_memOk (by assumption) (by assumption)
    | with_reducible apply memFlip_wf | with_reducible apply memWrite_wf | with_reducible apply memWipe_wf
    | with_reducible apply filter_wf | split | (rename_i e; injection e; done)
    | (rename_i e; injection e with e; subst e) | (rename_i e; injection e with e e2; subst e)
    | (rename_i e; injection e with e; revert e; intro _) | (rename_i e; split at e <;> (revert e; intro _))
    | (rename_i e; rw [Option.map_eq_some_iff] at e; obtain ⟨_, _, rfl⟩ := e) | dsimp only | (rename_i e; clear e)

theorem State.spanWipeDone_follows {p0 : State} (s : State) (sp : SpanId) (hF : Follows p0 s) :
    Follows p0 (State.spanWipeDone s sp) := by
  unfold State.spanWipeDone
  try dsimp only
  repeat' first
    | with_reducible assumption | intro _ | with_reducible apply follows_foldl | with_reducible apply follows_ite
    | with_reducible apply follows_ite_fst | with_reducible apply State.setReg_follows
    | with_reducible apply follows_foldl_fst | ((conv => arg 2; arg 45; skip); with_reducible apply follows_mk)
    | ((conv => arg 2; arg 45; skip); with_reducible apply follows_mk_mem) | with_reducible exact Eq.refl _
    | exact Eq.refl _ | with_reducible exact follows_memOk (by assumption) (by assumption)
    | with_reducible apply memFlip_wf | with_reducible apply memWrite_wf | with_reducible apply memWipe_wf
    | with_reducible apply filter_wf | split | (rename_i e; injection e; done)
    | (rename_i e; injection e with e; subst e) | (rename_i e; injection e with e e2; subst e)
    | (rename_i e; injection e with e; revert e; intro _) | (rename_i e; split at e <;> (revert e; intro _))
    | (rename_i e; rw [Option.map_eq_some_iff] at e; obtain ⟨_, _, rfl⟩ := e) | dsimp only | (rename_i e; clear e)

theorem State.patrolScrub_follows {p0 : State} (s : State) (kind : MemKind) (n : SpanId) (off : Nat) (e0 : CwFlip) (e1 : CwFlip) (hF : Follows p0 s) :
    Follows p0 (State.patrolScrub s kind n off e0 e1) := by
  unfold State.patrolScrub
  try dsimp only
  repeat' first
    | with_reducible assumption | intro _ | with_reducible apply follows_foldl | with_reducible apply follows_ite
    | with_reducible apply State.asStored_follows | with_reducible apply State.countEcc_follows
    | with_reducible apply State.decodeWord_follows | with_reducible apply State.flip_follows
    | with_reducible apply State.misread_follows | ((conv => arg 2; arg 45; skip); with_reducible apply follows_mk)
    | with_reducible exact Eq.refl _ | exact Eq.refl _ | split

theorem State.eccWriteback_follows {p0 : State} (s : State) (kind : MemKind) (n : SpanId) (off : Nat) (hF : Follows p0 s) :
    Follows p0 (State.eccWriteback s kind n off) := by
  unfold State.eccWriteback
  try dsimp only
  repeat' first
    | with_reducible assumption | with_reducible apply follows_ite
    | ((conv => arg 2; arg 45; skip); with_reducible apply follows_mk) | exact Eq.refl _

end Sys2Proof.Machine
end

