-- ==== Sys2Proof/Laws/FollowsSchedEvents.lean ====
section
/-! SUPPORT. What the operations of Machine/SchedEvents.lean keep: the queue, the invariant, programmed OTP bits. -/

namespace Sys2Proof.Machine

theorem State.take_follows {p0 : State} (s : State) (y : YokeId) (earlier : List (State → Option State))
    (src : State → Option State) (hF : Follows p0 s)
    (hFsrc : ∀ x0, Follows p0 x0 → ∀ t, src x0 = some t → Follows p0 t) : Follows p0 (State.take s y earlier src) := by
  have hd : Follows p0 ((src s).getD s) := by
    cases e : src s with
    | none => exact hF
    | some t => exact hFsrc s hF t e
  unfold State.take
  repeat' first
    | assumption
    | split

theorem State.countRemote_follows {p0 : State} (s : State) (sp : SpanId) (hF : Follows p0 s) :
    Follows p0 (State.countRemote s sp) := by
  unfold State.countRemote
  repeat' first
    | with_reducible assumption | with_reducible apply State.setSpan_follows

theorem State.crossSteal_follows {p0 t : State}  {s : State} {y : YokeId} (e0 : State.crossSteal s y = some t) (hF : Follows p0 s) : Follows p0 t := by
  unfold State.crossSteal at e0
  try dsimp only at e0
  revert e0
  intro _
  repeat' first
    | with_reducible assumption | intro _ | with_reducible apply follows_foldl | with_reducible apply follows_ite
    | with_reducible apply follows_ite_fst | with_reducible apply State.countRemote_follows
    | with_reducible apply State.setSpan_follows | with_reducible apply State.setYoke_follows
    | with_reducible apply State.startEntry_follows | with_reducible apply State.startTask_follows
    | with_reducible apply follows_foldl_fst | ((conv => arg 2; arg 45; skip); with_reducible apply follows_mk)
    | ((conv => arg 2; arg 45; skip); with_reducible apply follows_mk_mem) | with_reducible exact Eq.refl _
    | exact Eq.refl _ | with_reducible exact follows_memOk (by assumption) (by assumption)
    | with_reducible apply memFlip_wf | with_reducible apply memWrite_wf | with_reducible apply memWipe_wf
    | with_reducible apply filter_wf | split | (rename_i e; injection e; done)
    | (rename_i e; injection e with e; subst e) | (rename_i e; injection e with e e2; subst e)
    | (rename_i e; injection e with e; revert e; intro _) | (rename_i e; split at e <;> (revert e; intro _))
    | (rename_i e; rw [Option.map_eq_some_iff] at e; obtain ⟨_, _, rfl⟩ := e) | dsimp only | (rename_i e; clear e)


theorem State.deferredPush_follows {p0 : State} (s : State) (sp : SpanId) (hF : Follows p0 s) :
    Follows p0 (State.deferredPush s sp) := by
  unfold State.deferredPush
  try dsimp only
  repeat' first
    | with_reducible assumption | with_reducible apply follows_ite | with_reducible apply State.pushOverflow_follows
    | with_reducible apply State.setSpan_follows | with_reducible apply State.setYoke_follows
    | ((conv => arg 2; arg 45; skip); with_reducible apply follows_mk) | exact Eq.refl _ | split

theorem State.followStart_follows {p0 : State} (s : State) (y : YokeId) (hF : Follows p0 s) :
    Follows p0 (State.followStart s y) := by
  unfold State.followStart
  try dsimp only
  repeat' first
    | with_reducible assumption | intro _ | with_reducible apply follows_foldl | with_reducible apply follows_ite
    | with_reducible apply follows_ite_fst | with_reducible refine State.followTake_follows (by assumption) ?_
    | with_reducible apply follows_foldl_fst | ((conv => arg 2; arg 45; skip); with_reducible apply follows_mk)
    | ((conv => arg 2; arg 45; skip); with_reducible apply follows_mk_mem) | with_reducible exact Eq.refl _
    | exact Eq.refl _ | with_reducible exact follows_memOk (by assumption) (by assumption)
    | with_reducible apply memFlip_wf | with_reducible apply memWrite_wf | with_reducible apply memWipe_wf
    | with_reducible apply filter_wf | split | (rename_i e; injection e; done)
    | (rename_i e; injection e with e; subst e) | (rename_i e; injection e with e e2; subst e)
    | (rename_i e; injection e with e; revert e; intro _) | (rename_i e; split at e <;> (revert e; intro _))
    | (rename_i e; rw [Option.map_eq_some_iff] at e; obtain ⟨_, _, rfl⟩ := e) | dsimp only | (rename_i e; clear e)

theorem State.debugHaltTask_follows {p0 : State} (s : State) (f : FoldId) (id : Word) (hF : Follows p0 s) :
    Follows p0 (State.debugHaltTask s f id) := by
  unfold State.debugHaltTask
  try dsimp only
  repeat' first
    | with_reducible assumption | with_reducible apply follows_ite | with_reducible apply State.debugHalt_follows
    | ((conv => arg 2; arg 45; skip); with_reducible apply follows_mk) | exact Eq.refl _ | split

theorem State.debugGo_follows {p0 : State} (s : State) (y : YokeId) (d : YokeDebug) (hF : Follows p0 s) :
    Follows p0 (State.debugGo s y d) := by
  unfold State.debugGo
  try dsimp only
  repeat' first
    | with_reducible assumption | with_reducible apply follows_ite | with_reducible apply State.setYoke_follows
    | ((conv => arg 2; arg 45; skip); with_reducible apply follows_mk) | exact Eq.refl _

theorem State.debugRegWrite_follows {p0 : State} (s : State) (y : YokeId) (n : Nat) (v : DWord) (hF : Follows p0 s) :
    Follows p0 (State.debugRegWrite s y n v) := by
  unfold State.debugRegWrite
  try dsimp only
  repeat' first
    | with_reducible assumption | with_reducible apply follows_ite | with_reducible apply State.setYoke_follows
    | ((conv => arg 2; arg 45; skip); with_reducible apply follows_mk) | exact Eq.refl _ | split

end Sys2Proof.Machine
end

