-- ==== Sys2Proof/Laws/FollowsFoldOps.lean ====
section
/-! SUPPORT. What the operations of Machine/FoldOps.lean keep: the queue, the invariant, programmed OTP bits. -/

namespace Sys2Proof.Machine

theorem State.refuse_follows {p0 : State} (s : State) (code : Nat) (fold : Nat) (index : Nat) (hF : Follows p0 s) :
    Follows p0 (State.refuse s code fold index) := by
  unfold State.refuse
  repeat' first
    | with_reducible assumption | with_reducible apply State.reportU_follows | with_reducible apply State.setReg_follows

theorem State.windowCommit_follows {p0 : State} (s : State) (f : FoldId) (w : Fin 64) (v : Word) (hF : Follows p0 s) :
    Follows p0 (State.windowCommit s f w v) := by
  unfold State.windowCommit
  try dsimp only
  repeat' first
    | with_reducible assumption | with_reducible apply follows_ite | with_reducible apply State.refuse_follows
    | with_reducible apply State.setFold_follows | with_reducible apply State.setReg_follows
    | ((conv => arg 2; arg 45; skip); with_reducible apply follows_mk) | exact Eq.refl _

theorem State.releaseOwn_follows {p0 : State} (s : State) (r : Resource) (v : Word) (hF : Follows p0 s) :
    Follows p0 (State.releaseOwn s r v) := by
  unfold State.releaseOwn
  try dsimp only
  repeat' first
    | with_reducible assumption | intro _ | with_reducible apply follows_foldl | with_reducible apply follows_ite
    | with_reducible apply follows_ite_fst | with_reducible apply State.releaseGroup_follows
    | with_reducible apply State.setDma_follows | with_reducible apply State.setReg_follows
    | with_reducible apply follows_foldl_fst | ((conv => arg 2; arg 45; skip); with_reducible apply follows_mk)
    | ((conv => arg 2; arg 45; skip); with_reducible apply follows_mk_mem) | with_reducible exact Eq.refl _
    | exact Eq.refl _ | with_reducible exact follows_memOk (by assumption) (by assumption)
    | with_reducible apply memFlip_wf | with_reducible apply memWrite_wf | with_reducible apply memWipe_wf
    | with_reducible apply filter_wf | split | (rename_i e; injection e; done)
    | (rename_i e; injection e with e; subst e) | (rename_i e; injection e with e e2; subst e)
    | (rename_i e; injection e with e; revert e; intro _) | (rename_i e; split at e <;> (revert e; intro _))
    | (rename_i e; rw [Option.map_eq_some_iff] at e; obtain ⟨_, _, rfl⟩ := e) | dsimp only | (rename_i e; clear e)

theorem State.joinMemory_follows {p0 : State} (s : State) (f : FoldId) (hF : Follows p0 s) :
    Follows p0 (State.joinMemory s f) := by
  unfold State.joinMemory
  try dsimp only
  repeat' first
    | with_reducible assumption | intro _ | with_reducible apply follows_foldl | with_reducible apply follows_ite
    | with_reducible apply follows_ite_fst | with_reducible apply State.abandonFoldTests_follows
    | with_reducible apply State.abandonOnline_follows | with_reducible apply State.retainFold_follows
    | with_reducible apply State.unretainFold_follows | with_reducible apply follows_foldl_fst
    | ((conv => arg 2; arg 45; skip); with_reducible apply follows_mk)
    | ((conv => arg 2; arg 45; skip); with_reducible apply follows_mk_mem) | with_reducible exact Eq.refl _
    | exact Eq.refl _ | with_reducible exact follows_memOk (by assumption) (by assumption)
    | with_reducible apply memFlip_wf | with_reducible apply memWrite_wf | with_reducible apply memWipe_wf
    | with_reducible apply filter_wf | split | (rename_i e; injection e; done)
    | (rename_i e; injection e with e; subst e) | (rename_i e; injection e with e e2; subst e)
    | (rename_i e; injection e with e; revert e; intro _) | (rename_i e; split at e <;> (revert e; intro _))
    | (rename_i e; rw [Option.map_eq_some_iff] at e; obtain ⟨_, _, rfl⟩ := e) | dsimp only | (rename_i e; clear e)

theorem State.afterAssign_follows {p0 : State} (s : State) (r : Resource) (f : FoldId) (hF : Follows p0 s) :
    Follows p0 (State.afterAssign s r f) := by
  unfold State.afterAssign
  try dsimp only
  repeat' first
    | with_reducible assumption | with_reducible apply follows_ite | with_reducible apply State.joinMemory_follows
    | with_reducible apply State.setDma_follows | with_reducible apply State.setQueue_follows
    | ((conv => arg 2; arg 45; skip); with_reducible apply follows_mk) | exact Eq.refl _ | split

theorem State.writeOwn_follows {p0 : State} (s : State) (r : Resource) (v : Word) (hF : Follows p0 s) :
    Follows p0 (State.writeOwn s r v) := by
  unfold State.writeOwn
  try dsimp only
  repeat' first
    | with_reducible assumption | with_reducible apply follows_ite | with_reducible apply State.afterAssign_follows
    | with_reducible apply State.refuse_follows | with_reducible apply State.releaseOwn_follows
    | with_reducible apply State.setReg_follows | ((conv => arg 2; arg 45; skip); with_reducible apply follows_mk)
    | exact Eq.refl _ | split

theorem State.writeSlot_follows {p0 : State} (s : State) (i : Fin 48) (v : Word) (hF : Follows p0 s) :
    Follows p0 (State.writeSlot s i v) := by
  unfold State.writeSlot
  try dsimp only
  repeat' first
    | with_reducible assumption | with_reducible apply follows_ite | with_reducible apply State.refuse_follows
    | with_reducible apply State.setReg_follows | ((conv => arg 2; arg 45; skip); with_reducible apply follows_mk)
    | exact Eq.refl _

theorem State.frameStart_follows {p0 : State} (s : State) (hF : Follows p0 s) :
    Follows p0 (State.frameStart s) := by
  unfold State.frameStart
  try dsimp only
  repeat' first
    | with_reducible assumption | with_reducible apply follows_ite
    | ((conv => arg 2; arg 45; skip); with_reducible apply follows_mk) | exact Eq.refl _

theorem State.writeXch_follows {p0 : State} (s : State) (x : Fin 256) (v : Word) (hF : Follows p0 s) :
    Follows p0 (State.writeXch s x v) := by
  unfold State.writeXch
  try dsimp only
  repeat' first
    | with_reducible assumption | with_reducible apply follows_ite | with_reducible apply State.refuse_follows
    | with_reducible apply State.setReg_follows | ((conv => arg 2; arg 45; skip); with_reducible apply follows_mk)
    | exact Eq.refl _

theorem State.writeFpwr_follows {p0 : State} (s : State) (f : FoldId) (v : Word) (hF : Follows p0 s) :
    Follows p0 (State.writeFpwr s f v) := by
  unfold State.writeFpwr
  try dsimp only
  repeat' first
    | with_reducible assumption | with_reducible apply follows_ite | with_reducible apply State.refuse_follows
    | with_reducible apply State.setReg_follows | ((conv => arg 2; arg 45; skip); with_reducible apply follows_mk)
    | exact Eq.refl _

theorem State.writeHolding_follows {p0 : State} (s : State) (f : FoldId) (isSize : Bool) (v : Word) (hF : Follows p0 s) :
    Follows p0 (State.writeHolding s f isSize v) := by
  unfold State.writeHolding
  try dsimp only
  repeat' first
    | with_reducible assumption | with_reducible apply follows_ite | with_reducible apply State.refuse_follows
    | with_reducible apply State.setReg_follows | ((conv => arg 2; arg 45; skip); with_reducible apply follows_mk)
    | exact Eq.refl _

theorem State.clearQueues_follows {p0 : State} (s : State) (f : FoldId) (hF : Follows p0 s) :
    Follows p0 (State.clearQueues s f) := by
  unfold State.clearQueues
  try dsimp only
  repeat' first
    | with_reducible assumption | with_reducible apply follows_ite
    | ((conv => arg 2; arg 45; skip); with_reducible apply follows_mk) | exact Eq.refl _

theorem State.firstTask_follows {p0 : State} (s : State) (f : FoldId) (hF : Follows p0 s) :
    Follows p0 (State.firstTask s f) := by
  unfold State.firstTask
  try dsimp only
  repeat' first
    | with_reducible assumption | with_reducible apply follows_ite | with_reducible apply State.newIdent_follows
    | with_reducible apply State.pushOverflow_follows | ((conv => arg 2; arg 45; skip); with_reducible apply follows_mk)
    | exact Eq.refl _ | split

theorem State.admitFold_follows {p0 : State} (s : State) (f : FoldId) (hF : Follows p0 s) :
    Follows p0 (State.admitFold s f) := by
  unfold State.admitFold
  try dsimp only
  repeat' first
    | with_reducible assumption | intro _ | with_reducible apply follows_foldl | with_reducible apply follows_ite
    | with_reducible apply State.clearQueues_follows | with_reducible apply State.firstTask_follows
    | with_reducible apply State.setFold_follows | with_reducible apply State.setReg_follows
    | with_reducible apply State.setSpan_follows | ((conv => arg 2; arg 45; skip); with_reducible apply follows_mk)
    | with_reducible exact Eq.refl _ | exact Eq.refl _ | split

theorem State.safePhase_follows {p0 : State} (s : State) (f : FoldId) (hF : Follows p0 s) :
    Follows p0 (State.safePhase s f) := by
  unfold State.safePhase
  try dsimp only
  repeat' first
    | with_reducible assumption | with_reducible apply follows_ite | with_reducible apply State.setFold_follows
    | ((conv => arg 2; arg 45; skip); with_reducible apply follows_mk) | exact Eq.refl _

theorem State.dropHeld_follows {p0 : State} (s : State) (f : FoldId) (hF : Follows p0 s) :
    Follows p0 (State.dropHeld s f) := by
  unfold State.dropHeld
  repeat' first
    | with_reducible assumption | with_reducible apply State.setFold_follows

theorem State.discardTasks_follows {p0 : State} (s : State) (f : FoldId) (hF : Follows p0 s) :
    Follows p0 (State.discardTasks s f) := by
  unfold State.discardTasks
  try dsimp only
  repeat' first
    | with_reducible assumption | intro _ | with_reducible apply follows_foldl | with_reducible apply follows_ite
    | with_reducible apply State.setFold_follows | with_reducible apply State.setSpan_follows
    | with_reducible apply State.setYoke_follows | ((conv => arg 2; arg 45; skip); with_reducible apply follows_mk)
    | with_reducible exact Eq.refl _ | exact Eq.refl _ | split

theorem State.quietFold_follows {p0 : State} (s : State) (f : FoldId) (hF : Follows p0 s) :
    Follows p0 (State.quietFold s f) := by
  unfold State.quietFold
  try dsimp only
  repeat' first
    | with_reducible assumption | intro _ | with_reducible apply follows_foldl | with_reducible apply follows_ite
    | with_reducible apply State.setFold_follows | with_reducible apply State.setSpan_follows
    | ((conv => arg 2; arg 45; skip); with_reducible apply follows_mk) | with_reducible exact Eq.refl _
    | exact Eq.refl _ | split

theorem State.safeFirst_follows {p0 : State} (s : State) (f : FoldId) (hF : Follows p0 s) :
    Follows p0 (State.safeFirst s f) := by
  unfold State.safeFirst
  repeat' first
    | with_reducible assumption | with_reducible apply State.deenergise_follows
    | with_reducible apply State.safePhase_follows

theorem State.safeRest_follows {p0 : State} (s : State) (f : FoldId) (hF : Follows p0 s) :
    Follows p0 (State.safeRest s f) := by
  unfold State.safeRest
  repeat' first
    | with_reducible assumption | with_reducible apply State.discardTasks_follows
    | with_reducible apply State.dropHeld_follows | with_reducible apply State.emptyTx_follows
    | with_reducible apply State.quietFold_follows

theorem State.writeFstate_follows {p0 : State} (s : State) (f : FoldId) (v : Word) (hF : Follows p0 s) :
    Follows p0 (State.writeFstate s f v) := by
  unfold State.writeFstate
  try dsimp only
  repeat' first
    | with_reducible assumption | with_reducible apply follows_ite | with_reducible apply State.admitFold_follows
    | with_reducible apply State.refuse_follows | with_reducible apply State.safeFirst_follows
    | with_reducible apply State.safeRest_follows | with_reducible apply State.setFold_follows
    | with_reducible apply State.setReg_follows | ((conv => arg 2; arg 45; skip); with_reducible apply follows_mk)
    | exact Eq.refl _ | split

end Sys2Proof.Machine
end

