-- ==== Sys2Proof/Laws/FollowsBoot.lean ====
section
/-! SUPPORT. What the operations of Machine/Boot.lean keep: the queue, the invariant, programmed OTP bits. -/

namespace Sys2Proof.Machine

theorem State.otpSet_follows {p0 : State} (s : State) (i : Nat) (v : Byte) (hF : Follows p0 s) :
    Follows p0 (State.otpSet s i v) := by
  refine ⟨hF.queue, fun w => ⟨(hF.sound w).mem, (hF.sound w).dsafe, (hF.sound w).opened, (hF.sound w).frac, (hF.sound w).btAcc,
    (hF.sound w).bt⟩, fun j b w => ?_⟩
  show (kget (kset s.sec.otp i (s.otpByte i ||| v)) 0 j).getLsbD b = true
  rw [kget_kset]
  have h := hF.otp j b w
  split
  · next e =>
    subst e
    show (kget s.sec.otp 0 j ||| v).getLsbD b = true
    rw [BitVec.getLsbD_or, h]; rfl
  · exact h

theorem State.droverWrite_follows {p0 : State} (s : State) (off : Nat) (bs : List Byte) (hF : Follows p0 s) :
    Follows p0 (State.droverWrite s off bs) := by
  unfold State.droverWrite
  try dsimp only
  repeat' first
    | with_reducible assumption | intro _ | with_reducible apply follows_foldl | with_reducible apply follows_ite
    | with_reducible apply follows_ite_fst | with_reducible apply follows_foldl_fst
    | ((conv => arg 2; arg 45; skip); with_reducible apply follows_mk)
    | ((conv => arg 2; arg 45; skip); with_reducible apply follows_mk_mem) | with_reducible exact Eq.refl _
    | exact Eq.refl _ | with_reducible exact follows_memOk (by assumption) (by assumption)
    | with_reducible apply memFlip_wf | with_reducible apply memWrite_wf | with_reducible apply memWipe_wf
    | with_reducible apply filter_wf | split | (rename_i e; injection e; done)
    | (rename_i e; injection e with e; subst e) | (rename_i e; injection e with e e2; subst e)
    | (rename_i e; injection e with e; revert e; intro _) | (rename_i e; split at e <;> (revert e; intro _))
    | (rename_i e; rw [Option.map_eq_some_iff] at e; obtain ⟨_, _, rfl⟩ := e) | dsimp only | (rename_i e; clear e)

theorem State.bootFrom_follows {p0 : State} (s : State) (set : Nat) (ea : Nat) (eb : Nat) (image : Option (List Byte)) (hF : Follows p0 s) :
    Follows p0 (State.bootFrom s set ea eb image) := by
  unfold State.bootFrom
  try dsimp only
  repeat' first
    | with_reducible assumption | with_reducible apply follows_ite | with_reducible apply State.droverWrite_follows
    | ((conv => arg 2; arg 45; skip); with_reducible apply follows_mk) | exact Eq.refl _

theorem State.bootStops_follows {p0 : State} (s : State) (ea : Nat) (eb : Nat) (hF : Follows p0 s) :
    Follows p0 (State.bootStops s ea eb) := by
  unfold State.bootStops
  try dsimp only
  repeat' first
    | with_reducible assumption | with_reducible apply follows_ite
    | ((conv => arg 2; arg 45; skip); with_reducible apply follows_mk) | exact Eq.refl _

theorem State.bootRom_follows {p0 : State} (s : State) (hF : Follows p0 s) :
    Follows p0 (State.bootRom s) := by
  unfold State.bootRom
  try dsimp only
  repeat' first
    | with_reducible assumption | with_reducible apply follows_ite | with_reducible apply State.bootFrom_follows
    | with_reducible apply State.bootStops_follows | ((conv => arg 2; arg 45; skip); with_reducible apply follows_mk)
    | exact Eq.refl _

end Sys2Proof.Machine
end

