-- ==== Sys2Proof/Laws/FollowsReset.lean ====
section
/-! SUPPORT. What the operations of Machine/Reset.lean keep: the queue, the invariant, programmed OTP bits. -/

namespace Sys2Proof.Machine

theorem State.resetMain_follows {p0 : State} (s : State) (powerOn : Bool) (power : Power) (hF : Follows p0 s) :
    Follows p0 (State.resetMain s powerOn power) := by
  have hv : Follows s (State.vaultDecode { s with reports := [] } s.keyWords) :=
    State.vaultDecode_follows _ _ (follows_mk (Follows.refl s) rfl rfl rfl rfl rfl rfl rfl)
  refine follows_asserted hF hv.queue rfl rfl (fun w => filter_wf _ _ (hv.sound w).mem) (fun w => ?_)
    (fun w => (hv.sound w).btAcc) (fun w => (hv.sound w).bt)
  show (if powerOn then 0 else (State.vaultDecode { s with reports := [] } s.keyWords).clk.frac) < 2 ^ 32
  split
  · decide
  · exact (hv.sound w).frac

theorem State.rstCause_follows {p0 : State} (s : State) (cause : Nat) (src : Nat) (hF : Follows p0 s) :
    Follows p0 (State.rstCause s cause src) := by
  unfold State.rstCause
  repeat' first
    | with_reducible assumption | with_reducible apply State.setReg_follows

theorem State.deviceReset_follows {p0 : State} (s : State) (src : Byte) (hF : Follows p0 s) :
    Follows p0 (State.deviceReset s src) := by
  unfold State.deviceReset
  repeat' first
    | with_reducible assumption | with_reducible apply State.bootRom_follows
    | with_reducible apply State.resetMain_follows | with_reducible apply State.rstCause_follows

theorem State.wakeDevice_follows {p0 : State} (s : State) (n : Nat) (hF : Follows p0 s) :
    Follows p0 (State.wakeDevice s n) := by
  unfold State.wakeDevice
  try dsimp only
  repeat' first
    | with_reducible assumption | with_reducible apply follows_ite | with_reducible apply State.setReg_follows
    | ((conv => arg 2; arg 45; skip); with_reducible apply follows_mk) | exact Eq.refl _

theorem State.powerGood_follows {p0 : State} (s : State) (straps : Word) (flash : Flash) (hF : Follows p0 s) :
    Follows p0 (State.powerGood s straps flash) := by
  unfold State.powerGood
  try dsimp only
  repeat' first
    | with_reducible assumption | with_reducible apply follows_ite | with_reducible apply State.bootRom_follows
    | with_reducible apply State.resetMain_follows | with_reducible apply State.rstCause_follows
    | ((conv => arg 2; arg 45; skip); with_reducible apply follows_mk) | exact Eq.refl _

theorem State.nresetAssert_follows {p0 : State} (s : State) (hF : Follows p0 s) :
    Follows p0 (State.nresetAssert s) := by
  unfold State.nresetAssert
  try dsimp only
  repeat' first
    | with_reducible assumption | with_reducible apply follows_ite | with_reducible apply State.resetMain_follows
    | with_reducible apply State.rstCause_follows | ((conv => arg 2; arg 45; skip); with_reducible apply follows_mk)
    | exact Eq.refl _

theorem State.nresetRelease_follows {p0 : State} (s : State) (straps : Word) (hF : Follows p0 s) :
    Follows p0 (State.nresetRelease s straps) := by
  unfold State.nresetRelease
  try dsimp only
  repeat' first
    | with_reducible assumption | with_reducible apply follows_ite
    | ((conv => arg 2; arg 45; skip); with_reducible apply follows_mk) | exact Eq.refl _

theorem State.vaonOn_follows {p0 : State} (s : State) (hF : Follows p0 s) : Follows p0 (State.vaonOn s) :=
  follows_asserted hF rfl rfl rfl (fun _ => rfl) (fun _ => by show (0 : Nat) < 2 ^ 32; decide)
    (fun _ => by show (0 : Nat) < 1600000000; decide) (fun _ => by show (0 : Nat) < 2 ^ 48; decide)

theorem State.crystalReady_follows {p0 : State} (s : State) (hF : Follows p0 s) : Follows p0 (State.crystalReady s) := by
  unfold State.crystalReady
  split
  · exact follows_clk hF rfl rfl rfl rfl rfl rfl (fun w => w.frac) (fun _ => by show (0 : Nat) < 1600000000; decide)
      (fun _ => by show (0 : Nat) < 2 ^ 48; decide)
  · exact hF

theorem State.crystalTimeout_follows {p0 : State} (s : State) (hF : Follows p0 s) :
    Follows p0 (State.crystalTimeout s) := by
  unfold State.crystalTimeout
  try dsimp only
  repeat' first
    | with_reducible assumption | with_reducible apply follows_ite
    | ((conv => arg 2; arg 45; skip); with_reducible apply follows_mk) | exact Eq.refl _

theorem State.vaonLoss_follows {p0 : State} (s : State) (hF : Follows p0 s) : Follows p0 (State.vaonLoss s) :=
  follows_asserted hF rfl rfl rfl (fun _ => rfl) (fun _ => by show (0 : Nat) < 2 ^ 32; decide)
    (fun _ => by show (0 : Nat) < 1600000000; decide) (fun _ => by show (0 : Nat) < 2 ^ 48; decide)

theorem State.standbyRequest_follows {p0 : State} (s : State) (v : Word) (hF : Follows p0 s) :
    Follows p0 (State.standbyRequest s v) := by
  unfold State.standbyRequest
  try dsimp only
  repeat' first
    | with_reducible assumption | with_reducible apply follows_ite | with_reducible apply State.badWrite_follows
    | ((conv => arg 2; arg 45; skip); with_reducible apply follows_mk) | exact Eq.refl _

theorem State.standbyHold_follows {p0 : State} (s : State) (hF : Follows p0 s) :
    Follows p0 (State.standbyHold s) := by
  unfold State.standbyHold
  try dsimp only
  repeat' first
    | with_reducible assumption | intro _ | with_reducible apply follows_foldl | with_reducible apply follows_ite
    | with_reducible apply follows_ite_fst | with_reducible apply State.resetMain_follows
    | with_reducible apply follows_foldl_fst | ((conv => arg 2; arg 45; skip); with_reducible apply follows_mk)
    | ((conv => arg 2; arg 45; skip); with_reducible apply follows_mk_mem) | with_reducible exact Eq.refl _
    | exact Eq.refl _ | with_reducible exact follows_memOk (by assumption) (by assumption)
    | with_reducible apply memFlip_wf | with_reducible apply memWrite_wf | with_reducible apply memWipe_wf
    | with_reducible apply filter_wf | split | (rename_i e; injection e; done)
    | (rename_i e; injection e with e; subst e) | (rename_i e; injection e with e e2; subst e)
    | (rename_i e; injection e with e; revert e; intro _) | (rename_i e; split at e <;> (revert e; intro _))
    | (rename_i e; rw [Option.map_eq_some_iff] at e; obtain ⟨_, _, rfl⟩ := e) | dsimp only | (rename_i e; clear e)

theorem State.mainenLow_follows {p0 : State} (s : State) (hF : Follows p0 s) :
    Follows p0 (State.mainenLow s) := by
  unfold State.mainenLow
  try dsimp only
  repeat' first
    | with_reducible assumption | with_reducible apply follows_ite
    | ((conv => arg 2; arg 45; skip); with_reducible apply follows_mk) | exact Eq.refl _ | split

end Sys2Proof.Machine
end

