-- ==== Sys2Proof/Laws/FollowsFaultOps.lean ====
section
/-! SUPPORT. What the operations of Machine/FaultOps.lean keep: the queue, the invariant, programmed OTP bits. -/

namespace Sys2Proof.Machine

theorem State.coalRecord_follows {p0 : State} (s : State) (i : Incident) (hF : Follows p0 s) :
    Follows p0 (State.coalRecord s i) := by
  unfold State.coalRecord
  try dsimp only
  repeat' first
    | with_reducible assumption | with_reducible apply follows_ite | with_reducible apply State.record_follows
    | ((conv => arg 2; arg 45; skip); with_reducible apply follows_mk) | exact Eq.refl _

theorem State.join_follows {p0 : State} (s : State) (i : Incident) (r : Report) (hF : Follows p0 s) :
    Follows p0 (State.join s i r) := by
  unfold State.join
  try dsimp only
  repeat' first
    | with_reducible assumption | with_reducible apply follows_ite | with_reducible apply State.coalRecord_follows
    | ((conv => arg 2; arg 45; skip); with_reducible apply follows_mk) | exact Eq.refl _

theorem State.enqueue_follows {p0 : State} (s : State) (i : Incident) (hF : Follows p0 s) :
    Follows p0 (State.enqueue s i) := by
  unfold State.enqueue
  try dsimp only
  repeat' first
    | with_reducible assumption | with_reducible apply follows_ite | with_reducible apply State.record_follows
    | ((conv => arg 2; arg 45; skip); with_reducible apply follows_mk) | exact Eq.refl _

theorem State.merge_follows {p0 : State} (s : State) (i : Incident) (cls : BitVec 3) (hF : Follows p0 s) :
    Follows p0 (State.merge s i cls) := by
  unfold State.merge
  try dsimp only
  repeat' first
    | with_reducible assumption | with_reducible apply follows_ite | with_reducible apply State.coalRecord_follows
    | ((conv => arg 2; arg 45; skip); with_reducible apply follows_mk) | exact Eq.refl _

theorem State.overflowed_follows {p0 : State} (s : State) (i : Incident) (hF : Follows p0 s) :
    Follows p0 (State.overflowed s i) := by
  unfold State.overflowed
  try dsimp only
  repeat' first
    | with_reducible assumption | with_reducible apply follows_ite | with_reducible apply State.record_follows
    | ((conv => arg 2; arg 45; skip); with_reducible apply follows_mk) | exact Eq.refl _ | split

theorem State.openGroup_follows {p0 : State} (s : State) (g : List Report) (cls : BitVec 3) (hF : Follows p0 s) :
    Follows p0 (State.openGroup s g cls) := by
  unfold State.openGroup
  try dsimp only
  repeat' first
    | with_reducible assumption | intro _ | with_reducible apply follows_foldl | with_reducible apply follows_ite
    | with_reducible apply State.enqueue_follows | with_reducible apply State.merge_follows
    | with_reducible apply State.overflowed_follows | ((conv => arg 2; arg 45; skip); with_reducible apply follows_mk)
    | with_reducible exact Eq.refl _ | exact Eq.refl _ | split

theorem State.arriveReports_follows {p0 : State} (s : State) (rs : List Report) (hF : Follows p0 s) :
    Follows p0 (State.arriveReports s rs) := by
  unfold State.arriveReports
  try dsimp only
  repeat' first
    | with_reducible assumption | intro _ | with_reducible apply follows_foldl | with_reducible apply follows_ite
    | with_reducible apply follows_ite_fst | with_reducible apply State.join_follows
    | with_reducible apply State.openGroup_follows | with_reducible apply follows_foldl_fst
    | ((conv => arg 2; arg 45; skip); with_reducible apply follows_mk) | with_reducible exact Eq.refl _
    | exact Eq.refl _ | split | dsimp only

theorem State.stallSpan_follows {p0 : State} (s : State) (sp : SpanId) (hF : Follows p0 s) :
    Follows p0 (State.stallSpan s sp) := by
  unfold State.stallSpan
  try dsimp only
  repeat' first
    | with_reducible assumption | intro _ | with_reducible apply follows_foldl | with_reducible apply follows_ite
    | with_reducible apply State.setYoke_follows | ((conv => arg 2; arg 45; skip); with_reducible apply follows_mk)
    | with_reducible exact Eq.refl _ | exact Eq.refl _ | split

theorem State.routerCut_follows {p0 : State} (s : State) (sp : SpanId) (hF : Follows p0 s) :
    Follows p0 (State.routerCut s sp) := by
  unfold State.routerCut
  try dsimp only
  repeat' first
    | with_reducible assumption | intro _ | with_reducible apply follows_foldl | with_reducible apply follows_ite
    | with_reducible apply follows_ite_fst | with_reducible apply State.stallSpan_follows
    | with_reducible apply follows_foldl_fst | ((conv => arg 2; arg 45; skip); with_reducible apply follows_mk)
    | ((conv => arg 2; arg 45; skip); with_reducible apply follows_mk_mem) | with_reducible exact Eq.refl _
    | exact Eq.refl _ | with_reducible exact follows_memOk (by assumption) (by assumption)
    | with_reducible apply memFlip_wf | with_reducible apply memWrite_wf | with_reducible apply memWipe_wf
    | with_reducible apply filter_wf | split | (rename_i e; injection e; done)
    | (rename_i e; injection e with e; subst e) | (rename_i e; injection e with e e2; subst e)
    | (rename_i e; injection e with e; revert e; intro _) | (rename_i e; split at e <;> (revert e; intro _))
    | (rename_i e; rw [Option.map_eq_some_iff] at e; obtain ⟨_, _, rfl⟩ := e) | dsimp only | (rename_i e; clear e)

theorem State.detected_follows {p0 : State} (s : State) (r : Report) (hF : Follows p0 s) :
    Follows p0 (State.detected s r) := by
  unfold State.detected
  try dsimp only
  repeat' first
    | with_reducible assumption | with_reducible apply follows_ite | with_reducible apply State.routerCut_follows
    | with_reducible apply State.stallSpan_follows | ((conv => arg 2; arg 45; skip); with_reducible apply follows_mk)
    | exact Eq.refl _ | split

theorem State.faultReport_follows {p0 : State} (s : State) (n : Nat) (ext : List Report) (hF : Follows p0 s) :
    Follows p0 (State.faultReport s n ext) := by
  unfold State.faultReport
  try dsimp only
  repeat' first
    | with_reducible assumption | intro _ | with_reducible apply follows_foldl | with_reducible apply follows_ite
    | with_reducible apply State.arriveReports_follows | with_reducible apply State.detected_follows
    | ((conv => arg 2; arg 45; skip); with_reducible apply follows_mk) | with_reducible exact Eq.refl _
    | exact Eq.refl _ | split

theorem State.notice_follows {p0 : State} (s : State) (i : Incident) (f : FoldId) (hF : Follows p0 s) :
    Follows p0 (State.notice s i f) := by
  unfold State.notice
  try dsimp only
  repeat' first
    | with_reducible assumption | with_reducible apply follows_ite | with_reducible apply State.edge_follows
    | with_reducible apply State.setFold_follows | ((conv => arg 2; arg 45; skip); with_reducible apply follows_mk)
    | exact Eq.refl _

theorem State.notices_follows {p0 : State} (s : State) (i : Incident) (hF : Follows p0 s) :
    Follows p0 (State.notices s i) := by
  unfold State.notices
  try dsimp only
  repeat' first
    | with_reducible assumption | intro _ | with_reducible apply follows_foldl | with_reducible apply follows_ite
    | with_reducible apply State.notice_follows | ((conv => arg 2; arg 45; skip); with_reducible apply follows_mk)
    | with_reducible exact Eq.refl _ | exact Eq.refl _ | split

theorem State.reactNote_follows {p0 : State} (s : State) (i : Incident) (hF : Follows p0 s) :
    Follows p0 (State.reactNote s i) := by
  unfold State.reactNote
  try dsimp only
  repeat' first
    | with_reducible assumption | intro _ | with_reducible apply follows_foldl | with_reducible apply follows_ite
    | with_reducible apply State.setReg_follows | ((conv => arg 2; arg 45; skip); with_reducible apply follows_mk)
    | with_reducible exact Eq.refl _ | exact Eq.refl _ | split

theorem State.deviceSafeFirst_follows {p0 : State} (s : State) (hF : Follows p0 s) :
    Follows p0 (State.deviceSafeFirst s) := by
  unfold State.deviceSafeFirst
  dsimp only
  apply State.deenergise_follows
  exact follows_asserted hF rfl rfl rfl (fun w => w.mem) (fun w => w.frac) (fun w => w.btAcc) (fun w => w.bt)

theorem State.reactFirst_follows {p0 : State} (s : State) (i : Incident) (hF : Follows p0 s) :
    Follows p0 (State.reactFirst s i) := by
  unfold State.reactFirst
  try dsimp only
  repeat' first
    | with_reducible assumption | with_reducible apply follows_ite | with_reducible apply State.deviceSafeFirst_follows
    | with_reducible apply State.notices_follows | with_reducible apply State.reactNote_follows
    | with_reducible apply State.safeFirst_follows | ((conv => arg 2; arg 45; skip); with_reducible apply follows_mk)
    | exact Eq.refl _ | split

theorem State.reactFold_follows {p0 : State} (s : State) (i : Incident) (hF : Follows p0 s) :
    Follows p0 (State.reactFold s i) := by
  unfold State.reactFold
  try dsimp only
  repeat' first
    | with_reducible assumption | intro _ | with_reducible apply follows_foldl | with_reducible apply follows_ite
    | with_reducible apply follows_ite_fst | with_reducible apply State.safeRest_follows
    | with_reducible apply follows_foldl_fst | ((conv => arg 2; arg 45; skip); with_reducible apply follows_mk)
    | ((conv => arg 2; arg 45; skip); with_reducible apply follows_mk_mem) | with_reducible exact Eq.refl _
    | exact Eq.refl _ | with_reducible exact follows_memOk (by assumption) (by assumption)
    | with_reducible apply memFlip_wf | with_reducible apply memWrite_wf | with_reducible apply memWipe_wf
    | with_reducible apply filter_wf | split | (rename_i e; injection e; done)
    | (rename_i e; injection e with e; subst e) | (rename_i e; injection e with e e2; subst e)
    | (rename_i e; injection e with e; revert e; intro _) | (rename_i e; split at e <;> (revert e; intro _))
    | (rename_i e; rw [Option.map_eq_some_iff] at e; obtain ⟨_, _, rfl⟩ := e) | dsimp only | (rename_i e; clear e)

theorem State.reactFolds_follows {p0 : State} (s : State) (hF : Follows p0 s) :
    Follows p0 (State.reactFolds s) := by
  unfold State.reactFolds
  try dsimp only
  repeat' first
    | with_reducible assumption | intro _ | with_reducible apply follows_foldl | with_reducible apply follows_ite
    | with_reducible apply follows_ite_fst | with_reducible apply State.safePhase_follows
    | with_reducible apply State.safeRest_follows | with_reducible apply follows_foldl_fst
    | ((conv => arg 2; arg 45; skip); with_reducible apply follows_mk)
    | ((conv => arg 2; arg 45; skip); with_reducible apply follows_mk_mem) | with_reducible exact Eq.refl _
    | exact Eq.refl _ | with_reducible exact follows_memOk (by assumption) (by assumption)
    | with_reducible apply memFlip_wf | with_reducible apply memWrite_wf | with_reducible apply memWipe_wf
    | with_reducible apply filter_wf | split | (rename_i e; injection e; done)
    | (rename_i e; injection e with e; subst e) | (rename_i e; injection e with e e2; subst e)
    | (rename_i e; injection e with e; revert e; intro _) | (rename_i e; split at e <;> (revert e; intro _))
    | (rename_i e; rw [Option.map_eq_some_iff] at e; obtain ⟨_, _, rfl⟩ := e) | dsimp only | (rename_i e; clear e)

theorem State.reactRest_follows {p0 : State} (s : State) (i : Incident) (hF : Follows p0 s) :
    Follows p0 (State.reactRest s i) := by
  unfold State.reactRest
  try dsimp only
  repeat' first
    | with_reducible assumption | intro _ | with_reducible apply follows_foldl | with_reducible apply follows_ite
    | with_reducible apply State.reactFold_follows | with_reducible apply State.reactFolds_follows
    | ((conv => arg 2; arg 45; skip); with_reducible apply follows_mk) | with_reducible exact Eq.refl _
    | exact Eq.refl _ | split

theorem State.reactionBegin_follows {p0 : State} (s : State) (hF : Follows p0 s) :
    Follows p0 (State.reactionBegin s) := by
  unfold State.reactionBegin
  try dsimp only
  repeat' first
    | with_reducible assumption | with_reducible apply follows_ite | with_reducible apply State.reactFirst_follows
    | with_reducible apply State.record_follows | ((conv => arg 2; arg 45; skip); with_reducible apply follows_mk)
    | exact Eq.refl _ | split

theorem State.leave_follows {p0 : State} (s : State) (ord : Nat) (hF : Follows p0 s) :
    Follows p0 (State.leave s ord) := by
  unfold State.leave
  try dsimp only
  repeat' first
    | with_reducible assumption | with_reducible apply follows_ite | with_reducible apply State.record_follows
    | ((conv => arg 2; arg 45; skip); with_reducible apply follows_mk) | exact Eq.refl _ | split

theorem State.reactionComplete_follows {p0 : State} (s : State) (hF : Follows p0 s) :
    Follows p0 (State.reactionComplete s) := by
  unfold State.reactionComplete
  try dsimp only
  repeat' first
    | with_reducible assumption | with_reducible apply follows_ite | with_reducible apply State.deviceReset_follows
    | with_reducible apply State.leave_follows | with_reducible apply State.reactRest_follows
    | with_reducible apply State.record_follows | ((conv => arg 2; arg 45; skip); with_reducible apply follows_mk)
    | exact Eq.refl _ | split

theorem State.windowClose_follows {p0 : State} (s : State) (num : Half) (hF : Follows p0 s) :
    Follows p0 (State.windowClose s num) := by
  unfold State.windowClose
  try dsimp only
  repeat' first
    | with_reducible assumption | with_reducible apply follows_ite | with_reducible apply State.leave_follows
    | ((conv => arg 2; arg 45; skip); with_reducible apply follows_mk) | exact Eq.refl _ | split

theorem State.fmRequest_follows {p0 : State} (s : State) (v : Word) (hF : Follows p0 s) :
    Follows p0 (State.fmRequest s v) := by
  unfold State.fmRequest
  try dsimp only
  repeat' first
    | with_reducible assumption | with_reducible apply follows_ite | with_reducible apply State.arriveReports_follows
    | with_reducible apply State.badWrite_follows | ((conv => arg 2; arg 45; skip); with_reducible apply follows_mk)
    | exact Eq.refl _

theorem State.nsafeRelease_follows {p0 : State} (s : State) (hF : Follows p0 s) :
    Follows p0 (State.nsafeRelease s) := by
  unfold State.nsafeRelease
  split
  · exact hF
  · next e =>
    simp only [Bool.or_eq_true, beq_iff_eq, not_or, Bool.not_eq_true] at e
    refine ⟨hF.queue, fun w => ⟨(hF.sound w).mem, fun d => ?_, fun l => absurd l e.2, (hF.sound w).frac, (hF.sound w).btAcc,
      (hF.sound w).bt⟩, hF.otp⟩
    exact absurd d (by simp [e.1])

theorem State.writeSrccfg_follows {p0 : State} (s : State) (c : Byte) (v : Word) (hF : Follows p0 s) :
    Follows p0 (State.writeSrccfg s c v) := by
  unfold State.writeSrccfg
  try dsimp only
  repeat' first
    | with_reducible assumption | with_reducible apply follows_ite | with_reducible apply State.badWrite_follows
    | with_reducible apply State.setReg_follows | ((conv => arg 2; arg 45; skip); with_reducible apply follows_mk)
    | exact Eq.refl _

theorem State.writeFwdcfg_follows {p0 : State} (s : State) (f : FoldId) (v : Word) (hF : Follows p0 s) :
    Follows p0 (State.writeFwdcfg s f v) := by
  unfold State.writeFwdcfg
  try dsimp only
  repeat' first
    | with_reducible assumption | with_reducible apply follows_ite | with_reducible apply State.badWrite_follows
    | with_reducible apply State.setFold_follows | with_reducible apply State.setReg_follows
    | ((conv => arg 2; arg 45; skip); with_reducible apply follows_mk) | exact Eq.refl _

theorem State.wdWarn_follows {p0 : State} (s : State) (f : FoldId) (hF : Follows p0 s) :
    Follows p0 (State.wdWarn s f) := by
  unfold State.wdWarn
  try dsimp only
  repeat' first
    | with_reducible assumption | with_reducible apply follows_ite | with_reducible apply State.pendEvent_follows
    | with_reducible apply State.record_follows | with_reducible apply State.setFold_follows
    | ((conv => arg 2; arg 45; skip); with_reducible apply follows_mk) | exact Eq.refl _

theorem State.wdExpiry_follows {p0 : State} (s : State) (f : FoldId) (hF : Follows p0 s) :
    Follows p0 (State.wdExpiry s f) := by
  unfold State.wdExpiry
  try dsimp only
  repeat' first
    | with_reducible assumption | with_reducible apply follows_ite | with_reducible apply State.wdExpire_follows
    | ((conv => arg 2; arg 45; skip); with_reducible apply follows_mk) | exact Eq.refl _

theorem State.wdPause_follows {p0 : State} (s : State) (f : FoldId) (hF : Follows p0 s) :
    Follows p0 (State.wdPause s f) := by
  unfold State.wdPause
  try dsimp only
  repeat' first
    | with_reducible assumption | with_reducible apply follows_ite | with_reducible apply State.setFold_follows
    | ((conv => arg 2; arg 45; skip); with_reducible apply follows_mk) | exact Eq.refl _

theorem State.aonExpire_follows {p0 : State} (s : State) (bt : Nat) (hF : Follows p0 s) :
    Follows p0 (State.aonExpire s bt) := by
  unfold State.aonExpire
  try dsimp only
  repeat' first
    | with_reducible assumption | with_reducible apply follows_ite | with_reducible apply State.record_follows
    | with_reducible apply State.reportU_follows | with_reducible apply State.wakeDevice_follows
    | ((conv => arg 2; arg 45; skip); with_reducible apply follows_mk) | exact Eq.refl _

theorem State.aonExpiry_follows {p0 : State} (s : State) (hF : Follows p0 s) :
    Follows p0 (State.aonExpiry s) := by
  unfold State.aonExpiry
  try dsimp only
  repeat' first
    | with_reducible assumption | with_reducible apply follows_ite | with_reducible apply State.aonExpire_follows
    | ((conv => arg 2; arg 45; skip); with_reducible apply follows_mk) | exact Eq.refl _

theorem State.writeWdctl_follows {p0 : State} (s : State) (v : Word) (hF : Follows p0 s) :
    Follows p0 (State.writeWdctl s v) := by
  unfold State.writeWdctl
  try dsimp only
  repeat' first
    | with_reducible assumption | with_reducible apply follows_ite
    | ((conv => arg 2; arg 45; skip); with_reducible apply follows_mk) | exact Eq.refl _

theorem State.aonService_follows {p0 : State} (s : State) (v : Word) (hF : Follows p0 s) :
    Follows p0 (State.aonService s v) := by
  unfold State.aonService
  try dsimp only
  repeat' first
    | with_reducible assumption | with_reducible apply follows_ite | with_reducible apply State.aonExpire_follows
    | ((conv => arg 2; arg 45; skip); with_reducible apply follows_mk) | exact Eq.refl _

theorem State.aonKey_follows {p0 : State} (s : State) (v : Word) (hF : Follows p0 s) :
    Follows p0 (State.aonKey s v) := by
  unfold State.aonKey
  try dsimp only
  repeat' first
    | with_reducible assumption | with_reducible apply follows_ite
    | ((conv => arg 2; arg 45; skip); with_reducible apply follows_mk) | exact Eq.refl _

theorem State.aonCountClear_follows {p0 : State} (s : State) (v : Word) (hF : Follows p0 s) :
    Follows p0 (State.aonCountClear s v) := by
  unfold State.aonCountClear
  try dsimp only
  repeat' first
    | with_reducible assumption | with_reducible apply follows_ite
    | ((conv => arg 2; arg 45; skip); with_reducible apply follows_mk) | exact Eq.refl _

theorem State.writeFrCtl_follows {p0 : State} (s : State) (v : Word) (hF : Follows p0 s) :
    Follows p0 (State.writeFrCtl s v) := by
  unfold State.writeFrCtl
  try dsimp only
  repeat' first
    | with_reducible assumption | with_reducible apply follows_ite | with_reducible apply State.record_follows
    | with_reducible apply State.setReg_follows | ((conv => arg 2; arg 45; skip); with_reducible apply follows_mk)
    | exact Eq.refl _

theorem State.recorderArmed_follows {p0 : State} (s : State) (hF : Follows p0 s) :
    Follows p0 (State.recorderArmed s) := by
  unfold State.recorderArmed
  try dsimp only
  repeat' first
    | with_reducible assumption | with_reducible apply follows_ite
    | ((conv => arg 2; arg 45; skip); with_reducible apply follows_mk) | exact Eq.refl _

theorem State.recorderMark_follows {p0 : State} (s : State) (v : Word) (hF : Follows p0 s) :
    Follows p0 (State.recorderMark s v) := by
  unfold State.recorderMark
  repeat' first
    | with_reducible assumption | with_reducible apply State.record_follows

end Sys2Proof.Machine
end

