-- ==== Sys2Proof/Laws/FollowsPortTx.lean ====
section
/-! SUPPORT. What the operations of Machine/PortTx.lean keep: the queue, the invariant, programmed OTP bits. -/

namespace Sys2Proof.Machine

theorem State.portEvent_follows {p0 : State} (s : State) (p : Nat) (q : Nat) (kind : Nat) (hF : Follows p0 s) :
    Follows p0 (State.portEvent s p q kind) := by
  unfold State.portEvent
  try dsimp only
  repeat' first
    | with_reducible assumption | with_reducible apply follows_ite | with_reducible apply State.edge_follows
    | ((conv => arg 2; arg 45; skip); with_reducible apply follows_mk) | exact Eq.refl _ | split

theorem State.portEventAll_follows {p0 : State} (s : State) (p : Nat) (kind : Nat) (hF : Follows p0 s) :
    Follows p0 (State.portEventAll s p kind) := by
  unfold State.portEventAll
  try dsimp only
  repeat' first
    | with_reducible assumption | intro _ | with_reducible apply follows_foldl | with_reducible apply follows_ite
    | with_reducible apply State.edge_follows | ((conv => arg 2; arg 45; skip); with_reducible apply follows_mk)
    | with_reducible exact Eq.refl _ | exact Eq.refl _ | split

theorem State.txError_follows {p0 : State} (s : State) (p : Nat) (q : Nat) (hF : Follows p0 s) :
    Follows p0 (State.txError s p q) := by
  unfold State.txError
  repeat' first
    | with_reducible assumption | with_reducible apply State.portEvent_follows
    | with_reducible apply State.setQueue_follows

theorem State.txDropped_follows {p0 : State} (s : State) (p : Nat) (q : Nat) (hF : Follows p0 s) :
    Follows p0 (State.txDropped s p q) := by
  unfold State.txDropped
  repeat' first
    | with_reducible assumption | with_reducible apply State.setQueue_follows

theorem State.placeTx_follows {p0 : State} (s : State) (p : Nat) (q : Nat) (r : TxRec) (hF : Follows p0 s) :
    Follows p0 (State.placeTx s p q r) := by
  unfold State.placeTx
  try dsimp only
  repeat' first
    | with_reducible assumption | with_reducible apply follows_ite | with_reducible apply State.portEvent_follows
    | with_reducible apply State.setQueue_follows | with_reducible apply State.txDropped_follows
    | ((conv => arg 2; arg 45; skip); with_reducible apply follows_mk) | exact Eq.refl _

theorem State.releaseRecord_follows {p0 : State} (s : State) (f : FoldId) (p : Nat) (q : Nat) (r : Option TxRec) (hF : Follows p0 s) :
    Follows p0 (State.releaseRecord s f p q r) := by
  unfold State.releaseRecord
  try dsimp only
  repeat' first
    | with_reducible assumption | intro _ | with_reducible apply follows_foldl | with_reducible apply follows_ite
    | with_reducible apply State.placeTx_follows | with_reducible apply State.setQueue_follows
    | with_reducible apply State.txError_follows | ((conv => arg 2; arg 45; skip); with_reducible apply follows_mk)
    | with_reducible exact Eq.refl _ | exact Eq.refl _ | split

theorem State.releaseQueue_follows {p0 : State} (s : State) (f : FoldId) (p : Nat) (q : Nat) (time : Nat) (st : List (Byte × Origin)) (hF : Follows p0 s) :
    Follows p0 (State.releaseQueue s f p q time st) := by
  unfold State.releaseQueue
  try dsimp only
  repeat' first
    | with_reducible assumption | intro _ | with_reducible apply follows_foldl | with_reducible apply follows_ite
    | with_reducible apply State.releaseRecord_follows
    | ((conv => arg 2; arg 45; skip); with_reducible apply follows_mk) | with_reducible exact Eq.refl _
    | exact Eq.refl _ | split

theorem State.gateAdvance_follows {p0 : State} (s : State) (p : Nat) (hF : Follows p0 s) :
    Follows p0 (State.gateAdvance s p) := by
  unfold State.gateAdvance
  try dsimp only
  repeat' first
    | with_reducible assumption | with_reducible apply follows_ite
    | ((conv => arg 2; arg 45; skip); with_reducible apply follows_mk) | exact Eq.refl _ | split

theorem State.ethTransmit_follows {p0 : State} (s : State) (p : Nat) (hF : Follows p0 s) :
    Follows p0 (State.ethTransmit s p) := by
  unfold State.ethTransmit
  try dsimp only
  repeat' first
    | with_reducible assumption | with_reducible apply follows_ite | with_reducible apply State.emit_follows
    | with_reducible apply State.setQueue_follows | ((conv => arg 2; arg 45; skip); with_reducible apply follows_mk)
    | exact Eq.refl _ | split

theorem State.dropTx_follows {p0 : State} (s : State) (p : Nat) (hF : Follows p0 s) :
    Follows p0 (State.dropTx s p) := by
  unfold State.dropTx
  try dsimp only
  repeat' first
    | with_reducible assumption | with_reducible apply follows_ite
    | ((conv => arg 2; arg 45; skip); with_reducible apply follows_mk) | exact Eq.refl _

theorem State.ethUp_follows {p0 : State} (s : State) (p : Nat) (mode : Nat) (hF : Follows p0 s) :
    Follows p0 (State.ethUp s p mode) := by
  unfold State.ethUp
  try dsimp only
  repeat' first
    | with_reducible assumption | with_reducible apply follows_ite | with_reducible apply State.portEventAll_follows
    | with_reducible apply State.setReg_follows | ((conv => arg 2; arg 45; skip); with_reducible apply follows_mk)
    | exact Eq.refl _

theorem State.ethDown_follows {p0 : State} (s : State) (p : Nat) (hF : Follows p0 s) :
    Follows p0 (State.ethDown s p) := by
  unfold State.ethDown
  try dsimp only
  repeat' first
    | with_reducible assumption | with_reducible apply follows_ite | with_reducible apply State.dropTx_follows
    | with_reducible apply State.portEventAll_follows | with_reducible apply State.setReg_follows
    | ((conv => arg 2; arg 45; skip); with_reducible apply follows_mk) | exact Eq.refl _

theorem State.writePortCtl_follows {p0 : State} (s : State) (p : Nat) (v : Word) (hF : Follows p0 s) :
    Follows p0 (State.writePortCtl s p v) := by
  unfold State.writePortCtl
  try dsimp only
  repeat' first
    | with_reducible assumption | with_reducible apply follows_ite | with_reducible apply State.ethDown_follows
    | with_reducible apply State.setReg_follows | ((conv => arg 2; arg 45; skip); with_reducible apply follows_mk)
    | exact Eq.refl _

end Sys2Proof.Machine
end

