-- ==== Sys2Proof/Laws/FollowsPortRx.lean ====
section
/-! SUPPORT. What the operations of Machine/PortRx.lean keep: the queue, the invariant, programmed OTP bits. -/

namespace Sys2Proof.Machine

theorem State.setTwinFold_follows {p0 : State} (s : State) (f : FoldId) (t : TwinFold) (hF : Follows p0 s) :
    Follows p0 (State.setTwinFold s f t) := by
  unfold State.setTwinFold
  try dsimp only
  repeat' first
    | with_reducible assumption | with_reducible apply follows_ite
    | ((conv => arg 2; arg 45; skip); with_reducible apply follows_mk) | exact Eq.refl _

theorem State.flitGo_follows {p0 : State} (s : State) (m : OutFlit) (pos : Nat) (hF : Follows p0 s) :
    Follows p0 (State.flitGo s m pos) := by
  unfold State.flitGo
  try dsimp only
  repeat' first
    | with_reducible assumption | intro _ | with_reducible apply follows_foldl | with_reducible apply follows_ite
    | with_reducible apply follows_ite_fst | with_reducible apply State.emit_follows
    | with_reducible apply follows_foldl_fst | ((conv => arg 2; arg 45; skip); with_reducible apply follows_mk)
    | ((conv => arg 2; arg 45; skip); with_reducible apply follows_mk_mem) | with_reducible exact Eq.refl _
    | exact Eq.refl _ | with_reducible exact follows_memOk (by assumption) (by assumption)
    | with_reducible apply memFlip_wf | with_reducible apply memWrite_wf | with_reducible apply memWipe_wf
    | with_reducible apply filter_wf | split | (rename_i e; injection e; done)
    | (rename_i e; injection e with e; subst e) | (rename_i e; injection e with e e2; subst e)
    | (rename_i e; injection e with e; revert e; intro _) | (rename_i e; split at e <;> (revert e; intro _))
    | (rename_i e; rw [Option.map_eq_some_iff] at e; obtain ⟨_, _, rfl⟩ := e) | dsimp only | (rename_i e; clear e)

theorem State.flitTake_follows {p0 : State} (s : State) (m : OutFlit) (pos : Nat) (hF : Follows p0 s) :
    Follows p0 (State.flitTake s m pos) := by
  unfold State.flitTake
  try dsimp only
  repeat' first
    | with_reducible assumption | intro _ | with_reducible apply follows_foldl | with_reducible apply follows_ite
    | with_reducible apply follows_ite_fst | with_reducible apply State.flitGo_follows
    | with_reducible apply follows_foldl_fst | ((conv => arg 2; arg 45; skip); with_reducible apply follows_mk)
    | ((conv => arg 2; arg 45; skip); with_reducible apply follows_mk_mem) | with_reducible exact Eq.refl _
    | exact Eq.refl _ | with_reducible exact follows_memOk (by assumption) (by assumption)
    | with_reducible apply memFlip_wf | with_reducible apply memWrite_wf | with_reducible apply memWipe_wf
    | with_reducible apply filter_wf | split | (rename_i e; injection e; done)
    | (rename_i e; injection e with e; subst e) | (rename_i e; injection e with e e2; subst e)
    | (rename_i e; injection e with e; revert e; intro _) | (rename_i e; split at e <;> (revert e; intro _))
    | (rename_i e; rw [Option.map_eq_some_iff] at e; obtain ⟨_, _, rfl⟩ := e) | dsimp only | (rename_i e; clear e)

theorem State.evenDrain_follows {p0 : State} (s : State) (n : Nat) (hF : Follows p0 s) : Follows p0 (State.evenDrain s n) := by
  induction n generalizing s with
  | zero => exact hF
  | succ n ih =>
    unfold State.evenDrain
    split
    · exact hF
    · exact ih _ (State.flitTake_follows _ _ _ (follows_mk hF rfl rfl rfl rfl rfl rfl rfl))

theorem State.flitsQueue_follows {p0 : State} (s : State) (l : List OutFlit) (hF : Follows p0 s) :
    Follows p0 (State.flitsQueue s l) := by
  unfold State.flitsQueue
  try dsimp only
  repeat' first
    | with_reducible assumption | intro _ | with_reducible apply follows_foldl | with_reducible apply follows_ite
    | with_reducible apply follows_ite_fst | with_reducible apply State.evenDrain_follows
    | with_reducible apply follows_foldl_fst | ((conv => arg 2; arg 45; skip); with_reducible apply follows_mk)
    | ((conv => arg 2; arg 45; skip); with_reducible apply follows_mk_mem) | with_reducible exact Eq.refl _
    | exact Eq.refl _ | with_reducible exact follows_memOk (by assumption) (by assumption)
    | with_reducible apply memFlip_wf | with_reducible apply memWrite_wf | with_reducible apply memWipe_wf
    | with_reducible apply filter_wf | split | (rename_i e; injection e; done)
    | (rename_i e; injection e with e; subst e) | (rename_i e; injection e with e e2; subst e)
    | (rename_i e; injection e with e; revert e; intro _) | (rename_i e; split at e <;> (revert e; intro _))
    | (rename_i e; rw [Option.map_eq_some_iff] at e; obtain ⟨_, _, rfl⟩ := e) | dsimp only | (rename_i e; clear e)

theorem State.twinSend_follows {p0 : State} (s : State) (kind : Nat) (f : Option FoldId) (data : List Byte) (hF : Follows p0 s) :
    Follows p0 (State.twinSend s kind f data) := by
  unfold State.twinSend
  try dsimp only
  repeat' first
    | with_reducible assumption | with_reducible apply follows_ite | with_reducible apply State.flitsQueue_follows
    | ((conv => arg 2; arg 45; skip); with_reducible apply follows_mk) | exact Eq.refl _

theorem State.receive_follows {p0 : State} (s : State) (p : Nat) (q : Nat) (kind : Nat) (status : Nat) (index : Nat) (vid : Nat) (addr : Nat) (content : List Byte) (hF : Follows p0 s) :
    Follows p0 (State.receive s p q kind status index vid addr content) := by
  unfold State.receive
  try dsimp only
  repeat' first
    | with_reducible assumption | with_reducible apply follows_ite | with_reducible apply State.setQueue_follows
    | with_reducible apply State.twinSend_follows | ((conv => arg 2; arg 45; skip); with_reducible apply follows_mk)
    | exact Eq.refl _ | split

theorem State.rxBad_follows {p0 : State} (s : State) (p : Nat) (hF : Follows p0 s) :
    Follows p0 (State.rxBad s p) := by
  unfold State.rxBad
  repeat' first
    | with_reducible assumption | with_reducible apply State.setReg_follows

theorem State.sfCount_follows {p0 : State} (s : State) (p : Nat) (off : Nat) (hi : Bool) (hF : Follows p0 s) :
    Follows p0 (State.sfCount s p off hi) := by
  unfold State.sfCount
  repeat' first
    | with_reducible assumption | with_reducible apply State.setReg_follows

theorem State.safetyReceive_follows {p0 : State} (s : State) (p : Nat) (q : Nat) (vid : Nat) (pdu : List Byte) (hF : Follows p0 s) :
    Follows p0 (State.safetyReceive s p q vid pdu) := by
  unfold State.safetyReceive
  try dsimp only
  repeat' first
    | with_reducible assumption | with_reducible apply follows_ite | with_reducible apply State.receive_follows
    | with_reducible apply State.reportU_follows | with_reducible apply State.sfCount_follows
    | ((conv => arg 2; arg 45; skip); with_reducible apply follows_mk) | exact Eq.refl _ | split

theorem State.framePassed_follows {p0 : State} (s : State) (p : Nat) (idx : Nat) (vid : Nat) (q : Nat) (mac : List Byte) (rest : List Byte) (hF : Follows p0 s) :
    Follows p0 (State.framePassed s p idx vid q mac rest) := by
  unfold State.framePassed
  try dsimp only
  repeat' first
    | with_reducible assumption | with_reducible apply follows_ite | with_reducible apply State.receive_follows
    | with_reducible apply State.rxBad_follows | with_reducible apply State.safetyReceive_follows
    | with_reducible apply State.setQueue_follows | with_reducible apply State.sfCount_follows
    | ((conv => arg 2; arg 45; skip); with_reducible apply follows_mk) | exact Eq.refl _ | split

theorem State.ethReceive_follows {p0 : State} (s : State) (p : Nat) (frame : List Byte) (hF : Follows p0 s) :
    Follows p0 (State.ethReceive s p frame) := by
  unfold State.ethReceive
  try dsimp only
  repeat' first
    | with_reducible assumption | with_reducible apply follows_ite | with_reducible apply State.framePassed_follows
    | with_reducible apply State.rxBad_follows | ((conv => arg 2; arg 45; skip); with_reducible apply follows_mk)
    | exact Eq.refl _ | split

theorem State.connStale_follows {p0 : State} (s : State) (i : Nat) (hF : Follows p0 s) :
    Follows p0 (State.connStale s i) := by
  unfold State.connStale
  try dsimp only
  repeat' first
    | with_reducible assumption | with_reducible apply follows_ite | with_reducible apply State.portEvent_follows
    | ((conv => arg 2; arg 45; skip); with_reducible apply follows_mk) | exact Eq.refl _

theorem State.connCommit_follows {p0 : State} (s : State) (v : Word) (hF : Follows p0 s) :
    Follows p0 (State.connCommit s v) := by
  unfold State.connCommit
  try dsimp only
  repeat' first
    | with_reducible assumption | with_reducible apply follows_ite | with_reducible apply State.refuse_follows
    | ((conv => arg 2; arg 45; skip); with_reducible apply follows_mk) | exact Eq.refl _

theorem State.bindQueue_follows {p0 : State} (s : State) (p : Nat) (q : Nat) (now : List RxEntry) (wait : List RxEntry) (hF : Follows p0 s) :
    Follows p0 (State.bindQueue s p q now wait) := by
  unfold State.bindQueue
  try dsimp only
  repeat' first
    | with_reducible assumption | intro _ | with_reducible apply follows_foldl | with_reducible apply follows_ite
    | with_reducible apply State.portEvent_follows | with_reducible apply State.setQueue_follows
    | ((conv => arg 2; arg 45; skip); with_reducible apply follows_mk) | with_reducible exact Eq.refl _
    | exact Eq.refl _ | split

end Sys2Proof.Machine
end

