-- ==== Sys2Proof/Laws/FollowsPcieOps.lean ====
section
/-! SUPPORT. What the operations of Machine/PcieOps.lean keep: the queue, the invariant, programmed OTP bits. -/

namespace Sys2Proof.Machine

theorem State.aer_follows {p0 : State} (s : State) (f : Option FoldId) (kind : Nat) (at_ : Nat) (len : Nat) (hF : Follows p0 s) :
    Follows p0 (State.aer s f kind at_ len) := by
  unfold State.aer
  try dsimp only
  repeat' first
    | with_reducible assumption | with_reducible apply follows_ite
    | ((conv => arg 2; arg 45; skip); with_reducible apply follows_mk) | exact Eq.refl _

theorem State.unsupported_follows {p0 : State} (s : State) (f : FoldId) (at_ : Nat) (len : Nat) (hF : Follows p0 s) :
    Follows p0 (State.unsupported s f at_ len) := by
  unfold State.unsupported
  repeat' first
    | with_reducible assumption | with_reducible apply State.aer_follows | with_reducible apply State.emit_follows

theorem State.pcieWrite_follows {p0 : State} (s : State) (f : FoldId) (off : Nat) (data : List Byte) (ecrc : Bool) (hF : Follows p0 s) :
    Follows p0 (State.pcieWrite s f off data ecrc) := by
  unfold State.pcieWrite
  try dsimp only
  repeat' first
    | with_reducible assumption | with_reducible apply follows_ite | with_reducible apply State.aer_follows
    | with_reducible apply State.receive_follows | with_reducible apply State.safetyReceive_follows
    | with_reducible apply State.unsupported_follows | ((conv => arg 2; arg 45; skip); with_reducible apply follows_mk)
    | exact Eq.refl _

theorem State.pcieRead_follows {p0 : State} (s : State) (f : FoldId) (ecrc : Bool) (hF : Follows p0 s) :
    Follows p0 (State.pcieRead s f ecrc) := by
  unfold State.pcieRead
  try dsimp only
  repeat' first
    | with_reducible assumption | with_reducible apply follows_ite | with_reducible apply State.aer_follows
    | with_reducible apply State.unsupported_follows | ((conv => arg 2; arg 45; skip); with_reducible apply follows_mk)
    | exact Eq.refl _

theorem State.readDone_follows {p0 : State} (s : State) (r : HostRead) (status : Nat) (data : List Byte) (hF : Follows p0 s) :
    Follows p0 (State.readDone s r status data) := by
  unfold State.readDone
  try dsimp only
  repeat' first
    | with_reducible assumption | with_reducible apply follows_ite | with_reducible apply State.receive_follows
    | ((conv => arg 2; arg 45; skip); with_reducible apply follows_mk) | exact Eq.refl _

theorem State.pcieCompletion_follows {p0 : State} (s : State) (tag : Nat) (status : Nat) (data : List Byte) (ecrc : Bool) (hF : Follows p0 s) :
    Follows p0 (State.pcieCompletion s tag status data ecrc) := by
  unfold State.pcieCompletion
  try dsimp only
  repeat' first
    | with_reducible assumption | with_reducible apply follows_ite | with_reducible apply State.aer_follows
    | with_reducible apply State.readDone_follows | ((conv => arg 2; arg 45; skip); with_reducible apply follows_mk)
    | exact Eq.refl _ | split

theorem State.pcieTimeout_follows {p0 : State} (s : State) (tag : Nat) (hF : Follows p0 s) :
    Follows p0 (State.pcieTimeout s tag) := by
  unfold State.pcieTimeout
  try dsimp only
  repeat' first
    | with_reducible assumption | with_reducible apply follows_ite | with_reducible apply State.aer_follows
    | with_reducible apply State.readDone_follows | ((conv => arg 2; arg 45; skip); with_reducible apply follows_mk)
    | exact Eq.refl _ | split

theorem State.setMsix_follows {p0 : State} (s : State) (f : FoldId) (v : Nat) (x : MsixVec) (hF : Follows p0 s) :
    Follows p0 (State.setMsix s f v x) := by
  unfold State.setMsix
  try dsimp only
  repeat' first
    | with_reducible assumption | intro _ | with_reducible apply follows_foldl | with_reducible apply follows_ite
    | with_reducible apply follows_ite_fst | with_reducible apply follows_foldl_fst
    | ((conv => arg 2; arg 45; skip); with_reducible apply follows_mk)
    | ((conv => arg 2; arg 45; skip); with_reducible apply follows_mk_mem) | with_reducible exact Eq.refl _
    | exact Eq.refl _ | with_reducible exact follows_memOk (by assumption) (by assumption)
    | with_reducible apply memFlip_wf | with_reducible apply memWrite_wf | with_reducible apply memWipe_wf
    | with_reducible apply filter_wf | split | (rename_i e; injection e; done)
    | (rename_i e; injection e with e; subst e) | (rename_i e; injection e with e e2; subst e)
    | (rename_i e; injection e with e; revert e; intro _) | (rename_i e; split at e <;> (revert e; intro _))
    | (rename_i e; rw [Option.map_eq_some_iff] at e; obtain ⟨_, _, rfl⟩ := e) | dsimp only | (rename_i e; clear e)

theorem State.msixSend_follows {p0 : State} (s : State) (f : FoldId) (v : Nat) (hF : Follows p0 s) :
    Follows p0 (State.msixSend s f v) := by
  unfold State.msixSend
  try dsimp only
  repeat' first
    | with_reducible assumption | intro _ | with_reducible apply follows_foldl | with_reducible apply follows_ite
    | with_reducible apply follows_ite_fst | with_reducible apply State.emit_follows
    | with_reducible apply State.setMsix_follows | with_reducible apply follows_foldl_fst
    | ((conv => arg 2; arg 45; skip); with_reducible apply follows_mk)
    | ((conv => arg 2; arg 45; skip); with_reducible apply follows_mk_mem) | with_reducible exact Eq.refl _
    | exact Eq.refl _ | with_reducible exact follows_memOk (by assumption) (by assumption)
    | with_reducible apply memFlip_wf | with_reducible apply memWrite_wf | with_reducible apply memWipe_wf
    | with_reducible apply filter_wf | split | (rename_i e; injection e; done)
    | (rename_i e; injection e with e; subst e) | (rename_i e; injection e with e e2; subst e)
    | (rename_i e; injection e with e; revert e; intro _) | (rename_i e; split at e <;> (revert e; intro _))
    | (rename_i e; rw [Option.map_eq_some_iff] at e; obtain ⟨_, _, rfl⟩ := e) | dsimp only | (rename_i e; clear e)

theorem State.msixUnmask_follows {p0 : State} (s : State) (f : FoldId) (hF : Follows p0 s) :
    Follows p0 (State.msixUnmask s f) := by
  unfold State.msixUnmask
  try dsimp only
  repeat' first
    | with_reducible assumption | intro _ | with_reducible apply follows_foldl | with_reducible apply follows_ite
    | with_reducible apply follows_ite_fst | with_reducible apply State.msixSend_follows
    | with_reducible apply follows_foldl_fst | ((conv => arg 2; arg 45; skip); with_reducible apply follows_mk)
    | ((conv => arg 2; arg 45; skip); with_reducible apply follows_mk_mem) | with_reducible exact Eq.refl _
    | exact Eq.refl _ | with_reducible exact follows_memOk (by assumption) (by assumption)
    | with_reducible apply memFlip_wf | with_reducible apply memWrite_wf | with_reducible apply memWipe_wf
    | with_reducible apply filter_wf | split | (rename_i e; injection e; done)
    | (rename_i e; injection e with e; subst e) | (rename_i e; injection e with e e2; subst e)
    | (rename_i e; injection e with e; revert e; intro _) | (rename_i e; split at e <;> (revert e; intro _))
    | (rename_i e; rw [Option.map_eq_some_iff] at e; obtain ⟨_, _, rfl⟩ := e) | dsimp only | (rename_i e; clear e)

theorem State.pcieConfig_follows {p0 : State} (s : State) (c : PcieConfig) (ecrc : Bool) (hF : Follows p0 s) :
    Follows p0 (State.pcieConfig s c ecrc) := by
  unfold State.pcieConfig
  try dsimp only
  repeat' first
    | with_reducible assumption | with_reducible apply follows_ite | with_reducible apply State.aer_follows
    | with_reducible apply State.msixUnmask_follows | with_reducible apply State.setMsix_follows
    | ((conv => arg 2; arg 45; skip); with_reducible apply follows_mk) | exact Eq.refl _ | split

theorem State.pcieSend_follows {p0 : State} (s0 : State) (f : FoldId) (q : Nat) (r : TxRec) (hFs0 : Follows p0 s0) :
    Follows p0 (State.pcieSend s0 f q r) := by
  unfold State.pcieSend
  try dsimp only
  repeat' first
    | with_reducible assumption | intro _ | with_reducible apply follows_foldl | with_reducible apply follows_ite
    | with_reducible apply follows_ite_fst | with_reducible apply State.emit_follows
    | with_reducible apply State.msixSend_follows | with_reducible apply State.setQueue_follows
    | with_reducible apply follows_foldl_fst | ((conv => arg 2; arg 45; skip); with_reducible apply follows_mk)
    | ((conv => arg 2; arg 45; skip); with_reducible apply follows_mk_mem) | with_reducible exact Eq.refl _
    | exact Eq.refl _ | with_reducible exact follows_memOk (by assumption) (by assumption)
    | with_reducible apply memFlip_wf | with_reducible apply memWrite_wf | with_reducible apply memWipe_wf
    | with_reducible apply filter_wf | split | (rename_i e; injection e; done)
    | (rename_i e; injection e with e; subst e) | (rename_i e; injection e with e e2; subst e)
    | (rename_i e; injection e with e; revert e; intro _) | (rename_i e; split at e <;> (revert e; intro _))
    | (rename_i e; rw [Option.map_eq_some_iff] at e; obtain ⟨_, _, rfl⟩ := e) | dsimp only | (rename_i e; clear e)

theorem State.useShare_follows {p0 : State} (s : State) (owner : FoldId) (hF : Follows p0 s) :
    Follows p0 (State.useShare s owner) := by
  unfold State.useShare
  try dsimp only
  repeat' first
    | with_reducible assumption | intro _ | with_reducible apply follows_foldl | with_reducible apply follows_ite
    | with_reducible apply follows_ite_fst | with_reducible apply follows_foldl_fst
    | ((conv => arg 2; arg 45; skip); with_reducible apply follows_mk)
    | ((conv => arg 2; arg 45; skip); with_reducible apply follows_mk_mem) | with_reducible exact Eq.refl _
    | exact Eq.refl _ | with_reducible exact follows_memOk (by assumption) (by assumption)
    | with_reducible apply memFlip_wf | with_reducible apply memWrite_wf | with_reducible apply memWipe_wf
    | with_reducible apply filter_wf | split | (rename_i e; injection e; done)
    | (rename_i e; injection e with e; subst e) | (rename_i e; injection e with e e2; subst e)
    | (rename_i e; injection e with e; revert e; intro _) | (rename_i e; split at e <;> (revert e; intro _))
    | (rename_i e; rw [Option.map_eq_some_iff] at e; obtain ⟨_, _, rfl⟩ := e) | dsimp only | (rename_i e; clear e)

theorem State.pcieTransmit_follows {p0 : State} (s : State) (owner : FoldId) (hF : Follows p0 s) :
    Follows p0 (State.pcieTransmit s owner) := by
  unfold State.pcieTransmit
  try dsimp only
  repeat' first
    | with_reducible assumption | with_reducible apply follows_ite | with_reducible apply State.pcieSend_follows
    | with_reducible apply State.useShare_follows | ((conv => arg 2; arg 45; skip); with_reducible apply follows_mk)
    | exact Eq.refl _ | split

theorem State.pcieAck_follows {p0 : State} (s : State) (n : Nat) (hF : Follows p0 s) :
    Follows p0 (State.pcieAck s n) := by
  unfold State.pcieAck
  try dsimp only
  repeat' first
    | with_reducible assumption | with_reducible apply follows_ite
    | ((conv => arg 2; arg 45; skip); with_reducible apply follows_mk) | exact Eq.refl _

theorem State.pcieLost_follows {p0 : State} (s : State) (hF : Follows p0 s) :
    Follows p0 (State.pcieLost s) := by
  unfold State.pcieLost
  try dsimp only
  repeat' first
    | with_reducible assumption | with_reducible apply follows_ite | with_reducible apply State.dropTx_follows
    | with_reducible apply State.portEventAll_follows | ((conv => arg 2; arg 45; skip); with_reducible apply follows_mk)
    | exact Eq.refl _

theorem State.pcieDown_follows {p0 : State} (s : State) (hF : Follows p0 s) :
    Follows p0 (State.pcieDown s) := by
  unfold State.pcieDown
  try dsimp only
  repeat' first
    | with_reducible assumption | with_reducible apply follows_ite | with_reducible apply State.pcieLost_follows
    | ((conv => arg 2; arg 45; skip); with_reducible apply follows_mk) | exact Eq.refl _

theorem State.perstAssert_follows {p0 : State} (s : State) (hF : Follows p0 s) :
    Follows p0 (State.perstAssert s) := by
  unfold State.perstAssert
  try dsimp only
  repeat' first
    | with_reducible assumption | with_reducible apply follows_ite | with_reducible apply State.pcieLost_follows
    | ((conv => arg 2; arg 45; skip); with_reducible apply follows_mk) | exact Eq.refl _

theorem State.perstRelease_follows {p0 : State} (s : State) (hF : Follows p0 s) :
    Follows p0 (State.perstRelease s) := by
  unfold State.perstRelease
  try dsimp only
  repeat' first
    | with_reducible assumption | with_reducible apply follows_ite
    | ((conv => arg 2; arg 45; skip); with_reducible apply follows_mk) | exact Eq.refl _

theorem State.pcieTrained_follows {p0 : State} (s : State) (speed : Fin 5) (width : Fin 4) (hF : Follows p0 s) :
    Follows p0 (State.pcieTrained s speed width) := by
  unfold State.pcieTrained
  try dsimp only
  repeat' first
    | with_reducible assumption | with_reducible apply follows_ite | with_reducible apply State.portEventAll_follows
    | ((conv => arg 2; arg 45; skip); with_reducible apply follows_mk) | exact Eq.refl _

theorem State.peclkLoss_follows {p0 : State} (s : State) (hF : Follows p0 s) :
    Follows p0 (State.peclkLoss s) := by
  unfold State.peclkLoss
  try dsimp only
  repeat' first
    | with_reducible assumption | with_reducible apply follows_ite | with_reducible apply State.pcieDown_follows
    | ((conv => arg 2; arg 45; skip); with_reducible apply follows_mk) | exact Eq.refl _

theorem State.postUndelivered_follows {p0 : State} (s : State) (hF : Follows p0 s) :
    Follows p0 (State.postUndelivered s) := by
  unfold State.postUndelivered
  try dsimp only
  repeat' first
    | with_reducible assumption | with_reducible apply follows_ite | with_reducible apply State.dmaDefer_follows
    | with_reducible apply State.pendEvent_follows | with_reducible apply State.reportU_follows
    | ((conv => arg 2; arg 45; skip); with_reducible apply follows_mk) | exact Eq.refl _ | split

end Sys2Proof.Machine
end

