-- ==== Sys2Proof/Laws/FollowsSafeIoOps.lean ====
section
/-! SUPPORT. What the operations of Machine/SafeIoOps.lean keep: the queue, the invariant, programmed OTP bits. -/

namespace Sys2Proof.Machine

theorem State.setInPair_follows {p0 : State} (s : State) (i : Nat) (p : InPair) (hF : Follows p0 s) :
    Follows p0 (State.setInPair s i p) := by
  unfold State.setInPair
  try dsimp only
  repeat' first
    | with_reducible assumption | with_reducible apply follows_ite
    | ((conv => arg 2; arg 45; skip); with_reducible apply follows_mk) | exact Eq.refl _

theorem State.discrepancy_follows {p0 : State} (s : State) (i : Nat) (hF : Follows p0 s) :
    Follows p0 (State.discrepancy s i) := by
  unfold State.discrepancy
  try dsimp only
  repeat' first
    | with_reducible assumption | with_reducible apply follows_ite | with_reducible apply State.pendEvent_follows
    | with_reducible apply State.reportU_follows | with_reducible apply State.setInPair_follows
    | ((conv => arg 2; arg 45; skip); with_reducible apply follows_mk) | exact Eq.refl _ | split

theorem State.samplePair_follows {p0 : State} (s : State) (i : Nat) (a : Bool) (b : Bool) (hF : Follows p0 s) :
    Follows p0 (State.samplePair s i a b) := by
  unfold State.samplePair
  try dsimp only
  repeat' first
    | with_reducible assumption | with_reducible apply follows_ite | with_reducible apply State.discrepancy_follows
    | with_reducible apply State.setInPair_follows | ((conv => arg 2; arg 45; skip); with_reducible apply follows_mk)
    | exact Eq.refl _

theorem State.inputSample_follows {p0 : State} (s : State) (a : Half) (b : Half) (hF : Follows p0 s) :
    Follows p0 (State.inputSample s a b) := by
  unfold State.inputSample
  try dsimp only
  repeat' first
    | with_reducible assumption | intro _ | with_reducible apply follows_foldl | with_reducible apply follows_ite
    | with_reducible apply State.samplePair_follows | ((conv => arg 2; arg 45; skip); with_reducible apply follows_mk)
    | with_reducible exact Eq.refl _ | exact Eq.refl _ | split

theorem State.tickPair_follows {p0 : State} (s : State) (i : Nat) (hF : Follows p0 s) :
    Follows p0 (State.tickPair s i) := by
  unfold State.tickPair
  try dsimp only
  repeat' first
    | with_reducible assumption | with_reducible apply follows_ite | with_reducible apply State.discrepancy_follows
    | with_reducible apply State.setInPair_follows | ((conv => arg 2; arg 45; skip); with_reducible apply follows_mk)
    | exact Eq.refl _

theorem State.pairTick_follows {p0 : State} (s : State) (hF : Follows p0 s) :
    Follows p0 (State.pairTick s) := by
  unfold State.pairTick
  try dsimp only
  repeat' first
    | with_reducible assumption | intro _ | with_reducible apply follows_foldl | with_reducible apply follows_ite
    | with_reducible apply State.tickPair_follows | ((conv => arg 2; arg 45; skip); with_reducible apply follows_mk)
    | with_reducible exact Eq.refl _ | exact Eq.refl _ | split

theorem State.discrepancyDue_follows {p0 : State} (s : State) (i : Fin 64) (hF : Follows p0 s) :
    Follows p0 (State.discrepancyDue s i) := by
  unfold State.discrepancyDue
  try dsimp only
  repeat' first
    | with_reducible assumption | with_reducible apply follows_ite | with_reducible apply State.discrepancy_follows
    | ((conv => arg 2; arg 45; skip); with_reducible apply follows_mk) | exact Eq.refl _

theorem State.testPulse_follows {p0 : State} (s : State) (onB : Bool) (hF : Follows p0 s) :
    Follows p0 (State.testPulse s onB) := by
  unfold State.testPulse
  try dsimp only
  repeat' first
    | with_reducible assumption | with_reducible apply follows_ite
    | ((conv => arg 2; arg 45; skip); with_reducible apply follows_mk) | exact Eq.refl _ | split

theorem State.inputFreeze_follows {p0 : State} (s : State) (f : FoldId) (hF : Follows p0 s) :
    Follows p0 (State.inputFreeze s f) := by
  unfold State.inputFreeze
  try dsimp only
  repeat' first
    | with_reducible assumption | with_reducible apply follows_ite | with_reducible apply State.setFold_follows
    | with_reducible apply State.twinSend_follows | ((conv => arg 2; arg 45; skip); with_reducible apply follows_mk)
    | exact Eq.refl _

theorem State.applyOutput_follows {p0 : State} (s : State) (f : FoldId) (k : Nat) (vals : List (Word × Bool)) (hF : Follows p0 s) :
    Follows p0 (State.applyOutput s f k vals) := by
  unfold State.applyOutput
  try dsimp only
  repeat' first
    | with_reducible assumption | with_reducible apply follows_ite | with_reducible apply State.setOutPair_follows
    | ((conv => arg 2; arg 45; skip); with_reducible apply follows_mk) | exact Eq.refl _ | split

theorem State.soaOn_follows {p0 : State} (s : State) (k : Fin 8) (hF : Follows p0 s) :
    Follows p0 (State.soaOn s k) := by
  unfold State.soaOn
  try dsimp only
  repeat' first
    | with_reducible assumption | with_reducible apply follows_ite | with_reducible apply State.setOutPair_follows
    | ((conv => arg 2; arg 45; skip); with_reducible apply follows_mk) | exact Eq.refl _ | split

theorem State.readback_follows {p0 : State} (s : State) (k : Fin 8) (a0 : Bool) (b0 : Bool) (a1 : Bool) (b1 : Bool) (hF : Follows p0 s) :
    Follows p0 (State.readback s k a0 b0 a1 b1) := by
  unfold State.readback
  try dsimp only
  repeat' first
    | with_reducible assumption | with_reducible apply follows_ite | with_reducible apply State.reportU_follows
    | with_reducible apply State.setOutPair_follows | ((conv => arg 2; arg 45; skip); with_reducible apply follows_mk)
    | exact Eq.refl _ | split

theorem State.outputTest_follows {p0 : State} (s : State) (k : Fin 8) (hF : Follows p0 s) :
    Follows p0 (State.outputTest s k) := by
  unfold State.outputTest
  try dsimp only
  repeat' first
    | with_reducible assumption | with_reducible apply follows_ite | with_reducible apply State.setOutPair_follows
    | ((conv => arg 2; arg 45; skip); with_reducible apply follows_mk) | exact Eq.refl _

theorem State.outputTestEnd_follows {p0 : State} (s : State) (k : Fin 8) (hF : Follows p0 s) :
    Follows p0 (State.outputTestEnd s k) := by
  unfold State.outputTestEnd
  try dsimp only
  repeat' first
    | with_reducible assumption | with_reducible apply follows_ite | with_reducible apply State.setOutPair_follows
    | ((conv => arg 2; arg 45; skip); with_reducible apply follows_mk) | exact Eq.refl _ | split

theorem State.writeOpcfg_follows {p0 : State} (s : State) (k : Fin 8) (v : Word) (hF : Follows p0 s) :
    Follows p0 (State.writeOpcfg s k v) := by
  unfold State.writeOpcfg
  try dsimp only
  repeat' first
    | with_reducible assumption | with_reducible apply follows_ite | with_reducible apply State.badWrite_follows
    | with_reducible apply State.setOutPair_follows | with_reducible apply State.setReg_follows
    | ((conv => arg 2; arg 45; skip); with_reducible apply follows_mk) | exact Eq.refl _

theorem State.writeIpcfg_follows {p0 : State} (s : State) (i : Fin 64) (v : Word) (hF : Follows p0 s) :
    Follows p0 (State.writeIpcfg s i v) := by
  unfold State.writeIpcfg
  try dsimp only
  repeat' first
    | with_reducible assumption | with_reducible apply follows_ite | with_reducible apply State.badWrite_follows
    | with_reducible apply State.setInPair_follows | with_reducible apply State.setReg_follows
    | ((conv => arg 2; arg 45; skip); with_reducible apply follows_mk) | exact Eq.refl _

theorem State.writeIpnet_follows {p0 : State} (s : State) (i : Fin 64) (v : Word) (hF : Follows p0 s) :
    Follows p0 (State.writeIpnet s i v) := by
  unfold State.writeIpnet
  try dsimp only
  repeat' first
    | with_reducible assumption | with_reducible apply follows_ite | with_reducible apply State.badWrite_follows
    | with_reducible apply State.setReg_follows | ((conv => arg 2; arg 45; skip); with_reducible apply follows_mk)
    | exact Eq.refl _

end Sys2Proof.Machine
end

