-- ==== Sys2Proof/Laws/FollowsTwinOps.lean ====
section
/-! SUPPORT. What the operations of Machine/TwinOps.lean keep: the queue, the invariant, programmed OTP bits. -/

namespace Sys2Proof.Machine

theorem State.twinEvent_follows {p0 : State} (s : State) (kind : Nat) (f : Option FoldId) (hF : Follows p0 s) :
    Follows p0 (State.twinEvent s kind f) := by
  unfold State.twinEvent
  try dsimp only
  repeat' first
    | with_reducible assumption | intro _ | with_reducible apply follows_foldl | with_reducible apply follows_ite
    | with_reducible apply State.edge_follows | with_reducible apply State.reportU_follows
    | ((conv => arg 2; arg 45; skip); with_reducible apply follows_mk) | with_reducible exact Eq.refl _
    | exact Eq.refl _ | split

theorem State.setRole_follows {p0 : State} (s : State) (r : BitVec 2) (hF : Follows p0 s) :
    Follows p0 (State.setRole s r) := by
  unfold State.setRole
  try dsimp only
  repeat' first
    | with_reducible assumption | with_reducible apply follows_ite | with_reducible apply State.twinEvent_follows
    | ((conv => arg 2; arg 45; skip); with_reducible apply follows_mk) | exact Eq.refl _

theorem State.setRate_follows {p0 : State} (s : State) (ppb : ℤ) (hF : Follows p0 s) :
    Follows p0 (State.setRate s ppb) := by
  unfold State.setRate
  try dsimp only
  repeat' first
    | with_reducible assumption | with_reducible apply follows_ite | with_reducible apply State.setReg_follows
    | ((conv => arg 2; arg 45; skip); with_reducible apply follows_mk) | exact Eq.refl _

theorem State.steer_follows {p0 : State} (s : State) (offset : ℤ) (hF : Follows p0 s) :
    Follows p0 (State.steer s offset) := by
  unfold State.steer
  try dsimp only
  repeat' first
    | with_reducible assumption | with_reducible apply follows_ite | with_reducible apply State.setRate_follows
    | ((conv => arg 2; arg 45; skip); with_reducible apply follows_mk) | exact Eq.refl _

theorem State.corrected_follows {p0 : State} (s : State) (offset : ℤ) (hF : Follows p0 s) :
    Follows p0 (State.corrected s offset) := by
  unfold State.corrected
  try dsimp only
  repeat' first
    | with_reducible assumption | with_reducible apply follows_ite | with_reducible apply State.setReg_follows
    | with_reducible apply State.steer_follows | ((conv => arg 2; arg 45; skip); with_reducible apply follows_mk)
    | exact Eq.refl _

theorem State.loadTime_follows {p0 : State} (s : State) (t : Nat) (hF : Follows p0 s) : Follows p0 (State.loadTime s t) := by
  unfold State.loadTime
  exact follows_clk hF rfl rfl rfl rfl rfl rfl (fun _ => by show (0 : Nat) < 2 ^ 32; decide) (fun w => w.btAcc) (fun w => w.bt)

theorem State.toSingle_follows {p0 : State} (s : State) (f : FoldId) (hF : Follows p0 s) :
    Follows p0 (State.toSingle s f) := by
  unfold State.toSingle
  try dsimp only
  repeat' first
    | with_reducible assumption | with_reducible apply follows_ite | with_reducible apply State.setTwinFold_follows
    | with_reducible apply State.twinEvent_follows | ((conv => arg 2; arg 45; skip); with_reducible apply follows_mk)
    | exact Eq.refl _

theorem State.ownTime_follows {p0 : State} (s : State) (hF : Follows p0 s) :
    Follows p0 (State.ownTime s) := by
  unfold State.ownTime
  try dsimp only
  repeat' first
    | with_reducible assumption | with_reducible apply follows_ite | with_reducible apply State.setRate_follows
    | ((conv => arg 2; arg 45; skip); with_reducible apply follows_mk) | exact Eq.refl _

theorem State.linkGone_follows {p0 : State} (s : State) (event : Option Nat) (hF : Follows p0 s) :
    Follows p0 (State.linkGone s event) := by
  unfold State.linkGone
  try dsimp only
  repeat' first
    | with_reducible assumption | intro _ | with_reducible apply follows_foldl | with_reducible apply follows_ite
    | with_reducible apply State.ownTime_follows | with_reducible apply State.setRole_follows
    | with_reducible apply State.toSingle_follows | with_reducible apply State.twinEvent_follows
    | ((conv => arg 2; arg 45; skip); with_reducible apply follows_mk) | with_reducible exact Eq.refl _
    | exact Eq.refl _ | split

theorem State.twinLinkLoss_follows {p0 : State} (s : State) (lanes : Bool) (hF : Follows p0 s) :
    Follows p0 (State.twinLinkLoss s lanes) := by
  unfold State.twinLinkLoss
  try dsimp only
  repeat' first
    | with_reducible assumption | with_reducible apply follows_ite | with_reducible apply State.linkGone_follows
    | ((conv => arg 2; arg 45; skip); with_reducible apply follows_mk) | exact Eq.refl _

theorem State.partnerSays_follows {p0 : State} (s : State) (h : Heartbeat) (hF : Follows p0 s) :
    Follows p0 (State.partnerSays s h) := by
  unfold State.partnerSays
  try dsimp only
  repeat' first
    | with_reducible assumption | with_reducible apply follows_ite | with_reducible apply State.twinEvent_follows
    | ((conv => arg 2; arg 45; skip); with_reducible apply follows_mk) | exact Eq.refl _

theorem State.twinLinkUp_follows {p0 : State} (s : State) (h : Heartbeat) (hF : Follows p0 s) :
    Follows p0 (State.twinLinkUp s h) := by
  unfold State.twinLinkUp
  try dsimp only
  repeat' first
    | with_reducible assumption | intro _ | with_reducible apply follows_foldl | with_reducible apply follows_ite
    | with_reducible apply State.loadTime_follows | with_reducible apply State.partnerSays_follows
    | with_reducible apply State.setRole_follows | with_reducible apply State.setTwinFold_follows
    | with_reducible apply State.twinEvent_follows | ((conv => arg 2; arg 45; skip); with_reducible apply follows_mk)
    | with_reducible exact Eq.refl _ | exact Eq.refl _ | split

theorem State.resend_follows {p0 : State} (s : State) (u : SentFlit) (hF : Follows p0 s) :
    Follows p0 (State.resend s u) := by
  unfold State.resend
  try dsimp only
  repeat' first
    | with_reducible assumption | intro _ | with_reducible apply follows_foldl | with_reducible apply follows_ite
    | with_reducible apply follows_ite_fst | with_reducible apply State.emit_follows
    | with_reducible apply follows_foldl_fst | ((conv => arg 2; arg 45; skip); with_reducible apply follows_mk)
    | ((conv => arg 2; arg 45; skip); with_reducible apply follows_mk_mem) | with_reducible exact Eq.refl _
    | exact Eq.refl _ | with_reducible exact follows_memOk (by assumption) (by assumption)
    | with_reducible apply memFlip_wf | with_reducible apply memWrite_wf | with_reducible apply memWipe_wf
    | with_reducible apply filter_wf | split | (rename_i e; injection e; done)
    | (rename_i e; injection e with e; subst e) | (rename_i e; injection e with e e2; subst e)
    | (rename_i e; injection e with e; revert e; intro _) | (rename_i e; split at e <;> (revert e; intro _))
    | (rename_i e; rw [Option.map_eq_some_iff] at e; obtain ⟨_, _, rfl⟩ := e) | dsimp only | (rename_i e; clear e)

theorem State.flitResend_follows {p0 : State} (s : State) (hF : Follows p0 s) :
    Follows p0 (State.flitResend s) := by
  unfold State.flitResend
  try dsimp only
  repeat' first
    | with_reducible assumption | intro _ | with_reducible apply follows_foldl | with_reducible apply follows_ite
    | with_reducible apply State.resend_follows | with_reducible apply State.setReg_follows
    | ((conv => arg 2; arg 45; skip); with_reducible apply follows_mk) | with_reducible exact Eq.refl _
    | exact Eq.refl _ | split

theorem State.takeLogs_follows {p0 : State} (s : State) (f : FoldId) (n : Nat) (hF : Follows p0 s) :
    Follows p0 (State.takeLogs s f n).1 := by
  induction n generalizing s with
  | zero => exact hF
  | succ n ih =>
    unfold State.takeLogs
    split
    · exact hF
    · exact ih _ (State.setSpan_follows _ _ _ hF)

theorem State.takeLogs_follows_eq {p0 t : State} {x : List LogRec} {s : State} {f : FoldId} {n : Nat}
    (e0 : State.takeLogs s f n = (t, x)) (hF : Follows p0 s) : Follows p0 t := by
  have w := State.takeLogs_follows s f n hF
  rw [e0] at w
  exact w

theorem State.sendLogs_follows {p0 : State} (s : State) (f : FoldId) (hF : Follows p0 s) :
    Follows p0 (State.sendLogs s f) := by
  unfold State.sendLogs
  try dsimp only
  repeat' first
    | with_reducible assumption | intro _ | with_reducible apply follows_foldl | with_reducible apply follows_ite
    | with_reducible apply State.takeLogs_follows | ((conv => arg 2; arg 45; skip); with_reducible apply follows_mk)
    | with_reducible exact Eq.refl _ | exact Eq.refl _ | split

theorem State.stateSlot_follows {p0 : State} (s : State) (i : Nat) (hF : Follows p0 s) :
    Follows p0 (State.stateSlot s i) := by
  unfold State.stateSlot
  try dsimp only
  repeat' first
    | with_reducible assumption | intro _ | with_reducible apply follows_foldl | with_reducible apply follows_ite
    | with_reducible apply follows_ite_fst | with_reducible apply State.flitTake_follows
    | with_reducible apply follows_foldl_fst | ((conv => arg 2; arg 45; skip); with_reducible apply follows_mk)
    | ((conv => arg 2; arg 45; skip); with_reducible apply follows_mk_mem) | with_reducible exact Eq.refl _
    | exact Eq.refl _ | with_reducible exact follows_memOk (by assumption) (by assumption)
    | with_reducible apply memFlip_wf | with_reducible apply memWrite_wf | with_reducible apply memWipe_wf
    | with_reducible apply filter_wf | split | (rename_i e; injection e; done)
    | (rename_i e; injection e with e; subst e) | (rename_i e; injection e with e e2; subst e)
    | (rename_i e; injection e with e; revert e; intro _) | (rename_i e; split at e <;> (revert e; intro _))
    | (rename_i e; rw [Option.map_eq_some_iff] at e; obtain ⟨_, _, rfl⟩ := e) | dsimp only | (rename_i e; clear e)

theorem State.cutMissed_follows {p0 : State} (s : State) (f : FoldId) (hF : Follows p0 s) :
    Follows p0 (State.cutMissed s f) := by
  unfold State.cutMissed
  try dsimp only
  repeat' first
    | with_reducible assumption | intro _ | with_reducible apply follows_foldl | with_reducible apply follows_ite
    | with_reducible apply follows_ite_fst | with_reducible apply State.setTwinFold_follows
    | with_reducible apply follows_foldl_fst | ((conv => arg 2; arg 45; skip); with_reducible apply follows_mk)
    | ((conv => arg 2; arg 45; skip); with_reducible apply follows_mk_mem) | with_reducible exact Eq.refl _
    | exact Eq.refl _ | with_reducible exact follows_memOk (by assumption) (by assumption)
    | with_reducible apply memFlip_wf | with_reducible apply memWrite_wf | with_reducible apply memWipe_wf
    | with_reducible apply filter_wf | split | (rename_i e; injection e; done)
    | (rename_i e; injection e with e; subst e) | (rename_i e; injection e with e e2; subst e)
    | (rename_i e; injection e with e; revert e; intro _) | (rename_i e; split at e <;> (revert e; intro _))
    | (rename_i e; rw [Option.map_eq_some_iff] at e; obtain ⟨_, _, rfl⟩ := e) | dsimp only | (rename_i e; clear e)

theorem State.twinHeartbeat_follows {p0 : State} (s : State) (hF : Follows p0 s) :
    Follows p0 (State.twinHeartbeat s) := by
  unfold State.twinHeartbeat
  try dsimp only
  repeat' first
    | with_reducible assumption | intro _ | with_reducible apply follows_foldl | with_reducible apply follows_ite
    | with_reducible apply follows_ite_fst | with_reducible apply State.cutMissed_follows
    | with_reducible apply State.sendLogs_follows | with_reducible apply State.stateSlot_follows
    | with_reducible apply State.twinSend_follows | with_reducible apply follows_foldl_fst
    | ((conv => arg 2; arg 45; skip); with_reducible apply follows_mk)
    | ((conv => arg 2; arg 45; skip); with_reducible apply follows_mk_mem) | with_reducible exact Eq.refl _
    | exact Eq.refl _ | with_reducible exact follows_memOk (by assumption) (by assumption)
    | with_reducible apply memFlip_wf | with_reducible apply memWrite_wf | with_reducible apply memWipe_wf
    | with_reducible apply filter_wf | split | (rename_i e; injection e; done)
    | (rename_i e; injection e with e; subst e) | (rename_i e; injection e with e e2; subst e)
    | (rename_i e; injection e with e; revert e; intro _) | (rename_i e; split at e <;> (revert e; intro _))
    | (rename_i e; rw [Option.map_eq_some_iff] at e; obtain ⟨_, _, rfl⟩ := e) | dsimp only | (rename_i e; clear e)

theorem State.twinBeat_follows {p0 : State} (s : State) (h : Heartbeat) (hF : Follows p0 s) :
    Follows p0 (State.twinBeat s h) := by
  unfold State.twinBeat
  try dsimp only
  repeat' first
    | with_reducible assumption | intro _ | with_reducible apply follows_foldl | with_reducible apply follows_ite
    | with_reducible apply State.corrected_follows | with_reducible apply State.partnerSays_follows
    | with_reducible apply State.toSingle_follows | ((conv => arg 2; arg 45; skip); with_reducible apply follows_mk)
    | with_reducible exact Eq.refl _ | exact Eq.refl _ | split

theorem State.detachDone_follows {p0 : State} (s : State) (hF : Follows p0 s) :
    Follows p0 (State.detachDone s) := by
  unfold State.detachDone
  try dsimp only
  repeat' first
    | with_reducible assumption | intro _ | with_reducible apply follows_foldl | with_reducible apply follows_ite
    | with_reducible apply follows_ite_fst | with_reducible apply State.linkGone_follows
    | with_reducible apply follows_foldl_fst | ((conv => arg 2; arg 45; skip); with_reducible apply follows_mk)
    | ((conv => arg 2; arg 45; skip); with_reducible apply follows_mk_mem) | with_reducible exact Eq.refl _
    | exact Eq.refl _ | with_reducible exact follows_memOk (by assumption) (by assumption)
    | with_reducible apply memFlip_wf | with_reducible apply memWrite_wf | with_reducible apply memWipe_wf
    | with_reducible apply filter_wf | split | (rename_i e; injection e; done)
    | (rename_i e; injection e with e; subst e) | (rename_i e; injection e with e e2; subst e)
    | (rename_i e; injection e with e; revert e; intro _) | (rename_i e; split at e <;> (revert e; intro _))
    | (rename_i e; rw [Option.map_eq_some_iff] at e; obtain ⟨_, _, rfl⟩ := e) | dsimp only | (rename_i e; clear e)

theorem State.twinFlit_follows {p0 : State} (s : State) (x : Flit) (errs : Nat) (hF : Follows p0 s) :
    Follows p0 (State.twinFlit s x errs) := by
  unfold State.twinFlit
  try dsimp only
  repeat' first
    | with_reducible assumption | with_reducible apply follows_ite | with_reducible apply State.detachDone_follows
    | with_reducible apply State.evenDrain_follows | with_reducible apply State.setReg_follows
    | ((conv => arg 2; arg 45; skip); with_reducible apply follows_mk) | exact Eq.refl _

theorem State.twinDigest_follows {p0 : State} (s : State) (f : FoldId) (d : Digest) (hF : Follows p0 s) :
    Follows p0 (State.twinDigest s f d) := by
  unfold State.twinDigest
  try dsimp only
  repeat' first
    | with_reducible assumption | with_reducible apply follows_ite | with_reducible apply State.setTwinFold_follows
    | ((conv => arg 2; arg 45; skip); with_reducible apply follows_mk) | exact Eq.refl _

theorem State.twinSeal_follows {p0 : State} (s : State) (f : FoldId) (e : Nat) (v : KMap Nat FrozenPair) (hF : Follows p0 s) :
    Follows p0 (State.twinSeal s f e v) := by
  unfold State.twinSeal
  try dsimp only
  repeat' first
    | with_reducible assumption | intro _ | with_reducible apply follows_foldl | with_reducible apply follows_ite
    | with_reducible apply State.setReg_follows | with_reducible apply State.setTwinFold_follows
    | with_reducible apply State.twinEvent_follows | with_reducible apply State.twinSend_follows
    | ((conv => arg 2; arg 45; skip); with_reducible apply follows_mk) | with_reducible exact Eq.refl _
    | exact Eq.refl _ | split

theorem State.twinForward_follows {p0 : State} (s : State) (f : FoldId) (dest : Half) (bytes : List Byte) (content : List Byte) (hF : Follows p0 s) :
    Follows p0 (State.twinForward s f dest bytes content) := by
  unfold State.twinForward
  try dsimp only
  repeat' first
    | with_reducible assumption | with_reducible apply follows_ite | with_reducible apply State.setTwinFold_follows
    | ((conv => arg 2; arg 45; skip); with_reducible apply follows_mk) | exact Eq.refl _

theorem State.bindInputs_follows {p0 : State} (s : State) (f : FoldId) (n : Nat) (hF : Follows p0 s) :
    Follows p0 (State.bindInputs s f n) := by
  unfold State.bindInputs
  try dsimp only
  repeat' first
    | with_reducible assumption | intro _ | with_reducible apply follows_foldl | with_reducible apply follows_ite
    | with_reducible apply State.bindQueue_follows | with_reducible apply State.setFold_follows
    | with_reducible apply State.setTwinFold_follows | with_reducible apply State.toSingle_follows
    | with_reducible apply State.twinEvent_follows | ((conv => arg 2; arg 45; skip); with_reducible apply follows_mk)
    | with_reducible exact Eq.refl _ | exact Eq.refl _ | split

theorem State.compareSig_follows {p0 : State} (s : State) (f : FoldId) (epoch : DWord) (hF : Follows p0 s) :
    Follows p0 (State.compareSig s f epoch) := by
  unfold State.compareSig
  try dsimp only
  repeat' first
    | with_reducible assumption | with_reducible apply follows_ite | with_reducible apply State.reportU_follows
    | with_reducible apply State.setReg_follows | with_reducible apply State.setTwinFold_follows
    | with_reducible apply State.twinEvent_follows | ((conv => arg 2; arg 45; skip); with_reducible apply follows_mk)
    | exact Eq.refl _ | split

theorem State.twinSignature_follows {p0 : State} (s : State) (f : FoldId) (r : SigRecord) (hF : Follows p0 s) :
    Follows p0 (State.twinSignature s f r) := by
  unfold State.twinSignature
  try dsimp only
  repeat' first
    | with_reducible assumption | with_reducible apply follows_ite | with_reducible apply State.compareSig_follows
    | with_reducible apply State.setTwinFold_follows | ((conv => arg 2; arg 45; skip); with_reducible apply follows_mk)
    | exact Eq.refl _

theorem State.sigMissing_follows {p0 : State} (s : State) (f : FoldId) (hF : Follows p0 s) :
    Follows p0 (State.sigMissing s f) := by
  unfold State.sigMissing
  try dsimp only
  repeat' first
    | with_reducible assumption | with_reducible apply follows_ite | with_reducible apply State.setReg_follows
    | with_reducible apply State.toSingle_follows | with_reducible apply State.twinEvent_follows
    | ((conv => arg 2; arg 45; skip); with_reducible apply follows_mk) | exact Eq.refl _

theorem State.recordSent_follows {p0 : State} (s : State) (f : FoldId) (r : SigRecord) (hF : Follows p0 s) :
    Follows p0 (State.recordSent s f r) := by
  unfold State.recordSent
  try dsimp only
  repeat' first
    | with_reducible assumption | with_reducible apply follows_ite | with_reducible apply State.compareSig_follows
    | with_reducible apply State.setTwinFold_follows | with_reducible apply State.twinSend_follows
    | ((conv => arg 2; arg 45; skip); with_reducible apply follows_mk) | exact Eq.refl _

theorem State.applyImage_follows {p0 : State} (s : State) (f : FoldId) (m : FoldImage) (hF : Follows p0 s) :
    Follows p0 (State.applyImage s f m) := by
  unfold State.applyImage
  try dsimp only
  repeat' first
    | with_reducible assumption | intro _ | with_reducible apply follows_foldl | with_reducible apply follows_ite
    | with_reducible apply State.discardTasks_follows | with_reducible apply State.setDma_follows
    | with_reducible apply State.setFold_follows | with_reducible apply State.setQueue_follows
    | with_reducible apply State.setReg_follows | ((conv => arg 2; arg 45; skip); with_reducible apply follows_mk)
    | with_reducible exact Eq.refl _ | exact Eq.refl _ | split

theorem State.sendPage_follows {p0 : State} (s : State) (f : FoldId) (n : Nat) (hF : Follows p0 s) :
    Follows p0 (State.sendPage s f n) := by
  unfold State.sendPage
  try dsimp only
  repeat' first
    | with_reducible assumption | intro _ | with_reducible apply follows_foldl | with_reducible apply follows_ite
    | with_reducible apply follows_ite_fst | with_reducible apply State.decodeAccess_follows
    | with_reducible apply State.flitsQueue_follows | with_reducible apply State.setTwinFold_follows
    | with_reducible refine State.decodeAccess_follows_eq (by assumption) ?_ | with_reducible apply follows_foldl_fst
    | ((conv => arg 2; arg 45; skip); with_reducible apply follows_mk)
    | ((conv => arg 2; arg 45; skip); with_reducible apply follows_mk_mem) | with_reducible exact Eq.refl _
    | exact Eq.refl _ | with_reducible exact follows_memOk (by assumption) (by assumption)
    | with_reducible apply memFlip_wf | with_reducible apply memWrite_wf | with_reducible apply memWipe_wf
    | with_reducible apply filter_wf | split | (rename_i e; injection e; done)
    | (rename_i e; injection e with e; subst e) | (rename_i e; injection e with e e2; subst e)
    | (rename_i e; injection e with e; revert e; intro _) | (rename_i e; split at e <;> (revert e; intro _))
    | (rename_i e; rw [Option.map_eq_some_iff] at e; obtain ⟨_, _, rfl⟩ := e) | dsimp only | (rename_i e; clear e)

theorem State.pagePart_follows {p0 : State} (s : State) (f : FoldId) (hF : Follows p0 s) :
    Follows p0 (State.pagePart s f) := by
  unfold State.pagePart
  try dsimp only
  repeat' first
    | with_reducible assumption | intro _ | with_reducible apply follows_foldl | with_reducible apply follows_ite
    | with_reducible apply follows_ite_fst | with_reducible apply State.flitsQueue_follows
    | with_reducible apply State.sendPage_follows | with_reducible apply State.setTwinFold_follows
    | with_reducible apply follows_foldl_fst | ((conv => arg 2; arg 45; skip); with_reducible apply follows_mk)
    | ((conv => arg 2; arg 45; skip); with_reducible apply follows_mk_mem) | with_reducible exact Eq.refl _
    | exact Eq.refl _ | with_reducible exact follows_memOk (by assumption) (by assumption)
    | with_reducible apply memFlip_wf | with_reducible apply memWrite_wf | with_reducible apply memWipe_wf
    | with_reducible apply filter_wf | split | (rename_i e; injection e; done)
    | (rename_i e; injection e with e; subst e) | (rename_i e; injection e with e e2; subst e)
    | (rename_i e; injection e with e; revert e; intro _) | (rename_i e; split at e <;> (revert e; intro _))
    | (rename_i e; rw [Option.map_eq_some_iff] at e; obtain ⟨_, _, rfl⟩ := e) | dsimp only | (rename_i e; clear e)

theorem State.twinPageSend_follows {p0 : State} (s : State) (f : FoldId) (hF : Follows p0 s) :
    Follows p0 (State.twinPageSend s f) := by
  unfold State.twinPageSend
  try dsimp only
  repeat' first
    | with_reducible assumption | with_reducible apply follows_ite | with_reducible apply State.pagePart_follows
    | ((conv => arg 2; arg 45; skip); with_reducible apply follows_mk) | exact Eq.refl _ | split

theorem State.pageReceive_follows {p0 : State} (s : State) (f : FoldId) (kind : MemKind) (ix : Nat) (page : Nat) (data : List Byte) (hF : Follows p0 s) :
    Follows p0 (State.pageReceive s f kind ix page data) := by
  unfold State.pageReceive
  try dsimp only
  repeat' first
    | with_reducible assumption | with_reducible apply follows_ite | with_reducible apply State.bankWrite_follows
    | with_reducible apply State.setTwinFold_follows | ((conv => arg 2; arg 45; skip); with_reducible apply follows_mk)
    | exact Eq.refl _ | split

theorem State.imageReceive_follows {p0 : State} (s : State) (f : FoldId) (m : FoldImage) (hF : Follows p0 s) :
    Follows p0 (State.imageReceive s f m) := by
  unfold State.imageReceive
  try dsimp only
  repeat' first
    | with_reducible assumption | with_reducible apply follows_ite | with_reducible apply State.setTwinFold_follows
    | ((conv => arg 2; arg 45; skip); with_reducible apply follows_mk) | exact Eq.refl _

theorem State.followRec_follows {p0 : State} (s : State) (sp : SpanId) (r : LogRec) (hF : Follows p0 s) :
    Follows p0 (State.followRec s sp r) := by
  unfold State.followRec
  try dsimp only
  repeat' first
    | with_reducible assumption | intro _ | with_reducible apply follows_foldl | with_reducible apply follows_ite
    | with_reducible apply follows_ite_fst | with_reducible apply State.setSpan_follows
    | with_reducible apply follows_foldl_fst | ((conv => arg 2; arg 45; skip); with_reducible apply follows_mk)
    | ((conv => arg 2; arg 45; skip); with_reducible apply follows_mk_mem) | with_reducible exact Eq.refl _
    | exact Eq.refl _ | with_reducible exact follows_memOk (by assumption) (by assumption)
    | with_reducible apply memFlip_wf | with_reducible apply memWrite_wf | with_reducible apply memWipe_wf
    | with_reducible apply filter_wf | split | (rename_i e; injection e; done)
    | (rename_i e; injection e with e; subst e) | (rename_i e; injection e with e e2; subst e)
    | (rename_i e; injection e with e; revert e; intro _) | (rename_i e; split at e <;> (revert e; intro _))
    | (rename_i e; rw [Option.map_eq_some_iff] at e; obtain ⟨_, _, rfl⟩ := e) | dsimp only | (rename_i e; clear e)

theorem State.twinLog_follows {p0 : State} (s : State) (sp : SpanId) (rs : List LogRec) (hF : Follows p0 s) :
    Follows p0 (State.twinLog s sp rs) := by
  unfold State.twinLog
  try dsimp only
  repeat' first
    | with_reducible assumption | intro _ | with_reducible apply follows_foldl | with_reducible apply follows_ite
    | with_reducible apply follows_ite_fst | with_reducible apply State.followRec_follows
    | with_reducible apply follows_foldl_fst | ((conv => arg 2; arg 45; skip); with_reducible apply follows_mk)
    | ((conv => arg 2; arg 45; skip); with_reducible apply follows_mk_mem) | with_reducible exact Eq.refl _
    | exact Eq.refl _ | with_reducible exact follows_memOk (by assumption) (by assumption)
    | with_reducible apply memFlip_wf | with_reducible apply memWrite_wf | with_reducible apply memWipe_wf
    | with_reducible apply filter_wf | split | (rename_i e; injection e; done)
    | (rename_i e; injection e with e; subst e) | (rename_i e; injection e with e e2; subst e)
    | (rename_i e; injection e with e; revert e; intro _) | (rename_i e; split at e <;> (revert e; intro _))
    | (rename_i e; rw [Option.map_eq_some_iff] at e; obtain ⟨_, _, rfl⟩ := e) | dsimp only | (rename_i e; clear e)

theorem State.allSingle_follows {p0 : State} (s : State) (hF : Follows p0 s) :
    Follows p0 (State.allSingle s) := by
  unfold State.allSingle
  try dsimp only
  repeat' first
    | with_reducible assumption | intro _ | with_reducible apply follows_foldl | with_reducible apply follows_ite
    | with_reducible apply State.setTwinFold_follows | with_reducible apply State.toSingle_follows
    | ((conv => arg 2; arg 45; skip); with_reducible apply follows_mk) | with_reducible exact Eq.refl _
    | exact Eq.refl _ | split

theorem State.writeTwinCtl_follows {p0 : State} (s : State) (v : Word) (hF : Follows p0 s) :
    Follows p0 (State.writeTwinCtl s v) := by
  unfold State.writeTwinCtl
  try dsimp only
  repeat' first
    | with_reducible assumption | with_reducible apply follows_ite | with_reducible apply State.allSingle_follows
    | with_reducible apply State.detachDone_follows | with_reducible apply State.linkGone_follows
    | with_reducible apply State.setReg_follows | with_reducible apply State.twinSend_follows
    | ((conv => arg 2; arg 45; skip); with_reducible apply follows_mk) | exact Eq.refl _

theorem State.twinDetached_follows {p0 : State} (s : State) (hF : Follows p0 s) :
    Follows p0 (State.twinDetached s) := by
  unfold State.twinDetached
  try dsimp only
  repeat' first
    | with_reducible assumption | with_reducible apply follows_ite | with_reducible apply State.linkGone_follows
    | ((conv => arg 2; arg 45; skip); with_reducible apply follows_mk) | exact Eq.refl _

theorem State.leadStart_follows {p0 : State} (s : State) (f : FoldId) (hF : Follows p0 s) :
    Follows p0 (State.leadStart s f) := by
  unfold State.leadStart
  try dsimp only
  repeat' first
    | with_reducible assumption | intro _ | with_reducible apply follows_foldl | with_reducible apply follows_ite
    | with_reducible apply follows_ite_fst | with_reducible apply State.setFold_follows
    | with_reducible apply follows_foldl_fst | ((conv => arg 2; arg 45; skip); with_reducible apply follows_mk)
    | ((conv => arg 2; arg 45; skip); with_reducible apply follows_mk_mem) | with_reducible exact Eq.refl _
    | exact Eq.refl _ | with_reducible exact follows_memOk (by assumption) (by assumption)
    | with_reducible apply memFlip_wf | with_reducible apply memWrite_wf | with_reducible apply memWipe_wf
    | with_reducible apply filter_wf | split | (rename_i e; injection e; done)
    | (rename_i e; injection e with e; subst e) | (rename_i e; injection e with e e2; subst e)
    | (rename_i e; injection e with e; revert e; intro _) | (rename_i e; split at e <;> (revert e; intro _))
    | (rename_i e; rw [Option.map_eq_some_iff] at e; obtain ⟨_, _, rfl⟩ := e) | dsimp only | (rename_i e; clear e)

theorem State.enterMode_follows {p0 : State} (s : State) (f : FoldId) (m : BitVec 3) (n : Nat) (hF : Follows p0 s) :
    Follows p0 (State.enterMode s f m n) := by
  unfold State.enterMode
  try dsimp only
  repeat' first
    | with_reducible assumption | with_reducible apply follows_ite | with_reducible apply State.applyImage_follows
    | with_reducible apply State.leadStart_follows | with_reducible apply State.setTwinFold_follows
    | with_reducible apply State.toSingle_follows | with_reducible apply State.twinEvent_follows
    | ((conv => arg 2; arg 45; skip); with_reducible apply follows_mk) | exact Eq.refl _ | split

theorem State.modeAtBoundary_follows {p0 : State} (s : State) (f : FoldId) (n : Nat) (hF : Follows p0 s) :
    Follows p0 (State.modeAtBoundary s f n) := by
  unfold State.modeAtBoundary
  try dsimp only
  repeat' first
    | with_reducible assumption | with_reducible apply follows_ite | with_reducible apply State.enterMode_follows
    | ((conv => arg 2; arg 45; skip); with_reducible apply follows_mk) | exact Eq.refl _ | split

theorem State.writeMode_follows {p0 : State} (s : State) (f : FoldId) (m : BitVec 3) (hF : Follows p0 s) :
    Follows p0 (State.writeMode s f m) := by
  unfold State.writeMode
  try dsimp only
  repeat' first
    | with_reducible assumption | with_reducible apply follows_ite | with_reducible apply State.badWrite_follows
    | with_reducible apply State.setTwinFold_follows | with_reducible apply State.twinEvent_follows
    | ((conv => arg 2; arg 45; skip); with_reducible apply follows_mk) | exact Eq.refl _ | split

theorem State.writeFwdmax_follows {p0 : State} (s : State) (f : FoldId) (n : BitVec 10) (hF : Follows p0 s) :
    Follows p0 (State.writeFwdmax s f n) := by
  unfold State.writeFwdmax
  try dsimp only
  repeat' first
    | with_reducible assumption | with_reducible apply follows_ite | with_reducible apply State.badWrite_follows
    | with_reducible apply State.setReg_follows | ((conv => arg 2; arg 45; skip); with_reducible apply follows_mk)
    | exact Eq.refl _

theorem State.writeFctl_follows {p0 : State} (s : State) (f : FoldId) (v : Word) (hF : Follows p0 s) :
    Follows p0 (State.writeFctl s f v) := by
  unfold State.writeFctl
  repeat' first
    | with_reducible assumption | with_reducible apply State.writeFwdmax_follows
    | with_reducible apply State.writeMode_follows

end Sys2Proof.Machine
end

