-- ==== Sys2Proof/Laws/FollowsEpochs.lean ====
section
/-! SUPPORT. What the operations of Machine/Epochs.lean keep: the queue, the invariant, programmed OTP bits. -/

namespace Sys2Proof.Machine

theorem State.xchDeliver_follows {p0 : State} (s : State) (f : FoldId) (x : Nat) (t : Nat) (data : List Byte) (hF : Follows p0 s) :
    Follows p0 (State.xchDeliver s f x t data) := by
  unfold State.xchDeliver
  try dsimp only
  repeat' first
    | with_reducible assumption | with_reducible apply follows_ite
    | ((conv => arg 2; arg 45; skip); with_reducible apply follows_mk) | exact Eq.refl _

theorem State.releaseDest_follows {p0 : State} (s : State) (f : FoldId) (dest : Half) (t : Nat) (unchecked : Bool) (outs : List HeldOutput) (hF : Follows p0 s) :
    Follows p0 (State.releaseDest s f dest t unchecked outs) := by
  unfold State.releaseDest
  try dsimp only
  repeat' first
    | with_reducible assumption | intro _ | with_reducible apply follows_foldl | with_reducible apply follows_ite
    | with_reducible apply State.applyOutput_follows | with_reducible apply State.releaseQueue_follows
    | with_reducible apply State.xchDeliver_follows | ((conv => arg 2; arg 45; skip); with_reducible apply follows_mk)
    | with_reducible exact Eq.refl _ | exact Eq.refl _ | split

theorem State.releaseSet_follows {p0 : State} (s : State) (f : FoldId) (t : Nat) (unchecked : Bool) (outs : List HeldOutput) (hF : Follows p0 s) :
    Follows p0 (State.releaseSet s f t unchecked outs) := by
  unfold State.releaseSet
  try dsimp only
  repeat' first
    | with_reducible assumption | intro _ | with_reducible apply follows_foldl | with_reducible apply follows_ite
    | with_reducible apply State.releaseDest_follows | ((conv => arg 2; arg 45; skip); with_reducible apply follows_mk)
    | with_reducible exact Eq.refl _ | exact Eq.refl _ | split

theorem State.releaseAt_follows {p0 : State} (s : State) (f : FoldId) (n : Nat) (hF : Follows p0 s) :
    Follows p0 (State.releaseAt s f n) := by
  unfold State.releaseAt
  try dsimp only
  repeat' first
    | with_reducible assumption | with_reducible apply follows_ite | with_reducible apply State.recordSent_follows
    | with_reducible apply State.releaseSet_follows | with_reducible apply State.setFold_follows
    | with_reducible apply State.setReg_follows | ((conv => arg 2; arg 45; skip); with_reducible apply follows_mk)
    | exact Eq.refl _

theorem State.rootBytes_follows {p0 : State} (s : State) (f : FoldId) (hF : Follows p0 s) :
    Follows p0 (State.rootBytes s f).1 := by
  unfold State.rootBytes
  try dsimp only
  repeat' first
    | with_reducible assumption | with_reducible apply follows_ite | with_reducible apply State.decodeAccess_follows
    | ((conv => arg 2; arg 45; skip); with_reducible apply follows_mk) | exact Eq.refl _ | split

theorem State.rootBytes_follows_eq {p0 t : State} {x : Option (List Byte)} {s : State} {f : FoldId} (e0 : State.rootBytes s f = (t, x)) (hF : Follows p0 s) : Follows p0 t := by
  have w := State.rootBytes_follows s f hF
  rw [e0] at w
  exact w

theorem State.wakeFold_follows {p0 : State} (s : State) (f : FoldId) (hF : Follows p0 s) :
    Follows p0 (State.wakeFold s f) := by
  unfold State.wakeFold
  try dsimp only
  repeat' first
    | with_reducible assumption | intro _ | with_reducible apply follows_foldl | with_reducible apply follows_ite
    | with_reducible apply State.wakeSpan_follows | ((conv => arg 2; arg 45; skip); with_reducible apply follows_mk)
    | with_reducible exact Eq.refl _ | exact Eq.refl _ | split

theorem State.pushRoot_follows {p0 : State} (s : State) (f : FoldId) (n : Nat) (hF : Follows p0 s) :
    Follows p0 (State.pushRoot s f n) := by
  unfold State.pushRoot
  try dsimp only
  repeat' first
    | with_reducible assumption | with_reducible apply follows_ite | with_reducible apply State.newIdent_follows
    | with_reducible apply State.pushOverflow_follows | with_reducible apply State.reportU_follows
    | with_reducible apply State.rootBytes_follows | with_reducible apply State.setFold_follows
    | with_reducible apply State.wakeFold_follows | ((conv => arg 2; arg 45; skip); with_reducible apply follows_mk)
    | exact Eq.refl _ | split

theorem State.overrun_follows {p0 : State} (s : State) (f : FoldId) (hF : Follows p0 s) :
    Follows p0 (State.overrun s f) := by
  unfold State.overrun
  repeat' first
    | with_reducible assumption | with_reducible apply State.setReg_follows

theorem State.bindXch_follows {p0 : State} (s : State) (f : FoldId) (n : Nat) (hF : Follows p0 s) :
    Follows p0 (State.bindXch s f n) := by
  unfold State.bindXch
  try dsimp only
  repeat' first
    | with_reducible assumption | with_reducible apply follows_ite
    | ((conv => arg 2; arg 45; skip); with_reducible apply follows_mk) | exact Eq.refl _

theorem State.markUnchecked_follows {p0 : State} (s : State) (f : FoldId) (n : Nat) (hF : Follows p0 s) :
    Follows p0 (State.markUnchecked s f n) := by
  unfold State.markUnchecked
  repeat' first
    | with_reducible assumption | with_reducible apply State.setFold_follows

theorem State.epochBoundary_follows {p0 : State} (s : State) (f : FoldId) (hF : Follows p0 s) :
    Follows p0 (State.epochBoundary s f) := by
  unfold State.epochBoundary
  try dsimp only
  repeat' first
    | with_reducible assumption | with_reducible apply follows_ite | with_reducible apply State.bindInputs_follows
    | with_reducible apply State.bindXch_follows | with_reducible apply State.dmaEdge_follows
    | with_reducible apply State.edge_follows | with_reducible apply State.levelWaits_follows
    | with_reducible apply State.markUnchecked_follows | with_reducible apply State.modeAtBoundary_follows
    | with_reducible apply State.overrun_follows | with_reducible apply State.pushRoot_follows
    | with_reducible apply State.releaseAt_follows | with_reducible apply State.setFold_follows
    | with_reducible apply State.sigMissing_follows | ((conv => arg 2; arg 45; skip); with_reducible apply follows_mk)
    | exact Eq.refl _

theorem State.writeEpCtl_follows {p0 : State} (s : State) (v : Word) (hF : Follows p0 s) :
    Follows p0 (State.writeEpCtl s v) := by
  unfold State.writeEpCtl
  try dsimp only
  repeat' first
    | with_reducible assumption | with_reducible apply follows_ite | with_reducible apply State.badWrite_follows
    | with_reducible apply State.loadTime_follows | with_reducible apply State.setRate_follows
    | with_reducible apply State.setReg_follows | ((conv => arg 2; arg 45; skip); with_reducible apply follows_mk)
    | exact Eq.refl _

theorem State.ptpMessage_follows {p0 : State} (s : State) (offset : ℤ) (hF : Follows p0 s) :
    Follows p0 (State.ptpMessage s offset) := by
  unfold State.ptpMessage
  try dsimp only
  repeat' first
    | with_reducible assumption | with_reducible apply follows_ite | with_reducible apply State.corrected_follows
    | ((conv => arg 2; arg 45; skip); with_reducible apply follows_mk) | exact Eq.refl _

theorem State.holdover_follows {p0 : State} (s : State) (hF : Follows p0 s) :
    Follows p0 (State.holdover s) := by
  unfold State.holdover
  try dsimp only
  repeat' first
    | with_reducible assumption | with_reducible apply follows_ite | with_reducible apply State.reportU_follows
    | with_reducible apply State.setReg_follows | ((conv => arg 2; arg 45; skip); with_reducible apply follows_mk)
    | exact Eq.refl _

theorem State.writeFcfg_follows {p0 : State} (s : State) (f : FoldId) (v : Word) (hF : Follows p0 s) :
    Follows p0 (State.writeFcfg s f v) := by
  unfold State.writeFcfg
  try dsimp only
  repeat' first
    | with_reducible assumption | with_reducible apply follows_ite | with_reducible apply State.badWrite_follows
    | with_reducible apply State.setReg_follows | ((conv => arg 2; arg 45; skip); with_reducible apply follows_mk)
    | exact Eq.refl _

end Sys2Proof.Machine
end

