-- ==== Sys2Proof/Laws/FollowsPowerOps.lean ====
section
/-! SUPPORT. What the operations of Machine/PowerOps.lean keep: the queue, the invariant, programmed OTP bits. -/

namespace Sys2Proof.Machine

theorem State.restEntry_follows {p0 : State} (s : State) (sp : SpanId) (hF : Follows p0 s) :
    Follows p0 (State.restEntry s sp) := by
  unfold State.restEntry
  try dsimp only
  repeat' first
    | with_reducible assumption | with_reducible apply follows_ite | with_reducible apply State.setSpan_follows
    | ((conv => arg 2; arg 45; skip); with_reducible apply follows_mk) | exact Eq.refl _

theorem State.retain_follows {p0 : State} (s : State) (sp : SpanId) (hF : Follows p0 s) :
    Follows p0 (State.retain s sp) := by
  unfold State.retain
  try dsimp only
  repeat' first
    | with_reducible assumption | intro _ | with_reducible apply follows_foldl | with_reducible apply follows_ite
    | with_reducible apply State.retainFold_follows | with_reducible apply State.setRet_follows
    | ((conv => arg 2; arg 45; skip); with_reducible apply follows_mk) | with_reducible exact Eq.refl _
    | exact Eq.refl _ | split

theorem State.unretain_follows {p0 : State} (s : State) (sp : SpanId) (hF : Follows p0 s) :
    Follows p0 (State.unretain s sp) := by
  unfold State.unretain
  try dsimp only
  repeat' first
    | with_reducible assumption | intro _ | with_reducible apply follows_foldl | with_reducible apply follows_ite
    | with_reducible apply State.setRet_follows | with_reducible apply State.unretainFold_follows
    | ((conv => arg 2; arg 45; skip); with_reducible apply follows_mk) | with_reducible exact Eq.refl _
    | exact Eq.refl _ | split

theorem State.startTests_follows {p0 : State} (s : State) (hF : Follows p0 s) :
    Follows p0 (State.startTests s) := by
  unfold State.startTests
  try dsimp only
  repeat' first
    | with_reducible assumption | with_reducible apply follows_ite
    | ((conv => arg 2; arg 45; skip); with_reducible apply follows_mk) | exact Eq.refl _

theorem State.restReached_follows {p0 : State} (s : State) (sp : SpanId) (hF : Follows p0 s) :
    Follows p0 (State.restReached s sp) := by
  unfold State.restReached
  try dsimp only
  repeat' first
    | with_reducible assumption | with_reducible apply follows_ite | with_reducible apply State.retain_follows
    | with_reducible apply State.setSpan_follows | with_reducible apply State.startTests_follows
    | with_reducible apply State.wdPause_follows | ((conv => arg 2; arg 45; skip); with_reducible apply follows_mk)
    | exact Eq.refl _ | split

theorem State.wakeDone_follows {p0 : State} (s : State) (sp : SpanId) (hF : Follows p0 s) :
    Follows p0 (State.wakeDone s sp) := by
  unfold State.wakeDone
  try dsimp only
  repeat' first
    | with_reducible assumption | with_reducible apply follows_ite | with_reducible apply State.setSpan_follows
    | with_reducible apply State.unretain_follows | with_reducible apply State.wdPause_follows
    | ((conv => arg 2; arg 45; skip); with_reducible apply follows_mk) | exact Eq.refl _ | split

theorem State.writePwrctl_follows {p0 : State} (s : State) (sp : SpanId) (v : Word) (hF : Follows p0 s) :
    Follows p0 (State.writePwrctl s sp v) := by
  unfold State.writePwrctl
  try dsimp only
  repeat' first
    | with_reducible assumption | with_reducible apply follows_ite | with_reducible apply State.setReg_follows
    | with_reducible apply State.wakeSpan_follows | ((conv => arg 2; arg 45; skip); with_reducible apply follows_mk)
    | exact Eq.refl _

theorem State.samplePower_follows {p0 : State} (s : State) (hF : Follows p0 s) :
    Follows p0 (State.samplePower s) := by
  unfold State.samplePower
  try dsimp only
  repeat' first
    | with_reducible assumption | with_reducible apply follows_ite
    | ((conv => arg 2; arg 45; skip); with_reducible apply follows_mk) | exact Eq.refl _

theorem State.setWant_follows {p0 : State} (s : State) (sp : SpanId) (n : Nat) (hF : Follows p0 s) :
    Follows p0 (State.setWant s sp n) := by
  unfold State.setWant
  try dsimp only
  repeat' first
    | with_reducible assumption | with_reducible apply follows_ite
    | ((conv => arg 2; arg 45; skip); with_reducible apply follows_mk) | exact Eq.refl _

theorem State.overBudget_follows {p0 : State} (s : State) (f : FoldId) (hF : Follows p0 s) :
    Follows p0 (State.overBudget s f) := by
  unfold State.overBudget
  repeat' first
    | with_reducible assumption | with_reducible apply State.reportU_follows | with_reducible apply State.setReg_follows

theorem State.judgeFold_follows {p0 : State} (s : State) (f : FoldId) (hF : Follows p0 s) :
    Follows p0 (State.judgeFold s f) := by
  unfold State.judgeFold
  try dsimp only
  repeat' first
    | with_reducible assumption | intro _ | with_reducible apply follows_foldl | with_reducible apply follows_ite
    | with_reducible apply State.overBudget_follows | with_reducible apply State.setReg_follows
    | with_reducible apply State.setWant_follows | ((conv => arg 2; arg 45; skip); with_reducible apply follows_mk)
    | with_reducible exact Eq.refl _ | exact Eq.refl _ | split

theorem State.setHeat_follows {p0 : State} (s : State) (sp : SpanId) (n : Nat) (heat : Nat) (hF : Follows p0 s) :
    Follows p0 (State.setHeat s sp n heat) := by
  unfold State.setHeat
  try dsimp only
  repeat' first
    | with_reducible assumption | intro _ | with_reducible apply follows_foldl | with_reducible apply follows_ite
    | with_reducible apply follows_ite_fst | with_reducible apply State.setWant_follows
    | with_reducible apply follows_foldl_fst | ((conv => arg 2; arg 45; skip); with_reducible apply follows_mk)
    | ((conv => arg 2; arg 45; skip); with_reducible apply follows_mk_mem) | with_reducible exact Eq.refl _
    | exact Eq.refl _ | with_reducible exact follows_memOk (by assumption) (by assumption)
    | with_reducible apply memFlip_wf | with_reducible apply memWrite_wf | with_reducible apply memWipe_wf
    | with_reducible apply filter_wf | split | (rename_i e; injection e; done)
    | (rename_i e; injection e with e; subst e) | (rename_i e; injection e with e e2; subst e)
    | (rename_i e; injection e with e; revert e; intro _) | (rename_i e; split at e <;> (revert e; intro _))
    | (rename_i e; rw [Option.map_eq_some_iff] at e; obtain ⟨_, _, rfl⟩ := e) | dsimp only | (rename_i e; clear e)

theorem State.judgeHeat_follows {p0 : State} (s : State) (sp : SpanId) (hF : Follows p0 s) :
    Follows p0 (State.judgeHeat s sp) := by
  unfold State.judgeHeat
  try dsimp only
  repeat' first
    | with_reducible assumption | intro _ | with_reducible apply follows_foldl | with_reducible apply follows_ite
    | with_reducible apply follows_ite_fst | with_reducible apply State.setHeat_follows
    | with_reducible apply follows_foldl_fst | ((conv => arg 2; arg 45; skip); with_reducible apply follows_mk)
    | ((conv => arg 2; arg 45; skip); with_reducible apply follows_mk_mem) | with_reducible exact Eq.refl _
    | exact Eq.refl _ | with_reducible exact follows_memOk (by assumption) (by assumption)
    | with_reducible apply memFlip_wf | with_reducible apply memWrite_wf | with_reducible apply memWipe_wf
    | with_reducible apply filter_wf | split | (rename_i e; injection e; done)
    | (rename_i e; injection e with e; subst e) | (rename_i e; injection e with e e2; subst e)
    | (rename_i e; injection e with e; revert e; intro _) | (rename_i e; split at e <;> (revert e; intro _))
    | (rename_i e; rw [Option.map_eq_some_iff] at e; obtain ⟨_, _, rfl⟩ := e) | dsimp only | (rename_i e; clear e)

theorem State.awaitSteps_follows {p0 : State} (s : State) (hF : Follows p0 s) :
    Follows p0 (State.awaitSteps s) := by
  unfold State.awaitSteps
  try dsimp only
  repeat' first
    | with_reducible assumption | intro _ | with_reducible apply follows_foldl | with_reducible apply follows_ite
    | with_reducible apply follows_ite_fst | with_reducible apply follows_foldl_fst
    | ((conv => arg 2; arg 45; skip); with_reducible apply follows_mk)
    | ((conv => arg 2; arg 45; skip); with_reducible apply follows_mk_mem) | with_reducible exact Eq.refl _
    | exact Eq.refl _ | with_reducible exact follows_memOk (by assumption) (by assumption)
    | with_reducible apply memFlip_wf | with_reducible apply memWrite_wf | with_reducible apply memWipe_wf
    | with_reducible apply filter_wf | split | (rename_i e; injection e; done)
    | (rename_i e; injection e with e; subst e) | (rename_i e; injection e with e e2; subst e)
    | (rename_i e; injection e with e; revert e; intro _) | (rename_i e; split at e <;> (revert e; intro _))
    | (rename_i e; rw [Option.map_eq_some_iff] at e; obtain ⟨_, _, rfl⟩ := e) | dsimp only | (rename_i e; clear e)

theorem State.windowEnd_follows {p0 : State} (s : State) (hF : Follows p0 s) :
    Follows p0 (State.windowEnd s) := by
  unfold State.windowEnd
  try dsimp only
  repeat' first
    | with_reducible assumption | intro _ | with_reducible apply follows_foldl | with_reducible apply follows_ite
    | with_reducible apply State.awaitSteps_follows | with_reducible apply State.judgeFold_follows
    | with_reducible apply State.judgeHeat_follows | with_reducible apply State.setReg_follows
    | ((conv => arg 2; arg 45; skip); with_reducible apply follows_mk) | with_reducible exact Eq.refl _
    | exact Eq.refl _ | split

theorem State.clockStep_follows {p0 : State} (s : State) (sp : SpanId) (hF : Follows p0 s) :
    Follows p0 (State.clockStep s sp) := by
  unfold State.clockStep
  try dsimp only
  repeat' first
    | with_reducible assumption | with_reducible apply follows_ite | with_reducible apply State.setReg_follows
    | ((conv => arg 2; arg 45; skip); with_reducible apply follows_mk) | exact Eq.refl _

theorem State.fullSpeed_follows {p0 : State} (s : State) (hF : Follows p0 s) :
    Follows p0 (State.fullSpeed s) := by
  unfold State.fullSpeed
  try dsimp only
  repeat' first
    | with_reducible assumption | intro _ | with_reducible apply follows_foldl | with_reducible apply follows_ite
    | with_reducible apply follows_ite_fst | with_reducible apply follows_foldl_fst
    | ((conv => arg 2; arg 45; skip); with_reducible apply follows_mk)
    | ((conv => arg 2; arg 45; skip); with_reducible apply follows_mk_mem) | with_reducible exact Eq.refl _
    | exact Eq.refl _ | with_reducible exact follows_memOk (by assumption) (by assumption)
    | with_reducible apply memFlip_wf | with_reducible apply memWrite_wf | with_reducible apply memWipe_wf
    | with_reducible apply filter_wf | split | (rename_i e; injection e; done)
    | (rename_i e; injection e with e; subst e) | (rename_i e; injection e with e e2; subst e)
    | (rename_i e; injection e with e; revert e; intro _) | (rename_i e; split at e <;> (revert e; intro _))
    | (rename_i e; rw [Option.map_eq_some_iff] at e; obtain ⟨_, _, rfl⟩ := e) | dsimp only | (rename_i e; clear e)

theorem State.tempReading_follows {p0 : State} (s : State) (vals : List Half) (hF : Follows p0 s) :
    Follows p0 (State.tempReading s vals) := by
  unfold State.tempReading
  try dsimp only
  repeat' first
    | with_reducible assumption | intro _ | with_reducible apply follows_foldl | with_reducible apply follows_ite
    | with_reducible apply State.reportU_follows | with_reducible apply State.setReg_follows
    | ((conv => arg 2; arg 45; skip); with_reducible apply follows_mk) | with_reducible exact Eq.refl _
    | exact Eq.refl _ | split

theorem State.writePwrCtl_follows {p0 : State} (s : State) (v : Word) (hF : Follows p0 s) :
    Follows p0 (State.writePwrCtl s v) := by
  unfold State.writePwrCtl
  try dsimp only
  repeat' first
    | with_reducible assumption | with_reducible apply follows_ite | with_reducible apply State.badWrite_follows
    | with_reducible apply State.setReg_follows | ((conv => arg 2; arg 45; skip); with_reducible apply follows_mk)
    | exact Eq.refl _

theorem State.clockWindow_follows {p0 : State} (s : State) (b : ClockBranch) (count : Nat) (hF : Follows p0 s) :
    Follows p0 (State.clockWindow s b count) := by
  unfold State.clockWindow
  try dsimp only
  repeat' first
    | with_reducible assumption | with_reducible apply follows_ite | with_reducible apply State.reportU_follows
    | ((conv => arg 2; arg 45; skip); with_reducible apply follows_mk) | exact Eq.refl _ | split

theorem State.pllLoss_follows {p0 : State} (s : State) (n : Fin 4) (hF : Follows p0 s) :
    Follows p0 (State.pllLoss s n) := by
  unfold State.pllLoss
  repeat' first
    | with_reducible assumption | with_reducible apply State.reportU_follows | with_reducible apply State.setReg_follows

theorem State.aonClockLoss_follows {p0 : State} (s : State) (hF : Follows p0 s) :
    Follows p0 (State.aonClockLoss s) := by
  unfold State.aonClockLoss
  repeat' first
    | with_reducible assumption | with_reducible apply State.reportU_follows | with_reducible apply State.setReg_follows

theorem State.vaonFault_follows {p0 : State} (s : State) (hF : Follows p0 s) :
    Follows p0 (State.vaonFault s) := by
  unfold State.vaonFault
  try dsimp only
  repeat' first
    | with_reducible assumption | with_reducible apply follows_ite | with_reducible apply State.reportU_follows
    | ((conv => arg 2; arg 45; skip); with_reducible apply follows_mk) | exact Eq.refl _

theorem State.supplyFault_follows {p0 : State} (s : State) (hF : Follows p0 s) :
    Follows p0 (State.supplyFault s) := by
  unfold State.supplyFault
  try dsimp only
  repeat' first
    | with_reducible assumption | with_reducible apply follows_ite | with_reducible apply State.reportU_follows
    | ((conv => arg 2; arg 45; skip); with_reducible apply follows_mk) | exact Eq.refl _

theorem State.writeBellCtl_follows {p0 : State} (s : State) (v : Word) (hF : Follows p0 s) :
    Follows p0 (State.writeBellCtl s v) := by
  unfold State.writeBellCtl
  repeat' first
    | with_reducible assumption | with_reducible apply State.setReg_follows

theorem State.bellTick_follows {p0 : State} (s : State) (hF : Follows p0 s) :
    Follows p0 (State.bellTick s) := by
  unfold State.bellTick
  try dsimp only
  repeat' first
    | with_reducible assumption | intro _ | with_reducible apply follows_foldl | with_reducible apply follows_ite
    | with_reducible apply State.dmaEdge_follows | with_reducible apply State.edge_follows
    | ((conv => arg 2; arg 45; skip); with_reducible apply follows_mk) | with_reducible exact Eq.refl _
    | exact Eq.refl _ | split

theorem State.bellAlarm_follows {p0 : State} (s : State) (hF : Follows p0 s) :
    Follows p0 (State.bellAlarm s) := by
  unfold State.bellAlarm
  try dsimp only
  repeat' first
    | with_reducible assumption | with_reducible apply follows_ite | with_reducible apply State.wakeDevice_follows
    | ((conv => arg 2; arg 45; skip); with_reducible apply follows_mk) | exact Eq.refl _

theorem State.wakeinRise_follows {p0 : State} (s : State) (hF : Follows p0 s) :
    Follows p0 (State.wakeinRise s) := by
  unfold State.wakeinRise
  try dsimp only
  repeat' first
    | with_reducible assumption | with_reducible apply follows_ite | with_reducible apply State.wakeDevice_follows
    | ((conv => arg 2; arg 45; skip); with_reducible apply follows_mk) | exact Eq.refl _

theorem State.hardFloor_follows {p0 : State} (s : State) (sp : SpanId) (hF : Follows p0 s) :
    Follows p0 (State.hardFloor s sp) := by
  unfold State.hardFloor
  repeat' first
    | with_reducible assumption | with_reducible apply State.reportU_follows | with_reducible apply State.setReg_follows
    | with_reducible apply State.stallSpan_follows

theorem State.floorCount_follows {p0 : State} (s : State) (sp : SpanId) (ms : List (Nat × Bool)) (hF : Follows p0 s) :
    Follows p0 (State.floorCount s sp ms) := by
  unfold State.floorCount
  try dsimp only
  repeat' first
    | with_reducible assumption | with_reducible apply follows_ite | with_reducible apply State.hardFloor_follows
    | ((conv => arg 2; arg 45; skip); with_reducible apply follows_mk) | exact Eq.refl _

theorem State.tallySlack_follows {p0 : State} (s : State) (sp : SpanId) (v : Word) (hF : Follows p0 s) :
    Follows p0 (State.tallySlack s sp v) := by
  unfold State.tallySlack
  try dsimp only
  repeat' first
    | with_reducible assumption | intro _ | with_reducible apply follows_foldl | with_reducible apply follows_ite
    | with_reducible apply follows_ite_fst | with_reducible apply State.floorCount_follows
    | with_reducible apply State.setReg_follows | with_reducible apply follows_foldl_fst
    | ((conv => arg 2; arg 45; skip); with_reducible apply follows_mk)
    | ((conv => arg 2; arg 45; skip); with_reducible apply follows_mk_mem) | with_reducible exact Eq.refl _
    | exact Eq.refl _ | with_reducible exact follows_memOk (by assumption) (by assumption)
    | with_reducible apply memFlip_wf | with_reducible apply memWrite_wf | with_reducible apply memWipe_wf
    | with_reducible apply filter_wf | split | (rename_i e; injection e; done)
    | (rename_i e; injection e with e; subst e) | (rename_i e; injection e with e e2; subst e)
    | (rename_i e; injection e with e; revert e; intro _) | (rename_i e; split at e <;> (revert e; intro _))
    | (rename_i e; rw [Option.map_eq_some_iff] at e; obtain ⟨_, _, rfl⟩ := e) | dsimp only | (rename_i e; clear e)

theorem State.tallySram_follows {p0 : State} (s : State) (sp : SpanId) (scratch : BitVec 4) (group : BitVec 4) (hF : Follows p0 s) :
    Follows p0 (State.tallySram s sp scratch group) := by
  unfold State.tallySram
  try dsimp only
  repeat' first
    | with_reducible assumption | with_reducible apply follows_ite | with_reducible apply State.floorCount_follows
    | with_reducible apply State.reportU_follows | with_reducible apply State.setReg_follows
    | ((conv => arg 2; arg 45; skip); with_reducible apply follows_mk) | exact Eq.refl _

theorem State.tallyBand_follows {p0 : State} (s : State) (sp : SpanId) (hF : Follows p0 s) :
    Follows p0 (State.tallyBand s sp) := by
  unfold State.tallyBand
  try dsimp only
  repeat' first
    | with_reducible assumption | with_reducible apply follows_ite | with_reducible apply State.setReg_follows
    | with_reducible apply State.vaultDecode_follows | ((conv => arg 2; arg 45; skip); with_reducible apply follows_mk)
    | exact Eq.refl _

theorem State.tallyRetire_follows {p0 : State} (s : State) (sp : SpanId) (v : Word) (hF : Follows p0 s) :
    Follows p0 (State.tallyRetire s sp v) := by
  unfold State.tallyRetire
  try dsimp only
  repeat' first
    | with_reducible assumption | with_reducible apply follows_ite | with_reducible apply State.setReg_follows
    | ((conv => arg 2; arg 45; skip); with_reducible apply follows_mk) | exact Eq.refl _

theorem State.readOut_follows {p0 : State} (s : State) (a : Nat) (v : Word) (hF : Follows p0 s) :
    Follows p0 (State.readOut s a v) := by
  unfold State.readOut
  repeat' first
    | with_reducible assumption | with_reducible apply State.emit_follows

theorem State.tallySmin_follows {p0 : State} (s : State) (sp : SpanId) (hF : Follows p0 s) :
    Follows p0 (State.tallySmin s sp) := by
  unfold State.tallySmin
  repeat' first
    | with_reducible assumption | with_reducible apply State.readOut_follows | with_reducible apply State.setReg_follows

theorem State.bistRefused_follows {p0 : State} (s : State) (hF : Follows p0 s) :
    Follows p0 (State.bistRefused s) := by
  unfold State.bistRefused
  repeat' first
    | with_reducible assumption | with_reducible apply State.badWrite_follows
    | with_reducible apply State.setReg_follows

theorem State.bistStart_follows {p0 : State} (s : State) (v : Word) (hF : Follows p0 s) :
    Follows p0 (State.bistStart s v) := by
  unfold State.bistStart
  try dsimp only
  repeat' first
    | with_reducible assumption | intro _ | with_reducible apply follows_foldl | with_reducible apply follows_ite
    | with_reducible apply follows_ite_fst | with_reducible apply State.bistRefused_follows
    | with_reducible apply State.setYoke_follows | with_reducible apply follows_foldl_fst
    | ((conv => arg 2; arg 45; skip); with_reducible apply follows_mk)
    | ((conv => arg 2; arg 45; skip); with_reducible apply follows_mk_mem) | with_reducible exact Eq.refl _
    | exact Eq.refl _ | with_reducible exact follows_memOk (by assumption) (by assumption)
    | with_reducible apply memFlip_wf | with_reducible apply memWrite_wf | with_reducible apply memWipe_wf
    | with_reducible apply filter_wf | split | (rename_i e; injection e; done)
    | (rename_i e; injection e with e; subst e) | (rename_i e; injection e with e e2; subst e)
    | (rename_i e; injection e with e; revert e; intro _) | (rename_i e; split at e <;> (revert e; intro _))
    | (rename_i e; rw [Option.map_eq_some_iff] at e; obtain ⟨_, _, rfl⟩ := e) | dsimp only | (rename_i e; clear e)

theorem State.bistBegin_follows {p0 : State} (s : State) (y : YokeId) (hF : Follows p0 s) :
    Follows p0 (State.bistBegin s y) := by
  unfold State.bistBegin
  try dsimp only
  repeat' first
    | with_reducible assumption | intro _ | with_reducible apply follows_foldl | with_reducible apply follows_ite
    | with_reducible apply follows_ite_fst | with_reducible apply State.moveDeque_follows
    | with_reducible apply State.offerAgain_follows | with_reducible apply State.pushOrWait_follows
    | with_reducible apply State.setSpan_follows | with_reducible apply State.setYoke_follows
    | with_reducible apply follows_foldl_fst | ((conv => arg 2; arg 45; skip); with_reducible apply follows_mk)
    | ((conv => arg 2; arg 45; skip); with_reducible apply follows_mk_mem) | with_reducible exact Eq.refl _
    | exact Eq.refl _ | with_reducible exact follows_memOk (by assumption) (by assumption)
    | with_reducible apply memFlip_wf | with_reducible apply memWrite_wf | with_reducible apply memWipe_wf
    | with_reducible apply filter_wf | split | (rename_i e; injection e; done)
    | (rename_i e; injection e with e; subst e) | (rename_i e; injection e with e e2; subst e)
    | (rename_i e; injection e with e; revert e; intro _) | (rename_i e; split at e <;> (revert e; intro _))
    | (rename_i e; rw [Option.map_eq_some_iff] at e; obtain ⟨_, _, rfl⟩ := e) | dsimp only | (rename_i e; clear e)

theorem State.bistDone_follows {p0 : State} (s : State) (y : YokeId) (pass : Bool) (hF : Follows p0 s) :
    Follows p0 (State.bistDone s y pass) := by
  unfold State.bistDone
  try dsimp only
  repeat' first
    | with_reducible assumption | with_reducible apply follows_ite | with_reducible apply State.reportU_follows
    | with_reducible apply State.setReg_follows | with_reducible apply State.setYoke_follows
    | with_reducible apply State.spanLost_follows | ((conv => arg 2; arg 45; skip); with_reducible apply follows_mk)
    | exact Eq.refl _ | split

theorem State.memTest_follows {p0 : State} (s : State) (v : Word) (hF : Follows p0 s) :
    Follows p0 (State.memTest s v) := by
  unfold State.memTest
  try dsimp only
  repeat' first
    | with_reducible assumption | with_reducible apply follows_ite | with_reducible apply State.startTests_follows
    | ((conv => arg 2; arg 45; skip); with_reducible apply follows_mk) | exact Eq.refl _

theorem State.memFailed_follows {p0 : State} (s : State) (unit : Word) (hF : Follows p0 s) :
    Follows p0 (State.memFailed s unit) := by
  unfold State.memFailed
  try dsimp only
  repeat' first
    | with_reducible assumption | with_reducible apply follows_ite | with_reducible apply State.reportU_follows
    | with_reducible apply State.setReg_follows | ((conv => arg 2; arg 45; skip); with_reducible apply follows_mk)
    | exact Eq.refl _

theorem State.memTestDone_follows {p0 : State} (s : State) (unit : Word) (pass : Bool) (hF : Follows p0 s) :
    Follows p0 (State.memTestDone s unit pass) := by
  unfold State.memTestDone
  try dsimp only
  repeat' first
    | with_reducible assumption | with_reducible apply follows_ite | with_reducible apply State.memFailed_follows
    | with_reducible apply State.setReg_follows | with_reducible apply State.startTests_follows
    | ((conv => arg 2; arg 45; skip); with_reducible apply follows_mk) | exact Eq.refl _ | split

theorem State.startupDone_follows {p0 : State} (s : State) (deferred : Bool) (yokes0 : List YokeId) (units0 : List Word) (hF : Follows p0 s) :
    Follows p0 (State.startupDone s deferred yokes0 units0) := by
  unfold State.startupDone
  try dsimp only
  repeat' first
    | with_reducible assumption | intro _ | with_reducible apply follows_foldl | with_reducible apply follows_ite
    | with_reducible apply State.groupWipeDone_follows | with_reducible apply State.memFailed_follows
    | with_reducible apply State.reportU_follows | with_reducible apply State.setYoke_follows
    | with_reducible apply State.spanLost_follows | with_reducible apply State.spanWipeDone_follows
    | ((conv => arg 2; arg 45; skip); with_reducible apply follows_mk) | with_reducible exact Eq.refl _
    | exact Eq.refl _ | split

theorem State.droverTest_follows {p0 : State} (s : State) (c : Fin 3) (hF : Follows p0 s) :
    Follows p0 (State.droverTest s c) := by
  unfold State.droverTest
  try dsimp only
  repeat' first
    | with_reducible assumption | with_reducible apply follows_ite
    | ((conv => arg 2; arg 45; skip); with_reducible apply follows_mk) | exact Eq.refl _

theorem State.droverTestDone_follows {p0 : State} (s : State) (hF : Follows p0 s) :
    Follows p0 (State.droverTestDone s) := by
  unfold State.droverTestDone
  try dsimp only
  repeat' first
    | with_reducible assumption | with_reducible apply follows_ite
    | ((conv => arg 2; arg 45; skip); with_reducible apply follows_mk) | exact Eq.refl _

end Sys2Proof.Machine
end

