-- ==== Sys2Proof/Laws/FollowsServiceOps.lean ====
section
/-! SUPPORT. What the operations of Machine/ServiceOps.lean keep: the queue, the invariant, programmed OTP bits. -/

namespace Sys2Proof.Machine

theorem State.setAlert_follows {p0 : State} (s : State) (v : Byte) (hF : Follows p0 s) :
    Follows p0 (State.setAlert s v) := by
  unfold State.setAlert
  try dsimp only
  repeat' first
    | with_reducible assumption | with_reducible apply follows_ite
    | ((conv => arg 2; arg 45; skip); with_reducible apply follows_mk) | exact Eq.refl _

theorem State.smbusStatus_follows {p0 : State} (s : State) (hF : Follows p0 s) :
    Follows p0 (State.smbusStatus s) := by
  unfold State.smbusStatus
  try dsimp only
  repeat' first
    | with_reducible assumption | with_reducible apply follows_ite | with_reducible apply State.emit_follows
    | ((conv => arg 2; arg 45; skip); with_reducible apply follows_mk) | exact Eq.refl _

theorem State.smbusRead_follows {p0 : State} (s : State) (hF : Follows p0 s) :
    Follows p0 (State.smbusRead s) := by
  unfold State.smbusRead
  try dsimp only
  repeat' first
    | with_reducible assumption | with_reducible apply follows_ite | with_reducible apply State.emit_follows
    | with_reducible apply State.setAlert_follows | ((conv => arg 2; arg 45; skip); with_reducible apply follows_mk)
    | exact Eq.refl _

theorem State.smbusWrite_follows {p0 : State} (s : State) (bs : List Byte) (pec : Option Byte) (hF : Follows p0 s) :
    Follows p0 (State.smbusWrite s bs pec) := by
  unfold State.smbusWrite
  try dsimp only
  repeat' first
    | with_reducible assumption | with_reducible apply follows_ite | with_reducible apply State.emit_follows
    | ((conv => arg 2; arg 45; skip); with_reducible apply follows_mk) | exact Eq.refl _

theorem State.smbusAlert_follows {p0 : State} (s : State) (hF : Follows p0 s) :
    Follows p0 (State.smbusAlert s) := by
  unfold State.smbusAlert
  try dsimp only
  repeat' first
    | with_reducible assumption | with_reducible apply follows_ite | with_reducible apply State.emit_follows
    | with_reducible apply State.setAlert_follows | ((conv => arg 2; arg 45; skip); with_reducible apply follows_mk)
    | exact Eq.refl _

theorem State.smbusAra_follows {p0 : State} (s : State) (hF : Follows p0 s) :
    Follows p0 (State.smbusAra s) := by
  unfold State.smbusAra
  try dsimp only
  repeat' first
    | with_reducible assumption | with_reducible apply follows_ite | with_reducible apply State.emit_follows
    | ((conv => arg 2; arg 45; skip); with_reducible apply follows_mk) | exact Eq.refl _

theorem State.smbusUnknown_follows {p0 : State} (s : State) (hF : Follows p0 s) :
    Follows p0 (State.smbusUnknown s) := by
  unfold State.smbusUnknown
  try dsimp only
  repeat' first
    | with_reducible assumption | with_reducible apply follows_ite | with_reducible apply State.emit_follows
    | ((conv => arg 2; arg 45; skip); with_reducible apply follows_mk) | exact Eq.refl _

theorem State.boundaryScan_follows {p0 : State} (s : State) (sel : TapIns) (shift : List Bool) (hF : Follows p0 s) :
    Follows p0 (State.boundaryScan s sel shift) := by
  unfold State.boundaryScan
  try dsimp only
  repeat' first
    | with_reducible assumption | intro _ | with_reducible apply follows_foldl | with_reducible apply follows_ite
    | with_reducible apply follows_ite_fst | with_reducible apply State.emit_follows
    | with_reducible apply follows_foldl_fst | ((conv => arg 2; arg 45; skip); with_reducible apply follows_mk)
    | ((conv => arg 2; arg 45; skip); with_reducible apply follows_mk_mem) | with_reducible exact Eq.refl _
    | exact Eq.refl _ | with_reducible exact follows_memOk (by assumption) (by assumption)
    | with_reducible apply memFlip_wf | with_reducible apply memWrite_wf | with_reducible apply memWipe_wf
    | with_reducible apply filter_wf | split | (rename_i e; injection e; done)
    | (rename_i e; injection e with e; subst e) | (rename_i e; injection e with e e2; subst e)
    | (rename_i e; injection e with e; revert e; intro _) | (rename_i e; split at e <;> (revert e; intro _))
    | (rename_i e; rw [Option.map_eq_some_iff] at e; obtain ⟨_, _, rfl⟩ := e) | dsimp only | (rename_i e; clear e)

theorem State.tapInstruction_follows {p0 : State} (s : State) (i : TapIns) (shift : List Bool) (hF : Follows p0 s) :
    Follows p0 (State.tapInstruction s i shift) := by
  unfold State.tapInstruction
  try dsimp only
  repeat' first
    | with_reducible assumption | with_reducible apply follows_ite | with_reducible apply State.boundaryScan_follows
    | with_reducible apply State.emit_follows | ((conv => arg 2; arg 45; skip); with_reducible apply follows_mk)
    | exact Eq.refl _

theorem State.serviceTurn_follows {p0 : State} (s : State) (f : FoldId) (answer : Option (Word × List Byte × List Byte)) (mailbox : Option (List Byte)) (hF : Follows p0 s) :
    Follows p0 (State.serviceTurn s f answer mailbox) := by
  unfold State.serviceTurn
  try dsimp only
  repeat' first
    | with_reducible assumption | with_reducible apply follows_ite | with_reducible apply State.emit_follows
    | with_reducible apply State.levelWaits_follows | with_reducible apply State.setFold_follows
    | ((conv => arg 2; arg 45; skip); with_reducible apply follows_mk) | exact Eq.refl _ | split

theorem State.mailboxAck_follows {p0 : State} (s : State) (f : FoldId) (hF : Follows p0 s) :
    Follows p0 (State.mailboxAck s f) := by
  unfold State.mailboxAck
  repeat' first
    | with_reducible assumption | with_reducible apply State.setFold_follows

end Sys2Proof.Machine
end

