-- ==== Sys2Proof/Laws/FollowsSecurity.lean ====
section
/-! SUPPORT. What the operations of Machine/Security.lean keep: the queue, the invariant, programmed OTP bits. -/

namespace Sys2Proof.Machine

theorem State.otpProgram_follows {p0 : State} (s : State) (v : Word) (bad : Byte) (hF : Follows p0 s) :
    Follows p0 (State.otpProgram s v bad) := by
  unfold State.otpProgram
  try dsimp only
  repeat' first
    | with_reducible assumption | with_reducible apply follows_ite | with_reducible apply State.badWrite_follows
    | with_reducible apply State.otpSet_follows | ((conv => arg 2; arg 45; skip); with_reducible apply follows_mk)
    | exact Eq.refl _

theorem State.wipeVault_follows {p0 : State} (s : State) (hF : Follows p0 s) :
    Follows p0 (State.wipeVault s) := by
  unfold State.wipeVault
  try dsimp only
  repeat' first
    | with_reducible assumption | intro _ | with_reducible apply follows_foldl | with_reducible apply follows_ite
    | with_reducible apply follows_ite_fst | with_reducible apply follows_foldl_fst
    | ((conv => arg 2; arg 45; skip); with_reducible apply follows_mk)
    | ((conv => arg 2; arg 45; skip); with_reducible apply follows_mk_mem) | with_reducible exact Eq.refl _
    | exact Eq.refl _ | with_reducible exact follows_memOk (by assumption) (by assumption)
    | with_reducible apply memFlip_wf | with_reducible apply memWrite_wf | with_reducible apply memWipe_wf
    | with_reducible apply filter_wf | split | (rename_i e; injection e; done)
    | (rename_i e; injection e with e; subst e) | (rename_i e; injection e with e e2; subst e)
    | (rename_i e; injection e with e; revert e; intro _) | (rename_i e; split at e <;> (revert e; intro _))
    | (rename_i e; rw [Option.map_eq_some_iff] at e; obtain ⟨_, _, rfl⟩ := e) | dsimp only | (rename_i e; clear e)

theorem State.freshKeys_follows {p0 : State} (s : State) (off : Nat) (n : Nat) (hF : Follows p0 s) :
    Follows p0 (State.freshKeys s off n) := by
  unfold State.freshKeys
  try dsimp only
  repeat' first
    | with_reducible assumption | intro _ | with_reducible apply follows_foldl | with_reducible apply follows_ite
    | with_reducible apply follows_ite_fst | with_reducible apply State.rawWrite_follows
    | with_reducible apply follows_foldl_fst | ((conv => arg 2; arg 45; skip); with_reducible apply follows_mk)
    | ((conv => arg 2; arg 45; skip); with_reducible apply follows_mk_mem) | with_reducible exact Eq.refl _
    | exact Eq.refl _ | with_reducible exact follows_memOk (by assumption) (by assumption)
    | with_reducible apply memFlip_wf | with_reducible apply memWrite_wf | with_reducible apply memWipe_wf
    | with_reducible apply filter_wf | split | (rename_i e; injection e; done)
    | (rename_i e; injection e with e; subst e) | (rename_i e; injection e with e e2; subst e)
    | (rename_i e; injection e with e; revert e; intro _) | (rename_i e; split at e <;> (revert e; intro _))
    | (rename_i e; rw [Option.map_eq_some_iff] at e; obtain ⟨_, _, rfl⟩ := e) | dsimp only | (rename_i e; clear e)

theorem State.wipeKeys_follows {p0 : State} (s : State) (hF : Follows p0 s) :
    Follows p0 (State.wipeKeys s) := by
  unfold State.wipeKeys
  try dsimp only
  repeat' first
    | with_reducible assumption | with_reducible apply follows_ite | with_reducible apply State.freshKeys_follows
    | ((conv => arg 2; arg 45; skip); with_reducible apply follows_mk) | exact Eq.refl _

theorem State.programState_follows {p0 : State} (s : State) (target : Nat) (hF : Follows p0 s) :
    Follows p0 (State.programState s target) := by
  unfold State.programState
  try dsimp only
  repeat' first
    | with_reducible assumption | with_reducible apply follows_ite | with_reducible apply State.otpSet_follows
    | ((conv => arg 2; arg 45; skip); with_reducible apply follows_mk) | exact Eq.refl _

theorem State.lcRequest_follows {p0 : State} (s : State) (v : Word) (hF : Follows p0 s) :
    Follows p0 (State.lcRequest s v) := by
  unfold State.lcRequest
  try dsimp only
  repeat' first
    | with_reducible assumption | with_reducible apply follows_ite | with_reducible apply State.badWrite_follows
    | with_reducible apply State.programState_follows | with_reducible apply State.wipeKeys_follows
    | with_reducible apply State.wipeVault_follows | ((conv => arg 2; arg 45; skip); with_reducible apply follows_mk)
    | exact Eq.refl _

theorem State.vaultPatch_follows {p0 : State} (s : State) (off : Nat) (bs : List Byte) (hF : Follows p0 s) :
    Follows p0 (State.vaultPatch s off bs) := by
  unfold State.vaultPatch
  try dsimp only
  repeat' first
    | with_reducible assumption | intro _ | with_reducible apply follows_foldl | with_reducible apply follows_ite
    | with_reducible apply follows_ite_fst | with_reducible apply State.vaultWrite_follows
    | with_reducible apply follows_foldl_fst | ((conv => arg 2; arg 45; skip); with_reducible apply follows_mk)
    | ((conv => arg 2; arg 45; skip); with_reducible apply follows_mk_mem) | with_reducible exact Eq.refl _
    | exact Eq.refl _ | with_reducible exact follows_memOk (by assumption) (by assumption)
    | with_reducible apply memFlip_wf | with_reducible apply memWrite_wf | with_reducible apply memWipe_wf
    | with_reducible apply filter_wf | split | (rename_i e; injection e; done)
    | (rename_i e; injection e with e; subst e) | (rename_i e; injection e with e e2; subst e)
    | (rename_i e; injection e with e; revert e; intro _) | (rename_i e; split at e <;> (revert e; intro _))
    | (rename_i e; rw [Option.map_eq_some_iff] at e; obtain ⟨_, _, rfl⟩ := e) | dsimp only | (rename_i e; clear e)

theorem State.patch_follows {p0 : State} (s : State) (ws : List (Word × List Byte)) (hF : Follows p0 s) :
    Follows p0 (State.patch s ws) := by
  unfold State.patch
  try dsimp only
  repeat' first
    | with_reducible assumption | intro _ | with_reducible apply follows_foldl | with_reducible apply follows_ite
    | with_reducible apply follows_ite_fst | with_reducible apply State.droverWrite_follows
    | with_reducible apply State.vaultPatch_follows | with_reducible apply follows_foldl_fst
    | ((conv => arg 2; arg 45; skip); with_reducible apply follows_mk)
    | ((conv => arg 2; arg 45; skip); with_reducible apply follows_mk_mem) | with_reducible exact Eq.refl _
    | exact Eq.refl _ | with_reducible exact follows_memOk (by assumption) (by assumption)
    | with_reducible apply memFlip_wf | with_reducible apply memWrite_wf | with_reducible apply memWipe_wf
    | with_reducible apply filter_wf | split | (rename_i e; injection e; done)
    | (rename_i e; injection e with e; subst e) | (rename_i e; injection e with e e2; subst e)
    | (rename_i e; injection e with e; revert e; intro _) | (rename_i e; split at e <;> (revert e; intro _))
    | (rename_i e; rw [Option.map_eq_some_iff] at e; obtain ⟨_, _, rfl⟩ := e) | dsimp only | (rename_i e; clear e)

theorem State.manifestVerify_follows {p0 : State} (s : State) (v : Word) (image : List Byte) (hF : Follows p0 s) :
    Follows p0 (State.manifestVerify s v image) := by
  unfold State.manifestVerify
  try dsimp only
  repeat' first
    | with_reducible assumption | with_reducible apply follows_ite | with_reducible apply State.patch_follows
    | ((conv => arg 2; arg 45; skip); with_reducible apply follows_mk) | exact Eq.refl _

theorem State.manifestCode_follows {p0 : State} (s : State) (off : Nat) (hF : Follows p0 s) :
    Follows p0 (State.manifestCode s off).1 := by
  unfold State.manifestCode
  extract_lets total im c ds
  split
  · exact hF
  split
  · exact hF
  split
  · exact hF
  split
  · exact hF
  · exact follows_mk hF rfl rfl rfl rfl rfl rfl rfl

theorem State.manifestCode_follows_eq {p0 t : State} {x : Nat} {s : State} {off : Nat} (e0 : State.manifestCode s off = (t, x))
    (hF : Follows p0 s) : Follows p0 t := by
  have w := State.manifestCode_follows s off hF
  rw [e0] at w
  exact w

theorem State.manifestDone_follows {p0 : State} (s : State) (hF : Follows p0 s) :
    Follows p0 (State.manifestDone s) := by
  unfold State.manifestDone
  try dsimp only
  repeat' first
    | with_reducible assumption | intro _ | with_reducible apply follows_foldl | with_reducible apply follows_ite
    | with_reducible apply State.manifestCode_follows | ((conv => arg 2; arg 45; skip); with_reducible apply follows_mk)
    | with_reducible exact Eq.refl _ | exact Eq.refl _ | split

theorem State.advance_follows {p0 : State} (s : State) (off : Nat) (n : Nat) (hF : Follows p0 s) :
    Follows p0 (State.advance s off n) := by
  unfold State.advance
  try dsimp only
  repeat' first
    | with_reducible assumption | intro _ | with_reducible apply follows_foldl | with_reducible apply follows_ite
    | with_reducible apply State.otpSet_follows | ((conv => arg 2; arg 45; skip); with_reducible apply follows_mk)
    | with_reducible exact Eq.refl _ | exact Eq.refl _ | split

theorem State.fwAdvance_follows {p0 : State} (s : State) (n : BitVec 7) (hF : Follows p0 s) :
    Follows p0 (State.fwAdvance s n) := by
  unfold State.fwAdvance
  try dsimp only
  repeat' first
    | with_reducible assumption | with_reducible apply follows_ite | with_reducible apply State.advance_follows
    | with_reducible apply State.badWrite_follows | ((conv => arg 2; arg 45; skip); with_reducible apply follows_mk)
    | exact Eq.refl _

theorem State.mnAdvance_follows {p0 : State} (s : State) (n : BitVec 7) (hF : Follows p0 s) :
    Follows p0 (State.mnAdvance s n) := by
  unfold State.mnAdvance
  try dsimp only
  repeat' first
    | with_reducible assumption | with_reducible apply follows_ite | with_reducible apply State.advance_follows
    | with_reducible apply State.badWrite_follows | ((conv => arg 2; arg 45; skip); with_reducible apply follows_mk)
    | exact Eq.refl _

theorem State.setKey_follows {p0 : State} (s : State) (slot : Nat) (key : List Byte) (hF : Follows p0 s) :
    Follows p0 (State.setKey s slot key) := by
  unfold State.setKey
  try dsimp only
  repeat' first
    | with_reducible assumption | with_reducible apply follows_ite | with_reducible apply State.freshKeys_follows
    | ((conv => arg 2; arg 45; skip); with_reducible apply follows_mk) | exact Eq.refl _

theorem State.random_follows {p0 : State} (s : State) (n : Nat) (hF : Follows p0 s) :
    Follows p0 (State.random s n).1 := by
  unfold State.random
  try dsimp only
  repeat' first
    | with_reducible assumption | with_reducible apply follows_ite
    | ((conv => arg 2; arg 45; skip); with_reducible apply follows_mk) | exact Eq.refl _

theorem State.random_follows_eq {p0 t : State} {x : List Byte} {s : State} {n : Nat} (e0 : State.random s n = (t, x)) (hF : Follows p0 s) : Follows p0 t := by
  have w := State.random_follows s n hF
  rw [e0] at w
  exact w

theorem State.jobWrite_follows {p0 : State} (s : State) (a : Nat) (bs : List Byte) (hF : Follows p0 s) :
    Follows p0 (State.jobWrite s a bs) := by
  unfold State.jobWrite
  try dsimp only
  repeat' first
    | with_reducible assumption | intro _ | with_reducible apply follows_foldl | with_reducible apply follows_ite
    | with_reducible apply follows_ite_fst | with_reducible apply State.rawWrite_follows
    | with_reducible apply follows_foldl_fst | ((conv => arg 2; arg 45; skip); with_reducible apply follows_mk)
    | ((conv => arg 2; arg 45; skip); with_reducible apply follows_mk_mem) | with_reducible exact Eq.refl _
    | exact Eq.refl _ | with_reducible exact follows_memOk (by assumption) (by assumption)
    | with_reducible apply memFlip_wf | with_reducible apply memWrite_wf | with_reducible apply memWipe_wf
    | with_reducible apply filter_wf | split | (rename_i e; injection e; done)
    | (rename_i e; injection e with e; subst e) | (rename_i e; injection e with e e2; subst e)
    | (rename_i e; injection e with e; revert e; intro _) | (rename_i e; split at e <;> (revert e; intro _))
    | (rename_i e; rw [Option.map_eq_some_iff] at e; obtain ⟨_, _, rfl⟩ := e) | dsimp only | (rename_i e; clear e)

theorem State.jobEnds_follows {p0 : State} (s : State) (j : Job) (status : Nat) (hF : Follows p0 s) :
    Follows p0 (State.jobEnds s j status) := by
  unfold State.jobEnds
  try dsimp only
  repeat' first
    | with_reducible assumption | with_reducible apply follows_ite | with_reducible apply State.droverWrite_follows
    | ((conv => arg 2; arg 45; skip); with_reducible apply follows_mk) | exact Eq.refl _

theorem State.skipInvalid_follows {p0 : State} (s : State) (n : Nat) (hF : Follows p0 s) : Follows p0 (State.skipInvalid s n) := by
  induction n generalizing s with
  | zero => exact hF
  | succ n ih =>
    unfold State.skipInvalid
    split
    · exact hF
    · exact follows_ite hF (ih _ (State.jobEnds_follows _ _ _ hF))

theorem State.cryptoSubmit_follows {p0 : State} (s : State) (v : Word) (ws : List (Word × List Byte)) (flips : List (BitVec 18 × CwFlip)) (hF : Follows p0 s) :
    Follows p0 (State.cryptoSubmit s v ws flips) := by
  unfold State.cryptoSubmit
  try dsimp only
  repeat' first
    | with_reducible assumption | intro _ | with_reducible apply follows_foldl | with_reducible apply follows_ite
    | with_reducible apply follows_ite_fst | with_reducible apply State.flip_follows
    | with_reducible apply State.patch_follows | with_reducible apply State.setReg_follows
    | with_reducible apply State.skipInvalid_follows | with_reducible apply follows_foldl_fst
    | ((conv => arg 2; arg 45; skip); with_reducible apply follows_mk)
    | ((conv => arg 2; arg 45; skip); with_reducible apply follows_mk_mem) | with_reducible exact Eq.refl _
    | exact Eq.refl _ | with_reducible exact follows_memOk (by assumption) (by assumption)
    | with_reducible apply memFlip_wf | with_reducible apply memWrite_wf | with_reducible apply memWipe_wf
    | with_reducible apply filter_wf | split | (rename_i e; injection e; done)
    | (rename_i e; injection e with e; subst e) | (rename_i e; injection e with e e2; subst e)
    | (rename_i e; injection e with e; revert e; intro _) | (rename_i e; split at e <;> (revert e; intro _))
    | (rename_i e; rw [Option.map_eq_some_iff] at e; obtain ⟨_, _, rfl⟩ := e) | dsimp only | (rename_i e; clear e)

theorem State.runJob_follows {p0 : State} (s : State) (op : Nat) (f : State → Job → State × Nat) (hF : Follows p0 s) (hFf : ∀ x0 x1, Follows p0 x0 → Follows p0 (f x0 x1).1) :
    Follows p0 (State.runJob s op f) := by
  unfold State.runJob
  try dsimp only
  repeat' first
    | with_reducible assumption | intro _ | with_reducible apply follows_foldl | with_reducible apply follows_ite
    | with_reducible apply follows_ite_fst | with_reducible apply hFf | with_reducible apply State.jobEnds_follows
    | with_reducible apply State.skipInvalid_follows | with_reducible apply State.vaultDecode_follows
    | with_reducible apply follows_foldl_fst | ((conv => arg 2; arg 45; skip); with_reducible apply follows_mk)
    | ((conv => arg 2; arg 45; skip); with_reducible apply follows_mk_mem) | with_reducible exact Eq.refl _
    | exact Eq.refl _ | with_reducible exact follows_memOk (by assumption) (by assumption)
    | with_reducible apply memFlip_wf | with_reducible apply memWrite_wf | with_reducible apply memWipe_wf
    | with_reducible apply filter_wf | split | (rename_i e; injection e; done)
    | (rename_i e; injection e with e; subst e) | (rename_i e; injection e with e e2; subst e)
    | (rename_i e; injection e with e; revert e; intro _) | (rename_i e; split at e <;> (revert e; intro _))
    | (rename_i e; rw [Option.map_eq_some_iff] at e; obtain ⟨_, _, rfl⟩ := e) | dsimp only | (rename_i e; clear e)

theorem State.jobEncrypt_follows {p0 : State} (s : State) (j : Job) (hF : Follows p0 s) :
    Follows p0 (State.jobEncrypt s j).1 := by
  unfold State.jobEncrypt
  repeat' first
    | with_reducible assumption | with_reducible apply State.jobWrite_follows

theorem State.jobEncrypt_follows_eq {p0 t : State} {x : Nat} {s : State} {j : Job} (e0 : State.jobEncrypt s j = (t, x)) (hF : Follows p0 s) : Follows p0 t := by
  have w := State.jobEncrypt_follows s j hF
  rw [e0] at w
  exact w

theorem State.jobDecrypt_follows {p0 : State} (s : State) (j : Job) (hF : Follows p0 s) :
    Follows p0 (State.jobDecrypt s j).1 := by
  unfold State.jobDecrypt
  try dsimp only
  repeat' first
    | with_reducible assumption | with_reducible apply follows_ite | with_reducible apply State.jobWrite_follows
    | ((conv => arg 2; arg 45; skip); with_reducible apply follows_mk) | exact Eq.refl _ | split

theorem State.jobDecrypt_follows_eq {p0 t : State} {x : Nat} {s : State} {j : Job} (e0 : State.jobDecrypt s j = (t, x)) (hF : Follows p0 s) : Follows p0 t := by
  have w := State.jobDecrypt_follows s j hF
  rw [e0] at w
  exact w

theorem State.jobGmac_follows {p0 : State} (s : State) (j : Job) (hF : Follows p0 s) :
    Follows p0 (State.jobGmac s j).1 := by
  unfold State.jobGmac
  repeat' first
    | with_reducible assumption | with_reducible apply State.jobWrite_follows

theorem State.jobGmac_follows_eq {p0 t : State} {x : Nat} {s : State} {j : Job} (e0 : State.jobGmac s j = (t, x)) (hF : Follows p0 s) : Follows p0 t := by
  have w := State.jobGmac_follows s j hF
  rw [e0] at w
  exact w

theorem State.jobHash_follows {p0 : State} (s : State) (j : Job) (hF : Follows p0 s) :
    Follows p0 (State.jobHash s j).1 := by
  unfold State.jobHash
  repeat' first
    | with_reducible assumption | with_reducible apply State.jobWrite_follows

theorem State.jobHash_follows_eq {p0 t : State} {x : Nat} {s : State} {j : Job} (e0 : State.jobHash s j = (t, x)) (hF : Follows p0 s) : Follows p0 t := by
  have w := State.jobHash_follows s j hF
  rw [e0] at w
  exact w

theorem State.jobVerify_follows {p0 : State} (s : State) (j : Job) (hF : Follows p0 s) :
    Follows p0 (State.jobVerify s j).1 := by
  unfold State.jobVerify
  repeat' first
    | with_reducible assumption

theorem State.jobVerify_follows_eq {p0 t : State} {x : Nat} {s : State} {j : Job} (e0 : State.jobVerify s j = (t, x)) (hF : Follows p0 s) : Follows p0 t := by
  have w := State.jobVerify_follows s j hF
  rw [e0] at w
  exact w

theorem State.jobUnwrap_follows {p0 : State} (s : State) (j : Job) (hF : Follows p0 s) :
    Follows p0 (State.jobUnwrap s j).1 := by
  unfold State.jobUnwrap
  try dsimp only
  repeat' first
    | with_reducible assumption | with_reducible apply follows_ite | with_reducible apply State.setKey_follows
    | ((conv => arg 2; arg 45; skip); with_reducible apply follows_mk) | exact Eq.refl _ | split

theorem State.jobUnwrap_follows_eq {p0 t : State} {x : Nat} {s : State} {j : Job} (e0 : State.jobUnwrap s j = (t, x)) (hF : Follows p0 s) : Follows p0 t := by
  have w := State.jobUnwrap_follows s j hF
  rw [e0] at w
  exact w

theorem State.jobRandom_follows {p0 : State} (s : State) (j : Job) (hF : Follows p0 s) :
    Follows p0 (State.jobRandom s j).1 := by
  unfold State.jobRandom
  try dsimp only
  repeat' first
    | with_reducible assumption | intro _ | with_reducible apply follows_foldl | with_reducible apply follows_ite
    | with_reducible apply follows_ite_fst | with_reducible apply State.random_follows
    | with_reducible apply State.setKey_follows | with_reducible refine State.random_follows_eq (by assumption) ?_
    | with_reducible apply follows_foldl_fst | ((conv => arg 2; arg 45; skip); with_reducible apply follows_mk)
    | with_reducible exact Eq.refl _ | exact Eq.refl _ | split | dsimp only

theorem State.jobRandom_follows_eq {p0 t : State} {x : Nat} {s : State} {j : Job} (e0 : State.jobRandom s j = (t, x)) (hF : Follows p0 s) : Follows p0 t := by
  have w := State.jobRandom_follows s j hF
  rw [e0] at w
  exact w

theorem State.rngOutput_follows {p0 : State} (s : State) (healthy : Bool) (hF : Follows p0 s) :
    Follows p0 (State.rngOutput s healthy) := by
  unfold State.rngOutput
  try dsimp only
  repeat' first
    | with_reducible assumption | with_reducible apply follows_ite
    | ((conv => arg 2; arg 45; skip); with_reducible apply follows_mk) | exact Eq.refl _

theorem State.challenge_follows {p0 : State} (s : State) (hF : Follows p0 s) :
    Follows p0 (State.challenge s) := by
  unfold State.challenge
  try dsimp only
  repeat' first
    | with_reducible assumption | with_reducible apply follows_ite | with_reducible apply State.random_follows
    | ((conv => arg 2; arg 45; skip); with_reducible apply follows_mk) | exact Eq.refl _

theorem State.wipeAll_follows {p0 : State} (s : State) (hF : Follows p0 s) :
    Follows p0 (State.wipeAll s) := by
  unfold State.wipeAll
  try dsimp only
  repeat' first
    | with_reducible assumption | intro _ | with_reducible apply follows_foldl | with_reducible apply follows_ite
    | with_reducible apply State.setReg_follows | ((conv => arg 2; arg 45; skip); with_reducible apply follows_mk)
    | with_reducible exact Eq.refl _ | exact Eq.refl _ | split

theorem State.debugOpen_follows {p0 : State} (s : State) (v : Word) (hF : Follows p0 s) :
    Follows p0 (State.debugOpen s v) := by
  unfold State.debugOpen
  try dsimp only
  repeat' first
    | with_reducible assumption | with_reducible apply follows_ite | with_reducible apply State.programState_follows
    | with_reducible apply State.wipeAll_follows | with_reducible apply State.wipeKeys_follows
    | with_reducible apply State.wipeVault_follows | ((conv => arg 2; arg 45; skip); with_reducible apply follows_mk)
    | exact Eq.refl _

theorem State.tamper_follows {p0 : State} (s : State) (kind : Fin 4) (hF : Follows p0 s) :
    Follows p0 (State.tamper s kind) := by
  unfold State.tamper
  try dsimp only
  repeat' first
    | with_reducible assumption | with_reducible apply follows_ite | with_reducible apply State.freshKeys_follows
    | with_reducible apply State.reportU_follows | with_reducible apply State.wakeDevice_follows
    | with_reducible apply State.wipeKeys_follows | with_reducible apply State.wipeVault_follows
    | ((conv => arg 2; arg 45; skip); with_reducible apply follows_mk) | exact Eq.refl _

theorem State.writeTwinok_follows {p0 : State} (s : State) (v : Word) (hF : Follows p0 s) :
    Follows p0 (State.writeTwinok s v) := by
  unfold State.writeTwinok
  try dsimp only
  repeat' first
    | with_reducible assumption | with_reducible apply follows_ite
    | ((conv => arg 2; arg 45; skip); with_reducible apply follows_mk) | exact Eq.refl _

end Sys2Proof.Machine
end

