-- ==== Sys2Proof/Laws/FollowsRegWrite.lean ====
section
/-! SUPPORT. What the operations of Machine/RegWrite.lean keep: the queue, the invariant, programmed OTP bits. -/

namespace Sys2Proof.Machine

theorem State.reservedAccess_follows {p0 : State} (s : State) (hF : Follows p0 s) :
    Follows p0 (State.reservedAccess s) := by
  unfold State.reservedAccess
  repeat' first
    | with_reducible assumption | with_reducible apply State.reportU_follows

theorem State.regWith_follows {p0 : State} (s : State) (a : Nat) (spec : RegSpec) (v : Word) (hF : Follows p0 s) :
    Follows p0 (State.regWith s a spec v) := by
  unfold State.regWith
  repeat' first
    | with_reducible assumption | with_reducible apply State.setReg_follows

theorem State.writeFm_follows {p0 : State} (s : State) (off : Nat) (v : Word) (hF : Follows p0 s) :
    Follows p0 (State.writeFm s off v) := by
  unfold State.writeFm
  try dsimp only
  repeat' first
    | with_reducible assumption | with_reducible apply follows_ite | with_reducible apply State.fmRequest_follows
    | with_reducible apply State.nsafeRelease_follows | with_reducible apply State.regWith_follows
    | with_reducible apply State.reservedAccess_follows | with_reducible apply State.writeFwdcfg_follows
    | with_reducible apply State.writeSrccfg_follows | ((conv => arg 2; arg 45; skip); with_reducible apply follows_mk)
    | exact Eq.refl _

theorem State.writeWindow_follows {p0 : State} (s : State) (off : Nat) (v : Word) (hF : Follows p0 s) :
    Follows p0 (State.writeWindow s off v) := by
  unfold State.writeWindow
  try dsimp only
  repeat' first
    | with_reducible assumption | with_reducible apply follows_ite | with_reducible apply State.setReg_follows
    | with_reducible apply State.windowCommit_follows | ((conv => arg 2; arg 45; skip); with_reducible apply follows_mk)
    | exact Eq.refl _ | split

theorem State.ownWritten_follows {p0 : State} (s : State) (r : Resource) (v : Word) (hF : Follows p0 s) :
    Follows p0 (State.ownWritten s r v) := by
  unfold State.ownWritten
  try dsimp only
  repeat' first
    | with_reducible assumption | intro _ | with_reducible apply follows_foldl | with_reducible apply follows_ite
    | with_reducible apply follows_ite_fst | with_reducible apply State.startTests_follows
    | with_reducible apply State.wdPause_follows | with_reducible apply State.writeOwn_follows
    | with_reducible apply follows_foldl_fst | ((conv => arg 2; arg 45; skip); with_reducible apply follows_mk)
    | ((conv => arg 2; arg 45; skip); with_reducible apply follows_mk_mem) | with_reducible exact Eq.refl _
    | exact Eq.refl _ | with_reducible exact follows_memOk (by assumption) (by assumption)
    | with_reducible apply memFlip_wf | with_reducible apply memWrite_wf | with_reducible apply memWipe_wf
    | with_reducible apply filter_wf | split | (rename_i e; injection e; done)
    | (rename_i e; injection e with e; subst e) | (rename_i e; injection e with e e2; subst e)
    | (rename_i e; injection e with e; revert e; intro _) | (rename_i e; split at e <;> (revert e; intro _))
    | (rename_i e; rw [Option.map_eq_some_iff] at e; obtain ⟨_, _, rfl⟩ := e) | dsimp only | (rename_i e; clear e)

theorem State.writeFm2_follows {p0 : State} (s : State) (off : Nat) (v : Word) (hF : Follows p0 s) :
    Follows p0 (State.writeFm2 s off v) := by
  unfold State.writeFm2
  try dsimp only
  repeat' first
    | with_reducible assumption | with_reducible apply follows_ite | with_reducible apply State.fullSpeed_follows
    | with_reducible apply State.ownWritten_follows | with_reducible apply State.reservedAccess_follows
    | with_reducible apply State.setReg_follows | with_reducible apply State.writeFpwr_follows
    | with_reducible apply State.writeFstate_follows | with_reducible apply State.writeSlot_follows
    | with_reducible apply State.writeWindow_follows | with_reducible apply State.writeXch_follows
    | ((conv => arg 2; arg 45; skip); with_reducible apply follows_mk) | exact Eq.refl _

theorem State.writeSpan_follows {p0 : State} (s : State) (sp : SpanId) (off : Nat) (v : Word) (hF : Follows p0 s) :
    Follows p0 (State.writeSpan s sp off v) := by
  unfold State.writeSpan
  try dsimp only
  repeat' first
    | with_reducible assumption | with_reducible apply follows_ite | with_reducible apply State.regWith_follows
    | with_reducible apply State.reservedAccess_follows | with_reducible apply State.writeCkctl_follows
    | with_reducible apply State.writeMemctl_follows | with_reducible apply State.writePwrctl_follows
    | with_reducible apply State.writeSchctl_follows | ((conv => arg 2; arg 45; skip); with_reducible apply follows_mk)
    | exact Eq.refl _ | split

theorem State.writeBell_follows {p0 : State} (s : State) (off : Nat) (v : Word) (hF : Follows p0 s) :
    Follows p0 (State.writeBell s off v) := by
  unfold State.writeBell
  try dsimp only
  repeat' first
    | with_reducible assumption | with_reducible apply follows_ite | with_reducible apply State.aonCountClear_follows
    | with_reducible apply State.aonKey_follows | with_reducible apply State.aonService_follows
    | with_reducible apply State.regWith_follows | with_reducible apply State.reservedAccess_follows
    | with_reducible apply State.setReg_follows | with_reducible apply State.writeBellCtl_follows
    | with_reducible apply State.writeWdctl_follows | ((conv => arg 2; arg 45; skip); with_reducible apply follows_mk)
    | exact Eq.refl _

theorem State.writePwr_follows {p0 : State} (s : State) (off : Nat) (v : Word) (hF : Follows p0 s) :
    Follows p0 (State.writePwr s off v) := by
  unfold State.writePwr
  try dsimp only
  repeat' first
    | with_reducible assumption | with_reducible apply follows_ite | with_reducible apply State.reservedAccess_follows
    | with_reducible apply State.standbyRequest_follows | with_reducible apply State.writePwrCtl_follows
    | ((conv => arg 2; arg 45; skip); with_reducible apply follows_mk) | exact Eq.refl _

theorem State.writeTally_follows {p0 : State} (s : State) (off : Nat) (v : Word) (hF : Follows p0 s) :
    Follows p0 (State.writeTally s off v) := by
  unfold State.writeTally
  try dsimp only
  repeat' first
    | with_reducible assumption | with_reducible apply follows_ite | with_reducible apply State.reservedAccess_follows
    | with_reducible apply State.tallyRetire_follows | ((conv => arg 2; arg 45; skip); with_reducible apply follows_mk)
    | exact Eq.refl _

theorem State.writeBist_follows {p0 : State} (s : State) (off : Nat) (v : Word) (hF : Follows p0 s) :
    Follows p0 (State.writeBist s off v) := by
  unfold State.writeBist
  try dsimp only
  repeat' first
    | with_reducible assumption | with_reducible apply follows_ite | with_reducible apply State.bistStart_follows
    | with_reducible apply State.memTest_follows | with_reducible apply State.regWith_follows
    | with_reducible apply State.reservedAccess_follows
    | ((conv => arg 2; arg 45; skip); with_reducible apply follows_mk) | exact Eq.refl _

theorem State.writeTwin_follows {p0 : State} (s : State) (off : Nat) (v : Word) (hF : Follows p0 s) :
    Follows p0 (State.writeTwin s off v) := by
  unfold State.writeTwin
  try dsimp only
  repeat' first
    | with_reducible assumption | with_reducible apply follows_ite | with_reducible apply State.reservedAccess_follows
    | with_reducible apply State.setReg_follows | with_reducible apply State.writeFctl_follows
    | with_reducible apply State.writeTwinCtl_follows | ((conv => arg 2; arg 45; skip); with_reducible apply follows_mk)
    | exact Eq.refl _

theorem State.writeQcfg_follows {p0 : State} (s : State) (p : Nat) (q : Nat) (v : Word) (hF : Follows p0 s) :
    Follows p0 (State.writeQcfg s p q v) := by
  unfold State.writeQcfg
  try dsimp only
  repeat' first
    | with_reducible assumption | with_reducible apply follows_ite | with_reducible apply State.badWrite_follows
    | with_reducible apply State.setReg_follows | ((conv => arg 2; arg 45; skip); with_reducible apply follows_mk)
    | exact Eq.refl _

theorem State.writeGate_follows {p0 : State} (s : State) (p : Nat) (off : Nat) (v : Word) (hF : Follows p0 s) :
    Follows p0 (State.writeGate s p off v) := by
  unfold State.writeGate
  try dsimp only
  repeat' first
    | with_reducible assumption | with_reducible apply follows_ite | with_reducible apply State.badWrite_follows
    | with_reducible apply State.reportU_follows | with_reducible apply State.setReg_follows
    | ((conv => arg 2; arg 45; skip); with_reducible apply follows_mk) | exact Eq.refl _

theorem State.writeFshare_follows {p0 : State} (s : State) (f : FoldId) (v : Word) (hF : Follows p0 s) :
    Follows p0 (State.writeFshare s f v) := by
  unfold State.writeFshare
  try dsimp only
  repeat' first
    | with_reducible assumption | with_reducible apply follows_ite | with_reducible apply State.badWrite_follows
    | with_reducible apply State.setReg_follows | ((conv => arg 2; arg 45; skip); with_reducible apply follows_mk)
    | exact Eq.refl _

theorem State.writePort_follows {p0 : State} (s : State) (p : Nat) (off : Nat) (v : Word) (hF : Follows p0 s) :
    Follows p0 (State.writePort s p off v) := by
  unfold State.writePort
  try dsimp only
  repeat' first
    | with_reducible assumption | with_reducible apply follows_ite | with_reducible apply State.reservedAccess_follows
    | with_reducible apply State.setReg_follows | with_reducible apply State.writeFshare_follows
    | with_reducible apply State.writeGate_follows | with_reducible apply State.writePortCtl_follows
    | with_reducible apply State.writeQcfg_follows | ((conv => arg 2; arg 45; skip); with_reducible apply follows_mk)
    | exact Eq.refl _

theorem State.writeDmaBlock_follows {p0 : State} (s : State) (off : Nat) (v : Word) (hF : Follows p0 s) :
    Follows p0 (State.writeDmaBlock s off v) := by
  unfold State.writeDmaBlock
  try dsimp only
  repeat' first
    | with_reducible assumption | with_reducible apply follows_ite | with_reducible apply State.dmaBulkStop_follows
    | with_reducible apply State.reservedAccess_follows
    | ((conv => arg 2; arg 45; skip); with_reducible apply follows_mk) | exact Eq.refl _

theorem State.writeTpcfg_follows {p0 : State} (s : State) (v : Word) (hF : Follows p0 s) :
    Follows p0 (State.writeTpcfg s v) := by
  unfold State.writeTpcfg
  try dsimp only
  repeat' first
    | with_reducible assumption | with_reducible apply follows_ite | with_reducible apply State.badWrite_follows
    | with_reducible apply State.setReg_follows | ((conv => arg 2; arg 45; skip); with_reducible apply follows_mk)
    | exact Eq.refl _

theorem State.writeSio_follows {p0 : State} (s : State) (off : Nat) (v : Word) (hF : Follows p0 s) :
    Follows p0 (State.writeSio s off v) := by
  unfold State.writeSio
  try dsimp only
  repeat' first
    | with_reducible assumption | with_reducible apply follows_ite | with_reducible apply State.connCommit_follows
    | with_reducible apply State.reservedAccess_follows | with_reducible apply State.setReg_follows
    | with_reducible apply State.writeIpcfg_follows | with_reducible apply State.writeIpnet_follows
    | with_reducible apply State.writeOpcfg_follows | with_reducible apply State.writeTpcfg_follows
    | ((conv => arg 2; arg 45; skip); with_reducible apply follows_mk) | exact Eq.refl _

theorem State.writeSec_follows {p0 : State} (s : State) (off : Nat) (v : Word) (hF : Follows p0 s) :
    Follows p0 (State.writeSec s off v) := by
  unfold State.writeSec
  try dsimp only
  repeat' first
    | with_reducible assumption | with_reducible apply follows_ite | with_reducible apply State.badWrite_follows
    | with_reducible apply State.challenge_follows | with_reducible apply State.cryptoSubmit_follows
    | with_reducible apply State.debugOpen_follows | with_reducible apply State.fwAdvance_follows
    | with_reducible apply State.lcRequest_follows | with_reducible apply State.manifestVerify_follows
    | with_reducible apply State.mnAdvance_follows | with_reducible apply State.otpProgram_follows
    | with_reducible apply State.reservedAccess_follows | with_reducible apply State.setReg_follows
    | with_reducible apply State.writeTwinok_follows | ((conv => arg 2; arg 45; skip); with_reducible apply follows_mk)
    | exact Eq.refl _

theorem State.writeFr_follows {p0 : State} (s : State) (off : Nat) (v : Word) (hF : Follows p0 s) :
    Follows p0 (State.writeFr s off v) := by
  unfold State.writeFr
  try dsimp only
  repeat' first
    | with_reducible assumption | with_reducible apply follows_ite | with_reducible apply State.recorderMark_follows
    | with_reducible apply State.reservedAccess_follows | with_reducible apply State.setReg_follows
    | with_reducible apply State.writeFrCtl_follows | ((conv => arg 2; arg 45; skip); with_reducible apply follows_mk)
    | exact Eq.refl _

theorem State.writeEpoch_follows {p0 : State} (s : State) (off : Nat) (v : Word) (hF : Follows p0 s) :
    Follows p0 (State.writeEpoch s off v) := by
  unfold State.writeEpoch
  try dsimp only
  repeat' first
    | with_reducible assumption | with_reducible apply follows_ite | with_reducible apply State.reservedAccess_follows
    | with_reducible apply State.setReg_follows | with_reducible apply State.writeEpCtl_follows
    | with_reducible apply State.writeFcfg_follows | with_reducible apply State.writeHolding_follows
    | ((conv => arg 2; arg 45; skip); with_reducible apply follows_mk) | exact Eq.refl _

theorem State.writeReg_follows {p0 : State} (s : State) (a : Nat) (v : Word) (hF : Follows p0 s) :
    Follows p0 (State.writeReg s a v) := by
  unfold State.writeReg
  try dsimp only
  repeat' first
    | with_reducible assumption | with_reducible apply follows_ite | with_reducible apply State.reservedAccess_follows
    | with_reducible apply State.writeBell_follows | with_reducible apply State.writeBist_follows
    | with_reducible apply State.writeDmaBlock_follows | with_reducible apply State.writeEpoch_follows
    | with_reducible apply State.writeFm_follows | with_reducible apply State.writeFm2_follows
    | with_reducible apply State.writeFr_follows | with_reducible apply State.writePort_follows
    | with_reducible apply State.writePwr_follows | with_reducible apply State.writeSec_follows
    | with_reducible apply State.writeSio_follows | with_reducible apply State.writeSpan_follows
    | with_reducible apply State.writeTally_follows | with_reducible apply State.writeTwin_follows
    | ((conv => arg 2; arg 45; skip); with_reducible apply follows_mk) | exact Eq.refl _

end Sys2Proof.Machine
end

