-- ==== Sys2Proof/Laws/FollowsRegRead.lean ====
section
/-! SUPPORT. What the operations of Machine/RegRead.lean keep: the queue, the invariant, programmed OTP bits. -/

namespace Sys2Proof.Machine

theorem State.readBell_follows {p0 : State} (s : State) (off : Nat) (hF : Follows p0 s) :
    Follows p0 (State.readBell s off).1 := by
  unfold State.readBell
  try dsimp only
  repeat' first
    | with_reducible assumption | with_reducible apply follows_ite | with_reducible apply State.setReg_follows
    | ((conv => arg 2; arg 45; skip); with_reducible apply follows_mk) | exact Eq.refl _ | split

theorem State.readBell_follows_eq {p0 t : State} {x : Option Word} {s : State} {off : Nat} (e0 : State.readBell s off = (t, x)) (hF : Follows p0 s) : Follows p0 t := by
  have w := State.readBell_follows s off hF
  rw [e0] at w
  exact w

theorem State.readTally_follows {p0 : State} (s : State) (off : Nat) (hF : Follows p0 s) :
    Follows p0 (State.readTally s off).1 := by
  unfold State.readTally
  try dsimp only
  repeat' first
    | with_reducible assumption | with_reducible apply follows_ite | with_reducible apply State.setReg_follows
    | with_reducible apply State.vaultDecode_follows | ((conv => arg 2; arg 45; skip); with_reducible apply follows_mk)
    | exact Eq.refl _ | split

theorem State.readTally_follows_eq {p0 t : State} {x : Option Word} {s : State} {off : Nat} (e0 : State.readTally s off = (t, x)) (hF : Follows p0 s) : Follows p0 t := by
  have w := State.readTally_follows s off hF
  rw [e0] at w
  exact w

theorem State.readSec_follows {p0 : State} (s : State) (off : Nat) (hF : Follows p0 s) :
    Follows p0 (State.readSec s off).1 := by
  unfold State.readSec
  try dsimp only
  repeat' first
    | with_reducible assumption | intro _ | with_reducible apply follows_foldl | with_reducible apply follows_ite
    | with_reducible apply follows_ite_fst | with_reducible apply follows_foldl_fst
    | ((conv => arg 2; arg 45; skip); with_reducible apply follows_mk) | with_reducible exact Eq.refl _
    | exact Eq.refl _ | split | dsimp only

theorem State.readSec_follows_eq {p0 t : State} {x : Option Word} {s : State} {off : Nat} (e0 : State.readSec s off = (t, x)) (hF : Follows p0 s) : Follows p0 t := by
  have w := State.readSec_follows s off hF
  rw [e0] at w
  exact w

theorem State.readFr_follows {p0 : State} (s : State) (off : Nat) (hF : Follows p0 s) :
    Follows p0 (State.readFr s off).1 := by
  unfold State.readFr
  try dsimp only
  repeat' first
    | with_reducible assumption | intro _ | with_reducible apply follows_foldl | with_reducible apply follows_ite
    | with_reducible apply follows_ite_fst | with_reducible apply State.readRecord_follows
    | with_reducible refine State.readRecord_follows_eq (by assumption) ?_ | with_reducible apply follows_foldl_fst
    | ((conv => arg 2; arg 45; skip); with_reducible apply follows_mk)
    | ((conv => arg 2; arg 45; skip); with_reducible apply follows_mk_mem) | with_reducible exact Eq.refl _
    | exact Eq.refl _ | with_reducible exact follows_memOk (by assumption) (by assumption)
    | with_reducible apply memFlip_wf | with_reducible apply memWrite_wf | with_reducible apply memWipe_wf
    | with_reducible apply filter_wf | split | (rename_i e; injection e; done)
    | (rename_i e; injection e with e; subst e) | (rename_i e; injection e with e e2; subst e)
    | (rename_i e; injection e with e; revert e; intro _) | (rename_i e; split at e <;> (revert e; intro _))
    | (rename_i e; rw [Option.map_eq_some_iff] at e; obtain ⟨_, _, rfl⟩ := e) | dsimp only | (rename_i e; clear e)

theorem State.readFr_follows_eq {p0 t : State} {x : Option Word} {s : State} {off : Nat} (e0 : State.readFr s off = (t, x)) (hF : Follows p0 s) : Follows p0 t := by
  have w := State.readFr_follows s off hF
  rw [e0] at w
  exact w

theorem State.readEpoch_follows {p0 : State} (s : State) (off : Nat) (hF : Follows p0 s) :
    Follows p0 (State.readEpoch s off).1 := by
  unfold State.readEpoch
  try dsimp only
  repeat' first
    | with_reducible assumption | with_reducible apply follows_ite | with_reducible apply State.setReg_follows
    | ((conv => arg 2; arg 45; skip); with_reducible apply follows_mk) | exact Eq.refl _ | split

theorem State.readEpoch_follows_eq {p0 t : State} {x : Option Word} {s : State} {off : Nat} (e0 : State.readEpoch s off = (t, x)) (hF : Follows p0 s) : Follows p0 t := by
  have w := State.readEpoch_follows s off hF
  rw [e0] at w
  exact w

theorem State.readControl_follows {p0 : State} (s : State) (a : Nat) (hF : Follows p0 s) :
    Follows p0 (State.readControl s a).1 := by
  unfold State.readControl
  try dsimp only
  repeat' first
    | with_reducible assumption | intro _ | with_reducible apply follows_foldl | with_reducible apply follows_ite
    | with_reducible apply follows_ite_fst | with_reducible apply State.readBell_follows
    | with_reducible apply State.readEpoch_follows | with_reducible apply State.readFr_follows
    | with_reducible apply State.readSec_follows | with_reducible apply State.readTally_follows
    | with_reducible refine State.readBell_follows_eq (by assumption) ?_
    | with_reducible refine State.readEpoch_follows_eq (by assumption) ?_
    | with_reducible refine State.readFr_follows_eq (by assumption) ?_
    | with_reducible refine State.readSec_follows_eq (by assumption) ?_
    | with_reducible refine State.readTally_follows_eq (by assumption) ?_ | with_reducible apply follows_foldl_fst
    | ((conv => arg 2; arg 45; skip); with_reducible apply follows_mk)
    | ((conv => arg 2; arg 45; skip); with_reducible apply follows_mk_mem) | with_reducible exact Eq.refl _
    | exact Eq.refl _ | with_reducible exact follows_memOk (by assumption) (by assumption)
    | with_reducible apply memFlip_wf | with_reducible apply memWrite_wf | with_reducible apply memWipe_wf
    | with_reducible apply filter_wf | split | (rename_i e; injection e; done)
    | (rename_i e; injection e with e; subst e) | (rename_i e; injection e with e e2; subst e)
    | (rename_i e; injection e with e; revert e; intro _) | (rename_i e; split at e <;> (revert e; intro _))
    | (rename_i e; rw [Option.map_eq_some_iff] at e; obtain ⟨_, _, rfl⟩ := e) | dsimp only | (rename_i e; clear e)

theorem State.readControl_follows_eq {p0 t : State} {x : Option Word} {s : State} {a : Nat} (e0 : State.readControl s a = (t, x)) (hF : Follows p0 s) : Follows p0 t := by
  have w := State.readControl_follows s a hF
  rw [e0] at w
  exact w

theorem State.debugIo_follows {p0 : State} (s : State) (f : FoldId) (o : Nat) (n : Nat) (hF : Follows p0 s) :
    Follows p0 (State.debugIo s f o n).1 := by
  unfold State.debugIo
  repeat' first
    | with_reducible assumption | with_reducible apply State.ioLoad_follows

theorem State.debugIo_follows_eq {p0 t : State} {x : Option QWord} {s : State} {f : FoldId} {o : Nat} {n : Nat} (e0 : State.debugIo s f o n = (t, x)) (hF : Follows p0 s) : Follows p0 t := by
  have w := State.debugIo_follows s f o n hF
  rw [e0] at w
  exact w

theorem State.debugRead_follows {p0 : State} (s : State) (a : Nat) (n : Nat) (e : CwFlip) (hF : Follows p0 s) :
    Follows p0 (State.debugRead s a n e).1 := by
  unfold State.debugRead
  try dsimp only
  repeat' first
    | with_reducible assumption | intro _ | with_reducible apply follows_foldl | with_reducible apply follows_ite
    | with_reducible apply follows_ite_fst | with_reducible apply State.asStored_follows
    | with_reducible apply State.debugIo_follows | with_reducible apply State.decodeAccess_follows
    | with_reducible apply State.flip_follows | with_reducible apply State.flipRecord_follows
    | with_reducible apply State.misread_follows | with_reducible apply State.readControl_follows
    | with_reducible apply State.reservedAccess_follows
    | with_reducible refine State.debugIo_follows_eq (by assumption) ?_
    | with_reducible refine State.decodeAccess_follows_eq (by assumption) ?_
    | with_reducible refine State.readControl_follows_eq (by assumption) ?_ | with_reducible apply follows_foldl_fst
    | ((conv => arg 2; arg 45; skip); with_reducible apply follows_mk)
    | ((conv => arg 2; arg 45; skip); with_reducible apply follows_mk_mem) | with_reducible exact Eq.refl _
    | exact Eq.refl _ | with_reducible exact follows_memOk (by assumption) (by assumption)
    | with_reducible apply memFlip_wf | with_reducible apply memWrite_wf | with_reducible apply memWipe_wf
    | with_reducible apply filter_wf | split | (rename_i e; injection e; done)
    | (rename_i e; injection e with e; subst e) | (rename_i e; injection e with e e2; subst e)
    | (rename_i e; injection e with e; revert e; intro _) | (rename_i e; split at e <;> (revert e; intro _))
    | (rename_i e; rw [Option.map_eq_some_iff] at e; obtain ⟨_, _, rfl⟩ := e) | dsimp only | (rename_i e; clear e)

theorem State.debugRead_follows_eq {p0 t : State} {x : Option QWord} {s : State} {a : Nat} {n : Nat} {e : CwFlip} (e0 : State.debugRead s a n e = (t, x)) (hF : Follows p0 s) : Follows p0 t := by
  have w := State.debugRead_follows s a n e hF
  rw [e0] at w
  exact w

theorem State.debugWrite_follows {p0 : State} (s : State) (a : Nat) (n : Nat) (v : QWord) (hF : Follows p0 s) :
    Follows p0 (State.debugWrite s a n v).1 := by
  unfold State.debugWrite
  try dsimp only
  repeat' first
    | with_reducible assumption | intro _ | with_reducible apply follows_foldl | with_reducible apply follows_ite
    | with_reducible apply follows_ite_fst | with_reducible apply State.bankWrite_follows
    | with_reducible apply State.ioStore_follows | with_reducible apply State.readControl_follows
    | with_reducible apply State.reservedAccess_follows | with_reducible apply State.viewWrite_follows
    | with_reducible apply State.writeReg_follows | with_reducible refine State.bankWrite_follows_eq (by assumption) ?_
    | with_reducible refine State.readControl_follows_eq (by assumption) ?_ | with_reducible apply follows_foldl_fst
    | ((conv => arg 2; arg 45; skip); with_reducible apply follows_mk)
    | ((conv => arg 2; arg 45; skip); with_reducible apply follows_mk_mem) | with_reducible exact Eq.refl _
    | exact Eq.refl _ | with_reducible exact follows_memOk (by assumption) (by assumption)
    | with_reducible apply memFlip_wf | with_reducible apply memWrite_wf | with_reducible apply memWipe_wf
    | with_reducible apply filter_wf | split | (rename_i e; injection e; done)
    | (rename_i e; injection e with e; subst e) | (rename_i e; injection e with e e2; subst e)
    | (rename_i e; injection e with e; revert e; intro _) | (rename_i e; split at e <;> (revert e; intro _))
    | (rename_i e; rw [Option.map_eq_some_iff] at e; obtain ⟨_, _, rfl⟩ := e) | dsimp only | (rename_i e; clear e)

theorem State.debugWrite_follows_eq {p0 t : State} {x : Bool} {s : State} {a : Nat} {n : Nat} {v : QWord} (e0 : State.debugWrite s a n v = (t, x)) (hF : Follows p0 s) : Follows p0 t := by
  have w := State.debugWrite_follows s a n v hF
  rw [e0] at w
  exact w

theorem State.debugMemory_follows {p0 : State} (s : State) (a : PhysAddr) (size : Fin 5) (w : Option QWord) (e : CwFlip) (hF : Follows p0 s) :
    Follows p0 (State.debugMemory s a size w e) := by
  unfold State.debugMemory
  try dsimp only
  repeat' first
    | with_reducible assumption | intro _ | with_reducible apply follows_foldl | with_reducible apply follows_ite
    | with_reducible apply follows_ite_fst | with_reducible apply State.debugRead_follows
    | with_reducible apply State.debugWrite_follows
    | with_reducible refine State.debugRead_follows_eq (by assumption) ?_
    | with_reducible refine State.debugWrite_follows_eq (by assumption) ?_ | with_reducible apply follows_foldl_fst
    | ((conv => arg 2; arg 45; skip); with_reducible apply follows_mk)
    | ((conv => arg 2; arg 45; skip); with_reducible apply follows_mk_mem) | with_reducible exact Eq.refl _
    | exact Eq.refl _ | with_reducible exact follows_memOk (by assumption) (by assumption)
    | with_reducible apply memFlip_wf | with_reducible apply memWrite_wf | with_reducible apply memWipe_wf
    | with_reducible apply filter_wf | split | (rename_i e; injection e; done)
    | (rename_i e; injection e with e; subst e) | (rename_i e; injection e with e e2; subst e)
    | (rename_i e; injection e with e; revert e; intro _) | (rename_i e; split at e <;> (revert e; intro _))
    | (rename_i e; rw [Option.map_eq_some_iff] at e; obtain ⟨_, _, rfl⟩ := e) | dsimp only | (rename_i e; clear e)

theorem State.debugRegister_follows {p0 : State} (s : State) (y : YokeId) (n : Nat) (w : Option DWord) (hF : Follows p0 s) :
    Follows p0 (State.debugRegister s y n w) := by
  unfold State.debugRegister
  try dsimp only
  repeat' first
    | with_reducible assumption | with_reducible apply follows_ite | with_reducible apply State.debugRegWrite_follows
    | ((conv => arg 2; arg 45; skip); with_reducible apply follows_mk) | exact Eq.refl _ | split

theorem State.stateReceive_follows {p0 : State} (s : State) (f : FoldId) (p : StatePart) (hF : Follows p0 s) :
    Follows p0 (State.stateReceive s f p) := by
  unfold State.stateReceive
  try dsimp only
  repeat' first
    | with_reducible assumption | with_reducible apply follows_ite | with_reducible apply State.imageReceive_follows
    | with_reducible apply State.pageReceive_follows | ((conv => arg 2; arg 45; skip); with_reducible apply follows_mk)
    | exact Eq.refl _ | split

end Sys2Proof.Machine
end

