-- ==== Sys2Proof/Laws/FollowsFaultCmds.lean ====
section
/-! SUPPORT. What the operations of Machine/FaultCmds.lean keep: the queue, the invariant, programmed OTP bits. -/

namespace Sys2Proof.Machine

theorem execFaultReport_follows (n : Nat) (ext : List Report) (s : State) : FollowsOut s (execFaultReport n ext s) := by
  unfold execFaultReport
  apply follows_next
  have h := Follows.refl s
  repeat' first
    | with_reducible assumption | intro _ | with_reducible apply follows_foldl | with_reducible apply follows_ite
    | with_reducible apply State.faultReport_follows | with_reducible apply State.whenMain_follows
    | ((conv => arg 2; arg 45; skip); with_reducible apply follows_mk) | with_reducible exact Eq.refl _
    | exact Eq.refl _ | split

theorem execIncidentWindowClose_follows (num : Half) (s : State) : FollowsOut s (execIncidentWindowClose num s) := by
  unfold execIncidentWindowClose
  apply follows_next
  have h := Follows.refl s
  repeat' first
    | with_reducible assumption | intro _ | with_reducible apply follows_foldl | with_reducible apply follows_ite
    | with_reducible apply State.whenMain_follows | with_reducible apply State.windowClose_follows
    | ((conv => arg 2; arg 45; skip); with_reducible apply follows_mk) | with_reducible exact Eq.refl _
    | exact Eq.refl _ | split

theorem execReactionBegin_follows (s : State) : FollowsOut s (execReactionBegin s) := by
  unfold execReactionBegin
  apply follows_next
  have h := Follows.refl s
  repeat' first
    | with_reducible assumption | with_reducible apply State.reactionBegin_follows
    | with_reducible apply State.whenMain_follows

theorem execReactionComplete_follows (s : State) : FollowsOut s (execReactionComplete s) := by
  unfold execReactionComplete
  apply follows_next
  have h := Follows.refl s
  repeat' first
    | with_reducible assumption | with_reducible apply State.reactionComplete_follows
    | with_reducible apply State.whenMain_follows

theorem execFmRequest_follows (v : Word) (s : State) : FollowsOut s (execFmRequest v s) := by
  unfold execFmRequest
  apply follows_next
  have h := Follows.refl s
  repeat' first
    | with_reducible assumption | intro _ | with_reducible apply follows_foldl | with_reducible apply follows_ite
    | with_reducible apply State.fmRequest_follows | with_reducible apply State.whenFirmware_follows
    | ((conv => arg 2; arg 45; skip); with_reducible apply follows_mk) | with_reducible exact Eq.refl _
    | exact Eq.refl _ | split

theorem execNsafeRelease_follows (s : State) : FollowsOut s (execNsafeRelease s) := by
  unfold execNsafeRelease
  apply follows_next
  have h := Follows.refl s
  repeat' first
    | with_reducible assumption | with_reducible apply State.nsafeRelease_follows
    | with_reducible apply State.whenFirmware_follows

theorem execSourceClassWrite_follows (c : BitVec 6) (v : Word) (s : State) : FollowsOut s (execSourceClassWrite c v s) := by
  unfold execSourceClassWrite
  apply follows_next
  have h := Follows.refl s
  repeat' first
    | with_reducible assumption | intro _ | with_reducible apply follows_foldl | with_reducible apply follows_ite
    | with_reducible apply State.whenFirmware_follows | with_reducible apply State.writeSrccfg_follows
    | ((conv => arg 2; arg 45; skip); with_reducible apply follows_mk) | with_reducible exact Eq.refl _
    | exact Eq.refl _ | split

theorem execFwdcfgWrite_follows (f : FoldId) (v : Word) (s : State) : FollowsOut s (execFwdcfgWrite f v s) := by
  unfold execFwdcfgWrite
  apply follows_next
  have h := Follows.refl s
  repeat' first
    | with_reducible assumption | intro _ | with_reducible apply follows_foldl | with_reducible apply follows_ite
    | with_reducible apply State.whenFirmware_follows | with_reducible apply State.writeFwdcfg_follows
    | ((conv => arg 2; arg 45; skip); with_reducible apply follows_mk) | with_reducible exact Eq.refl _
    | exact Eq.refl _ | split

theorem execFoldWatchdogWarn_follows (f : FoldId) (s : State) : FollowsOut s (execFoldWatchdogWarn f s) := by
  unfold execFoldWatchdogWarn
  apply follows_next
  have h := Follows.refl s
  repeat' first
    | with_reducible assumption | intro _ | with_reducible apply follows_foldl | with_reducible apply follows_ite
    | with_reducible apply State.wdWarn_follows | with_reducible apply State.whenMain_follows
    | ((conv => arg 2; arg 45; skip); with_reducible apply follows_mk) | with_reducible exact Eq.refl _
    | exact Eq.refl _ | split

theorem execFoldWatchdogExpiry_follows (f : FoldId) (s : State) : FollowsOut s (execFoldWatchdogExpiry f s) := by
  unfold execFoldWatchdogExpiry
  apply follows_next
  have h := Follows.refl s
  repeat' first
    | with_reducible assumption | intro _ | with_reducible apply follows_foldl | with_reducible apply follows_ite
    | with_reducible apply State.wdExpiry_follows | with_reducible apply State.whenMain_follows
    | ((conv => arg 2; arg 45; skip); with_reducible apply follows_mk) | with_reducible exact Eq.refl _
    | exact Eq.refl _ | split

theorem execFoldWatchdogService_follows (y : YokeId) (src : Gpr) (s : State) : FollowsOut s (execFoldWatchdogService y src s) :=
  follows_next (State.issueSyswr_follows (hF := .refl s) ..)

theorem execFoldWatchdogKey_follows (y : YokeId) (src : Gpr) (s : State) : FollowsOut s (execFoldWatchdogKey y src s) :=
  follows_next (State.issueSyswr_follows (hF := .refl s) ..)

theorem execFoldWatchdogLock_follows (y : YokeId) (src : Gpr) (s : State) : FollowsOut s (execFoldWatchdogLock y src s) :=
  follows_next (State.issueSyswr_follows (hF := .refl s) ..)

theorem execAonWatchdogStart_follows (v : Word) (s : State) : FollowsOut s (execAonWatchdogStart v s) := by
  unfold execAonWatchdogStart
  apply follows_next
  have h := Follows.refl s
  repeat' first
    | with_reducible assumption | intro _ | with_reducible apply follows_foldl | with_reducible apply follows_ite
    | with_reducible apply State.whenFirmware_follows | with_reducible apply State.writeWdctl_follows
    | ((conv => arg 2; arg 45; skip); with_reducible apply follows_mk) | with_reducible exact Eq.refl _
    | exact Eq.refl _ | split

theorem execAonWatchdogExpiry_follows (s : State) : FollowsOut s (execAonWatchdogExpiry s) :=
  follows_next (State.aonExpiry_follows (hF := .refl s) ..)

theorem execAonWatchdogService_follows (v : Word) (s : State) : FollowsOut s (execAonWatchdogService v s) := by
  unfold execAonWatchdogService
  apply follows_next
  have h := Follows.refl s
  repeat' first
    | with_reducible assumption | intro _ | with_reducible apply follows_foldl | with_reducible apply follows_ite
    | with_reducible apply State.aonService_follows | with_reducible apply State.whenFirmware_follows
    | ((conv => arg 2; arg 45; skip); with_reducible apply follows_mk) | with_reducible exact Eq.refl _
    | exact Eq.refl _ | split

theorem execAonWatchdogKey_follows (v : Word) (s : State) : FollowsOut s (execAonWatchdogKey v s) := by
  unfold execAonWatchdogKey
  apply follows_next
  have h := Follows.refl s
  repeat' first
    | with_reducible assumption | intro _ | with_reducible apply follows_foldl | with_reducible apply follows_ite
    | with_reducible apply State.aonKey_follows | with_reducible apply State.whenFirmware_follows
    | ((conv => arg 2; arg 45; skip); with_reducible apply follows_mk) | with_reducible exact Eq.refl _
    | exact Eq.refl _ | split

theorem execAonWdcountClear_follows (v : Word) (s : State) : FollowsOut s (execAonWdcountClear v s) := by
  unfold execAonWdcountClear
  apply follows_next
  have h := Follows.refl s
  repeat' first
    | with_reducible assumption | intro _ | with_reducible apply follows_foldl | with_reducible apply follows_ite
    | with_reducible apply State.aonCountClear_follows | with_reducible apply State.whenFirmware_follows
    | ((conv => arg 2; arg 45; skip); with_reducible apply follows_mk) | with_reducible exact Eq.refl _
    | exact Eq.refl _ | split

theorem execRecorderArm_follows (v : Word) (s : State) : FollowsOut s (execRecorderArm v s) := by
  unfold execRecorderArm
  apply follows_next
  have h := Follows.refl s
  repeat' first
    | with_reducible assumption | intro _ | with_reducible apply follows_foldl | with_reducible apply follows_ite
    | with_reducible apply State.whenFirmware_follows | with_reducible apply State.writeFrCtl_follows
    | ((conv => arg 2; arg 45; skip); with_reducible apply follows_mk) | with_reducible exact Eq.refl _
    | exact Eq.refl _ | split

theorem execRecorderArmed_follows (s : State) : FollowsOut s (execRecorderArmed s) := by
  unfold execRecorderArmed
  apply follows_next
  have h := Follows.refl s
  repeat' first
    | with_reducible assumption | with_reducible apply State.recorderArmed_follows
    | with_reducible apply State.whenMain_follows

theorem execRecorderTrigger_follows (v : Word) (s : State) : FollowsOut s (execRecorderTrigger v s) := by
  unfold execRecorderTrigger
  apply follows_next
  have h := Follows.refl s
  repeat' first
    | with_reducible assumption | intro _ | with_reducible apply follows_foldl | with_reducible apply follows_ite
    | with_reducible apply State.whenFirmware_follows | with_reducible apply State.writeFrCtl_follows
    | ((conv => arg 2; arg 45; skip); with_reducible apply follows_mk) | with_reducible exact Eq.refl _
    | exact Eq.refl _ | split

theorem execRecorderMark_follows (v : Word) (s : State) : FollowsOut s (execRecorderMark v s) := by
  unfold execRecorderMark
  apply follows_next
  have h := Follows.refl s
  repeat' first
    | with_reducible assumption | intro _ | with_reducible apply follows_foldl | with_reducible apply follows_ite
    | with_reducible apply State.recorderMark_follows | with_reducible apply State.whenFirmware_follows
    | ((conv => arg 2; arg 45; skip); with_reducible apply follows_mk) | with_reducible exact Eq.refl _
    | exact Eq.refl _ | split

end Sys2Proof.Machine
end

