-- ==== Sys2Proof/Laws/FollowsFloatIns.lean ====
section
/-! SUPPORT. What the operations of Machine/FloatIns.lean keep: the queue, the invariant, programmed OTP bits. -/

namespace Sys2Proof.Machine

theorem execAddD_follows (y : YokeId) (rnd : Rnd) (d : Freg) (src : Freg) (b : Freg) (s : State) : FollowsOut s (execAddD y rnd d src b s) :=
  follows_next (State.issueFloat_follows (hF := .refl s) ..)

theorem execAddS_follows (y : YokeId) (rnd : Rnd) (d : Freg) (src : Freg) (b : Freg) (s : State) : FollowsOut s (execAddS y rnd d src b s) :=
  follows_next (State.issueFloat_follows (hF := .refl s) ..)

theorem execSubD_follows (y : YokeId) (rnd : Rnd) (d : Freg) (src : Freg) (b : Freg) (s : State) : FollowsOut s (execSubD y rnd d src b s) :=
  follows_next (State.issueFloat_follows (hF := .refl s) ..)

theorem execSubS_follows (y : YokeId) (rnd : Rnd) (d : Freg) (src : Freg) (b : Freg) (s : State) : FollowsOut s (execSubS y rnd d src b s) :=
  follows_next (State.issueFloat_follows (hF := .refl s) ..)

theorem execMulD_follows (y : YokeId) (rnd : Rnd) (d : Freg) (src : Freg) (b : Freg) (s : State) : FollowsOut s (execMulD y rnd d src b s) :=
  follows_next (State.issueFloat_follows (hF := .refl s) ..)

theorem execMulS_follows (y : YokeId) (rnd : Rnd) (d : Freg) (src : Freg) (b : Freg) (s : State) : FollowsOut s (execMulS y rnd d src b s) :=
  follows_next (State.issueFloat_follows (hF := .refl s) ..)

theorem execDivD_follows (y : YokeId) (rnd : Rnd) (d : Freg) (src : Freg) (b : Freg) (s : State) : FollowsOut s (execDivD y rnd d src b s) :=
  follows_next (State.issueFloat_follows (hF := .refl s) ..)

theorem execDivS_follows (y : YokeId) (rnd : Rnd) (d : Freg) (src : Freg) (b : Freg) (s : State) : FollowsOut s (execDivS y rnd d src b s) :=
  follows_next (State.issueFloat_follows (hF := .refl s) ..)

theorem execSqrtD_follows (y : YokeId) (rnd : Rnd) (d : Freg) (src : Freg) (s : State) : FollowsOut s (execSqrtD y rnd d src s) :=
  follows_next (State.issueFloat_follows (hF := .refl s) ..)

theorem execSqrtS_follows (y : YokeId) (rnd : Rnd) (d : Freg) (src : Freg) (s : State) : FollowsOut s (execSqrtS y rnd d src s) :=
  follows_next (State.issueFloat_follows (hF := .refl s) ..)

theorem execFmaD_follows (y : YokeId) (rnd : Rnd) (d : Freg) (src : Freg) (b : Freg) (s : State) : FollowsOut s (execFmaD y rnd d src b s) :=
  follows_next (State.issueFloat_follows (hF := .refl s) ..)

theorem execFmaS_follows (y : YokeId) (rnd : Rnd) (d : Freg) (src : Freg) (b : Freg) (s : State) : FollowsOut s (execFmaS y rnd d src b s) :=
  follows_next (State.issueFloat_follows (hF := .refl s) ..)

theorem execFmsD_follows (y : YokeId) (rnd : Rnd) (d : Freg) (src : Freg) (b : Freg) (s : State) : FollowsOut s (execFmsD y rnd d src b s) :=
  follows_next (State.issueFloat_follows (hF := .refl s) ..)

theorem execFmsS_follows (y : YokeId) (rnd : Rnd) (d : Freg) (src : Freg) (b : Freg) (s : State) : FollowsOut s (execFmsS y rnd d src b s) :=
  follows_next (State.issueFloat_follows (hF := .refl s) ..)

theorem execFnmaD_follows (y : YokeId) (rnd : Rnd) (d : Freg) (src : Freg) (b : Freg) (s : State) : FollowsOut s (execFnmaD y rnd d src b s) :=
  follows_next (State.issueFloat_follows (hF := .refl s) ..)

theorem execFnmaS_follows (y : YokeId) (rnd : Rnd) (d : Freg) (src : Freg) (b : Freg) (s : State) : FollowsOut s (execFnmaS y rnd d src b s) :=
  follows_next (State.issueFloat_follows (hF := .refl s) ..)

theorem execFnmsD_follows (y : YokeId) (rnd : Rnd) (d : Freg) (src : Freg) (b : Freg) (s : State) : FollowsOut s (execFnmsD y rnd d src b s) :=
  follows_next (State.issueFloat_follows (hF := .refl s) ..)

theorem execFnmsS_follows (y : YokeId) (rnd : Rnd) (d : Freg) (src : Freg) (b : Freg) (s : State) : FollowsOut s (execFnmsS y rnd d src b s) :=
  follows_next (State.issueFloat_follows (hF := .refl s) ..)

theorem execMinD_follows (y : YokeId) (x : Bool) (d : Freg) (src : Freg) (b : Freg) (s : State) : FollowsOut s (execMinD y x d src b s) :=
  follows_next (State.issueFloat_follows (hF := .refl s) ..)

theorem execMinS_follows (y : YokeId) (x : Bool) (d : Freg) (src : Freg) (b : Freg) (s : State) : FollowsOut s (execMinS y x d src b s) :=
  follows_next (State.issueFloat_follows (hF := .refl s) ..)

theorem execMaxD_follows (y : YokeId) (x : Bool) (d : Freg) (src : Freg) (b : Freg) (s : State) : FollowsOut s (execMaxD y x d src b s) :=
  follows_next (State.issueFloat_follows (hF := .refl s) ..)

theorem execMaxS_follows (y : YokeId) (x : Bool) (d : Freg) (src : Freg) (b : Freg) (s : State) : FollowsOut s (execMaxS y x d src b s) :=
  follows_next (State.issueFloat_follows (hF := .refl s) ..)

theorem execCmpD_follows (y : YokeId) (x : Bool) (src : Freg) (b : Freg) (s : State) : FollowsOut s (execCmpD y x src b s) :=
  follows_next (State.issueFloat_follows (hF := .refl s) ..)

theorem execCmpS_follows (y : YokeId) (x : Bool) (src : Freg) (b : Freg) (s : State) : FollowsOut s (execCmpS y x src b s) :=
  follows_next (State.issueFloat_follows (hF := .refl s) ..)

theorem execClassD_follows (y : YokeId) (d : Gpr) (src : Freg) (s : State) : FollowsOut s (execClassD y d src s) :=
  follows_next (State.issueFloat_follows (hF := .refl s) ..)

theorem execClassS_follows (y : YokeId) (d : Gpr) (src : Freg) (s : State) : FollowsOut s (execClassS y d src s) :=
  follows_next (State.issueFloat_follows (hF := .refl s) ..)

theorem execNegD_follows (y : YokeId) (d : Freg) (src : Freg) (s : State) : FollowsOut s (execNegD y d src s) :=
  follows_next (State.issueFloat_follows (hF := .refl s) ..)

theorem execNegS_follows (y : YokeId) (d : Freg) (src : Freg) (s : State) : FollowsOut s (execNegS y d src s) :=
  follows_next (State.issueFloat_follows (hF := .refl s) ..)

theorem execAbsD_follows (y : YokeId) (d : Freg) (src : Freg) (s : State) : FollowsOut s (execAbsD y d src s) :=
  follows_next (State.issueFloat_follows (hF := .refl s) ..)

theorem execAbsS_follows (y : YokeId) (d : Freg) (src : Freg) (s : State) : FollowsOut s (execAbsS y d src s) :=
  follows_next (State.issueFloat_follows (hF := .refl s) ..)

theorem execRintD_follows (y : YokeId) (rnd : Rnd) (x : Bool) (d : Freg) (src : Freg) (s : State) : FollowsOut s (execRintD y rnd x d src s) :=
  follows_next (State.issueFloat_follows (hF := .refl s) ..)

theorem execRintS_follows (y : YokeId) (rnd : Rnd) (x : Bool) (d : Freg) (src : Freg) (s : State) : FollowsOut s (execRintS y rnd x d src s) :=
  follows_next (State.issueFloat_follows (hF := .refl s) ..)

theorem execFld_follows (y : YokeId) (x : Bool) (d : Freg) (m : MemAddr) (s : State) : FollowsOut s (execFld y x d m s) :=
  follows_next (State.issueFld_follows (hF := .refl s) ..)

theorem execFst_follows (y : YokeId) (x : Bool) (d : Freg) (m : MemAddr) (s : State) : FollowsOut s (execFst y x d m s) :=
  follows_next (State.issueFst_follows (hF := .refl s) ..)

theorem execFmov_follows (y : YokeId) (d : Freg) (src : Freg) (s : State) : FollowsOut s (execFmov y d src s) :=
  follows_next (State.issueFloat_follows (hF := .refl s) ..)

theorem execFmvg_follows (y : YokeId) (x : Bool) (d : Gpr) (src : Freg) (s : State) : FollowsOut s (execFmvg y x d src s) :=
  follows_next (State.issueFloat_follows (hF := .refl s) ..)

theorem execFmvf_follows (y : YokeId) (x : Bool) (d : Freg) (src : Gpr) (s : State) : FollowsOut s (execFmvf y x d src s) :=
  follows_next (State.issueFloat_follows (hF := .refl s) ..)

theorem execCvtif_follows (y : YokeId) (rnd : Rnd) (u : Bool) (x : Bool) (d : Freg) (src : Gpr) (s : State) : FollowsOut s (execCvtif y rnd u x d src s) :=
  follows_next (State.issueFloat_follows (hF := .refl s) ..)

theorem execCvtfi_follows (y : YokeId) (rnd : Rnd) (u : Bool) (x : Bool) (d : Gpr) (src : Freg) (s : State) : FollowsOut s (execCvtfi y rnd u x d src s) :=
  follows_next (State.issueFloat_follows (hF := .refl s) ..)

theorem execCvtff_follows (y : YokeId) (rnd : Rnd) (x : Bool) (d : Freg) (src : Freg) (s : State) : FollowsOut s (execCvtff y rnd x d src s) :=
  follows_next (State.issueFloat_follows (hF := .refl s) ..)

theorem execFloatBegin_follows (y : YokeId) (s : State) : FollowsOut s (execFloatBegin y s) :=
  follows_next (State.floatBegin_follows (hF := .refl s) ..)

theorem execFloatRetire_follows (y : YokeId) (s : State) : FollowsOut s (execFloatRetire y s) :=
  follows_next (State.floatRetire_follows (hF := .refl s) ..)

end Sys2Proof.Machine
end

