-- ==== Sys2Proof/Laws/FollowsFoldCmds.lean ====
section
/-! SUPPORT. What the operations of Machine/FoldCmds.lean keep: the queue, the invariant, programmed OTP bits. -/

namespace Sys2Proof.Machine

theorem execEpochBoundary_follows (f : FoldId) (s : State) : FollowsOut s (execEpochBoundary f s) := by
  unfold execEpochBoundary
  apply follows_next
  have h := Follows.refl s
  repeat' first
    | with_reducible assumption | intro _ | with_reducible apply follows_foldl | with_reducible apply follows_ite
    | with_reducible apply State.epochBoundary_follows | with_reducible apply State.whenMain_follows
    | ((conv => arg 2; arg 45; skip); with_reducible apply follows_mk) | with_reducible exact Eq.refl _
    | exact Eq.refl _ | split

theorem execTimeSet_follows (v : Word) (s : State) : FollowsOut s (execTimeSet v s) := by
  unfold execTimeSet
  apply follows_next
  have h := Follows.refl s
  repeat' first
    | with_reducible assumption | intro _ | with_reducible apply follows_foldl | with_reducible apply follows_ite
    | with_reducible apply State.whenFirmware_follows | with_reducible apply State.writeEpCtl_follows
    | ((conv => arg 2; arg 45; skip); with_reducible apply follows_mk) | with_reducible exact Eq.refl _
    | exact Eq.refl _ | split

theorem execTimeSourceWrite_follows (v : Word) (s : State) : FollowsOut s (execTimeSourceWrite v s) := by
  unfold execTimeSourceWrite
  apply follows_next
  have h := Follows.refl s
  repeat' first
    | with_reducible assumption | intro _ | with_reducible apply follows_foldl | with_reducible apply follows_ite
    | with_reducible apply State.whenFirmware_follows | with_reducible apply State.writeEpCtl_follows
    | ((conv => arg 2; arg 45; skip); with_reducible apply follows_mk) | with_reducible exact Eq.refl _
    | exact Eq.refl _ | split

theorem execPtpMessageReceive_follows (offset : ℤ) (s : State) : FollowsOut s (execPtpMessageReceive offset s) := by
  unfold execPtpMessageReceive
  apply follows_next
  have h := Follows.refl s
  repeat' first
    | with_reducible assumption | intro _ | with_reducible apply follows_foldl | with_reducible apply follows_ite
    | with_reducible apply State.ptpMessage_follows | with_reducible apply State.whenMain_follows
    | ((conv => arg 2; arg 45; skip); with_reducible apply follows_mk) | with_reducible exact Eq.refl _
    | exact Eq.refl _ | split

theorem execHoldoverEnter_follows (s : State) : FollowsOut s (execHoldoverEnter s) := by
  unfold execHoldoverEnter
  apply follows_next
  have h := Follows.refl s
  repeat' first
    | with_reducible assumption | with_reducible apply State.holdover_follows
    | with_reducible apply State.whenMain_follows

theorem execHoldingAreaWrite_follows (f : FoldId) (isSize : Bool) (v : Word) (s : State) : FollowsOut s (execHoldingAreaWrite f isSize v s) := by
  unfold execHoldingAreaWrite
  apply follows_next
  have h := Follows.refl s
  repeat' first
    | with_reducible assumption | intro _ | with_reducible apply follows_foldl | with_reducible apply follows_ite
    | with_reducible apply State.whenFirmware_follows | with_reducible apply State.writeHolding_follows
    | ((conv => arg 2; arg 45; skip); with_reducible apply follows_mk) | with_reducible exact Eq.refl _
    | exact Eq.refl _ | split

theorem execEpochConfigWrite_follows (f : FoldId) (v : Word) (s : State) : FollowsOut s (execEpochConfigWrite f v s) := by
  unfold execEpochConfigWrite
  apply follows_next
  have h := Follows.refl s
  repeat' first
    | with_reducible assumption | intro _ | with_reducible apply follows_foldl | with_reducible apply follows_ite
    | with_reducible apply State.whenFirmware_follows | with_reducible apply State.writeFcfg_follows
    | ((conv => arg 2; arg 45; skip); with_reducible apply follows_mk) | with_reducible exact Eq.refl _
    | exact Eq.refl _ | split

theorem execWindowCommit_follows (f : FoldId) (w : Fin 64) (v : Word) (s : State) : FollowsOut s (execWindowCommit f w v s) := by
  unfold execWindowCommit
  apply follows_next
  have h := Follows.refl s
  repeat' first
    | with_reducible assumption | intro _ | with_reducible apply follows_foldl | with_reducible apply follows_ite
    | with_reducible apply State.whenFirmware_follows | with_reducible apply State.windowCommit_follows
    | ((conv => arg 2; arg 45; skip); with_reducible apply follows_mk) | with_reducible exact Eq.refl _
    | exact Eq.refl _ | split

theorem execFoldBuild_follows (f : FoldId) (s : State) : FollowsOut s (execFoldBuild f s) := by
  unfold execFoldBuild
  apply follows_next
  have h := Follows.refl s
  repeat' first
    | with_reducible assumption | intro _ | with_reducible apply follows_foldl | with_reducible apply follows_ite
    | with_reducible apply State.whenFirmware_follows | with_reducible apply State.writeFstate_follows
    | ((conv => arg 2; arg 45; skip); with_reducible apply follows_mk) | with_reducible exact Eq.refl _
    | exact Eq.refl _ | split

theorem execFoldAdmit_follows (f : FoldId) (s : State) : FollowsOut s (execFoldAdmit f s) := by
  unfold execFoldAdmit
  apply follows_next
  have h := Follows.refl s
  repeat' first
    | with_reducible assumption | intro _ | with_reducible apply follows_foldl | with_reducible apply follows_ite
    | with_reducible apply State.whenFirmware_follows | with_reducible apply State.writeFstate_follows
    | ((conv => arg 2; arg 45; skip); with_reducible apply follows_mk) | with_reducible exact Eq.refl _
    | exact Eq.refl _ | split

theorem execFoldSafeWrite_follows (f : FoldId) (s : State) : FollowsOut s (execFoldSafeWrite f s) := by
  unfold execFoldSafeWrite
  apply follows_next
  have h := Follows.refl s
  repeat' first
    | with_reducible assumption | intro _ | with_reducible apply follows_foldl | with_reducible apply follows_ite
    | with_reducible apply State.whenFirmware_follows | with_reducible apply State.writeFstate_follows
    | ((conv => arg 2; arg 45; skip); with_reducible apply follows_mk) | with_reducible exact Eq.refl _
    | exact Eq.refl _ | split

theorem execFoldEmpty_follows (f : FoldId) (s : State) : FollowsOut s (execFoldEmpty f s) := by
  unfold execFoldEmpty
  apply follows_next
  have h := Follows.refl s
  repeat' first
    | with_reducible assumption | intro _ | with_reducible apply follows_foldl | with_reducible apply follows_ite
    | with_reducible apply State.whenFirmware_follows | with_reducible apply State.writeFstate_follows
    | ((conv => arg 2; arg 45; skip); with_reducible apply follows_mk) | with_reducible exact Eq.refl _
    | exact Eq.refl _ | split

theorem execResourceAssign_follows (r : Resource) (f : FoldId) (s : State) : FollowsOut s (execResourceAssign r f s) := by
  unfold execResourceAssign
  apply follows_next
  have h := Follows.refl s
  repeat' first
    | with_reducible assumption | intro _ | with_reducible apply follows_foldl | with_reducible apply follows_ite
    | with_reducible apply State.ownWritten_follows | with_reducible apply State.whenFirmware_follows
    | ((conv => arg 2; arg 45; skip); with_reducible apply follows_mk) | with_reducible exact Eq.refl _
    | exact Eq.refl _ | split

theorem execResourceRelease_follows (r : Resource) (f : FoldId) (s : State) : FollowsOut s (execResourceRelease r f s) := by
  unfold execResourceRelease
  apply follows_next
  have h := Follows.refl s
  repeat' first
    | with_reducible assumption | intro _ | with_reducible apply follows_foldl | with_reducible apply follows_ite
    | with_reducible apply State.ownWritten_follows | with_reducible apply State.whenFirmware_follows
    | ((conv => arg 2; arg 45; skip); with_reducible apply follows_mk) | with_reducible exact Eq.refl _
    | exact Eq.refl _ | split

theorem execSlotWrite_follows (n : Fin 48) (v : Word) (s : State) : FollowsOut s (execSlotWrite n v s) := by
  unfold execSlotWrite
  apply follows_next
  have h := Follows.refl s
  repeat' first
    | with_reducible assumption | intro _ | with_reducible apply follows_foldl | with_reducible apply follows_ite
    | with_reducible apply State.whenFirmware_follows | with_reducible apply State.writeSlot_follows
    | ((conv => arg 2; arg 45; skip); with_reducible apply follows_mk) | with_reducible exact Eq.refl _
    | exact Eq.refl _ | split

theorem execFabricFrameStart_follows (s : State) : FollowsOut s (execFabricFrameStart s) := by
  unfold execFabricFrameStart
  apply follows_next
  have h := Follows.refl s
  repeat' first
    | with_reducible assumption | with_reducible apply State.frameStart_follows
    | with_reducible apply State.whenMain_follows

theorem execXchDeclare_follows (x : Fin 256) (v : Word) (s : State) : FollowsOut s (execXchDeclare x v s) := by
  unfold execXchDeclare
  apply follows_next
  have h := Follows.refl s
  repeat' first
    | with_reducible assumption | intro _ | with_reducible apply follows_foldl | with_reducible apply follows_ite
    | with_reducible apply State.whenFirmware_follows | with_reducible apply State.writeXch_follows
    | ((conv => arg 2; arg 45; skip); with_reducible apply follows_mk) | with_reducible exact Eq.refl _
    | exact Eq.refl _ | split

theorem execXchRelease_follows (x : Fin 256) (v : Word) (s : State) : FollowsOut s (execXchRelease x v s) := by
  unfold execXchRelease
  apply follows_next
  have h := Follows.refl s
  repeat' first
    | with_reducible assumption | intro _ | with_reducible apply follows_foldl | with_reducible apply follows_ite
    | with_reducible apply State.whenFirmware_follows | with_reducible apply State.writeXch_follows
    | ((conv => arg 2; arg 45; skip); with_reducible apply follows_mk) | with_reducible exact Eq.refl _
    | exact Eq.refl _ | split

theorem execXchRecv_follows (y : YokeId) (d : Gpr) (x : Fin 256) (s : State) : FollowsOut s (execXchRecv y d x s) :=
  follows_next (State.issueLoad_follows (hF := .refl s) ..)

theorem execXchRxstatRead_follows (y : YokeId) (d : Gpr) (x : Fin 256) (s : State) : FollowsOut s (execXchRxstatRead y d x s) :=
  follows_next (State.issueLoad_follows (hF := .refl s) ..)

theorem execPowerBudgetWrite_follows (f : FoldId) (v : Word) (s : State) : FollowsOut s (execPowerBudgetWrite f v s) := by
  unfold execPowerBudgetWrite
  apply follows_next
  have h := Follows.refl s
  repeat' first
    | with_reducible assumption | intro _ | with_reducible apply follows_foldl | with_reducible apply follows_ite
    | with_reducible apply State.whenFirmware_follows | with_reducible apply State.writeFpwr_follows
    | ((conv => arg 2; arg 45; skip); with_reducible apply follows_mk) | with_reducible exact Eq.refl _
    | exact Eq.refl _ | split

theorem execServiceTurn_follows (f : FoldId) (answer : Option (Word × List Byte × List Byte)) (mailbox : Option (List Byte)) (s : State) : FollowsOut s (execServiceTurn f answer mailbox s) :=
  follows_next (State.serviceTurn_follows (hF := .refl s) ..)

theorem execMailboxAck_follows (f : FoldId) (s : State) : FollowsOut s (execMailboxAck f s) := by
  unfold execMailboxAck
  apply follows_next
  have h := Follows.refl s
  repeat' first
    | with_reducible assumption | intro _ | with_reducible apply follows_foldl | with_reducible apply follows_ite
    | with_reducible apply State.mailboxAck_follows | with_reducible apply State.whenMain_follows
    | ((conv => arg 2; arg 45; skip); with_reducible apply follows_mk) | with_reducible exact Eq.refl _
    | exact Eq.refl _ | split

end Sys2Proof.Machine
end

