-- ==== Sys2Proof/Laws/FollowsLoadStore.lean ====
section
/-! SUPPORT. What the operations of Machine/LoadStore.lean keep: the queue, the invariant, programmed OTP bits. -/

namespace Sys2Proof.Machine

theorem execLdb_follows (y : YokeId) (d : Gpr) (m : MemAddr) (s : State) : FollowsOut s (execLdb y d m s) :=
  follows_next (State.issueLoad_follows (hF := .refl s) ..)

theorem execLdbu_follows (y : YokeId) (d : Gpr) (m : MemAddr) (s : State) : FollowsOut s (execLdbu y d m s) :=
  follows_next (State.issueLoad_follows (hF := .refl s) ..)

theorem execLdh_follows (y : YokeId) (d : Gpr) (m : MemAddr) (s : State) : FollowsOut s (execLdh y d m s) :=
  follows_next (State.issueLoad_follows (hF := .refl s) ..)

theorem execLdhu_follows (y : YokeId) (d : Gpr) (m : MemAddr) (s : State) : FollowsOut s (execLdhu y d m s) :=
  follows_next (State.issueLoad_follows (hF := .refl s) ..)

theorem execLdw_follows (y : YokeId) (d : Gpr) (m : MemAddr) (s : State) : FollowsOut s (execLdw y d m s) :=
  follows_next (State.issueLoad_follows (hF := .refl s) ..)

theorem execLdd_follows (y : YokeId) (d : Gpr) (m : MemAddr) (s : State) : FollowsOut s (execLdd y d m s) :=
  follows_next (State.issueLoad_follows (hF := .refl s) ..)

theorem execLdq_follows (y : YokeId) (d : Gpr) (m : MemAddr) (s : State) : FollowsOut s (execLdq y d m s) :=
  follows_next (State.issueLoad_follows (hF := .refl s) ..)

theorem execStb_follows (y : YokeId) (d : Gpr) (m : MemAddr) (s : State) : FollowsOut s (execStb y d m s) :=
  follows_next (State.issueStore_follows (hF := .refl s) ..)

theorem execSth_follows (y : YokeId) (d : Gpr) (m : MemAddr) (s : State) : FollowsOut s (execSth y d m s) :=
  follows_next (State.issueStore_follows (hF := .refl s) ..)

theorem execStw_follows (y : YokeId) (d : Gpr) (m : MemAddr) (s : State) : FollowsOut s (execStw y d m s) :=
  follows_next (State.issueStore_follows (hF := .refl s) ..)

theorem execStd_follows (y : YokeId) (d : Gpr) (m : MemAddr) (s : State) : FollowsOut s (execStd y d m s) :=
  follows_next (State.issueStore_follows (hF := .refl s) ..)

theorem execStq_follows (y : YokeId) (d : Gpr) (m : MemAddr) (s : State) : FollowsOut s (execStq y d m s) :=
  follows_next (State.issueStore_follows (hF := .refl s) ..)

theorem execXchg_follows (y : YokeId) (wide : Bool) (ord : Bool) (d : Gpr) (m : MemAddr) (s : State) : FollowsOut s (execXchg y wide ord d m s) := by
  unfold execXchg
  apply follows_next
  have h := Follows.refl s
  repeat' first
    | with_reducible assumption | with_reducible apply follows_ite | with_reducible apply State.illegal_follows
    | with_reducible apply State.issueAtomic_follows | ((conv => arg 2; arg 45; skip); with_reducible apply follows_mk)
    | exact Eq.refl _

theorem execCas_follows (y : YokeId) (wide : Bool) (ord : Bool) (d : Gpr) (new : Gpr) (m : MemAddr) (s : State) : FollowsOut s (execCas y wide ord d new m s) := by
  unfold execCas
  apply follows_next
  have h := Follows.refl s
  repeat' first
    | with_reducible assumption | with_reducible apply follows_ite | with_reducible apply State.illegal_follows
    | with_reducible apply State.issueAtomic_follows | ((conv => arg 2; arg 45; skip); with_reducible apply follows_mk)
    | exact Eq.refl _

theorem execFadd_follows (y : YokeId) (wide : Bool) (ord : Bool) (d : Gpr) (ad : Addend) (m : MemAddr) (s : State) : FollowsOut s (execFadd y wide ord d ad m s) := by
  unfold execFadd
  apply follows_next
  have h := Follows.refl s
  repeat' first
    | with_reducible assumption | with_reducible apply follows_ite | with_reducible apply State.illegal_follows
    | with_reducible apply State.issueAtomic_follows | ((conv => arg 2; arg 45; skip); with_reducible apply follows_mk)
    | exact Eq.refl _

theorem execTlock_follows (y : YokeId) (d : Gpr) (m : MemAddr) (s : State) : FollowsOut s (execTlock y d m s) :=
  follows_next (State.issueAtomic_follows (hF := .refl s) ..)

theorem execTunlock_follows (y : YokeId) (m : MemAddr) (s : State) : FollowsOut s (execTunlock y m s) :=
  follows_next (State.issueAtomic_follows (hF := .refl s) ..)

theorem execMovm_follows (y : YokeId) (rep : Rep) (d : Gpr) (src : Gpr) (s : State) : FollowsOut s (execMovm y rep d src s) :=
  follows_next (State.issueBlock_follows (hF := .refl s) ..)

theorem execFillm_follows (y : YokeId) (rep : Rep) (d : Gpr) (src : Gpr) (s : State) : FollowsOut s (execFillm y rep d src s) :=
  follows_next (State.issueBlock_follows (hF := .refl s) ..)

theorem execCmpm_follows (y : YokeId) (rep : Rep) (d : Gpr) (src : Gpr) (s : State) : FollowsOut s (execCmpm y rep d src s) :=
  follows_next (State.issueBlock_follows (hF := .refl s) ..)

theorem execEmit_follows (y : YokeId) (loc : Bool) (size : BitVec 3) (d : Gpr) (m : MemAddr) (s : State) : FollowsOut s (execEmit y loc size d m s) :=
  follows_next (State.issueEmit_follows (hF := .refl s) ..)

end Sys2Proof.Machine
end

