-- ==== Sys2Proof/Laws/FollowsPortCmds.lean ====
section
/-! SUPPORT. What the operations of Machine/PortCmds.lean keep: the queue, the invariant, programmed OTP bits. -/

namespace Sys2Proof.Machine

theorem execEthFrameReceive_follows (p : EthPort) (frame : List Byte) (s : State) : FollowsOut s (execEthFrameReceive p frame s) := by
  unfold execEthFrameReceive
  apply follows_next
  have h := Follows.refl s
  repeat' first
    | with_reducible assumption | intro _ | with_reducible apply follows_foldl | with_reducible apply follows_ite
    | with_reducible apply State.ethReceive_follows | with_reducible apply State.whenMain_follows
    | ((conv => arg 2; arg 45; skip); with_reducible apply follows_mk) | with_reducible exact Eq.refl _
    | exact Eq.refl _ | split

theorem execEthFrameTransmit_follows (p : EthPort) (s : State) : FollowsOut s (execEthFrameTransmit p s) := by
  unfold execEthFrameTransmit
  apply follows_next
  have h := Follows.refl s
  repeat' first
    | with_reducible assumption | intro _ | with_reducible apply follows_foldl | with_reducible apply follows_ite
    | with_reducible apply State.ethTransmit_follows | with_reducible apply State.whenMain_follows
    | ((conv => arg 2; arg 45; skip); with_reducible apply follows_mk) | with_reducible exact Eq.refl _
    | exact Eq.refl _ | split

theorem execGateListAdvance_follows (p : EthPort) (s : State) : FollowsOut s (execGateListAdvance p s) := by
  unfold execGateListAdvance
  apply follows_next
  have h := Follows.refl s
  repeat' first
    | with_reducible assumption | intro _ | with_reducible apply follows_foldl | with_reducible apply follows_ite
    | with_reducible apply State.gateAdvance_follows | with_reducible apply State.whenMain_follows
    | ((conv => arg 2; arg 45; skip); with_reducible apply follows_mk) | with_reducible exact Eq.refl _
    | exact Eq.refl _ | split

theorem execEthLinkUp_follows (p : EthPort) (mode : BitVec 3) (s : State) : FollowsOut s (execEthLinkUp p mode s) := by
  unfold execEthLinkUp
  apply follows_next
  have h := Follows.refl s
  repeat' first
    | with_reducible assumption | intro _ | with_reducible apply follows_foldl | with_reducible apply follows_ite
    | with_reducible apply State.ethUp_follows | with_reducible apply State.whenMain_follows
    | ((conv => arg 2; arg 45; skip); with_reducible apply follows_mk) | with_reducible exact Eq.refl _
    | exact Eq.refl _ | split

theorem execEthLinkDown_follows (p : EthPort) (s : State) : FollowsOut s (execEthLinkDown p s) := by
  unfold execEthLinkDown
  apply follows_next
  have h := Follows.refl s
  repeat' first
    | with_reducible assumption | intro _ | with_reducible apply follows_foldl | with_reducible apply follows_ite
    | with_reducible apply State.ethDown_follows | with_reducible apply State.whenMain_follows
    | ((conv => arg 2; arg 45; skip); with_reducible apply follows_mk) | with_reducible exact Eq.refl _
    | exact Eq.refl _ | split

theorem execPortModeWrite_follows (p : EthPort) (v : Word) (s : State) : FollowsOut s (execPortModeWrite p v s) := by
  unfold execPortModeWrite
  apply follows_next
  have h := Follows.refl s
  repeat' first
    | with_reducible assumption | intro _ | with_reducible apply follows_foldl | with_reducible apply follows_ite
    | with_reducible apply State.whenFirmware_follows | with_reducible apply State.writePortCtl_follows
    | ((conv => arg 2; arg 45; skip); with_reducible apply follows_mk) | with_reducible exact Eq.refl _
    | exact Eq.refl _ | split

theorem execConnectionStale_follows (n : Fin 4096) (s : State) : FollowsOut s (execConnectionStale n s) := by
  unfold execConnectionStale
  apply follows_next
  have h := Follows.refl s
  repeat' first
    | with_reducible assumption | intro _ | with_reducible apply follows_foldl | with_reducible apply follows_ite
    | with_reducible apply State.connStale_follows | with_reducible apply State.whenMain_follows
    | ((conv => arg 2; arg 45; skip); with_reducible apply follows_mk) | with_reducible exact Eq.refl _
    | exact Eq.refl _ | split

theorem execConnectionCommit_follows (v : Word) (s : State) : FollowsOut s (execConnectionCommit v s) := by
  unfold execConnectionCommit
  apply follows_next
  have h := Follows.refl s
  repeat' first
    | with_reducible assumption | intro _ | with_reducible apply follows_foldl | with_reducible apply follows_ite
    | with_reducible apply State.connCommit_follows | with_reducible apply State.whenFirmware_follows
    | ((conv => arg 2; arg 45; skip); with_reducible apply follows_mk) | with_reducible exact Eq.refl _
    | exact Eq.refl _ | split

theorem execQueueRxPop_follows (y : YokeId) (d : Gpr) (p : PortId) (q : Fin 64) (s : State) : FollowsOut s (execQueueRxPop y d p q s) :=
  follows_next (State.issueLoad_follows (hF := .refl s) ..)

theorem execQueueRxstatRead_follows (y : YokeId) (d : Gpr) (p : PortId) (q : Fin 64) (s : State) : FollowsOut s (execQueueRxstatRead y d p q s) :=
  follows_next (State.issueLoad_follows (hF := .refl s) ..)

theorem execPcieWriteReceive_follows (f : FoldId) (off : Nat) (data : List Byte) (ecrc : Bool) (s : State) : FollowsOut s (execPcieWriteReceive f off data ecrc s) := by
  unfold execPcieWriteReceive
  apply follows_next
  have h := Follows.refl s
  repeat' first
    | with_reducible assumption | intro _ | with_reducible apply follows_foldl | with_reducible apply follows_ite
    | with_reducible apply State.pcieWrite_follows | with_reducible apply State.whenMain_follows
    | ((conv => arg 2; arg 45; skip); with_reducible apply follows_mk) | with_reducible exact Eq.refl _
    | exact Eq.refl _ | split

theorem execPcieReadReceive_follows (f : FoldId) (ecrc : Bool) (s : State) : FollowsOut s (execPcieReadReceive f ecrc s) := by
  unfold execPcieReadReceive
  apply follows_next
  have h := Follows.refl s
  repeat' first
    | with_reducible assumption | intro _ | with_reducible apply follows_foldl | with_reducible apply follows_ite
    | with_reducible apply State.pcieRead_follows | with_reducible apply State.whenMain_follows
    | ((conv => arg 2; arg 45; skip); with_reducible apply follows_mk) | with_reducible exact Eq.refl _
    | exact Eq.refl _ | split

theorem execPcieCompletionReceive_follows (tag : Nat) (status : Nat) (data : List Byte) (ecrc : Bool) (s : State) : FollowsOut s (execPcieCompletionReceive tag status data ecrc s) := by
  unfold execPcieCompletionReceive
  apply follows_next
  have h := Follows.refl s
  repeat' first
    | with_reducible assumption | intro _ | with_reducible apply follows_foldl | with_reducible apply follows_ite
    | with_reducible apply State.pcieCompletion_follows | with_reducible apply State.whenMain_follows
    | ((conv => arg 2; arg 45; skip); with_reducible apply follows_mk) | with_reducible exact Eq.refl _
    | exact Eq.refl _ | split

theorem execPcieCompletionTimeout_follows (tag : Nat) (s : State) : FollowsOut s (execPcieCompletionTimeout tag s) := by
  unfold execPcieCompletionTimeout
  apply follows_next
  have h := Follows.refl s
  repeat' first
    | with_reducible assumption | intro _ | with_reducible apply follows_foldl | with_reducible apply follows_ite
    | with_reducible apply State.pcieTimeout_follows | with_reducible apply State.whenMain_follows
    | ((conv => arg 2; arg 45; skip); with_reducible apply follows_mk) | with_reducible exact Eq.refl _
    | exact Eq.refl _ | split

theorem execPcieConfigRequest_follows (c : PcieConfig) (ecrc : Bool) (s : State) : FollowsOut s (execPcieConfigRequest c ecrc s) := by
  unfold execPcieConfigRequest
  apply follows_next
  have h := Follows.refl s
  repeat' first
    | with_reducible assumption | intro _ | with_reducible apply follows_foldl | with_reducible apply follows_ite
    | with_reducible apply State.pcieConfig_follows | with_reducible apply State.whenMain_follows
    | ((conv => arg 2; arg 45; skip); with_reducible apply follows_mk) | with_reducible exact Eq.refl _
    | exact Eq.refl _ | split

theorem execPcieTlpTransmit_follows (owner : FoldId) (s : State) : FollowsOut s (execPcieTlpTransmit owner s) := by
  unfold execPcieTlpTransmit
  apply follows_next
  have h := Follows.refl s
  repeat' first
    | with_reducible assumption | intro _ | with_reducible apply follows_foldl | with_reducible apply follows_ite
    | with_reducible apply State.pcieTransmit_follows | with_reducible apply State.whenMain_follows
    | ((conv => arg 2; arg 45; skip); with_reducible apply follows_mk) | with_reducible exact Eq.refl _
    | exact Eq.refl _ | split

theorem execPcieTlpAck_follows (n : Nat) (s : State) : FollowsOut s (execPcieTlpAck n s) := by
  unfold execPcieTlpAck
  apply follows_next
  have h := Follows.refl s
  repeat' first
    | with_reducible assumption | intro _ | with_reducible apply follows_foldl | with_reducible apply follows_ite
    | with_reducible apply State.pcieAck_follows | with_reducible apply State.whenMain_follows
    | ((conv => arg 2; arg 45; skip); with_reducible apply follows_mk) | with_reducible exact Eq.refl _
    | exact Eq.refl _ | split

theorem execPostedWriteUndelivered_follows (s : State) : FollowsOut s (execPostedWriteUndelivered s) := by
  unfold execPostedWriteUndelivered
  apply follows_next
  have h := Follows.refl s
  repeat' first
    | with_reducible assumption | with_reducible apply State.postUndelivered_follows
    | with_reducible apply State.whenMain_follows

theorem execPcieLinkUp_follows (speed : Fin 5) (width : Fin 4) (s : State) : FollowsOut s (execPcieLinkUp speed width s) := by
  unfold execPcieLinkUp
  apply follows_next
  have h := Follows.refl s
  repeat' first
    | with_reducible assumption | intro _ | with_reducible apply follows_foldl | with_reducible apply follows_ite
    | with_reducible apply follows_ite_fst | with_reducible apply State.pcieTrained_follows
    | with_reducible apply State.whenMain_follows | with_reducible apply follows_foldl_fst
    | ((conv => arg 2; arg 45; skip); with_reducible apply follows_mk)
    | ((conv => arg 2; arg 45; skip); with_reducible apply follows_mk_mem) | with_reducible exact Eq.refl _
    | exact Eq.refl _ | with_reducible exact follows_memOk (by assumption) (by assumption)
    | with_reducible apply memFlip_wf | with_reducible apply memWrite_wf | with_reducible apply memWipe_wf
    | with_reducible apply filter_wf | split | (rename_i e; injection e; done)
    | (rename_i e; injection e with e; subst e) | (rename_i e; injection e with e e2; subst e)
    | (rename_i e; injection e with e; revert e; intro _) | (rename_i e; split at e <;> (revert e; intro _))
    | (rename_i e; rw [Option.map_eq_some_iff] at e; obtain ⟨_, _, rfl⟩ := e) | dsimp only | (rename_i e; clear e)

theorem execPcieLinkDown_follows (s : State) : FollowsOut s (execPcieLinkDown s) := by
  unfold execPcieLinkDown
  apply follows_next
  have h := Follows.refl s
  repeat' first
    | with_reducible assumption | with_reducible apply State.pcieDown_follows
    | with_reducible apply State.whenMain_follows

theorem execPerstAssert_follows (s : State) : FollowsOut s (execPerstAssert s) :=
  follows_next (State.perstAssert_follows (hF := .refl s) ..)

theorem execPerstRelease_follows (s : State) : FollowsOut s (execPerstRelease s) :=
  follows_next (State.perstRelease_follows (hF := .refl s) ..)

theorem execPeclkLoss_follows (s : State) : FollowsOut s (execPeclkLoss s) :=
  follows_next (State.peclkLoss_follows (hF := .refl s) ..)

end Sys2Proof.Machine
end

