-- ==== Sys2Proof/Laws/FollowsPowerCmds.lean ====
section
/-! SUPPORT. What the operations of Machine/PowerCmds.lean keep: the queue, the invariant, programmed OTP bits. -/

namespace Sys2Proof.Machine

theorem execSpanRestEntry_follows (sp : SpanId) (s : State) : FollowsOut s (execSpanRestEntry sp s) := by
  unfold execSpanRestEntry
  apply follows_next
  have h := Follows.refl s
  repeat' first
    | with_reducible assumption | intro _ | with_reducible apply follows_foldl | with_reducible apply follows_ite
    | with_reducible apply State.restEntry_follows | with_reducible apply State.whenMain_follows
    | ((conv => arg 2; arg 45; skip); with_reducible apply follows_mk) | with_reducible exact Eq.refl _
    | exact Eq.refl _ | split

theorem execSpanRestReached_follows (sp : SpanId) (s : State) : FollowsOut s (execSpanRestReached sp s) := by
  unfold execSpanRestReached
  apply follows_next
  have h := Follows.refl s
  repeat' first
    | with_reducible assumption | intro _ | with_reducible apply follows_foldl | with_reducible apply follows_ite
    | with_reducible apply State.restReached_follows | with_reducible apply State.whenMain_follows
    | ((conv => arg 2; arg 45; skip); with_reducible apply follows_mk) | with_reducible exact Eq.refl _
    | exact Eq.refl _ | split

theorem execSpanWakeDone_follows (sp : SpanId) (s : State) : FollowsOut s (execSpanWakeDone sp s) := by
  unfold execSpanWakeDone
  apply follows_next
  have h := Follows.refl s
  repeat' first
    | with_reducible assumption | intro _ | with_reducible apply follows_foldl | with_reducible apply follows_ite
    | with_reducible apply State.wakeDone_follows | with_reducible apply State.whenMain_follows
    | ((conv => arg 2; arg 45; skip); with_reducible apply follows_mk) | with_reducible exact Eq.refl _
    | exact Eq.refl _ | split

theorem execSpanWakeCommand_follows (sp : SpanId) (v : Word) (s : State) : FollowsOut s (execSpanWakeCommand sp v s) := by
  unfold execSpanWakeCommand
  apply follows_next
  have h := Follows.refl s
  repeat' first
    | with_reducible assumption | intro _ | with_reducible apply follows_foldl | with_reducible apply follows_ite
    | with_reducible apply State.whenFirmware_follows | with_reducible apply State.writePwrctl_follows
    | ((conv => arg 2; arg 45; skip); with_reducible apply follows_mk) | with_reducible exact Eq.refl _
    | exact Eq.refl _ | split

theorem execPowerWindowEnd_follows (s : State) : FollowsOut s (execPowerWindowEnd s) := by
  unfold execPowerWindowEnd
  apply follows_next
  have h := Follows.refl s
  repeat' first
    | with_reducible assumption | with_reducible apply State.whenMain_follows
    | with_reducible apply State.windowEnd_follows

theorem execClockStepApply_follows (sp : SpanId) (s : State) : FollowsOut s (execClockStepApply sp s) := by
  unfold execClockStepApply
  apply follows_next
  have h := Follows.refl s
  repeat' first
    | with_reducible assumption | intro _ | with_reducible apply follows_foldl | with_reducible apply follows_ite
    | with_reducible apply State.clockStep_follows | with_reducible apply State.whenMain_follows
    | ((conv => arg 2; arg 45; skip); with_reducible apply follows_mk) | with_reducible exact Eq.refl _
    | exact Eq.refl _ | split

theorem execClockMonitorWindow_follows (b : ClockBranch) (count : Nat) (s : State) : FollowsOut s (execClockMonitorWindow b count s) := by
  unfold execClockMonitorWindow
  apply follows_next
  have h := Follows.refl s
  repeat' first
    | with_reducible assumption | intro _ | with_reducible apply follows_foldl | with_reducible apply follows_ite
    | with_reducible apply State.clockWindow_follows | with_reducible apply State.whenMain_follows
    | ((conv => arg 2; arg 45; skip); with_reducible apply follows_mk) | with_reducible exact Eq.refl _
    | exact Eq.refl _ | split

theorem execPllLockLoss_follows (n : Fin 4) (s : State) : FollowsOut s (execPllLockLoss n s) := by
  unfold execPllLockLoss
  apply follows_next
  have h := Follows.refl s
  repeat' first
    | with_reducible assumption | intro _ | with_reducible apply follows_foldl | with_reducible apply follows_ite
    | with_reducible apply State.pllLoss_follows | with_reducible apply State.whenMain_follows
    | ((conv => arg 2; arg 45; skip); with_reducible apply follows_mk) | with_reducible exact Eq.refl _
    | exact Eq.refl _ | split

theorem execAonClockLoss_follows (s : State) : FollowsOut s (execAonClockLoss s) := by
  unfold execAonClockLoss
  apply follows_next
  have h := Follows.refl s
  repeat' first
    | with_reducible assumption | with_reducible apply State.aonClockLoss_follows
    | with_reducible apply State.whenMain_follows

theorem execBellTick_follows (s : State) : FollowsOut s (execBellTick s) :=
  follows_next (State.bellTick_follows (hF := .refl s) ..)

theorem execBellAlarm_follows (s : State) : FollowsOut s (execBellAlarm s) :=
  follows_next (State.bellAlarm_follows (hF := .refl s) ..)

theorem execTempReading_follows (vals : List Half) (s : State) : FollowsOut s (execTempReading vals s) := by
  unfold execTempReading
  apply follows_next
  have h := Follows.refl s
  repeat' first
    | with_reducible assumption | intro _ | with_reducible apply follows_foldl | with_reducible apply follows_ite
    | with_reducible apply State.tempReading_follows | with_reducible apply State.whenMain_follows
    | ((conv => arg 2; arg 45; skip); with_reducible apply follows_mk) | with_reducible exact Eq.refl _
    | exact Eq.refl _ | split

theorem execDeepStandbyRequest_follows (v : Word) (s : State) : FollowsOut s (execDeepStandbyRequest v s) := by
  unfold execDeepStandbyRequest
  apply follows_next
  have h := Follows.refl s
  repeat' first
    | with_reducible assumption | intro _ | with_reducible apply follows_foldl | with_reducible apply follows_ite
    | with_reducible apply State.standbyRequest_follows | with_reducible apply State.whenFirmware_follows
    | ((conv => arg 2; arg 45; skip); with_reducible apply follows_mk) | with_reducible exact Eq.refl _
    | exact Eq.refl _ | split

theorem execMainenLow_follows (s : State) : FollowsOut s (execMainenLow s) :=
  follows_next (State.mainenLow_follows (hF := .refl s) ..)

theorem execWakeinRise_follows (s : State) : FollowsOut s (execWakeinRise s) :=
  follows_next (State.wakeinRise_follows (hF := .refl s) ..)

theorem execSupplyFault_follows (s : State) : FollowsOut s (execSupplyFault s) :=
  follows_next (State.supplyFault_follows (hF := .refl s) ..)

theorem execVaonMonitorFault_follows (s : State) : FollowsOut s (execVaonMonitorFault s) :=
  follows_next (State.vaonFault_follows (hF := .refl s) ..)

theorem execTallySlackMeasure_follows (sp : SpanId) (v : Word) (s : State) : FollowsOut s (execTallySlackMeasure sp v s) := by
  unfold execTallySlackMeasure
  apply follows_next
  have h := Follows.refl s
  repeat' first
    | with_reducible assumption | intro _ | with_reducible apply follows_foldl | with_reducible apply follows_ite
    | with_reducible apply State.tallySlack_follows | with_reducible apply State.whenMain_follows
    | ((conv => arg 2; arg 45; skip); with_reducible apply follows_mk) | with_reducible exact Eq.refl _
    | exact Eq.refl _ | split

theorem execTallySramMeasure_follows (sp : SpanId) (scratch : BitVec 4) (group : BitVec 4) (s : State) : FollowsOut s (execTallySramMeasure sp scratch group s) := by
  unfold execTallySramMeasure
  apply follows_next
  have h := Follows.refl s
  repeat' first
    | with_reducible assumption | intro _ | with_reducible apply follows_foldl | with_reducible apply follows_ite
    | with_reducible apply State.tallySram_follows | with_reducible apply State.whenMain_follows
    | ((conv => arg 2; arg 45; skip); with_reducible apply follows_mk) | with_reducible exact Eq.refl _
    | exact Eq.refl _ | split

theorem execTallyBandCount_follows (sp : SpanId) (s : State) : FollowsOut s (execTallyBandCount sp s) := by
  unfold execTallyBandCount
  apply follows_next
  have h := Follows.refl s
  repeat' first
    | with_reducible assumption | intro _ | with_reducible apply follows_foldl | with_reducible apply follows_ite
    | with_reducible apply State.tallyBand_follows | with_reducible apply State.whenMain_follows
    | ((conv => arg 2; arg 45; skip); with_reducible apply follows_mk) | with_reducible exact Eq.refl _
    | exact Eq.refl _ | split

theorem execTallyRetire_follows (sp : SpanId) (v : Word) (s : State) : FollowsOut s (execTallyRetire sp v s) := by
  unfold execTallyRetire
  apply follows_next
  have h := Follows.refl s
  repeat' first
    | with_reducible assumption | intro _ | with_reducible apply follows_foldl | with_reducible apply follows_ite
    | with_reducible apply State.tallyRetire_follows | with_reducible apply State.whenFirmware_follows
    | ((conv => arg 2; arg 45; skip); with_reducible apply follows_mk) | with_reducible exact Eq.refl _
    | exact Eq.refl _ | split

theorem execTallySminRead_follows (sp : SpanId) (s : State) : FollowsOut s (execTallySminRead sp s) := by
  unfold execTallySminRead
  apply follows_next
  have h := Follows.refl s
  repeat' first
    | with_reducible assumption | intro _ | with_reducible apply follows_foldl | with_reducible apply follows_ite
    | with_reducible apply State.tallySmin_follows | with_reducible apply State.whenFirmware_follows
    | ((conv => arg 2; arg 45; skip); with_reducible apply follows_mk) | with_reducible exact Eq.refl _
    | exact Eq.refl _ | split

theorem execLogicBistStart_follows (v : Word) (s : State) : FollowsOut s (execLogicBistStart v s) := by
  unfold execLogicBistStart
  apply follows_next
  have h := Follows.refl s
  repeat' first
    | with_reducible assumption | intro _ | with_reducible apply follows_foldl | with_reducible apply follows_ite
    | with_reducible apply State.bistStart_follows | with_reducible apply State.whenFirmware_follows
    | ((conv => arg 2; arg 45; skip); with_reducible apply follows_mk) | with_reducible exact Eq.refl _
    | exact Eq.refl _ | split

theorem execLogicBistBegin_follows (y : YokeId) (s : State) : FollowsOut s (execLogicBistBegin y s) := by
  unfold execLogicBistBegin
  apply follows_next
  have h := Follows.refl s
  repeat' first
    | with_reducible assumption | intro _ | with_reducible apply follows_foldl | with_reducible apply follows_ite
    | with_reducible apply State.bistBegin_follows | with_reducible apply State.whenMain_follows
    | ((conv => arg 2; arg 45; skip); with_reducible apply follows_mk) | with_reducible exact Eq.refl _
    | exact Eq.refl _ | split

theorem execLogicBistDone_follows (y : YokeId) (pass : Bool) (s : State) : FollowsOut s (execLogicBistDone y pass s) := by
  unfold execLogicBistDone
  apply follows_next
  have h := Follows.refl s
  repeat' first
    | with_reducible assumption | intro _ | with_reducible apply follows_foldl | with_reducible apply follows_ite
    | with_reducible apply State.bistDone_follows | with_reducible apply State.whenMain_follows
    | ((conv => arg 2; arg 45; skip); with_reducible apply follows_mk) | with_reducible exact Eq.refl _
    | exact Eq.refl _ | split

theorem execMemoryBistStart_follows (v : Word) (s : State) : FollowsOut s (execMemoryBistStart v s) := by
  unfold execMemoryBistStart
  apply follows_next
  have h := Follows.refl s
  repeat' first
    | with_reducible assumption | intro _ | with_reducible apply follows_foldl | with_reducible apply follows_ite
    | with_reducible apply State.memTest_follows | with_reducible apply State.whenFirmware_follows
    | ((conv => arg 2; arg 45; skip); with_reducible apply follows_mk) | with_reducible exact Eq.refl _
    | exact Eq.refl _ | split

theorem execMemoryBistDone_follows (unit : Word) (pass : Bool) (s : State) : FollowsOut s (execMemoryBistDone unit pass s) := by
  unfold execMemoryBistDone
  apply follows_next
  have h := Follows.refl s
  repeat' first
    | with_reducible assumption | intro _ | with_reducible apply follows_foldl | with_reducible apply follows_ite
    | with_reducible apply State.memTestDone_follows | with_reducible apply State.whenMain_follows
    | ((conv => arg 2; arg 45; skip); with_reducible apply follows_mk) | with_reducible exact Eq.refl _
    | exact Eq.refl _ | split

theorem execStartupBistDone_follows (deferred : Bool) (yokes : List YokeId) (units : List Word) (s : State) : FollowsOut s (execStartupBistDone deferred yokes units s) := by
  unfold execStartupBistDone
  apply follows_next
  have h := Follows.refl s
  repeat' first
    | with_reducible assumption | intro _ | with_reducible apply follows_foldl | with_reducible apply follows_ite
    | with_reducible apply State.startupDone_follows | with_reducible apply State.whenMain_follows
    | ((conv => arg 2; arg 45; skip); with_reducible apply follows_mk) | with_reducible exact Eq.refl _
    | exact Eq.refl _ | split

theorem execDroverCoreTest_follows (c : Fin 3) (s : State) : FollowsOut s (execDroverCoreTest c s) := by
  unfold execDroverCoreTest
  apply follows_next
  have h := Follows.refl s
  repeat' first
    | with_reducible assumption | intro _ | with_reducible apply follows_foldl | with_reducible apply follows_ite
    | with_reducible apply State.droverTest_follows | with_reducible apply State.whenFirmware_follows
    | ((conv => arg 2; arg 45; skip); with_reducible apply follows_mk) | with_reducible exact Eq.refl _
    | exact Eq.refl _ | split

theorem execDroverCoreTestDone_follows (s : State) : FollowsOut s (execDroverCoreTestDone s) := by
  unfold execDroverCoreTestDone
  apply follows_next
  have h := Follows.refl s
  repeat' first
    | with_reducible assumption | with_reducible apply State.droverTestDone_follows
    | with_reducible apply State.whenMain_follows

theorem execVaonPowerOn_follows (s : State) : FollowsOut s (execVaonPowerOn s) :=
  follows_next (State.vaonOn_follows (hF := .refl s) ..)

theorem execVaonPowerLoss_follows (s : State) : FollowsOut s (execVaonPowerLoss s) :=
  follows_next (State.vaonLoss_follows (hF := .refl s) ..)

theorem execCrystalReady_follows (s : State) : FollowsOut s (execCrystalReady s) :=
  follows_next (State.crystalReady_follows (hF := .refl s) ..)

theorem execCrystalTimeout_follows (s : State) : FollowsOut s (execCrystalTimeout s) :=
  follows_next (State.crystalTimeout_follows (hF := .refl s) ..)

theorem execNresetAssert_follows (s : State) : FollowsOut s (execNresetAssert s) :=
  follows_next (State.nresetAssert_follows (hF := .refl s) ..)

theorem execNresetRelease_follows (straps : Word) (s : State) : FollowsOut s (execNresetRelease straps s) :=
  follows_next (State.nresetRelease_follows (hF := .refl s) ..)

theorem execPowerGood_follows (straps : Word) (flash : Flash) (s : State) : FollowsOut s (execPowerGood straps flash s) :=
  follows_next (State.powerGood_follows (hF := .refl s) ..)

end Sys2Proof.Machine
end

