-- ==== Sys2Proof/Laws/FollowsSafeIoCmds.lean ====
section
/-! SUPPORT. What the operations of Machine/SafeIoCmds.lean keep: the queue, the invariant, programmed OTP bits. -/

namespace Sys2Proof.Machine

theorem execInputSample_follows (a : Half) (b : Half) (s : State) : FollowsOut s (execInputSample a b s) := by
  unfold execInputSample
  apply follows_next
  have h := Follows.refl s
  repeat' first
    | with_reducible assumption | intro _ | with_reducible apply follows_foldl | with_reducible apply follows_ite
    | with_reducible apply State.inputSample_follows | with_reducible apply State.whenMain_follows
    | ((conv => arg 2; arg 45; skip); with_reducible apply follows_mk) | with_reducible exact Eq.refl _
    | exact Eq.refl _ | split

theorem execInputFreeze_follows (f : FoldId) (s : State) : FollowsOut s (execInputFreeze f s) := by
  unfold execInputFreeze
  apply follows_next
  have h := Follows.refl s
  repeat' first
    | with_reducible assumption | intro _ | with_reducible apply follows_foldl | with_reducible apply follows_ite
    | with_reducible apply State.inputFreeze_follows | with_reducible apply State.whenMain_follows
    | ((conv => arg 2; arg 45; skip); with_reducible apply follows_mk) | with_reducible exact Eq.refl _
    | exact Eq.refl _ | split

theorem execPairTick_follows (s : State) : FollowsOut s (execPairTick s) := by
  unfold execPairTick
  apply follows_next
  have h := Follows.refl s
  repeat' first
    | with_reducible assumption | with_reducible apply State.pairTick_follows
    | with_reducible apply State.whenMain_follows

theorem execDiscrepancyFault_follows (n : Fin 64) (s : State) : FollowsOut s (execDiscrepancyFault n s) := by
  unfold execDiscrepancyFault
  apply follows_next
  have h := Follows.refl s
  repeat' first
    | with_reducible assumption | intro _ | with_reducible apply follows_foldl | with_reducible apply follows_ite
    | with_reducible apply State.discrepancyDue_follows | with_reducible apply State.whenMain_follows
    | ((conv => arg 2; arg 45; skip); with_reducible apply follows_mk) | with_reducible exact Eq.refl _
    | exact Eq.refl _ | split

theorem execTestPulse_follows (onB : Bool) (s : State) : FollowsOut s (execTestPulse onB s) := by
  unfold execTestPulse
  apply follows_next
  have h := Follows.refl s
  repeat' first
    | with_reducible assumption | intro _ | with_reducible apply follows_foldl | with_reducible apply follows_ite
    | with_reducible apply State.testPulse_follows | with_reducible apply State.whenMain_follows
    | ((conv => arg 2; arg 45; skip); with_reducible apply follows_mk) | with_reducible exact Eq.refl _
    | exact Eq.refl _ | split

theorem execPairWindowLoad_follows (y : YokeId) (d : Gpr) (n : Fin 64) (r : Fin 3) (s : State) : FollowsOut s (execPairWindowLoad y d n r s) :=
  follows_next (State.issueLoad_follows (hF := .refl s) ..)

theorem execSafeOutputSoaOn_follows (k : Fin 8) (s : State) : FollowsOut s (execSafeOutputSoaOn k s) := by
  unfold execSafeOutputSoaOn
  apply follows_next
  have h := Follows.refl s
  repeat' first
    | with_reducible assumption | intro _ | with_reducible apply follows_foldl | with_reducible apply follows_ite
    | with_reducible apply State.soaOn_follows | with_reducible apply State.whenMain_follows
    | ((conv => arg 2; arg 45; skip); with_reducible apply follows_mk) | with_reducible exact Eq.refl _
    | exact Eq.refl _ | split

theorem execReadbackFault_follows (k : Fin 8) (a0 : Bool) (b0 : Bool) (a1 : Bool) (b1 : Bool) (s : State) : FollowsOut s (execReadbackFault k a0 b0 a1 b1 s) := by
  unfold execReadbackFault
  apply follows_next
  have h := Follows.refl s
  repeat' first
    | with_reducible assumption | intro _ | with_reducible apply follows_foldl | with_reducible apply follows_ite
    | with_reducible apply State.readback_follows | with_reducible apply State.whenMain_follows
    | ((conv => arg 2; arg 45; skip); with_reducible apply follows_mk) | with_reducible exact Eq.refl _
    | exact Eq.refl _ | split

theorem execOutputTest_follows (k : Fin 8) (s : State) : FollowsOut s (execOutputTest k s) := by
  unfold execOutputTest
  apply follows_next
  have h := Follows.refl s
  repeat' first
    | with_reducible assumption | intro _ | with_reducible apply follows_foldl | with_reducible apply follows_ite
    | with_reducible apply State.outputTest_follows | with_reducible apply State.whenMain_follows
    | ((conv => arg 2; arg 45; skip); with_reducible apply follows_mk) | with_reducible exact Eq.refl _
    | exact Eq.refl _ | split

theorem execOutputTestEnd_follows (k : Fin 8) (s : State) : FollowsOut s (execOutputTestEnd k s) := by
  unfold execOutputTestEnd
  apply follows_next
  have h := Follows.refl s
  repeat' first
    | with_reducible assumption | intro _ | with_reducible apply follows_foldl | with_reducible apply follows_ite
    | with_reducible apply State.outputTestEnd_follows | with_reducible apply State.whenMain_follows
    | ((conv => arg 2; arg 45; skip); with_reducible apply follows_mk) | with_reducible exact Eq.refl _
    | exact Eq.refl _ | split

theorem execOutputConfigWrite_follows (k : Fin 8) (v : Word) (s : State) : FollowsOut s (execOutputConfigWrite k v s) := by
  unfold execOutputConfigWrite
  apply follows_next
  have h := Follows.refl s
  repeat' first
    | with_reducible assumption | intro _ | with_reducible apply follows_foldl | with_reducible apply follows_ite
    | with_reducible apply State.whenFirmware_follows | with_reducible apply State.writeOpcfg_follows
    | ((conv => arg 2; arg 45; skip); with_reducible apply follows_mk) | with_reducible exact Eq.refl _
    | exact Eq.refl _ | split

theorem execInputConfigWrite_follows (n : Fin 64) (v : Word) (s : State) : FollowsOut s (execInputConfigWrite n v s) := by
  unfold execInputConfigWrite
  apply follows_next
  have h := Follows.refl s
  repeat' first
    | with_reducible assumption | intro _ | with_reducible apply follows_foldl | with_reducible apply follows_ite
    | with_reducible apply State.whenFirmware_follows | with_reducible apply State.writeIpcfg_follows
    | ((conv => arg 2; arg 45; skip); with_reducible apply follows_mk) | with_reducible exact Eq.refl _
    | exact Eq.refl _ | split

theorem execIpnetWrite_follows (n : Fin 64) (v : Word) (s : State) : FollowsOut s (execIpnetWrite n v s) := by
  unfold execIpnetWrite
  apply follows_next
  have h := Follows.refl s
  repeat' first
    | with_reducible assumption | intro _ | with_reducible apply follows_foldl | with_reducible apply follows_ite
    | with_reducible apply State.whenFirmware_follows | with_reducible apply State.writeIpnet_follows
    | ((conv => arg 2; arg 45; skip); with_reducible apply follows_mk) | with_reducible exact Eq.refl _
    | exact Eq.refl _ | split

end Sys2Proof.Machine
end

