-- ==== Sys2Proof/Laws/FollowsFabric.lean ====
section
/-! SUPPORT. What the operations of Machine/Fabric.lean keep: the queue, the invariant, programmed OTP bits. -/

namespace Sys2Proof.Machine

theorem State.fabricRetry_follows {p0 : State} (s : State) (src : FabricEnd) (dst : FabricEnd) (hop : Nat) (o : FabricOutcome) (word : Nat) (hF : Follows p0 s) :
    Follows p0 (State.fabricRetry s src dst hop o word) := by
  unfold State.fabricRetry
  try dsimp only
  repeat' first
    | with_reducible assumption | with_reducible apply follows_ite | with_reducible apply State.reportU_follows
    | with_reducible apply State.setReg_follows | ((conv => arg 2; arg 45; skip); with_reducible apply follows_mk)
    | exact Eq.refl _ | split

end Sys2Proof.Machine
end

