-- ==== Sys2Proof/Laws/FollowsScheduler.lean ====
section
/-! SUPPORT. What the operations of Machine/Scheduler.lean keep: the queue, the invariant, programmed OTP bits. -/

namespace Sys2Proof.Machine

theorem execOwnerPop_follows (y : YokeId) (s : State) : FollowsOut s (execOwnerPop y s) := by
  unfold execOwnerPop
  apply follows_next
  have h := Follows.refl s
  repeat' first
    | with_reducible assumption | intro _ | with_reducible apply follows_foldl | with_reducible apply follows_ite
    | with_reducible apply follows_ite_fst | with_reducible apply State.take_follows
    | with_reducible refine State.ownerPop_follows (by assumption) ?_ | with_reducible apply follows_foldl_fst
    | ((conv => arg 2; arg 45; skip); with_reducible apply follows_mk) | with_reducible exact Eq.refl _
    | exact Eq.refl _ | split | dsimp only

theorem execOverflowTake_follows (y : YokeId) (s : State) : FollowsOut s (execOverflowTake y s) := by
  unfold execOverflowTake
  apply follows_next
  have h := Follows.refl s
  repeat' first
    | with_reducible assumption | intro _ | with_reducible apply follows_foldl | with_reducible apply follows_ite
    | with_reducible apply follows_ite_fst | with_reducible apply State.take_follows
    | with_reducible refine State.ownerPop_follows (by assumption) ?_
    | with_reducible refine State.takeOverflow_follows (by assumption) ?_ | with_reducible apply follows_foldl_fst
    | ((conv => arg 2; arg 45; skip); with_reducible apply follows_mk) | with_reducible exact Eq.refl _
    | exact Eq.refl _ | split | dsimp only

theorem execSteal_follows (y : YokeId) (s : State) : FollowsOut s (execSteal y s) := by
  unfold execSteal
  apply follows_next
  have h := Follows.refl s
  repeat' first
    | with_reducible assumption | intro _ | with_reducible apply follows_foldl | with_reducible apply follows_ite
    | with_reducible apply follows_ite_fst | with_reducible apply State.take_follows
    | with_reducible refine State.ownerPop_follows (by assumption) ?_
    | with_reducible refine State.stealLocal_follows (by assumption) ?_
    | with_reducible refine State.takeOverflow_follows (by assumption) ?_ | with_reducible apply follows_foldl_fst
    | ((conv => arg 2; arg 45; skip); with_reducible apply follows_mk) | with_reducible exact Eq.refl _
    | exact Eq.refl _ | split | dsimp only

theorem execCrossSpanSteal_follows (y : YokeId) (s : State) : FollowsOut s (execCrossSpanSteal y s) := by
  unfold execCrossSpanSteal
  apply follows_next
  have h := Follows.refl s
  repeat' first
    | with_reducible assumption | intro _ | with_reducible apply follows_foldl | with_reducible apply follows_ite
    | with_reducible apply follows_ite_fst | with_reducible apply State.take_follows
    | with_reducible refine State.crossSteal_follows (by assumption) ?_
    | with_reducible refine State.takeLocal_follows (by assumption) ?_ | with_reducible apply follows_foldl_fst
    | ((conv => arg 2; arg 45; skip); with_reducible apply follows_mk) | with_reducible exact Eq.refl _
    | exact Eq.refl _ | split | dsimp only

theorem execDeferredOverflowPush_follows (sp : SpanId) (s : State) : FollowsOut s (execDeferredOverflowPush sp s) :=
  follows_next (State.deferredPush_follows (hF := .refl s) ..)

theorem execFollowTaskStart_follows (y : YokeId) (s : State) : FollowsOut s (execFollowTaskStart y s) := by
  unfold execFollowTaskStart
  apply follows_next
  have h := Follows.refl s
  repeat' first
    | with_reducible assumption | intro _ | with_reducible apply follows_foldl | with_reducible apply follows_ite
    | with_reducible apply follows_ite_fst | with_reducible apply State.followStart_follows
    | with_reducible apply follows_foldl_fst | ((conv => arg 2; arg 45; skip); with_reducible apply follows_mk)
    | ((conv => arg 2; arg 45; skip); with_reducible apply follows_mk_mem) | with_reducible exact Eq.refl _
    | exact Eq.refl _ | with_reducible exact follows_memOk (by assumption) (by assumption)
    | with_reducible apply memFlip_wf | with_reducible apply memWrite_wf | with_reducible apply memWipe_wf
    | with_reducible apply filter_wf | split | (rename_i e; injection e; done)
    | (rename_i e; injection e with e; subst e) | (rename_i e; injection e with e e2; subst e)
    | (rename_i e; injection e with e; revert e; intro _) | (rename_i e; split at e <;> (revert e; intro _))
    | (rename_i e; rw [Option.map_eq_some_iff] at e; obtain ⟨_, _, rfl⟩ := e) | dsimp only | (rename_i e; clear e)

theorem execInjectTestMismatch_follows (sp : SpanId) (v : Word) (s : State) : FollowsOut s (execInjectTestMismatch sp v s) := by
  unfold execInjectTestMismatch
  apply follows_next
  have h := Follows.refl s
  repeat' first
    | with_reducible assumption | intro _ | with_reducible apply follows_foldl | with_reducible apply follows_ite
    | with_reducible apply follows_ite_fst | with_reducible apply State.whenFirmware_follows
    | with_reducible apply State.writeCkctl_follows | with_reducible apply follows_foldl_fst
    | ((conv => arg 2; arg 45; skip); with_reducible apply follows_mk)
    | ((conv => arg 2; arg 45; skip); with_reducible apply follows_mk_mem) | with_reducible exact Eq.refl _
    | exact Eq.refl _ | with_reducible exact follows_memOk (by assumption) (by assumption)
    | with_reducible apply memFlip_wf | with_reducible apply memWrite_wf | with_reducible apply memWipe_wf
    | with_reducible apply filter_wf | split | (rename_i e; injection e; done)
    | (rename_i e; injection e with e; subst e) | (rename_i e; injection e with e e2; subst e)
    | (rename_i e; injection e with e; revert e; intro _) | (rename_i e; split at e <;> (revert e; intro _))
    | (rename_i e; rw [Option.map_eq_some_iff] at e; obtain ⟨_, _, rfl⟩ := e) | dsimp only | (rename_i e; clear e)

theorem execSlipTargetWrite_follows (sp : SpanId) (v : Word) (s : State) : FollowsOut s (execSlipTargetWrite sp v s) := by
  unfold execSlipTargetWrite
  apply follows_next
  have h := Follows.refl s
  repeat' first
    | with_reducible assumption | intro _ | with_reducible apply follows_foldl | with_reducible apply follows_ite
    | with_reducible apply follows_ite_fst | with_reducible apply State.whenFirmware_follows
    | with_reducible apply State.writeCkctl_follows | with_reducible apply follows_foldl_fst
    | ((conv => arg 2; arg 45; skip); with_reducible apply follows_mk)
    | ((conv => arg 2; arg 45; skip); with_reducible apply follows_mk_mem) | with_reducible exact Eq.refl _
    | exact Eq.refl _ | with_reducible exact follows_memOk (by assumption) (by assumption)
    | with_reducible apply memFlip_wf | with_reducible apply memWrite_wf | with_reducible apply memWipe_wf
    | with_reducible apply filter_wf | split | (rename_i e; injection e; done)
    | (rename_i e; injection e with e; subst e) | (rename_i e; injection e with e e2; subst e)
    | (rename_i e; injection e with e; revert e; intro _) | (rename_i e; split at e <;> (revert e; intro _))
    | (rename_i e; rw [Option.map_eq_some_iff] at e; obtain ⟨_, _, rfl⟩ := e) | dsimp only | (rename_i e; clear e)

theorem execGroupWipeDone_follows (g : GroupId) (s : State) : FollowsOut s (execGroupWipeDone g s) :=
  follows_next (State.groupWipeDone_follows (hF := .refl s) ..)

theorem execSpanWipeDone_follows (sp : SpanId) (s : State) : FollowsOut s (execSpanWipeDone sp s) :=
  follows_next (State.spanWipeDone_follows (hF := .refl s) ..)

theorem execPatrolScrub_follows (kind : MemKind) (n : SpanId) (off : Nat) (e0 : CwFlip) (e1 : CwFlip) (s : State) : FollowsOut s (execPatrolScrub kind n off e0 e1 s) :=
  follows_next (State.patrolScrub_follows (hF := .refl s) ..)

theorem execEccWriteback_follows (kind : MemKind) (n : SpanId) (off : Nat) (s : State) : FollowsOut s (execEccWriteback kind n off s) :=
  follows_next (State.eccWriteback_follows (hF := .refl s) ..)

theorem execFabricCrcRetry_follows (src : FabricEnd) (dst : FabricEnd) (hop : Nat) (o : FabricOutcome) (word : Nat) (s : State) : FollowsOut s (execFabricCrcRetry src dst hop o word s) :=
  follows_next (State.fabricRetry_follows (hF := .refl s) ..)

theorem execMemctlClear_follows (sp : SpanId) (v : Word) (s : State) : FollowsOut s (execMemctlClear sp v s) := by
  unfold execMemctlClear
  apply follows_next
  have h := Follows.refl s
  repeat' first
    | with_reducible assumption | intro _ | with_reducible apply follows_foldl | with_reducible apply follows_ite
    | with_reducible apply follows_ite_fst | with_reducible apply State.whenFirmware_follows
    | with_reducible apply State.writeMemctl_follows | with_reducible apply follows_foldl_fst
    | ((conv => arg 2; arg 45; skip); with_reducible apply follows_mk)
    | ((conv => arg 2; arg 45; skip); with_reducible apply follows_mk_mem) | with_reducible exact Eq.refl _
    | exact Eq.refl _ | with_reducible exact follows_memOk (by assumption) (by assumption)
    | with_reducible apply memFlip_wf | with_reducible apply memWrite_wf | with_reducible apply memWipe_wf
    | with_reducible apply filter_wf | split | (rename_i e; injection e; done)
    | (rename_i e; injection e with e; subst e) | (rename_i e; injection e with e e2; subst e)
    | (rename_i e; injection e with e; revert e; intro _) | (rename_i e; split at e <;> (revert e; intro _))
    | (rename_i e; rw [Option.map_eq_some_iff] at e; obtain ⟨_, _, rfl⟩ := e) | dsimp only | (rename_i e; clear e)

end Sys2Proof.Machine
end

