-- ==== Sys2Proof/Laws/FollowsSecurityCmds.lean ====
section
/-! SUPPORT. What the operations of Machine/SecurityCmds.lean keep: the queue, the invariant, programmed OTP bits. -/

namespace Sys2Proof.Machine

theorem execOtpProgram_follows (v : Word) (bad : Byte) (s : State) : FollowsOut s (execOtpProgram v bad s) := by
  unfold execOtpProgram
  apply follows_next
  have h := Follows.refl s
  repeat' first
    | with_reducible assumption | intro _ | with_reducible apply follows_foldl | with_reducible apply follows_ite
    | with_reducible apply State.otpProgram_follows | with_reducible apply State.whenFirmware_follows
    | ((conv => arg 2; arg 45; skip); with_reducible apply follows_mk) | with_reducible exact Eq.refl _
    | exact Eq.refl _ | split

theorem execLifecycleRequest_follows (v : Word) (s : State) : FollowsOut s (execLifecycleRequest v s) := by
  unfold execLifecycleRequest
  apply follows_next
  have h := Follows.refl s
  repeat' first
    | with_reducible assumption | intro _ | with_reducible apply follows_foldl | with_reducible apply follows_ite
    | with_reducible apply State.lcRequest_follows | with_reducible apply State.whenFirmware_follows
    | ((conv => arg 2; arg 45; skip); with_reducible apply follows_mk) | with_reducible exact Eq.refl _
    | exact Eq.refl _ | split

theorem execManifestVerify_follows (v : Word) (image : List Byte) (s : State) : FollowsOut s (execManifestVerify v image s) := by
  unfold execManifestVerify
  apply follows_next
  have h := Follows.refl s
  repeat' first
    | with_reducible assumption | intro _ | with_reducible apply follows_foldl | with_reducible apply follows_ite
    | with_reducible apply State.manifestVerify_follows | with_reducible apply State.whenFirmware_follows
    | ((conv => arg 2; arg 45; skip); with_reducible apply follows_mk) | with_reducible exact Eq.refl _
    | exact Eq.refl _ | split

theorem execManifestVerifyDone_follows (s : State) : FollowsOut s (execManifestVerifyDone s) := by
  unfold execManifestVerifyDone
  apply follows_next
  have h := Follows.refl s
  repeat' first
    | with_reducible assumption | with_reducible apply State.manifestDone_follows
    | with_reducible apply State.whenMain_follows

theorem execFwSvnAdvance_follows (n : BitVec 7) (s : State) : FollowsOut s (execFwSvnAdvance n s) := by
  unfold execFwSvnAdvance
  apply follows_next
  have h := Follows.refl s
  repeat' first
    | with_reducible assumption | intro _ | with_reducible apply follows_foldl | with_reducible apply follows_ite
    | with_reducible apply State.fwAdvance_follows | with_reducible apply State.whenFirmware_follows
    | ((conv => arg 2; arg 45; skip); with_reducible apply follows_mk) | with_reducible exact Eq.refl _
    | exact Eq.refl _ | split

theorem execMnSvnAdvance_follows (n : BitVec 7) (s : State) : FollowsOut s (execMnSvnAdvance n s) := by
  unfold execMnSvnAdvance
  apply follows_next
  have h := Follows.refl s
  repeat' first
    | with_reducible assumption | intro _ | with_reducible apply follows_foldl | with_reducible apply follows_ite
    | with_reducible apply State.mnAdvance_follows | with_reducible apply State.whenFirmware_follows
    | ((conv => arg 2; arg 45; skip); with_reducible apply follows_mk) | with_reducible exact Eq.refl _
    | exact Eq.refl _ | split

theorem execCryptoSubmit_follows (v : Word) (ws : List (Word × List Byte)) (flips : List (BitVec 18 × CwFlip)) (s : State) : FollowsOut s (execCryptoSubmit v ws flips s) := by
  unfold execCryptoSubmit
  apply follows_next
  have h := Follows.refl s
  repeat' first
    | with_reducible assumption | intro _ | with_reducible apply follows_foldl | with_reducible apply follows_ite
    | with_reducible apply State.cryptoSubmit_follows | with_reducible apply State.whenFirmware_follows
    | ((conv => arg 2; arg 45; skip); with_reducible apply follows_mk) | with_reducible exact Eq.refl _
    | exact Eq.refl _ | split

theorem execCryptoAesGcmEncrypt_follows (s : State) : FollowsOut s (execCryptoAesGcmEncrypt s) := by
  unfold execCryptoAesGcmEncrypt
  apply follows_next
  have h := Follows.refl s
  repeat' first
    | with_reducible assumption | with_reducible apply State.jobEncrypt_follows
    | with_reducible apply State.runJob_follows

theorem execCryptoAesGcmDecrypt_follows (s : State) : FollowsOut s (execCryptoAesGcmDecrypt s) := by
  unfold execCryptoAesGcmDecrypt
  apply follows_next
  have h := Follows.refl s
  repeat' first
    | with_reducible assumption | with_reducible apply State.jobDecrypt_follows
    | with_reducible apply State.runJob_follows

theorem execCryptoGmac_follows (s : State) : FollowsOut s (execCryptoGmac s) := by
  unfold execCryptoGmac
  apply follows_next
  have h := Follows.refl s
  repeat' first
    | with_reducible assumption | with_reducible apply State.jobGmac_follows | with_reducible apply State.runJob_follows

theorem execCryptoSha384_follows (s : State) : FollowsOut s (execCryptoSha384 s) := by
  unfold execCryptoSha384
  apply follows_next
  have h := Follows.refl s
  repeat' first
    | with_reducible assumption | with_reducible apply State.jobHash_follows | with_reducible apply State.runJob_follows

theorem execCryptoEcdsaVerify_follows (s : State) : FollowsOut s (execCryptoEcdsaVerify s) := by
  unfold execCryptoEcdsaVerify
  apply follows_next
  have h := Follows.refl s
  repeat' first
    | with_reducible assumption | with_reducible apply State.jobVerify_follows
    | with_reducible apply State.runJob_follows

theorem execCryptoKeyUnwrap_follows (s : State) : FollowsOut s (execCryptoKeyUnwrap s) := by
  unfold execCryptoKeyUnwrap
  apply follows_next
  have h := Follows.refl s
  repeat' first
    | with_reducible assumption | with_reducible apply State.jobUnwrap_follows
    | with_reducible apply State.runJob_follows

theorem execCryptoRandomKey_follows (s : State) : FollowsOut s (execCryptoRandomKey s) := by
  unfold execCryptoRandomKey
  apply follows_next
  have h := Follows.refl s
  repeat' first
    | with_reducible assumption | with_reducible apply State.jobRandom_follows
    | with_reducible apply State.runJob_follows

theorem execRngOutput_follows (healthy : Bool) (s : State) : FollowsOut s (execRngOutput healthy s) :=
  follows_next (State.rngOutput_follows (hF := .refl s) ..)

theorem execChallengeGenerate_follows (s : State) : FollowsOut s (execChallengeGenerate s) := by
  unfold execChallengeGenerate
  apply follows_next
  have h := Follows.refl s
  repeat' first
    | with_reducible assumption | with_reducible apply State.challenge_follows
    | with_reducible apply State.whenFirmware_follows

theorem execDebugOpen_follows (v : Word) (s : State) : FollowsOut s (execDebugOpen v s) := by
  unfold execDebugOpen
  apply follows_next
  have h := Follows.refl s
  repeat' first
    | with_reducible assumption | intro _ | with_reducible apply follows_foldl | with_reducible apply follows_ite
    | with_reducible apply State.debugOpen_follows | with_reducible apply State.whenFirmware_follows
    | ((conv => arg 2; arg 45; skip); with_reducible apply follows_mk) | with_reducible exact Eq.refl _
    | exact Eq.refl _ | split

theorem execTamper_follows (kind : Fin 4) (s : State) : FollowsOut s (execTamper kind s) :=
  follows_next (State.tamper_follows (hF := .refl s) ..)

end Sys2Proof.Machine
end

