-- ==== Sys2Proof/Laws/FollowsServiceCmds.lean ====
section
/-! SUPPORT. What the operations of Machine/ServiceCmds.lean keep: the queue, the invariant, programmed OTP bits. -/

namespace Sys2Proof.Machine

theorem execSmbusStatusRead_follows (s : State) : FollowsOut s (execSmbusStatusRead s) :=
  follows_next (State.smbusStatus_follows (hF := .refl s) ..)

theorem execSmbusMailboxRead_follows (s : State) : FollowsOut s (execSmbusMailboxRead s) :=
  follows_next (State.smbusRead_follows (hF := .refl s) ..)

theorem execSmbusMailboxWrite_follows (bs : List Byte) (pec : Option Byte) (s : State) : FollowsOut s (execSmbusMailboxWrite bs pec s) :=
  follows_next (State.smbusWrite_follows (hF := .refl s) ..)

theorem execSmbusAlertRead_follows (s : State) : FollowsOut s (execSmbusAlertRead s) :=
  follows_next (State.smbusAlert_follows (hF := .refl s) ..)

theorem execSmbusAlertResponse_follows (s : State) : FollowsOut s (execSmbusAlertResponse s) :=
  follows_next (State.smbusAra_follows (hF := .refl s) ..)

theorem execSmbusUnknownCommand_follows (s : State) : FollowsOut s (execSmbusUnknownCommand s) :=
  follows_next (State.smbusUnknown_follows (hF := .refl s) ..)

theorem execJtagBypass_follows (s : State) : FollowsOut s (execJtagBypass s) :=
  follows_next (State.tapInstruction_follows (hF := .refl s) ..)

theorem execJtagIdcode_follows (s : State) : FollowsOut s (execJtagIdcode s) :=
  follows_next (State.tapInstruction_follows (hF := .refl s) ..)

theorem execJtagSamplePreload_follows (shift : List Bool) (s : State) : FollowsOut s (execJtagSamplePreload shift s) :=
  follows_next (State.tapInstruction_follows (hF := .refl s) ..)

theorem execJtagExtest_follows (shift : List Bool) (s : State) : FollowsOut s (execJtagExtest shift s) :=
  follows_next (State.tapInstruction_follows (hF := .refl s) ..)

theorem execJtagExtestPulse_follows (shift : List Bool) (s : State) : FollowsOut s (execJtagExtestPulse shift s) :=
  follows_next (State.tapInstruction_follows (hF := .refl s) ..)

theorem execJtagExtestTrain_follows (shift : List Bool) (s : State) : FollowsOut s (execJtagExtestTrain shift s) :=
  follows_next (State.tapInstruction_follows (hF := .refl s) ..)

theorem execJtagDbgacc_follows (s : State) : FollowsOut s (execJtagDbgacc s) :=
  follows_next (State.tapInstruction_follows (hF := .refl s) ..)

theorem execDebugHalt_follows (f : FoldId) (id : Word) (s : State) : FollowsOut s (execDebugHalt f id s) :=
  follows_next (State.debugHaltTask_follows (hF := .refl s) ..)

theorem execDebugResume_follows (y : YokeId) (s : State) : FollowsOut s (execDebugResume y s) :=
  follows_next (State.debugGo_follows (hF := .refl s) ..)

theorem execDebugStep_follows (y : YokeId) (s : State) : FollowsOut s (execDebugStep y s) :=
  follows_next (State.debugGo_follows (hF := .refl s) ..)

theorem execDebugRegisterAccess_follows (y : YokeId) (n : Fin 41) (w : Option DWord) (s : State) : FollowsOut s (execDebugRegisterAccess y n w s) :=
  follows_next (State.debugRegister_follows (hF := .refl s) ..)

theorem execDebugMemoryAccess_follows (a : PhysAddr) (size : Fin 5) (w : Option QWord) (flip : CwFlip) (s : State) : FollowsOut s (execDebugMemoryAccess a size w flip s) :=
  follows_next (State.debugMemory_follows (hF := .refl s) ..)

theorem execRegisterWrite_follows (a : BitVec 24) (v : Word) (s : State) : FollowsOut s (execRegisterWrite a v s) := by
  unfold execRegisterWrite
  apply follows_next
  have h := Follows.refl s
  repeat' first
    | with_reducible assumption | intro _ | with_reducible apply follows_foldl | with_reducible apply follows_ite
    | with_reducible apply follows_ite_fst | with_reducible apply State.whenFirmware_follows
    | with_reducible apply State.writeReg_follows | with_reducible apply follows_foldl_fst
    | ((conv => arg 2; arg 45; skip); with_reducible apply follows_mk)
    | ((conv => arg 2; arg 45; skip); with_reducible apply follows_mk_mem) | with_reducible exact Eq.refl _
    | exact Eq.refl _ | with_reducible exact follows_memOk (by assumption) (by assumption)
    | with_reducible apply memFlip_wf | with_reducible apply memWrite_wf | with_reducible apply memWipe_wf
    | with_reducible apply filter_wf | split | (rename_i e; injection e; done)
    | (rename_i e; injection e with e; subst e) | (rename_i e; injection e with e e2; subst e)
    | (rename_i e; injection e with e; revert e; intro _) | (rename_i e; split at e <;> (revert e; intro _))
    | (rename_i e; rw [Option.map_eq_some_iff] at e; obtain ⟨_, _, rfl⟩ := e) | dsimp only | (rename_i e; clear e)

end Sys2Proof.Machine
end

