-- ==== Sys2Proof/Laws/FollowsTaskIns.lean ====
section
/-! SUPPORT. What the operations of Machine/TaskIns.lean keep: the queue, the invariant, programmed OTP bits. -/

namespace Sys2Proof.Machine

theorem execSpawn_follows (y : YokeId) (src : Gpr) (s : State) : FollowsOut s (execSpawn y src s) :=
  follows_next (State.issueSpawn_follows (hF := .refl s) ..)

theorem execJoin_follows (y : YokeId) (src : Gpr) (s : State) : FollowsOut s (execJoin y src s) :=
  follows_next (State.issueJoin_follows (hF := .refl s) ..)

theorem execYield_follows (y : YokeId) (s : State) : FollowsOut s (execYield y s) :=
  follows_next (State.issueTask_follows (hF := .refl s) ..)

theorem execTend_follows (y : YokeId) (op : Byte) (s : State) : FollowsOut s (execTend y op s) := by
  unfold execTend
  apply follows_next
  have h := Follows.refl s
  repeat' first
    | with_reducible assumption | with_reducible apply follows_ite | with_reducible apply State.illegal_follows
    | with_reducible apply State.issueTask_follows | ((conv => arg 2; arg 45; skip); with_reducible apply follows_mk)
    | exact Eq.refl _

theorem execChput_follows (y : YokeId) (d : Gpr) (src : Gpr) (s : State) : FollowsOut s (execChput y d src s) :=
  follows_next (State.issueTask_follows (hF := .refl s) ..)

theorem execChget_follows (y : YokeId) (d : Gpr) (src : Gpr) (s : State) : FollowsOut s (execChget y d src s) :=
  follows_next (State.issueTask_follows (hF := .refl s) ..)

theorem execTid_follows (y : YokeId) (d : Gpr) (s : State) : FollowsOut s (execTid y d s) :=
  follows_next (State.issue_follows (hF := .refl s) ..)

end Sys2Proof.Machine
end

