-- ==== Sys2Proof/Laws/FollowsTwinCmds.lean ====
section
/-! SUPPORT. What the operations of Machine/TwinCmds.lean keep: the queue, the invariant, programmed OTP bits. -/

namespace Sys2Proof.Machine

theorem execTwinFlitReceive_follows (x : Flit) (errs : Nat) (s : State) : FollowsOut s (execTwinFlitReceive x errs s) := by
  unfold execTwinFlitReceive
  apply follows_next
  have h := Follows.refl s
  repeat' first
    | with_reducible assumption | intro _ | with_reducible apply follows_foldl | with_reducible apply follows_ite
    | with_reducible apply State.twinFlit_follows | with_reducible apply State.whenMain_follows
    | ((conv => arg 2; arg 45; skip); with_reducible apply follows_mk) | with_reducible exact Eq.refl _
    | exact Eq.refl _ | split

theorem execTwinLinkUp_follows (h : Heartbeat) (s : State) : FollowsOut s (execTwinLinkUp h s) := by
  unfold execTwinLinkUp
  apply follows_next
  have h := Follows.refl s
  repeat' first
    | with_reducible assumption | intro _ | with_reducible apply follows_foldl | with_reducible apply follows_ite
    | with_reducible apply State.twinLinkUp_follows | with_reducible apply State.whenMain_follows
    | ((conv => arg 2; arg 45; skip); with_reducible apply follows_mk) | with_reducible exact Eq.refl _
    | exact Eq.refl _ | split

theorem execTwinLinkLoss_follows (lanes : Bool) (s : State) : FollowsOut s (execTwinLinkLoss lanes s) := by
  unfold execTwinLinkLoss
  apply follows_next
  have h := Follows.refl s
  repeat' first
    | with_reducible assumption | intro _ | with_reducible apply follows_foldl | with_reducible apply follows_ite
    | with_reducible apply State.twinLinkLoss_follows | with_reducible apply State.whenMain_follows
    | ((conv => arg 2; arg 45; skip); with_reducible apply follows_mk) | with_reducible exact Eq.refl _
    | exact Eq.refl _ | split

theorem execFlitResend_follows (s : State) : FollowsOut s (execFlitResend s) := by
  unfold execFlitResend
  apply follows_next
  have h := Follows.refl s
  repeat' first
    | with_reducible assumption | with_reducible apply State.flitResend_follows
    | with_reducible apply State.whenMain_follows

theorem execTwinHeartbeat_follows (s : State) : FollowsOut s (execTwinHeartbeat s) := by
  unfold execTwinHeartbeat
  apply follows_next
  have h := Follows.refl s
  repeat' first
    | with_reducible assumption | with_reducible apply State.twinHeartbeat_follows
    | with_reducible apply State.whenMain_follows

theorem execTwinHeartbeatReceive_follows (h : Heartbeat) (s : State) : FollowsOut s (execTwinHeartbeatReceive h s) := by
  unfold execTwinHeartbeatReceive
  apply follows_next
  have h := Follows.refl s
  repeat' first
    | with_reducible assumption | intro _ | with_reducible apply follows_foldl | with_reducible apply follows_ite
    | with_reducible apply State.twinBeat_follows | with_reducible apply State.whenMain_follows
    | ((conv => arg 2; arg 45; skip); with_reducible apply follows_mk) | with_reducible exact Eq.refl _
    | exact Eq.refl _ | split

theorem execTwinDigestReceive_follows (f : FoldId) (d : Digest) (s : State) : FollowsOut s (execTwinDigestReceive f d s) := by
  unfold execTwinDigestReceive
  apply follows_next
  have h := Follows.refl s
  repeat' first
    | with_reducible assumption | intro _ | with_reducible apply follows_foldl | with_reducible apply follows_ite
    | with_reducible apply State.twinDigest_follows | with_reducible apply State.whenMain_follows
    | ((conv => arg 2; arg 45; skip); with_reducible apply follows_mk) | with_reducible exact Eq.refl _
    | exact Eq.refl _ | split

theorem execTwinSealReceive_follows (f : FoldId) (n : Nat) (v : KMap Nat FrozenPair) (s : State) : FollowsOut s (execTwinSealReceive f n v s) := by
  unfold execTwinSealReceive
  apply follows_next
  have h := Follows.refl s
  repeat' first
    | with_reducible assumption | intro _ | with_reducible apply follows_foldl | with_reducible apply follows_ite
    | with_reducible apply State.twinSeal_follows | with_reducible apply State.whenMain_follows
    | ((conv => arg 2; arg 45; skip); with_reducible apply follows_mk) | with_reducible exact Eq.refl _
    | exact Eq.refl _ | split

theorem execTwinForwardReceive_follows (f : FoldId) (dest : Half) (bytes : List Byte) (content : List Byte) (s : State) : FollowsOut s (execTwinForwardReceive f dest bytes content s) := by
  unfold execTwinForwardReceive
  apply follows_next
  have h := Follows.refl s
  repeat' first
    | with_reducible assumption | intro _ | with_reducible apply follows_foldl | with_reducible apply follows_ite
    | with_reducible apply State.twinForward_follows | with_reducible apply State.whenMain_follows
    | ((conv => arg 2; arg 45; skip); with_reducible apply follows_mk) | with_reducible exact Eq.refl _
    | exact Eq.refl _ | split

theorem execTwinSignatureReceive_follows (f : FoldId) (r : SigRecord) (s : State) : FollowsOut s (execTwinSignatureReceive f r s) := by
  unfold execTwinSignatureReceive
  apply follows_next
  have h := Follows.refl s
  repeat' first
    | with_reducible assumption | intro _ | with_reducible apply follows_foldl | with_reducible apply follows_ite
    | with_reducible apply State.twinSignature_follows | with_reducible apply State.whenMain_follows
    | ((conv => arg 2; arg 45; skip); with_reducible apply follows_mk) | with_reducible exact Eq.refl _
    | exact Eq.refl _ | split

theorem execTwinStateReceive_follows (f : FoldId) (part : StatePart) (s : State) : FollowsOut s (execTwinStateReceive f part s) := by
  unfold execTwinStateReceive
  apply follows_next
  have h := Follows.refl s
  repeat' first
    | with_reducible assumption | intro _ | with_reducible apply follows_foldl | with_reducible apply follows_ite
    | with_reducible apply State.stateReceive_follows | with_reducible apply State.whenMain_follows
    | ((conv => arg 2; arg 45; skip); with_reducible apply follows_mk) | with_reducible exact Eq.refl _
    | exact Eq.refl _ | split

theorem execTwinLogReceive_follows (sp : SpanId) (rs : List LogRec) (s : State) : FollowsOut s (execTwinLogReceive sp rs s) := by
  unfold execTwinLogReceive
  apply follows_next
  have h := Follows.refl s
  repeat' first
    | with_reducible assumption | intro _ | with_reducible apply follows_foldl | with_reducible apply follows_ite
    | with_reducible apply State.twinLog_follows | with_reducible apply State.whenMain_follows
    | ((conv => arg 2; arg 45; skip); with_reducible apply follows_mk) | with_reducible exact Eq.refl _
    | exact Eq.refl _ | split

theorem execTwinPageSend_follows (f : FoldId) (s : State) : FollowsOut s (execTwinPageSend f s) := by
  unfold execTwinPageSend
  apply follows_next
  have h := Follows.refl s
  repeat' first
    | with_reducible assumption | intro _ | with_reducible apply follows_foldl | with_reducible apply follows_ite
    | with_reducible apply State.twinPageSend_follows | with_reducible apply State.whenMain_follows
    | ((conv => arg 2; arg 45; skip); with_reducible apply follows_mk) | with_reducible exact Eq.refl _
    | exact Eq.refl _ | split

theorem execTwinDetach_follows (v : Word) (s : State) : FollowsOut s (execTwinDetach v s) := by
  unfold execTwinDetach
  apply follows_next
  have h := Follows.refl s
  repeat' first
    | with_reducible assumption | intro _ | with_reducible apply follows_foldl | with_reducible apply follows_ite
    | with_reducible apply State.whenFirmware_follows | with_reducible apply State.writeTwinCtl_follows
    | ((conv => arg 2; arg 45; skip); with_reducible apply follows_mk) | with_reducible exact Eq.refl _
    | exact Eq.refl _ | split

theorem execTwinDetachReceive_follows (s : State) : FollowsOut s (execTwinDetachReceive s) := by
  unfold execTwinDetachReceive
  apply follows_next
  have h := Follows.refl s
  repeat' first
    | with_reducible assumption | with_reducible apply State.twinDetached_follows
    | with_reducible apply State.whenMain_follows

theorem execTwinModeWrite_follows (f : FoldId) (m : BitVec 3) (s : State) : FollowsOut s (execTwinModeWrite f m s) := by
  unfold execTwinModeWrite
  apply follows_next
  have h := Follows.refl s
  repeat' first
    | with_reducible assumption | intro _ | with_reducible apply follows_foldl | with_reducible apply follows_ite
    | with_reducible apply State.whenFirmware_follows | with_reducible apply State.writeMode_follows
    | ((conv => arg 2; arg 45; skip); with_reducible apply follows_mk) | with_reducible exact Eq.refl _
    | exact Eq.refl _ | split

theorem execFwdmaxWrite_follows (f : FoldId) (n : BitVec 10) (s : State) : FollowsOut s (execFwdmaxWrite f n s) := by
  unfold execFwdmaxWrite
  apply follows_next
  have h := Follows.refl s
  repeat' first
    | with_reducible assumption | intro _ | with_reducible apply follows_foldl | with_reducible apply follows_ite
    | with_reducible apply State.whenFirmware_follows | with_reducible apply State.writeFwdmax_follows
    | ((conv => arg 2; arg 45; skip); with_reducible apply follows_mk) | with_reducible exact Eq.refl _
    | exact Eq.refl _ | split

theorem execTwinokWrite_follows (v : Word) (s : State) : FollowsOut s (execTwinokWrite v s) := by
  unfold execTwinokWrite
  apply follows_next
  have h := Follows.refl s
  repeat' first
    | with_reducible assumption | intro _ | with_reducible apply follows_foldl | with_reducible apply follows_ite
    | with_reducible apply State.whenFirmware_follows | with_reducible apply State.writeTwinok_follows
    | ((conv => arg 2; arg 45; skip); with_reducible apply follows_mk) | with_reducible exact Eq.refl _
    | exact Eq.refl _ | split

end Sys2Proof.Machine
end

