-- ==== Sys2Proof/Laws/FollowsYokeEvents.lean ====
section
/-! SUPPORT. What the operations of Machine/YokeEvents.lean keep: the queue, the invariant, programmed OTP bits. -/

namespace Sys2Proof.Machine

theorem execTrailingCompare_follows (y : YokeId) (dist : Disturb) (s : State) : FollowsOut s (execTrailingCompare y dist s) :=
  follows_next (State.trailingCompare_follows (hF := .refl s) ..)

theorem execCheckpointCountTrigger_follows (y : YokeId) (s : State) : FollowsOut s (execCheckpointCountTrigger y s) :=
  follows_next (State.trigger_follows (hF := .refl s) ..)

theorem execCheckpointTimeTrigger_follows (y : YokeId) (s : State) : FollowsOut s (execCheckpointTimeTrigger y s) :=
  follows_next (State.trigger_follows (hF := .refl s) ..)

theorem execCheckpointConfirm_follows (y : YokeId) (dist : CkDisturb) (s : State) : FollowsOut s (execCheckpointConfirm y dist s) := by
  unfold execCheckpointConfirm
  apply follows_next
  have h := Follows.refl s
  repeat' first
    | with_reducible assumption | with_reducible apply follows_ite | with_reducible apply State.confirm_follows
    | ((conv => arg 2; arg 45; skip); with_reducible apply follows_mk) | exact Eq.refl _

theorem execWhbDrain_follows (y : YokeId) (ecc : Ecc) (s : State) : FollowsOut s (execWhbDrain y ecc s) :=
  follows_next (State.drain_follows (hF := .refl s) ..)

theorem execGroupVisible_follows (y : YokeId) (s : State) : FollowsOut s (execGroupVisible y s) :=
  follows_next (State.groupVisible_follows (hF := .refl s) ..)

theorem execSlipCollapseComplete_follows (y : YokeId) (dist : Disturb) (s : State) : FollowsOut s (execSlipCollapseComplete y dist s) :=
  follows_next (State.collapseStep_follows (hF := .refl s) ..)

theorem execLoadComplete_follows (y : YokeId) (n : Nat) (flip : CwFlip) (s : State) : FollowsOut s (execLoadComplete y n flip s) := by
  unfold execLoadComplete
  apply follows_next
  have h := Follows.refl s
  repeat' first
    | with_reducible assumption | with_reducible apply State.loadComplete_follows

theorem execFetchComplete_follows (y : YokeId) (block : Nat) (needed : BitVec 16) (flip : CwFlip) (s : State) : FollowsOut s (execFetchComplete y block needed flip s) :=
  follows_next (State.fetchComplete_follows (hF := .refl s) ..)

theorem execBranchResolve_follows (y : YokeId) (s : State) : FollowsOut s (execBranchResolve y s) :=
  follows_next (State.branchResolve_follows (hF := .refl s) ..)

theorem execEventAccept_follows (y : YokeId) (s : State) : FollowsOut s (execEventAccept y s) :=
  follows_next (State.eventAccept_follows (hF := .refl s) ..)

theorem execIllegalOpcode_follows (y : YokeId) (bytes : List Byte) (s : State) : FollowsOut s (execIllegalOpcode y bytes s) :=
  follows_next (State.decodeTrap_follows (hF := .refl s) ..)

theorem execReservedOpcode_follows (y : YokeId) (bytes : List Byte) (s : State) : FollowsOut s (execReservedOpcode y bytes s) :=
  follows_next (State.decodeTrap_follows (hF := .refl s) ..)

theorem execTrailingProgressTimeout_follows (y : YokeId) (s : State) : FollowsOut s (execTrailingProgressTimeout y s) :=
  follows_next (State.trailTimeout_follows (hF := .refl s) ..)

end Sys2Proof.Machine
end

