-- ==== Sys2Proof/Laws/Exec.lean ====
section
/-! SUPPORT. What every command, and with it every step, keeps: the queue, the invariant, programmed OTP bits. -/

namespace Sys2Proof.Machine

/-- Every command leaves the queue alone, keeps the invariant and returns no OTP bit to 0. -/
theorem exec_follows (i : Instr) (s : State) : FollowsOut s (exec i s) := by
  cases i
  case epochBoundary => exact execEpochBoundary_follows _ _
  case inputFreeze => exact execInputFreeze_follows _ _
  case spanRestEntry => exact execSpanRestEntry_follows _ _
  case spanRestReached => exact execSpanRestReached_follows _ _
  case spanWakeDone => exact execSpanWakeDone_follows _ _
  case spanWakeCommand => exact execSpanWakeCommand_follows _ _ _
  case trailingCompare => exact execTrailingCompare_follows _ _ _
  case checkpointCountTrigger => exact execCheckpointCountTrigger_follows _ _
  case checkpointTimeTrigger => exact execCheckpointTimeTrigger_follows _ _
  case checkpointConfirm => exact execCheckpointConfirm_follows _ _ _
  case whbDrain => exact execWhbDrain_follows _ _ _
  case groupVisible => exact execGroupVisible_follows _ _
  case slipCollapseComplete => exact execSlipCollapseComplete_follows _ _ _
  case loadComplete => exact execLoadComplete_follows _ _ _ _
  case fetchComplete => exact execFetchComplete_follows _ _ _ _ _
  case branchResolve => exact execBranchResolve_follows _ _
  case floatBegin => exact execFloatBegin_follows _ _
  case floatRetire => exact execFloatRetire_follows _ _
  case eventAccept => exact execEventAccept_follows _ _
  case illegalOpcode => exact execIllegalOpcode_follows _ _ _
  case reservedOpcode => exact execReservedOpcode_follows _ _ _
  case add => exact execAdd_follows _ _ _ _ _ _
  case adc => exact execAdc_follows _ _ _ _ _ _
  case sub => exact execSub_follows _ _ _ _ _ _
  case sbc => exact execSbc_follows _ _ _ _ _ _
  case and => exact execAnd_follows _ _ _ _ _ _
  case or => exact execOr_follows _ _ _ _ _ _
  case xor => exact execXor_follows _ _ _ _ _ _
  case andn => exact execAndn_follows _ _ _ _ _ _
  case shl => exact execShl_follows _ _ _ _ _ _
  case shr => exact execShr_follows _ _ _ _ _ _
  case sar => exact execSar_follows _ _ _ _ _ _
  case cmp => exact execCmp_follows _ _ _ _ _ _
  case tst => exact execTst_follows _ _ _ _ _ _
  case mov => exact execMov_follows _ _ _ _ _ _
  case nop => exact execNop_follows _ _
  case muls => exact execMuls_follows _ _ _ _
  case mulu => exact execMulu_follows _ _ _ _
  case mulws => exact execMulws_follows _ _ _ _
  case mulwu => exact execMulwu_follows _ _ _ _
  case dstep => exact execDstep_follows _ _ _ _ _
  case dsteps => exact execDsteps_follows _ _ _ _ _
  case dfix => exact execDfix_follows _ _ _ _
  case neg => exact execNeg_follows _ _ _ _
  case not => exact execNot_follows _ _ _ _
  case extb => exact execExtb_follows _ _ _ _
  case exth => exact execExth_follows _ _ _ _
  case clz => exact execClz_follows _ _ _ _
  case ldb => exact execLdb_follows _ _ _ _
  case ldbu => exact execLdbu_follows _ _ _ _
  case ldh => exact execLdh_follows _ _ _ _
  case ldhu => exact execLdhu_follows _ _ _ _
  case ldw => exact execLdw_follows _ _ _ _
  case ldd => exact execLdd_follows _ _ _ _
  case ldq => exact execLdq_follows _ _ _ _
  case stb => exact execStb_follows _ _ _ _
  case sth => exact execSth_follows _ _ _ _
  case stw => exact execStw_follows _ _ _ _
  case std => exact execStd_follows _ _ _ _
  case stq => exact execStq_follows _ _ _ _
  case xchg => exact execXchg_follows _ _ _ _ _ _
  case cas => exact execCas_follows _ _ _ _ _ _ _
  case fadd => exact execFadd_follows _ _ _ _ _ _ _
  case tlock => exact execTlock_follows _ _ _ _
  case tunlock => exact execTunlock_follows _ _ _
  case movm => exact execMovm_follows _ _ _ _ _
  case fillm => exact execFillm_follows _ _ _ _ _
  case cmpm => exact execCmpm_follows _ _ _ _ _
  case br => exact execBr_follows _ _ _
  case bcc => exact execBcc_follows _ _ _ _
  case brl => exact execBrl_follows _ _ _
  case jr => exact execJr_follows _ _ _
  case jrl => exact execJrl_follows _ _ _
  case ret => exact execRet_follows _ _
  case gate => exact execGate_follows _ _ _
  case trap => exact execTrap_follows _ _ _
  case iret => exact execIret_follows _ _
  case sysc => exact execSysc_follows _ _ _
  case loop => exact execLoop_follows _ _ _
  case sysrd => exact execSysrd_follows _ _ _ _
  case syswr => exact execSyswr_follows _ _ _ _
  case fence => exact execFence_follows _ _ _
  case ckpt => exact execCkpt_follows _ _
  case wait => exact execWait_follows _ _ _ _
  case waitTimeout => exact execWaitTimeout_follows _ _
  case sample => exact execSample_follows _ _ _ _
  case emit => exact execEmit_follows _ _ _ _ _ _
  case mask => exact execMask_follows _ _
  case unmask => exact execUnmask_follows _ _
  case bkld => exact execBkld_follows _ _ _
  case brk => exact execBrk_follows _ _
  case spawn => exact execSpawn_follows _ _ _
  case join => exact execJoin_follows _ _ _
  case yield => exact execYield_follows _ _
  case tend => exact execTend_follows _ _ _
  case chput => exact execChput_follows _ _ _ _
  case chget => exact execChget_follows _ _ _ _
  case tid => exact execTid_follows _ _ _
  case addD => exact execAddD_follows _ _ _ _ _ _
  case addS => exact execAddS_follows _ _ _ _ _ _
  case subD => exact execSubD_follows _ _ _ _ _ _
  case subS => exact execSubS_follows _ _ _ _ _ _
  case mulD => exact execMulD_follows _ _ _ _ _ _
  case mulS => exact execMulS_follows _ _ _ _ _ _
  case divD => exact execDivD_follows _ _ _ _ _ _
  case divS => exact execDivS_follows _ _ _ _ _ _
  case sqrtD => exact execSqrtD_follows _ _ _ _ _
  case sqrtS => exact execSqrtS_follows _ _ _ _ _
  case fmaD => exact execFmaD_follows _ _ _ _ _ _
  case fmaS => exact execFmaS_follows _ _ _ _ _ _
  case fmsD => exact execFmsD_follows _ _ _ _ _ _
  case fmsS => exact execFmsS_follows _ _ _ _ _ _
  case fnmaD => exact execFnmaD_follows _ _ _ _ _ _
  case fnmaS => exact execFnmaS_follows _ _ _ _ _ _
  case fnmsD => exact execFnmsD_follows _ _ _ _ _ _
  case fnmsS => exact execFnmsS_follows _ _ _ _ _ _
  case minD => exact execMinD_follows _ _ _ _ _ _
  case minS => exact execMinS_follows _ _ _ _ _ _
  case maxD => exact execMaxD_follows _ _ _ _ _ _
  case maxS => exact execMaxS_follows _ _ _ _ _ _
  case cmpD => exact execCmpD_follows _ _ _ _ _
  case cmpS => exact execCmpS_follows _ _ _ _ _
  case classD => exact execClassD_follows _ _ _ _
  case classS => exact execClassS_follows _ _ _ _
  case negD => exact execNegD_follows _ _ _ _
  case negS => exact execNegS_follows _ _ _ _
  case absD => exact execAbsD_follows _ _ _ _
  case absS => exact execAbsS_follows _ _ _ _
  case rintD => exact execRintD_follows _ _ _ _ _ _
  case rintS => exact execRintS_follows _ _ _ _ _ _
  case fld => exact execFld_follows _ _ _ _ _
  case fst => exact execFst_follows _ _ _ _ _
  case fmov => exact execFmov_follows _ _ _ _
  case fmvg => exact execFmvg_follows _ _ _ _ _
  case fmvf => exact execFmvf_follows _ _ _ _ _
  case cvtif => exact execCvtif_follows _ _ _ _ _ _ _
  case cvtfi => exact execCvtfi_follows _ _ _ _ _ _ _
  case cvtff => exact execCvtff_follows _ _ _ _ _ _
  case stWrite => exact execStWrite_follows _ _ _
  case fcsrWrite => exact execFcsrWrite_follows _ _ _
  case oepochWrite => exact execOepochWrite_follows _ _ _
  case espWrite => exact execEspWrite_follows _ _ _
  case skszWrite => exact execSkszWrite_follows _ _ _
  case chbaseWrite => exact execChbaseWrite_follows _ _ _
  case chcfgWrite => exact execChcfgWrite_follows _ _ _
  case ownerPop => exact execOwnerPop_follows _ _
  case overflowTake => exact execOverflowTake_follows _ _
  case steal => exact execSteal_follows _ _
  case crossSpanSteal => exact execCrossSpanSteal_follows _ _
  case deferredOverflowPush => exact execDeferredOverflowPush_follows _ _
  case followTaskStart => exact execFollowTaskStart_follows _ _
  case debugHalt => exact execDebugHalt_follows _ _ _
  case debugResume => exact execDebugResume_follows _ _
  case debugStep => exact execDebugStep_follows _ _
  case debugRegisterAccess => exact execDebugRegisterAccess_follows _ _ _ _
  case debugMemoryAccess => exact execDebugMemoryAccess_follows _ _ _ _ _
  case injectTestMismatch => exact execInjectTestMismatch_follows _ _ _
  case slipTargetWrite => exact execSlipTargetWrite_follows _ _ _
  case timeSet => exact execTimeSet_follows _ _
  case timeSourceWrite => exact execTimeSourceWrite_follows _ _
  case ptpMessageReceive => exact execPtpMessageReceive_follows _ _
  case holdoverEnter => exact execHoldoverEnter_follows _
  case holdingAreaWrite => exact execHoldingAreaWrite_follows _ _ _ _
  case epochConfigWrite => exact execEpochConfigWrite_follows _ _ _
  case windowCommit => exact execWindowCommit_follows _ _ _ _
  case groupWipeDone => exact execGroupWipeDone_follows _ _
  case spanWipeDone => exact execSpanWipeDone_follows _ _
  case patrolScrub => exact execPatrolScrub_follows _ _ _ _ _ _
  case eccWriteback => exact execEccWriteback_follows _ _ _ _
  case fabricCrcRetry => exact execFabricCrcRetry_follows _ _ _ _ _ _
  case memctlClear => exact execMemctlClear_follows _ _ _
  case dmaStart => exact execDmaStart_follows _ _ _ _ _
  case dmaStop => exact execDmaStop_follows _ _
  case dmaStopEffect => exact execDmaStopEffect_follows _ _ _
  case dmaBulkStop => exact execDmaBulkStop_follows _ _ _
  case dmaMove => exact execDmaMove_follows _ _ _
  case dmaGather => exact execDmaGather_follows _ _ _
  case dmaScatter => exact execDmaScatter_follows _ _ _
  case dmaLoop => exact execDmaLoop_follows _ _ _
  case dmaWait => exact execDmaWait_follows _ _ _
  case dmaWaitEnd => exact execDmaWaitEnd_follows _ _ _
  case dmaWaitTimeout => exact execDmaWaitTimeout_follows _ _
  case dmaSignal => exact execDmaSignal_follows _ _ _
  case dmaCheck => exact execDmaCheck_follows _ _ _
  case dmaEnd => exact execDmaEnd_follows _ _ _
  case dmaBurst => exact execDmaBurst_follows _ _ _
  case dmaWatchdogExpiry => exact execDmaWatchdogExpiry_follows _ _
  case cevtSet => exact execCevtSet_follows _ _
  case foldBuild => exact execFoldBuild_follows _ _
  case foldAdmit => exact execFoldAdmit_follows _ _
  case foldSafeWrite => exact execFoldSafeWrite_follows _ _
  case foldEmpty => exact execFoldEmpty_follows _ _
  case resourceAssign => exact execResourceAssign_follows _ _ _
  case resourceRelease => exact execResourceRelease_follows _ _ _
  case slotWrite => exact execSlotWrite_follows _ _ _
  case fabricFrameStart => exact execFabricFrameStart_follows _
  case xchDeclare => exact execXchDeclare_follows _ _ _
  case xchRelease => exact execXchRelease_follows _ _ _
  case xchRecv => exact execXchRecv_follows _ _ _ _
  case xchRxstatRead => exact execXchRxstatRead_follows _ _ _ _
  case powerBudgetWrite => exact execPowerBudgetWrite_follows _ _ _
  case powerWindowEnd => exact execPowerWindowEnd_follows _
  case clockStepApply => exact execClockStepApply_follows _ _
  case serviceTurn => exact execServiceTurn_follows _ _ _ _
  case faultReport => exact execFaultReport_follows _ _ _
  case incidentWindowClose => exact execIncidentWindowClose_follows _ _
  case reactionBegin => exact execReactionBegin_follows _
  case reactionComplete => exact execReactionComplete_follows _
  case fmRequest => exact execFmRequest_follows _ _
  case nsafeRelease => exact execNsafeRelease_follows _
  case sourceClassWrite => exact execSourceClassWrite_follows _ _ _
  case fwdcfgWrite => exact execFwdcfgWrite_follows _ _ _
  case foldWatchdogWarn => exact execFoldWatchdogWarn_follows _ _
  case foldWatchdogExpiry => exact execFoldWatchdogExpiry_follows _ _
  case foldWatchdogService => exact execFoldWatchdogService_follows _ _ _
  case foldWatchdogKey => exact execFoldWatchdogKey_follows _ _ _
  case foldWatchdogLock => exact execFoldWatchdogLock_follows _ _ _
  case aonWatchdogStart => exact execAonWatchdogStart_follows _ _
  case aonWatchdogExpiry => exact execAonWatchdogExpiry_follows _
  case aonWatchdogService => exact execAonWatchdogService_follows _ _
  case aonWatchdogKey => exact execAonWatchdogKey_follows _ _
  case aonWdcountClear => exact execAonWdcountClear_follows _ _
  case recorderArm => exact execRecorderArm_follows _ _
  case recorderArmed => exact execRecorderArmed_follows _
  case recorderTrigger => exact execRecorderTrigger_follows _ _
  case recorderMark => exact execRecorderMark_follows _ _
  case twinLinkUp => exact execTwinLinkUp_follows _ _
  case twinLinkLoss => exact execTwinLinkLoss_follows _ _
  case flitResend => exact execFlitResend_follows _
  case twinHeartbeat => exact execTwinHeartbeat_follows _
  case twinHeartbeatReceive => exact execTwinHeartbeatReceive_follows _ _
  case twinDigestReceive => exact execTwinDigestReceive_follows _ _ _
  case twinSealReceive => exact execTwinSealReceive_follows _ _ _ _
  case twinForwardReceive => exact execTwinForwardReceive_follows _ _ _ _ _
  case twinSignatureReceive => exact execTwinSignatureReceive_follows _ _ _
  case twinStateReceive => exact execTwinStateReceive_follows _ _ _
  case twinLogReceive => exact execTwinLogReceive_follows _ _ _
  case twinPageSend => exact execTwinPageSend_follows _ _
  case twinDetach => exact execTwinDetach_follows _ _
  case twinDetachReceive => exact execTwinDetachReceive_follows _
  case twinModeWrite => exact execTwinModeWrite_follows _ _ _
  case fwdmaxWrite => exact execFwdmaxWrite_follows _ _ _
  case twinokWrite => exact execTwinokWrite_follows _ _
  case ethFrameReceive => exact execEthFrameReceive_follows _ _ _
  case ethFrameTransmit => exact execEthFrameTransmit_follows _ _
  case gateListAdvance => exact execGateListAdvance_follows _ _
  case ethLinkUp => exact execEthLinkUp_follows _ _ _
  case ethLinkDown => exact execEthLinkDown_follows _ _
  case portModeWrite => exact execPortModeWrite_follows _ _ _
  case connectionStale => exact execConnectionStale_follows _ _
  case queueRxPop => exact execQueueRxPop_follows _ _ _ _ _
  case queueRxstatRead => exact execQueueRxstatRead_follows _ _ _ _ _
  case pcieWriteReceive => exact execPcieWriteReceive_follows _ _ _ _ _
  case pcieReadReceive => exact execPcieReadReceive_follows _ _ _
  case pcieCompletionReceive => exact execPcieCompletionReceive_follows _ _ _ _ _
  case pcieCompletionTimeout => exact execPcieCompletionTimeout_follows _ _
  case pcieConfigRequest => exact execPcieConfigRequest_follows _ _ _
  case pcieTlpTransmit => exact execPcieTlpTransmit_follows _ _
  case postedWriteUndelivered => exact execPostedWriteUndelivered_follows _
  case perstAssert => exact execPerstAssert_follows _
  case perstRelease => exact execPerstRelease_follows _
  case pcieLinkUp => exact execPcieLinkUp_follows _ _ _
  case peclkLoss => exact execPeclkLoss_follows _
  case pairTick => exact execPairTick_follows _
  case discrepancyFault => exact execDiscrepancyFault_follows _ _
  case testPulse => exact execTestPulse_follows _ _
  case pairWindowLoad => exact execPairWindowLoad_follows _ _ _ _ _
  case safeOutputSoaOn => exact execSafeOutputSoaOn_follows _ _
  case readbackFault => exact execReadbackFault_follows _ _ _ _ _ _
  case outputTest => exact execOutputTest_follows _ _
  case outputTestEnd => exact execOutputTestEnd_follows _ _
  case outputConfigWrite => exact execOutputConfigWrite_follows _ _ _
  case inputConfigWrite => exact execInputConfigWrite_follows _ _ _
  case ipnetWrite => exact execIpnetWrite_follows _ _ _
  case connectionCommit => exact execConnectionCommit_follows _ _
  case smbusStatusRead => exact execSmbusStatusRead_follows _
  case smbusMailboxRead => exact execSmbusMailboxRead_follows _
  case smbusMailboxWrite => exact execSmbusMailboxWrite_follows _ _ _
  case smbusAlertRead => exact execSmbusAlertRead_follows _
  case smbusAlertResponse => exact execSmbusAlertResponse_follows _
  case smbusUnknownCommand => exact execSmbusUnknownCommand_follows _
  case jtagBypass => exact execJtagBypass_follows _
  case jtagIdcode => exact execJtagIdcode_follows _
  case jtagSamplePreload => exact execJtagSamplePreload_follows _ _
  case jtagExtest => exact execJtagExtest_follows _ _
  case jtagExtestPulse => exact execJtagExtestPulse_follows _ _
  case jtagExtestTrain => exact execJtagExtestTrain_follows _ _
  case jtagDbgacc => exact execJtagDbgacc_follows _
  case clockMonitorWindow => exact execClockMonitorWindow_follows _ _ _
  case pllLockLoss => exact execPllLockLoss_follows _ _
  case aonClockLoss => exact execAonClockLoss_follows _
  case bellTick => exact execBellTick_follows _
  case bellAlarm => exact execBellAlarm_follows _
  case tempReading => exact execTempReading_follows _ _
  case deepStandbyRequest => exact execDeepStandbyRequest_follows _ _
  case mainenLow => exact execMainenLow_follows _
  case wakeinRise => exact execWakeinRise_follows _
  case supplyFault => exact execSupplyFault_follows _
  case tallySlackMeasure => exact execTallySlackMeasure_follows _ _ _
  case tallySramMeasure => exact execTallySramMeasure_follows _ _ _ _
  case tallyBandCount => exact execTallyBandCount_follows _ _
  case tallyRetire => exact execTallyRetire_follows _ _ _
  case tallySminRead => exact execTallySminRead_follows _ _
  case logicBistStart => exact execLogicBistStart_follows _ _
  case logicBistBegin => exact execLogicBistBegin_follows _ _
  case logicBistDone => exact execLogicBistDone_follows _ _ _
  case memoryBistStart => exact execMemoryBistStart_follows _ _
  case memoryBistDone => exact execMemoryBistDone_follows _ _ _
  case vaonPowerOn => exact execVaonPowerOn_follows _
  case crystalReady => exact execCrystalReady_follows _
  case crystalTimeout => exact execCrystalTimeout_follows _
  case nresetAssert => exact execNresetAssert_follows _
  case nresetRelease => exact execNresetRelease_follows _ _
  case powerGood => exact execPowerGood_follows _ _ _
  case startupBistDone => exact execStartupBistDone_follows _ _ _ _
  case otpProgram => exact execOtpProgram_follows _ _ _
  case lifecycleRequest => exact execLifecycleRequest_follows _ _
  case manifestVerify => exact execManifestVerify_follows _ _ _
  case manifestVerifyDone => exact execManifestVerifyDone_follows _
  case fwSvnAdvance => exact execFwSvnAdvance_follows _ _
  case mnSvnAdvance => exact execMnSvnAdvance_follows _ _
  case cryptoSubmit => exact execCryptoSubmit_follows _ _ _ _
  case cryptoAesGcmEncrypt => exact execCryptoAesGcmEncrypt_follows _
  case cryptoAesGcmDecrypt => exact execCryptoAesGcmDecrypt_follows _
  case cryptoGmac => exact execCryptoGmac_follows _
  case cryptoSha384 => exact execCryptoSha384_follows _
  case cryptoEcdsaVerify => exact execCryptoEcdsaVerify_follows _
  case cryptoKeyUnwrap => exact execCryptoKeyUnwrap_follows _
  case cryptoRandomKey => exact execCryptoRandomKey_follows _
  case rngOutput => exact execRngOutput_follows _ _
  case challengeGenerate => exact execChallengeGenerate_follows _
  case debugOpen => exact execDebugOpen_follows _ _
  case tamper => exact execTamper_follows _ _
  case mailboxAck => exact execMailboxAck_follows _ _
  case registerWrite => exact execRegisterWrite_follows _ _ _
  case twinFlitReceive => exact execTwinFlitReceive_follows _ _ _
  case trailingProgressTimeout => exact execTrailingProgressTimeout_follows _ _
  case inputSample => exact execInputSample_follows _ _ _
  case pcieLinkDown => exact execPcieLinkDown_follows _
  case pcieTlpAck => exact execPcieTlpAck_follows _ _
  case vaonMonitorFault => exact execVaonMonitorFault_follows _
  case vaonPowerLoss => exact execVaonPowerLoss_follows _
  case droverCoreTest => exact execDroverCoreTest_follows _ _
  case droverCoreTestDone => exact execDroverCoreTestDone_follows _

end Sys2Proof.Machine
end

