-- ==== Sys2Proof/WellFormed.lean ====
section
/-! DEFINITION. Bounds on operands that their types leave wider than the spec: lengths of byte strings and counts. A command
whose operand types already bound it is well formed. `exec` gives every command its effect, well formed or not. -/

namespace Sys2Proof

open Sys2Proof.Machine

/-- A command's operands lie within the bounds the spec gives them. -/
def Instr.wf (i : Instr) : Bool :=
  match i with
  | .tempReading vals => decide (vals.length = 72)
  | .smbusMailboxWrite bs _ => decide (bs.length = 64)
  | .patrolScrub kind _ off _ _ => decide (off < (if kind = MemKind.scratch then 0x200000 else 0x100000))
  | .eccWriteback kind _ off => decide (off < (if kind = MemKind.scratch then 0x200000 else 0x100000))
  | .fabricCrcRetry _ _ hop _ word => decide (hop < 16) && decide (word < 0x50004000)
  | .illegalOpcode _ bytes => decide (bytes.length = 12)
  | .reservedOpcode _ bytes => decide (bytes.length = 12)
  | .twinFlitReceive x errs => decide (x.payload.length = 232) && decide (errs ≤ 15)
  | .twinHeartbeatReceive h => decide (h.modes.length = 16)
  | .twinLinkUp h => decide (h.modes.length = 16)
  | .twinStateReceive _ p =>
    (match p with
      | .page kind ix page data =>
        decide (ix < 64) && decide (data.length = 4096) && decide (page < (if kind = MemKind.scratch then 512 else 256))
      | .image _ => true)
  | .pcieConfigRequest c _ =>
    (match c with
      | .maxPayload n => [128, 256, 512].contains n
      | .maxRead n => [128, 256, 512].contains n
      | .timeoutRange n => [0, 1, 2, 5, 6].contains n
      | _ => true)
  | .ethFrameReceive _ frame => decide (14 ≤ frame.length)
  | .pcieWriteReceive _ off data _ => decide (off < 0x10000) && decide (data.length ≤ 512)
  | .serviceTurn _ answer mailbox =>
    (match answer with
      | some (_, result, data) => decide (result.length ≤ 248) && decide (data.length ≤ 3584)
      | none => true) &&
    (match mailbox with
      | some bs => decide (bs.length = 64)
      | none => true)
  | .startupBistDone _ _ units => units.all fun u => u &&& 0x7FFFC0E0 == 0
  | .memoryBistDone unit _ => unit &&& 0x7FFFC0E0 == 0
  | .cryptoSubmit _ _ flips => flips.all fun x => decide (x.1.toNat < 0x8000) || (decide (0x20000 ≤ x.1.toNat) && decide (x.1.toNat < 0x20100))
  | .manifestVerify _ image => decide (image.length ≤ 98304)
  | _ => true

end Sys2Proof
end

