-- ==== Sys2Proof/Tests/Slice0.lean ====
section
/-! SUPPORT. Tests: for every statement with hypotheses a named theorem that shows states and operands which meet them, an
ill-formed term for each check of WellFormed, and single steps whose results the spec or a published standard gives. -/

open Sys2Proof Sys2Proof.Machine Sys2Proof.Claims

namespace Sys2Proof.Tests

set_option Elab.async false
set_option linter.unusedVariables false

/-- A core that runs a task of fold 0 in ring `r`. -/
def coreIn (r : Nat) : Core := { Core.reset with
  g := #v[0x80000010, 1, 2, 0x80000020, 4, 5, 6, 0xFFFFFFF0, 8, 9, 10, 11, 12, 13, 14, 0x80000200], pc := 0x80000000,
  st := BitVec.ofNat 32 (32 * r + 4), sp := #v[0x80001000, 0x80002000, 0x80003000, 0x80004000],
  task := { Core.reset.task with ident := 0x00000007, oepoch := 5 } }

/-- Fold 0 owns spans 0 and 1 and groups 0 and 1, with one window over the groups; yoke 0 runs a task in ring `r` and has
nothing outstanding. -/
def calm (r : Nat) : State :=
  State.reset |>.setReg (rSpanown 0) 0x80000000 |>.setReg (rSpanown 1) 0x80000000
  |>.setReg (rMemstat 0) 0 |>.setReg (rMemstat 1) 0 |>.setReg (rGrpown 0) 0x80000000 |>.setReg (rGrpown 1) 0x80000000
  |>.setFold 0 { Fold.reset with windows := [(0, ⟨0xFF, 0x01, 24, 0, 0xFFF⟩)], epoch := 5 }
  |>.setYoke 0 { Yoke.reset with
    run := .task, lead := coreIn r, trailC := (coreIn r).inv, seq := 7, interval := 3,
    committed := ⟨coreIn r, Yoke.reset.fpu.f, Yoke.reset.fpu.fcsr⟩ }

/-- `s` with yoke 0 changed. -/
def withYoke (s : State) (f : Yoke → Yoke) : State := s.setYoke 0 (f (s.yoke 0))

/-- `s` with both cores of yoke 0 changed. -/
def withCore (s : State) (f : Core → Core) : State := withYoke s fun k => { k with lead := f k.lead, trailC := (f k.lead).inv }

/-- `s` with fold 0 changed. -/
def withFold (s : State) (f : Fold → Fold) : State := s.setFold 0 (f (s.fold 0))

/-- `s` with span 0 changed. -/
def withSpan (s : State) (f : Span → Span) : State := s.setSpan 0 (f (s.span 0))

/-- The bytes of little-endian words. -/
def bytesOfWords (ws : List Nat) : List Byte := ws.flatMap fun w => (List.range 4).map fun i => BitVec.ofNat 8 (w / 256 ^ i)

/-- `s` with words stored from a physical address of memory on. -/
def withWords (s : State) (p : Nat) (ws : List Nat) : State := { s with mem := memWrite s.mem p (bytesOfWords ws) }

/-- A branch of the leading core that has not resolved, with one instruction before it and one after it. -/
def branched (wrong : Bool) : State := withYoke (calm 0) fun k => { k with
  branch := some ⟨5, wrong, coreIn 0, 3⟩, cq := [⟨4, .nop, .none, none, false, 0, none, 0⟩, ⟨6, .nop, .none, none, false, 0, none, 0⟩] }

/-- A float instruction waits in the issue queue. -/
def floating : State := withYoke (calm 0) fun k => { k with fpu := { k.fpu with queue := [⟨1, .fmov 0 1, 0, coreIn 0, none⟩] } }

/-- Registers g1 and g3 hold stack size exponents at both ends of their range and a channel configuration. -/
def sizes : State := withFold (withCore (calm 0) fun c => { c with g := (c.g.set 1 0x08141408).set 3 0x8000000C })
  fun f => { f with chsel := 5, chans := [(5, { Channel.reset with base := 0x10 })] }

/-- Channel 5 of the fold is open, with a buffer of four words. -/
def opened : State := withFold (withCore (calm 0) fun c => { c with g := (c.g.set 2 2).set 3 0x80000002 })
  fun f => { f with chsel := 5, chans := [(5, { Channel.reset with isOpen := true, dpow := 2, base := 0x80000100 })] }

/-- Descriptor `v` of the fold's table names a handler at 0x80000300 with attributes `a`; the task runs in ring `r`. -/
def handlerAt (r v a : Nat) : State :=
  withFold (withWords (calm r) (0x0200010000 + 16 * v) [0x80000300, a, 0, 0]) fun f => { f with
    dtb := 0x80010000, escv := 0x80000400, esp := 0x80020001, sksz := 0x0C0C0C0C }

/-- `s` with ST.M set at yoke 0. -/
def masked (s : State) : State := withCore s fun c => { c with st := c.st ||| 16 }

/-- A frame that holds `st` as the saved status. -/
def savedFrame (st : Word) : Frame := #v[0x80000500, st, 0x12345670, 0x77, 0, 0, 0, 0x14, 0xA1, 0xA2, 0xA3, 0xA4, 0, 0, 0, 0]

/-- A task in ring `r` with that frame at its stack pointer. -/
def framed (r : Nat) (st : Word) : State :=
  withWords (calm r) (0x0200001000 + 0x1000 * r) ((savedFrame st).toList.map BitVec.toNat)

/-- Three events wait at the fold; the one of the lowest vector is reserved to another yoke. -/
def offered : State := withFold (handlerAt 2 0x10 0x112) fun f => { f with
  events := [⟨0x12, 5, 6, none⟩, ⟨0x10, 7, 8, none⟩, ⟨0x0E, 1, 2, some 3⟩] }

/-- A load of `n` bytes at 0x80000030 into `g14` and on that waits for its data. -/
def awaited (n : Nat) (op : LoadOp) (live : List Gpr) : PendLoad := ⟨5, 0x80000030, n, 0x0200000030, .gpr op 12, live, coreIn 0, none⟩

/-- That load is the oldest of yoke 0. -/
def loading (l : PendLoad) : State :=
  withYoke (withWords (calm 0) 0x0200000030 [0xFFEEDDCC, 0x80818283, 0x7F7E7D7C, 0x99887766]) fun k => { k with loads := [l] }

/-- An entry of the write-hold buffer for the word at 0x80000020 of interval `iv`. -/
def entry (iv : Nat) (p : WhbPhase) : WhbEntry :=
  { id := 3, addr := 0x80000020, phys := 0x0200000020, be := 0x00F0, data := 0x8877665544332211F0E0D0C0B0A09080, chk := 0x8877665544332211F0E0D0C0B0A09080,
    unconf := 0, interval := iv, io := false, loc := false, sysc := false, pc := 0, oepoch := 0, ring := 0, phase := p }

/-- Yoke 0 holds these entries. -/
def holding (es : List WhbEntry) : State := withYoke (calm 0) fun k => { k with whb := es }

/-- Fold 0 owns queue pair 0 of port 0, so that the output window 0xF0 is its own. -/
def withWindow : State := (calm 0).setReg (rPqown 0 0) 0x80000000

/-- A group of two entries that their banks have accepted, and an entry of the interval after it. -/
def grouped : List WhbEntry :=
  [entry 2 (.accepted 1), { entry 2 (.accepted 2) with id := 9, phys := 0x0200000010, be := 0x0FF }, { entry 3 .open with id := 10 }]

/-- Sixteen-byte words at 0x80000010 and 0x80000020, with registers that point at them, and `n` iterations to go. -/
def blocks (n : Nat) : State :=
  withCore (withWords (calm 0) 0x0200000010 [0xFFEEDDCC, 0x80818283, 0x7F7E7D7C, 0x99887766, 0xFFEEDDCC, 0x80818283]) fun c => { c with
    ct := BitVec.ofNat 32 n, g := c.g.set 1 0x80000024 }

/-- A lock word or counter of value `v` at 0x80000010 and the list of tethers `l`. -/
def locked (v : Nat) (l : List Word) : State :=
  withCore (withWords (calm 3) 0x0200000010 [v, 9]) fun c => { c with task := { c.task with tlist := l } }

/-- A task descriptor at 0x80000040, with JOINREF `j`, ATTR `attr` and the last reserved word `z`; g1 points at it. -/
def spawning (r j attr z : Nat) : State :=
  withCore (withWords (calm r) 0x0200000040
    [0x80000300, 1, 2, 3, 4, j, 0, attr, 0x80001000, 0x80002000, 0x80003000, 0x80004000, 0, 0, 0, z]) fun c => { c with
      g := c.g.set 1 0x80000040 }

/-- A task whose join counter at 0x80000010 holds `v`; the parked tasks `js` wait, and slot 0 holds a task. -/
def joining (v : Nat) (js : List JoinEntry) : State :=
  withSpan (withFold (withCore (withWords (calm 3) 0x0200000010 [v, 9]) fun c => { c with
    task := { c.task with tjoin := 0x80000010 } }) fun f => { f with joins := js }) fun p => { p with
      slots := [(0, ⟨⟨coreIn 0, Vector.replicate 16 0, 0⟩, .join 0x0200000010⟩)] }

/-- Channel 3 of the fold is open with four words at 0x80000010, of which `n` are taken from `h` on; g2 is its handle. -/
def channel (h n : Nat) : State :=
  withFold (withCore (withWords (calm 3) 0x0200000010 [1, 2, 3, 4]) fun c => { c with g := c.g.set 2 3 }) fun f => { f with
    chans := [(3, { Channel.reset with isOpen := true, dpow := 2, base := 0x80000010, head := h, count := n })] }

/-- What `State.Ready` asks, as a test. -/
def isReady (s : State) (y : YokeId) (i : CoreIns) (room : Nat) : Bool :=
  decide ((s.yoke y).run = .task ∧ (s.yoke y).collapse = none ∧ (s.span (spanOf y)).power = .run ∧
    (s.yoke y).debug = .off ∧ s.debugger = false ∧ (s.yoke y).ckptDue = false ∧ s.ckTriggered (s.yoke y) = false ∧
    s.eventWaits y = false ∧ (s.yoke y).lead.task.abort ≠ .due ∧ (s.yoke y).stalls i room = false)

theorem ready_of {s : State} {y : YokeId} {i : CoreIns} {room : Nat} (h : isReady s y i room = true) : s.Ready y i room := by
  have ⟨a, b, c, d, e, f, g, k, l, m⟩ := of_decide_eq_true h
  exact ⟨a, b, c, d, e, f, g, k, l, m⟩

/-- What `State.Calm` asks but for the trailing core, as a test: no other yoke holds a store. -/
def isCalm (s : State) (y : YokeId) : Bool :=
  let k := s.yoke y
  decide ((k.run = .task ∧ k.collapse = none ∧ (s.span (spanOf y)).power = .run ∧ k.debug = .off ∧ s.debugger = false ∧
    k.ckptDue = false ∧ s.ckTriggered k = false ∧ s.eventWaits y = false ∧ k.inj = false) ∧
    (k.cq = [] ∧ k.lvq = [] ∧ k.fetchLane = [] ∧ k.fetchReq = none ∧ k.heldReports = [] ∧ k.loads = [] ∧ k.branch = none ∧ k.fpu.queue = [] ∧ k.fpu.busy = [] ∧
    k.whb = [] ∧ k.pend = none ∧ k.entryEvent = none ∧ k.lead.task.abort ≠ .due ∧ k.effects = []) ∧ ∀ p ∈ s.yokes, p.1 = y ∨ p.2.whb = [])

theorem calm_of {s : State} {y : YokeId} (h : isCalm s y = true) (e : (s.yoke y).trailC = (s.yoke y).lead.inv) : s.Calm y := by
  have ⟨⟨a1, a2, a3, a4, a5, a6, a7, a8, a9⟩, ⟨b1, b2, b3, b4, b5, b6, b7, b8, b9, b10, b11, b12, b13, b14⟩, c⟩ := of_decide_eq_true h
  refine ⟨a1, a2, a3, a4, a5, a6, a7, a8, e, a9, b1, b2, b3, b4, b5, b6, b7, b8, b9, b10, b11, b12, b13, b14, fun a => ?_⟩
  rw [State.heldElsewhere, List.any_eq_false]
  intro p hp
  rcases c p hp with e | e <;> simp [e]

/-- `s` once yoke 0 has issued. -/
def goingOn (s : State) : State := s.setYoke 0 (s.going 0)

/-- The state and the words that a read of a frame answers. -/
def readState (r : FrameRead) : State :=
  match r with
  | .ok s _ => s
  | .fails s _ _ _ => s
def readWords (r : FrameRead) : List (QWord × LoadStatus) :=
  match r with
  | .ok _ qs => qs
  | .fails .. => []
def readVec (r : FrameRead) : Option (Byte × Word × Word) :=
  match r with
  | .ok .. => none
  | .fails _ v i y => some (v, i, y)

theorem ok_of {r : FrameRead} (h : readVec r = none) : r = .ok (readState r) (readWords r) := by
  cases r <;> simp_all [readVec, readState, readWords]

theorem fails_of {r : FrameRead} {v : Byte} {i y : Word} (h : readVec r = some (v, i, y)) : r = .fails (readState r) v i y := by
  cases r <;> simp_all [readVec, readState]

/-- A read of yoke 0's frame. -/
def frameOfTask (s : State) : FrameRead := (goingOn s).readFrame 0 0 3 0 []

/-- Group 0 is in its wipe. -/
def wiped (s : State) : State := s.setReg (rMemstat 0) 0x80000000


/-- A task in ring `r` with register `i` holding `v`. -/
def regd (r : Nat) (i : Gpr) (v : Word) : State := withCore (calm r) fun c => c.wr i v

/-- A task that waits for the event set `set` since device time 5, at device time `t`. -/
def waits (set : Word) (t : Nat) : State :=
  { withYoke (calm 1) (fun k => { k with run := .waiting ⟨set, 5, 9, 3⟩ }) with clk := { (calm 1).clk with time := t, fc := t } }

/-- A task descriptor. -/
def childTask : TaskDesc := ⟨0x80000300, 1, 2, 3, 4, 0, 5, 0x20, #v[1, 2, 3, 4], 9, 7⟩

/-- A compare queue entry numbered `n` of instruction `i` with the outputs `o`. -/
def queuedEntry (n : Nat) (i : CoreIns) (o : BusOut) : CqEntry := ⟨n, i, o, none, false, 0, none, 0⟩

/-- Five entries wait at yoke 0, a store of g1 at 0x80000020 the oldest; one store is held open. -/
def checking : State := withYoke (holding [entry 3 .open]) fun k => { k with
  seq := 5, wait := .pipeline, cq := [queuedEntry 1 (.store .w 1 (.base 3 0)) (storeOut 0x80000020 4 1 .plain), queuedEntry 2 .nop .none,
    queuedEntry 3 .nop .none, queuedEntry 4 .nop .none, queuedEntry 5 .nop .none] }

/-- The oldest entry of `checking`. -/
def oldest : CqEntry := queuedEntry 1 (.store .w 1 (.base 3 0)) (storeOut 0x80000020 4 1 .plain)

/-- A checkpoint of the leading core's state that waits for the trailing core. -/
def pendingCk : PendCk := ⟨7, 3, coreIn 0, some (Vector.replicate 16 0, 0), none, some (coreIn 0).inv⟩

/-- Operation `op`, which drives `o`, waits at yoke 0 of a task in ring 0, its compare queue entry the only one. -/
def collapsing (op : CollapseOp) (o : CollapseOut) (len : Nat) : State := withYoke (calm 0) fun k => { k with
  seq := 8, collapse := some ⟨op, len⟩, cq := [queuedEntry 8 (.collapse o) (o.drives (coreIn 0))] }

/-- That entry. -/
def collapseEntry (o : CollapseOut) : CqEntry := queuedEntry 8 (.collapse o) (o.drives (coreIn 0))

/-- Fold 0 owns input pair 0. -/
def withPair (s : State) : State := s.setReg 0x110100 0x80000000

/-- Fold 0 is in RUN. -/
def running (s : State) : State := { withFold s (fun f => { f with phase := .running }) with power := { s.power with main := true } }

/-- `s` at fabric cycle and device time `t`. -/
def atTime (s : State) (t : Nat) : State := { s with clk := { s.clk with time := t, fc := t } }


/-- What holds of the default and of every entry of a map holds of what it gives. -/
theorem kget_of {κ α : Type} [DecidableEq κ] (P : α → Prop) (m : KMap κ α) (d : α) (k : κ) (hd : P d)
    (h : ∀ p ∈ m, P p.2) : P (kget m d k) := by
  induction m with
  | nil => exact hd
  | cons e t ih =>
    rw [kget]
    split
    · exact h e List.mem_cons_self
    · exact ih fun p hp => h p (List.mem_cons_of_mem _ hp)

/-- A yoke waits. -/
def inWait (k : Yoke) : Bool :=
  match k.run with
  | .waiting _ => true
  | _ => false

/-- No yoke of `s` waits. -/
theorem noWaits {s : State} (h : ∀ p ∈ s.yokes, inWait p.2 = false) (y : YokeId) (w : WaitInfo) : (s.yoke y).run ≠ .waiting w := by
  intro e
  have := kget_of (fun k => inWait k = false) s.yokes Yoke.reset y rfl h
  rw [State.yoke] at e
  simp [inWait, e] at this

/-- No listed yoke but `v` has anything in its deque, so no other yoke has. -/
theorem dequeEmpty {s : State} {v : YokeId} (h : ∀ p ∈ s.yokes, p.1 ≠ v → p.2.deque = []) (w : YokeId) (hw : w ≠ v) :
    (s.yoke w).deque = [] := by
  rw [State.yoke]
  generalize s.yokes = m at h ⊢
  induction m with
  | nil => rfl
  | cons e t ih =>
    rw [kget]
    split
    · exact h e List.mem_cons_self (by simp_all)
    · exact ih fun p hp => h p (List.mem_cons_of_mem _ hp)

/-- No listed yoke has anything in its deque, so no yoke has. -/
theorem noDeques {s : State} (h : ∀ p ∈ s.yokes, p.2.deque = []) (w : YokeId) : (s.yoke w).deque = [] :=
  kget_of (fun k => k.deque = []) s.yokes Yoke.reset w rfl h

/-- Where only yoke 0 is listed, every other yoke stands at reset. -/
theorem otherIdle {s : State} {k : Yoke} (h : s.yokes = [(0, k)]) (z : YokeId) (hz : z ≠ 0) : s.yoke z = Yoke.reset := by
  rw [State.yoke, h, kget, if_neg (Ne.symm hz), kget]

/-- The same of a yoke that a debugger steps. -/
theorem noStepped {s : State} (h : ∀ p ∈ s.yokes, inWait p.2 = false) : NoSteppedWait s := fun y w e => absurd e (noWaits h y w)

/-- What holds of 64 times 64 numbers holds below 4,096. -/
theorem in4096 {P : Nat → Prop} (h : ∀ q < 64, ∀ r < 64, P (64 * q + r)) (j : Nat) (hj : j < 4096) : P j := by
  have := h (j / 64) (by omega) (j % 64) (by omega)
  rwa [Nat.div_add_mod] at this

/-- Fold 0 in RUN in epoch 5 of 8 µs, at the boundary of epoch 6; `root` is its root task; g0 of a root descriptor at 0x80000040. -/
def epoch5 (root : Option Word) : State :=
  { withFold (withWords (calm 0) 0x0200000040 [0x80000300, 1, 2, 3, 4, 0x80000020, 0, 0x20, 0xA0, 0xB0, 0xC0, 0xD0, 0, 0, 0, 0])
      (fun f => { f with phase := .running, epoch := 5, rootIdent := root, ien := 1,
                         held := [⟨0x1000, [9], false, 4, ⟨0, none⟩⟩, ⟨0x1000, [9], false, 5, ⟨0, none⟩⟩] })
    |>.setReg (rFroot 0) 0x80000040 with
    power := { State.reset.power with main := true }, clk := { State.reset.clk with time := 48000, fc := 50 } }

/-- Fold 0 in BUILD with the main domain up, register `a` holding `v`. -/
def built (a : Nat) (v : Word) : State :=
  { withFold (calm 0) (fun f => { f with phase := .build }) |>.setReg a v with power := { State.reset.power with main := true } }


/-- Fold 0 in RUN; yoke 0 is idle with these tasks in its deque, and yoke 3 of its span with those. -/
def idling (l l3 : List TaskDesc) : State :=
  { (withYoke (running (calm 0)) fun k => { k with run := .idle, deque := l, idleFc := 10 })
      |>.setYoke 3 { Yoke.reset with deque := l3 } with clk := { State.reset.clk with fc := 266 } }

/-- An overflow entry of task `d` with priority `p`. -/
def overflowOf (p : BitVec 2) (d : TaskDesc) : OvfEntry := ⟨false, p, true, .fresh d⟩

/-- A resume descriptor of slot 1, and what the slot holds. -/
def resumeEntry : OvfEntry := ⟨true, 2, true, .resume 1⟩
def savedTask : SavedTask := ⟨⟨coreIn 2, Vector.replicate 16 5, 3⟩, .resume⟩

/-- Span 0 with its quiet time reached, nothing queued and every yoke idle. -/
def resting (p : SpanPower) : State :=
  { withSpan ((State.reset.setFold 0 { Fold.reset with wdRun := true }).setReg (rSpanown 0) 0x80000000) (fun k => { k with power := p }) with
    power := { State.reset.power with main := true }, clk := { State.reset.clk with fc := 4000 } }

/-- The yoke of task 7 under debug in state `d`, with a debugger attached or not. -/
def debugged (a : Bool) (d : YokeDebug) : State := { withYoke (running (calm 0)) (fun k => { k with debug := d }) with debugger := a }


/-- A channel that runs at 0x80000100. -/
def runningDma : Dma := { Dma.reset with state := .running, cpc := 0x80000100, csrc := 0x80000210, cdst := 0x80000500, oepoch := 5, wdFrom := 4999 }

/-- Channel 1 of fold 0 is `d`; its program is the words `ws`, and the words `vs` stand at 0x80000380. -/
def channelled (d : Dma) (ws vs : List Nat) : State :=
  { ((withWords (withWords (running (calm 0)) 0x0200000100 ws) 0x0200000380 vs).setReg (rDmaown 1) 0x80000000).setDma 1 d with
    slotPlan := (List.range 47).map fun j => (j, 0x80000000), clk := { State.reset.clk with time := 5000 } }

/-- What `AtIns` asks but for errors of memory, as a test; the instruction stands at physical address `p`. -/
def isAt (s : State) (c : DmaId) (f : FoldId) (bs : List Byte) (p : Nat) : Bool :=
  let d := s.dmaCh c
  decide (s.dmaFold c = some f ∧ d.state = .running ∧ d.xfer = none ∧ d.wdOver s.clk = false ∧ s.dmaSlot c = true ∧
    d.cpc.toNat % 8 = 0 ∧ s.dmaHeld f d d.cpc 8 true = false ∧
    s.dmaPhys f d d.cpc 8 Need.read true = some p ∧ s.wiping p = false ∧ memRead s.mem p 8 = bs)

theorem atIns {s : State} {c : DmaId} {f : FoldId} {bs : List Byte} (p : Nat) (h : isAt s c f bs p = true) (e : NoErrors s) :
    AtIns s c f bs := by
  have ⟨h1, h2, h3, h4, h5, h6, h7, h8, h9, h10⟩ := of_decide_eq_true h
  exact ⟨h1, h2, h3, h4, h5, h6, e, h7, p, h8, h9, h10⟩

/-- What `Readable` asks, as a test; the bytes stand at physical address `p`. -/
def isReadable (s : State) (c : DmaId) (f : FoldId) (a : Word) (bs : List Byte) (p : Nat) : Bool :=
  decide (s.dmaHeld f (s.dmaCh c) a bs.length false = false ∧
    s.dmaPhys f (s.dmaCh c) a bs.length Need.read false = some p ∧ (∀ j < bs.length, s.wiping (p + j) = false) ∧
    memRead s.mem p bs.length = bs)

theorem readable {s : State} {c : DmaId} {f : FoldId} {a : Word} {bs : List Byte} (p : Nat)
    (h : isReadable s c f a bs p = true) : Readable s c f a bs := by
  have ⟨h1, h2, h3, h4⟩ := of_decide_eq_true h
  exact ⟨h1, p, h2, h3, h4⟩


/-- Fold 0 in phase `p`, the main domain up and startup self-test over. -/
def phased (p : FoldPhase) : State :=
  { withFold (calm 0) (fun f => { f with phase := p }) with power := { State.reset.power with main := true, bist := false } }

/-- Fold 0 in BUILD and ready for admission. -/
def admissible : State :=
  { (((((phased .build).setReg (rFhsize 0) 0x10000).setReg (rFhbase 0) 0x1F0000).setReg (rFpwr 0) 100).setReg (rFcfg 0) 0x3001F).setReg
      (rSlot 46) 0x80000000 with sec := { State.reset.sec with mok := true } }

/-- Fold 0 owns nothing, in phase `p`. -/
def bareFold (p : FoldPhase) : State :=
  { State.reset.setFold 0 { Fold.reset with phase := p } with power := { State.reset.power with main := true, bist := false } }

/-- A report of a source about span 0. -/
def reported (src : Byte) : Report := ⟨src, .span, 0, 5, 0x77, none, 0⟩

/-- An incident of class `c` of fold 0. -/
def incident (c : BitVec 3) (ord : Nat) : Incident :=
  ⟨3, c, .span, 0, some 0, 0x06, 0x77, 1, 1, 0, 0, [], false, false, ord, false⟩

/-- The fault manager with these incidents, of which `cur` is in reaction. -/
def faulty (is : List Incident) (cur : Option Nat) : State :=
  { running (calm 0) with fm := { FaultMgr.reset with queue := is, cur := cur, ord := 9, next := 7 } }

/-- These reports are on their way. -/
def reports (s : State) (rs : List Report) : State := { s with reports := rs }


/-- Fold 0 in RUN with its watchdog running: PERIOD 100, WARN 10, `n` µs left. -/
def watched (n : Nat) : State :=
  (withFold (phased .running) fun f => { f with wdRun := true, wdVal := n }).setReg (rFwdcfg 0) 0x8032000A

/-- The AON watchdog in this state. -/
def withAon (f : AonWd → AonWd) : State := { phased .build with aon := f AonWd.reset }

/-- The recorder in state `r`. -/
def withRec (r : RecState) : State := { phased .build with fr := { Recorder.reset with state := r, wptr := 5, written := 5 } }

/-- The twin link enabled, its state `f` of the reset one, at device time 20,000. -/
def twinned (f : Twin → Twin) : State :=
  { (phased .build).setReg 0x0C0000 3 with twin := f Twin.reset, clk := { State.reset.clk with time := 20000 } }

/-- A heartbeat. -/
def beat : Heartbeat := ⟨1, false, 5, false, true, 9, List.replicate 16 0, 100, none, List.replicate 16 0⟩

/-- A flit of a VC, numbered 0, without payload. -/
def flitOn (vc : Fin 4) : Flit := ⟨1, vc, 3, 15, 0, 7, [], crc32c [BitVec.ofNat 8 (vc.val + 3 * 4 + 15 * 16), 0, 7]⟩
/-- That flit on VC 0. -/
def flit : Flit := flitOn 0

/-- Fold 0 in RUN on an authenticated twin link that is up, in twin mode `m` and transfer phase `p`; the partner's fold in XFER. -/
def twinFold (m : BitVec 3) (p : XferPhase) : State :=
  { ((running (calm 0)).setReg (rStslot 0) 0x80000000).setTwinFold 0 { TwinFold.reset with mode := m, phase := p } with
    twin := { Twin.reset with link := 2, role := 1, tlock := true, partner := some { beat with modes := List.replicate 16 3 } }
    sec := { State.reset.sec with twinOk := true } }

/-- Fold 0 sends its state and has reached the epoch before its cut, with its yoke idle: phase `p`, dirty pages `d`. -/
def cutting (p : XferPhase) (d : List Nat) : State :=
  withYoke (((twinFold 2 p).setTwinFold 0 { TwinFold.reset with mode := 2, phase := p, dirty := d }).setReg (rFhep 0) 9) fun k =>
    { k with run := .idle }

/-- A signature record of epoch 5. -/
def sigRecord : SigRecord := ⟨5, 7, 0, 0, 1, 0⟩

/-- A register image. -/
def imageOf : FoldImage := ⟨0, 0, 1, 0, 0, 0, 0, 0, 0, 0, [], [], [], [], [], 0, 0⟩


/-- Fold 0 owns queue pair 3 of port 0 and receives on cross-fold channel 5; queues and channel hold `es` and `xs`. -/
def receiving (es : List RxEntry) (xs : List QWord) : State :=
  { (((calm 3).setReg (rPqown 0 3) 0x80000000).setReg (rXchown 5) 0x80010001).setQueue 0 3 { PortQueue.reset with rx := es } with
    xch := [(5, ⟨xs, [], [], false, 9⟩)] }

/-- An entry of 48 bytes. -/
def rxEntry : RxEntry := ⟨3, List.replicate 48 0xA5, []⟩

/-- Port 0 is up, its queue pair 3 owned by fold 0 in RUN. -/
def portUp : State :=
  { (((running (calm 0)).setReg (rPqown 0 3) 0x80000000).setReg 0x0D0000 1) with linkUp := [0] }

/-- A frame of 64 bytes whose payload begins with `b`. -/
def ethFrame (b : List Byte) : List Byte :=
  let h : List Byte := List.replicate 12 2 ++ b ++ List.replicate (48 - b.length) 0
  h ++ ethFcs h

/-- A safety PDU on connection 3 with sequence number 1, its CRC wrong. -/
def safetyFrame : List Byte := ethFrame ([0x88, 0xB5] ++ [0x10, 0x00] ++ [0x00, 0x07] ++ [0x00, 0x09] ++ [0, 0] ++ [0, 0, 0, 1])

/-- A transmit record. -/
def txRec (k : Nat) : TxRec := ⟨k, [], List.replicate 20 1, 0, 5, ⟨0x80000000, none⟩⟩

/-- P4 is up and fold 0 in RUN with its function enabled. -/
def hosted (f : Pcie → Pcie) : State :=
  { running (calm 0) with linkUp := [4], pcie := f { Pcie.reset with vfEnable := true, bme := [0] } }

/-- Input pair 3 with registers `cfg`, state `p` and timing `u`; output pair 0 with register `ocfg` and state `o`; fold 0 in BUILD,
12,345.5 µs of device time. -/
def safeIo (cfg ocfg : Word) (u : InUnit) (p : InPair) (o : OutPair) : State :=
  { ((((calm 3).setReg 0x11010C cfg).setReg 0x110500 ocfg).setReg 0x110004 0x00640032).setInPair 3 p |>.setOutPair 0 o with
    inUnit := u, fm := { FaultMgr.reset with nsafe := false }, power := { State.reset.power with main := true }, clk := { State.reset.clk with time := 12345500 } }

/-- Input pair 3 alone: a valid pair of fold 0 with discrepancy limit 10, channels `a` and `b`, timer `n`. -/
def inputs (cfg : Word) (u : InUnit) (a b : Bool) (n : Nat) (l : Bool) : State :=
  safeIo cfg 0 u ⟨⟨a, 3, a⟩, ⟨b, 3, b⟩, n, l⟩ OutPair.reset

/-- Output pair 0 alone, a valid pair of fold 0. -/
def outputs (o : OutPair) : State := safeIo 0 0x80C86414 ⟨5, 5, none, none⟩ ⟨⟨false, 3, false⟩, ⟨false, 3, false⟩, 0, false⟩ o

/-- The main domain is up with fold 0 in BUILD; Bell time 77, device time 100 µs; the Bell ticks every 7 with its alarm at 77. -/
def bellAt (m : PwrMgr) (p : Power → Power) : State :=
  { ((built 0x080010 0x00010007).setReg 0x080008 77) with
    pwr := m, power := p { State.reset.power with main := true, mainen := true }, clk := { State.reset.clk with bt := 77, time := 100000 } }

/-- The main domain is up; yoke 0 and the self-test controller as given; fc 3,000,000. -/
def tested (k : Yoke → Yoke) (b : Bist) : State :=
  { withYoke (running (calm 0)) k with bist := b, clk := { State.reset.clk with fc := 3000000 } }

/-- After power-on, with the power state changed. -/
def powered (p : Power → Power) : State := { State.reset with power := p State.reset.power }

/-- What Drover wrote to SEC.RESP: a public key at 0 and at 0x64 its signature over the challenge of `openable`; as words. -/
def openWords : List Word := [
  0x3B986D04, 0xC0A535E9, 0xEB7D4A2E, 0xC9087581, 0x498B02B5, 0x3091ED7A, 0x99364C6A, 0xA6E0E843, 0x22DEFE73,
  0x377554C8, 0x9FA94DD5, 0xBC4C1B70, 0xB93C2152, 0xB75585E1, 0xC7CC5436, 0x4848950B, 0xFB844386, 0x37407EA7,
  0x55CD4A57, 0xAEF10967, 0xDBBB6A2B, 0x95312700, 0xDCDC083C, 0x2DF4317B, 0x00000091, 0x5C140D8F, 0x6BAD6803,
  0xE422BE70, 0xEA0E401C, 0xD971B991, 0xFE20A26B, 0x5AE2FAC9, 0xAAFDDF58, 0x8FBE2DF7, 0x51D58367, 0x4EDFC928,
  0xA7F8F6FA, 0x5C140D8F, 0x6BAD6803, 0xE422BE70, 0xEA0E401C, 0xD971B991, 0xFE20A26B, 0x5AE2FAC9, 0xAAFDDF58,
  0x8FBE2DF7, 0x51D58367, 0x4EDFC928, 0xA7F8F6FA]

/-- The hash of that key. -/
def openHash : List Byte := [
  0xD5, 0xA5, 0xD8, 0x7E, 0x68, 0xE7, 0x5B, 0x26, 0xA0, 0x4B, 0xC2, 0xB0, 0x17, 0x3A, 0x7E, 0xB2, 0xF6, 0x11,
  0x17, 0x15, 0xEC, 0xE1, 0x11, 0x86, 0x7B, 0xA1, 0x4F, 0x18, 0xD4, 0x4E, 0x7E, 0xED, 0x37, 0x04, 0xEF, 0x50,
  0xAB, 0xAD, 0x52, 0xE3, 0x6E, 0xBD, 0x2E, 0xED, 0xDC, 0x0A, 0xD9, 0x71]

/-- The main domain is up, fold 0 in BUILD, the security subsystem as given; Bell time 300. -/
def secure (f : Sec → Sec) : State :=
  { built 0 0 with sec := f State.reset.sec, clk := { State.reset.clk with bt := 300 } }

/-- A challenge of 48 bytes open since Bell time 100 in DEPLOYED, and its signed response. -/
def openable (c : Sec) : Sec := { c with
  lc := 3, chal := 0 :: List.replicate 47 0, chalAt := some 100, resp := openWords.zipIdx.map fun x => (x.2, x.1),
  otp := openHash.zipIdx.map fun x => (0x1A0 + x.2, x.1) }

/-- A crypto job with opcode `op`, source at 0x40, result at 0x80, IV or wrapped key at 0x100 and tag at 0x140 of Drover's memory. -/
def jobOf (op : Nat) : Job := ⟨0, op, 0, 0x40, 0x80, 0, 0, 0x100, 0x140, 0⟩

/-- The job at the head of a ring of 4, in Drover's memory with bytes `bs` at `at_`. -/
def jobbed (j : Job) (at_ : Nat) (bs : List Byte) : State :=
  let d := [BitVec.ofNat 8 j.op, 0, 0, 0] ++ leBytes j.src 4 ++ leBytes j.dst 4 ++ leBytes j.len 4 ++ leBytes j.aad 4 ++
    leBytes j.iv 4 ++ leBytes j.tag 4
  { ((secure id).setReg 0x120204 2).setReg 0x12020C 1 with mem := memWrite (memWrite [] 0x0600000000 d) (0x0600000000 + at_) bs }

/-- O1, AluOperationsAndTheirRepeatsWriteResults: states and operands that meet the hypotheses of its clauses. -/
theorem test_alu :
    (let s : State := calm 0; let y : YokeId := 0; let op : AluOp := .shl; let wide : Bool := true; let d : Gpr := 2
     let a : AluArg := (.reg 14)
     s.Ready y (.alu op wide .once d a) 1 ∧
     aluLegal wide .once d a = true) ∧
    (let s : State := calm 3; let y : YokeId := 0; let op : AluOp := .add; let wide : Bool := false; let d : Gpr := 15
     let a : AluArg := (.imm32 0x80000000)
     s.Ready y (.alu op wide .once d a) 1 ∧
     aluLegal wide .once d a = true) ∧
    (let s : State := calm 0; let y : YokeId := 0; let op : AluOp := .add; let wide : Bool := true
     let rep : Rep := .rep; let d : Gpr := 2; let a : AluArg := (.reg 4)
     s.Ready y (.alu op wide rep d a) 1 ∧
     rep ≠ .once ∧
     aluLegal wide rep d a = true ∧
     (rep = .rep → (s.yoke y).lead.ra = true ∨ (s.yoke y).lead.ct.toNat ≤ 1024)) ∧
    (let s : State := calm 0; let y : YokeId := 0; let op : AluOp := .mov; let wide : Bool := false
     let rep : Rep := .repi; let d : Gpr := 1; let a : AluArg := (.reg 4)
     s.Ready y (.alu op wide rep d a) 1 ∧
     rep ≠ .once ∧
     aluLegal wide rep d a = true ∧
     (rep = .rep → (s.yoke y).lead.ra = true ∨ (s.yoke y).lead.ct.toNat ≤ 1024)) :=
  ⟨⟨ready_of (by decide +kernel), by decide +kernel⟩,
    ⟨ready_of (by decide +kernel), by decide +kernel⟩,
    ⟨ready_of (by decide +kernel), by decide +kernel⟩,
    ⟨ready_of (by decide +kernel), by decide +kernel⟩⟩

/-- O2, MultipliesAndUnaryOperationsWriteResults: states and operands that meet the hypotheses of its clauses. -/
theorem test_multiplies :
    (let s : State := calm 0; let y : YokeId := 0; let d : Gpr := 15; let src : Gpr := 0
     s.Ready y (.mul .muls d src) 1 ∧
     s.Ready y (.mul .mulu d src) 1) ∧
    (let s : State := calm 0; let y : YokeId := 0; let d : Gpr := 14; let src : Gpr := 14
     s.Ready y (.mul .mulws d src) 1 ∧
     d.val % 2 = 0) ∧
    (let s : State := calm 0; let y : YokeId := 0; let d : Gpr := 0; let src : Gpr := 15
     s.Ready y (.mul .mulwu d src) 1 ∧
     d.val % 2 = 0) ∧
    (let s : State := calm 0; let y : YokeId := 0; let d : Gpr := 15; let src : Gpr := 0
     s.Ready y (.un .neg d src) 1) ∧
    (let s : State := calm 0; let y : YokeId := 0; let d : Gpr := 15; let src : Gpr := 15
     s.Ready y (.un .not d src) 1) ∧
    (let s : State := calm 0; let y : YokeId := 0; let d : Gpr := 0; let src : Gpr := 3
     s.Ready y (.un .extb d src) 1 ∧
     s.Ready y (.un .exth d src) 1 ∧
     s.Ready y (.un .clz d src) 1) :=
  ⟨⟨ready_of (by decide +kernel), ready_of (by decide +kernel)⟩,
    ⟨ready_of (by decide +kernel), by decide +kernel⟩,
    ⟨ready_of (by decide +kernel), by decide +kernel⟩,
    ready_of (by decide +kernel),
    ready_of (by decide +kernel),
    ⟨ready_of (by decide +kernel), ready_of (by decide +kernel), ready_of (by decide +kernel)⟩⟩

/-- O3, DivideStepsFollowTheirRules: states and operands that meet the hypotheses of its clauses. -/
theorem test_divides :
    (let s : State := calm 0; let y : YokeId := 0; let rep : Rep := .once; let d : Gpr := 2; let src : Gpr := 5
     let lead := (s.yoke y).lead
     let c := if rep = .once then lead else { lead with shadow := none }
     let dv := c.rd src
     let runs := (rep = .rep → c.ra = true ∨ c.ct.toNat ≤ 1024) ∧ (rep = .once ∨ c.ct ≠ 0) ∧ ¬(dv = 0 ∧ c.dze = true)
     s.Ready y (.dstep false rep d src) 1 ∧
     divLegal d src = true ∧
     runs) ∧
    (let s : State := calm 0; let y : YokeId := 0; let rep : Rep := .once; let d : Gpr := 0; let src : Gpr := 15
     let lead := (s.yoke y).lead
     let c := if rep = .once then lead else { lead with shadow := none }
     let dv := c.rd src
     let runs := (rep = .rep → c.ra = true ∨ c.ct.toNat ≤ 1024) ∧ (rep = .once ∨ c.ct ≠ 0) ∧ ¬(dv = 0 ∧ c.dze = true)
     s.Ready y (.dstep true rep d src) 1 ∧
     divLegal d src = true ∧
     runs) ∧
    (let s : State := calm 0; let y : YokeId := 0; let d : Gpr := 14; let src : Gpr := 13
     s.Ready y (.dfix d src) 1 ∧
     divLegal d src = true) ∧
    (let s : State := (withCore (calm 0) fun c => { c with ct := 1024 })
     let y : YokeId := 0; let rep : Rep := .rep; let d : Gpr := 2; let src : Gpr := 5; let lead := (s.yoke y).lead
     let c := if rep = .once then lead else { lead with shadow := none }
     let dv := c.rd src
     let runs := (rep = .rep → c.ra = true ∨ c.ct.toNat ≤ 1024) ∧ (rep = .once ∨ c.ct ≠ 0) ∧ ¬(dv = 0 ∧ c.dze = true)
     s.Ready y (.dstep false rep d src) 1 ∧
     divLegal d src = true ∧
     runs) ∧
    (let s : State := (withCore (calm 0) fun c => { c with ct := 1 })
     let y : YokeId := 0; let rep : Rep := .repi; let d : Gpr := 2; let src : Gpr := 5; let lead := (s.yoke y).lead
     let c := if rep = .once then lead else { lead with shadow := none }
     let dv := c.rd src
     let runs := (rep = .rep → c.ra = true ∨ c.ct.toNat ≤ 1024) ∧ (rep = .once ∨ c.ct ≠ 0) ∧ ¬(dv = 0 ∧ c.dze = true)
     s.Ready y (.dstep true rep d src) 1 ∧
     divLegal d src = true ∧
     runs) :=
  ⟨⟨ready_of (by decide +kernel), by decide +kernel⟩,
    ⟨ready_of (by decide +kernel), by decide +kernel⟩,
    ⟨ready_of (by decide +kernel), by decide +kernel⟩,
    ⟨ready_of (by decide +kernel), by decide +kernel⟩,
    ⟨ready_of (by decide +kernel), by decide +kernel⟩⟩

/-- O4, DivisionStepsDivideUnsignedAndSigned: states and operands that meet the hypotheses of its clauses. -/
theorem test_division :
    (let hi : Word := 4; let d : Word := 5
     hi.toNat < d.toNat) ∧
    (let d : Word := 0xFFFFFFFF
     d ≠ 0) :=
  by and_intros <;> decide +kernel

/-- O5, ShortSystemInstructionsComplete: states and operands that meet the hypotheses of its clauses. -/
theorem test_short :
    (let s : State := calm 3; let y : YokeId := 0; let b : Byte := 0xFF; let d : Gpr := 15
     s.Ready y .nop 1 ∧
     s.Ready y (.bkld b) 1 ∧
     s.Ready y (.tid d) 1) ∧
    (let s : State := calm 1; let y : YokeId := 0; let c := (s.yoke y).lead
     s.Ready y (.setM true) 1 ∧
     s.Ready y (.setM false) 1 ∧
     c.ring.toNat ≤ 1) ∧
    (let s : State := calm 2; let y : YokeId := 0; let c := (s.yoke y).lead
     s.Ready y (.setM true) 1 ∧
     s.Ready y (.setM false) 1 ∧
     2 ≤ c.ring.toNat ∧
     s.takes y 0x05 = true) :=
  ⟨⟨ready_of (by decide +kernel), ready_of (by decide +kernel), ready_of (by decide +kernel)⟩,
    ⟨ready_of (by decide +kernel), ready_of (by decide +kernel), by decide +kernel⟩,
    ⟨ready_of (by decide +kernel), ready_of (by decide +kernel), by decide +kernel⟩⟩

/-- O6, BankRegisterSuppliesShortAddresses: states and operands that meet the hypotheses of its clauses. -/
theorem test_bank :
    let s : State := calm 3; let y : YokeId := 0; let b : Byte := 0xFF; let src : Gpr := 15; let f : FoldId := 0
    s.Ready y (.bkld b) 1 ∧
    s.Ready y (.syswr 0x001 src) 1 ∧
    s.foldOf y = some f :=
  ⟨ready_of (by decide +kernel), ready_of (by decide +kernel), by decide +kernel⟩

/-- O7, ControlTransfersReachTheirTargets: states and operands that meet the hypotheses of its clauses. -/
theorem test_transfers :
    (let s : State := calm 0; let y : YokeId := 0; let t : BrTarget := (.rel 0x8000)
     s.Ready y (.branch (.br t)) 1) ∧
    (let s : State := calm 0; let y : YokeId := 0; let t : BrTarget := (.long 0)
     s.Ready y (.branch (.brl t)) 1) ∧
    (let s : State := calm 0; let y : YokeId := 0; let src : Gpr := 15
     s.Ready y (.branch (.jr src)) 1 ∧
     s.Ready y (.branch (.jrl src)) 1 ∧
     s.Ready y (.branch .ret) 1) ∧
    (let s : State := calm 0; let y : YokeId := 0; let t : BrTarget := (.rel 0x7FFF); let cond : BitVec 4 := 14
     s.Ready y (.branch (.bcc cond t)) 1 ∧
     cond = 14) ∧
    (let s : State := calm 0; let y : YokeId := 0; let t : BrTarget := (.rel 0x8000); let cond : BitVec 4 := 13
     s.Ready y (.branch (.bcc cond t)) 1 ∧
     cond.toNat < 14) ∧
    (let s : State := calm 0; let y : YokeId := 0; let disp : Half := 0x8000
     s.Ready y (.branch (.loop (.rel disp))) 1) :=
  ⟨ready_of (by decide +kernel),
    ready_of (by decide +kernel),
    ⟨ready_of (by decide +kernel), ready_of (by decide +kernel), ready_of (by decide +kernel)⟩,
    ⟨ready_of (by decide +kernel), by decide +kernel⟩,
    ⟨ready_of (by decide +kernel), by decide +kernel⟩,
    ready_of (by decide +kernel)⟩

/-- O8, BranchesResolve: states and operands that meet the hypotheses of its clauses. -/
theorem test_resolve :
    (let s : State := (branched true); let y : YokeId := 0; let b : BranchPend := ⟨5, true, coreIn 0, 3⟩
     (s.yoke y).branch = some b) ∧
    (let s : State := (branched false); let y : YokeId := 0; let b : BranchPend := ⟨5, false, coreIn 0, 3⟩
     (s.yoke y).branch = some b) :=
  by and_intros <;> decide +kernel

/-- O9, SystemRegistersRead: states and operands that meet the hypotheses of its clauses. -/
theorem test_sysrd :
    (let s : State := calm 3; let y : YokeId := 0; let d : Gpr := 15; let num : BitVec 12 := 0x040; let v : Word := 5
     let f : FoldId := 0; let k := s.yoke y; let c := k.lead; let i : CoreIns := .sysrd d num
     s.Ready y i 1 ∧
     s.foldOf y = some f ∧
     (num, v) ∈ ([(0x000, setBit c.st 7 c.shadow.isSome), (0x001, c.bk.zeroExtend 32), (0x002, c.ct), (0x020,
       c.task.tattr), (0x021, c.task.tjoin), (0x022, c.task.tparent), (0x023, c.task.tspn), (0x024, BitVec.ofNat 32
       c.task.tlist.length), (0x040, c.task.oepoch)] : List (BitVec 12 × Word))) ∧
    (let s : State := calm 3; let y : YokeId := 0; let d : Gpr := 15; let num : BitVec 12 := 0x000
     let v : Word := 100; let f : FoldId := 0; let k := s.yoke y; let c := k.lead; let i : CoreIns := .sysrd d num
     s.Ready y i 1 ∧
     s.foldOf y = some f ∧
     (num, v) ∈ ([(0x000, setBit c.st 7 c.shadow.isSome), (0x001, c.bk.zeroExtend 32), (0x002, c.ct), (0x020,
       c.task.tattr), (0x021, c.task.tjoin), (0x022, c.task.tparent), (0x023, c.task.tspn), (0x024, BitVec.ofNat 32
       c.task.tlist.length), (0x040, c.task.oepoch)] : List (BitVec 12 × Word))) ∧
    (let s : State := calm 0; let y : YokeId := 0; let d : Gpr := 15; let num : BitVec 12 := 0x007
     let v : Word := 0x80004000; let f : FoldId := 0; let k := s.yoke y; let c := k.lead
     let i : CoreIns := .sysrd d num; let ring := c.ring.toNat; let r : Fin 4 := 3
     s.Ready y i 1 ∧
     s.foldOf y = some f ∧
     ring = 0 ∧
     num.toNat = 4 + r.val ∧
     v = c.sp[r]) ∧
    (let s : State := calm 3; let y : YokeId := 0; let d : Gpr := 15; let num : BitVec 12 := 0x003; let v : Word := 0
     let f : FoldId := 0; let k := s.yoke y; let c := k.lead; let i : CoreIns := .sysrd d num
     let fo := k.sees (s.fold f); let ring := c.ring.toNat
     s.Ready y i 1 ∧
     s.foldOf y = some f ∧
     ((num, v) = ((0x003 : BitVec 12), k.fpu.fcsr) ∧ k.floatActive = false ∨ ring ≤ 1 ∧ (num, v) ∈ ([(0x014, fo.ien),
       (0x080, fo.fninc), (0x081, fo.fncnt)] : List (BitVec 12 × Word)) ∨ ring = 0 ∧ (num, v) ∈ ([(0x010, fo.dtb),
       (0x011, fo.escv), (0x012, fo.esp), (0x013, fo.sksz), (0x016, fo.eslot), (0x017, fo.entryf ++ fo.etotal),
       (0x030, fo.chsel)] : List (BitVec 12 × Word)) ∨ (num, v) = ((0x044 : BitVec 12), fo.nowHi))) ∧
    (let s : State := calm 1; let y : YokeId := 0; let d : Gpr := 15; let num : BitVec 12 := 0x081; let v : Word := 0
     let f : FoldId := 0; let k := s.yoke y; let c := k.lead; let i : CoreIns := .sysrd d num
     let fo := k.sees (s.fold f); let ring := c.ring.toNat
     s.Ready y i 1 ∧
     s.foldOf y = some f ∧
     ((num, v) = ((0x003 : BitVec 12), k.fpu.fcsr) ∧ k.floatActive = false ∨ ring ≤ 1 ∧ (num, v) ∈ ([(0x014, fo.ien),
       (0x080, fo.fninc), (0x081, fo.fncnt)] : List (BitVec 12 × Word)) ∨ ring = 0 ∧ (num, v) ∈ ([(0x010, fo.dtb),
       (0x011, fo.escv), (0x012, fo.esp), (0x013, fo.sksz), (0x016, fo.eslot), (0x017, fo.entryf ++ fo.etotal),
       (0x030, fo.chsel)] : List (BitVec 12 × Word)) ∨ (num, v) = ((0x044 : BitVec 12), fo.nowHi))) ∧
    (let s : State := calm 0; let y : YokeId := 0; let d : Gpr := 15; let num : BitVec 12 := 0x030; let v : Word := 0
     let f : FoldId := 0; let k := s.yoke y; let c := k.lead; let i : CoreIns := .sysrd d num
     let fo := k.sees (s.fold f); let ring := c.ring.toNat
     s.Ready y i 1 ∧
     s.foldOf y = some f ∧
     ((num, v) = ((0x003 : BitVec 12), k.fpu.fcsr) ∧ k.floatActive = false ∨ ring ≤ 1 ∧ (num, v) ∈ ([(0x014, fo.ien),
       (0x080, fo.fninc), (0x081, fo.fncnt)] : List (BitVec 12 × Word)) ∨ ring = 0 ∧ (num, v) ∈ ([(0x010, fo.dtb),
       (0x011, fo.escv), (0x012, fo.esp), (0x013, fo.sksz), (0x016, fo.eslot), (0x017, fo.entryf ++ fo.etotal),
       (0x030, fo.chsel)] : List (BitVec 12 × Word)) ∨ (num, v) = ((0x044 : BitVec 12), fo.nowHi))) ∧
    (let s : State := calm 3; let y : YokeId := 0; let d : Gpr := 15; let num : BitVec 12 := 0x044; let v : Word := 0
     let f : FoldId := 0; let k := s.yoke y; let c := k.lead; let i : CoreIns := .sysrd d num
     let fo := k.sees (s.fold f); let ring := c.ring.toNat
     s.Ready y i 1 ∧
     s.foldOf y = some f ∧
     ((num, v) = ((0x003 : BitVec 12), k.fpu.fcsr) ∧ k.floatActive = false ∨ ring ≤ 1 ∧ (num, v) ∈ ([(0x014, fo.ien),
       (0x080, fo.fninc), (0x081, fo.fncnt)] : List (BitVec 12 × Word)) ∨ ring = 0 ∧ (num, v) ∈ ([(0x010, fo.dtb),
       (0x011, fo.escv), (0x012, fo.esp), (0x013, fo.sksz), (0x016, fo.eslot), (0x017, fo.entryf ++ fo.etotal),
       (0x030, fo.chsel)] : List (BitVec 12 × Word)) ∨ (num, v) = ((0x044 : BitVec 12), fo.nowHi))) ∧
    (let s : State := calm 3; let y : YokeId := 0; let d : Gpr := 15; let num : BitVec 12 := 0x043
     let f : FoldId := 0; let i : CoreIns := .sysrd d num
     s.Ready y i 1 ∧
     s.foldOf y = some f ∧
     num = 0x043) ∧
    (let s : State := calm 3; let y : YokeId := 0; let d : Gpr := 15; let num : BitVec 12 := 0xFFF
     let f : FoldId := 0; let i : CoreIns := .sysrd d num
     s.Ready y i 1 ∧
     s.foldOf y = some f ∧
     (0x094 ≤ num.toNat ∨ (0x008 ≤ num.toNat ∧ num.toNat ≤ 0x00F) ∨ (0x018 ≤ num.toNat ∧ num.toNat ≤ 0x01F)) ∧
     s.takes y 0x01 = true) ∧
    (let s : State := calm 3; let y : YokeId := 0; let d : Gpr := 15; let num : BitVec 12 := 0x094
     let f : FoldId := 0; let i : CoreIns := .sysrd d num
     s.Ready y i 1 ∧
     s.foldOf y = some f ∧
     (0x094 ≤ num.toNat ∨ (0x008 ≤ num.toNat ∧ num.toNat ≤ 0x00F) ∨ (0x018 ≤ num.toNat ∧ num.toNat ≤ 0x01F)) ∧
     s.takes y 0x01 = true) ∧
    (let s : State := calm 3; let y : YokeId := 0; let d : Gpr := 15; let num : BitVec 12 := 0x00F
     let f : FoldId := 0; let i : CoreIns := .sysrd d num
     s.Ready y i 1 ∧
     s.foldOf y = some f ∧
     (0x094 ≤ num.toNat ∨ (0x008 ≤ num.toNat ∧ num.toNat ≤ 0x00F) ∨ (0x018 ≤ num.toNat ∧ num.toNat ≤ 0x01F)) ∧
     s.takes y 0x01 = true) ∧
    (let s : State := calm 3; let y : YokeId := 0; let d : Gpr := 15; let num : BitVec 12 := 0x018
     let f : FoldId := 0; let i : CoreIns := .sysrd d num
     s.Ready y i 1 ∧
     s.foldOf y = some f ∧
     (0x094 ≤ num.toNat ∨ (0x008 ≤ num.toNat ∧ num.toNat ≤ 0x00F) ∨ (0x018 ≤ num.toNat ∧ num.toNat ≤ 0x01F)) ∧
     s.takes y 0x01 = true) ∧
    (let s : State := calm 1; let y : YokeId := 0; let d : Gpr := 15; let num : BitVec 12 := 0x004
     let f : FoldId := 0; let k := s.yoke y; let c := k.lead; let i : CoreIns := .sysrd d num
     let ring := c.ring.toNat
     s.Ready y i 1 ∧
     s.foldOf y = some f ∧
     0 < ring ∧
     (0x004 ≤ num.toNat ∧ num.toNat ≤ 0x007 ∨ 0x010 ≤ num.toNat ∧ num.toNat ≤ 0x013) ∧
     s.takes y 0x05 = true) ∧
    (let s : State := calm 1; let y : YokeId := 0; let d : Gpr := 15; let num : BitVec 12 := 0x013
     let f : FoldId := 0; let k := s.yoke y; let c := k.lead; let i : CoreIns := .sysrd d num
     let ring := c.ring.toNat
     s.Ready y i 1 ∧
     s.foldOf y = some f ∧
     0 < ring ∧
     (0x004 ≤ num.toNat ∧ num.toNat ≤ 0x007 ∨ 0x010 ≤ num.toNat ∧ num.toNat ≤ 0x013) ∧
     s.takes y 0x05 = true) :=
  ⟨⟨ready_of (by decide +kernel), by decide +kernel⟩,
    ⟨ready_of (by decide +kernel), by decide +kernel⟩,
    ⟨ready_of (by decide +kernel), by decide +kernel⟩,
    ⟨ready_of (by decide +kernel), by decide +kernel⟩,
    ⟨ready_of (by decide +kernel), by decide +kernel⟩,
    ⟨ready_of (by decide +kernel), by decide +kernel⟩,
    ⟨ready_of (by decide +kernel), by decide +kernel⟩,
    ⟨ready_of (by decide +kernel), by decide +kernel⟩,
    ⟨ready_of (by decide +kernel), by decide +kernel⟩,
    ⟨ready_of (by decide +kernel), by decide +kernel⟩,
    ⟨ready_of (by decide +kernel), by decide +kernel⟩,
    ⟨ready_of (by decide +kernel), by decide +kernel⟩,
    ⟨ready_of (by decide +kernel), by decide +kernel⟩,
    ⟨ready_of (by decide +kernel), by decide +kernel⟩⟩

/-- O10, SystemRegistersWrite: states and operands that meet the hypotheses of its clauses. -/
theorem test_syswr :
    (let s : State := calm 3; let y : YokeId := 0; let src : Gpr := 15; let f : FoldId := 0
     let i (n : BitVec 12) : CoreIns := .syswr n src
     s.Ready y (i 0x002) 1 ∧
     s.foldOf y = some f) ∧
    (let s : State := calm 0; let y : YokeId := 0; let num : BitVec 12 := 0x007; let src : Gpr := 15
     let f : FoldId := 0; let r : Fin 4 := 3; let k := s.yoke y; let c := k.lead; let ring := c.ring.toNat
     let i (n : BitVec 12) : CoreIns := .syswr n src
     s.Ready y (i num) 1 ∧
     s.foldOf y = some f ∧
     ring = 0 ∧
     num.toNat = 4 + r.val) ∧
    (let s : State := calm 0; let y : YokeId := 0; let num : BitVec 12 := 0x074; let src : Gpr := 15
     let f : FoldId := 0; let k := s.yoke y; let c := k.lead; let ring := c.ring.toNat
     let i (n : BitVec 12) : CoreIns := .syswr n src; let j : Fin 5 := 4
     s.Ready y (i num) 1 ∧
     s.foldOf y = some f ∧
     ring = 0 ∧
     num.toNat = 0x70 + j.val) ∧
    (let s : State := calm 1; let y : YokeId := 0; let src : Gpr := 7; let f : FoldId := 0; let k := s.yoke y
     let c := k.lead; let ring := c.ring.toNat; let i (n : BitVec 12) : CoreIns := .syswr n src
     s.Ready y (i 0x000) 1 ∧
     s.foldOf y = some f ∧
     ring ≤ 1) ∧
    (let s : State := calm 2; let y : YokeId := 0; let src : Gpr := 1; let f : FoldId := 0; let k := s.yoke y
     let c := k.lead; let v := c.rd src; let ring := c.ring.toNat; let i (n : BitVec 12) : CoreIns := .syswr n src
     s.Ready y (i 0x000) 1 ∧
     s.foldOf y = some f ∧
     2 ≤ ring ∧
     bit v 4 = bit c.st 4) ∧
    (let s : State := calm 2; let y : YokeId := 0; let src : Gpr := 7; let f : FoldId := 0; let k := s.yoke y
     let c := k.lead; let v := c.rd src; let ring := c.ring.toNat; let i (n : BitVec 12) : CoreIns := .syswr n src
     s.Ready y (i 0x000) 1 ∧
     s.foldOf y = some f ∧
     2 ≤ ring ∧
     bit v 4 ≠ bit c.st 4 ∧
     s.takes y 0x05 = true) ∧
    (let s : State := calm 3; let y : YokeId := 0; let src : Gpr := 7; let f : FoldId := 0; let k := s.yoke y
     let i (n : BitVec 12) : CoreIns := .syswr n src
     s.Ready y (i 0x003) 1 ∧
     s.foldOf y = some f ∧
     k.floatActive = false) ∧
    (let s : State := floating; let y : YokeId := 0; let src : Gpr := 7; let f : FoldId := 0; let k := s.yoke y
     let i (n : BitVec 12) : CoreIns := .syswr n src
     s.Ready y (i 0x003) 1 ∧
     s.foldOf y = some f ∧
     k.floatActive = true) ∧
    (let s : State := calm 2; let y : YokeId := 0; let src : Gpr := 5; let f : FoldId := 0; let k := s.yoke y
     let c := k.lead; let v := c.rd src; let ring := c.ring.toNat; let i (n : BitVec 12) : CoreIns := .syswr n src
     let e : Word := BitVec.ofNat 32 (s.fold f).epoch.toNat; let top : Word := e + BitVec.ofNat 32 (s.frameK f - 1)
     let inRange : Prop := (v - c.task.oepoch).toNat < 2 ^ 31 ∧ (top - v).toNat < 2 ^ 31
     s.Ready y (i 0x040) 1 ∧
     s.foldOf y = some f ∧
     ring ≤ 2 ∧
     inRange) ∧
    (let s : State := calm 2; let y : YokeId := 0; let src : Gpr := 4; let f : FoldId := 0; let k := s.yoke y
     let c := k.lead; let v := c.rd src; let ring := c.ring.toNat; let i (n : BitVec 12) : CoreIns := .syswr n src
     let e : Word := BitVec.ofNat 32 (s.fold f).epoch.toNat; let top : Word := e + BitVec.ofNat 32 (s.frameK f - 1)
     let inRange : Prop := (v - c.task.oepoch).toNat < 2 ^ 31 ∧ (top - v).toNat < 2 ^ 31
     s.Ready y (i 0x040) 1 ∧
     s.foldOf y = some f ∧
     ring ≤ 2 ∧
     ¬inRange ∧
     s.takes y 0x0C = true) :=
  ⟨⟨ready_of (by decide +kernel), by decide +kernel⟩,
    ⟨ready_of (by decide +kernel), by decide +kernel⟩,
    ⟨ready_of (by decide +kernel), by decide +kernel⟩,
    ⟨ready_of (by decide +kernel), by decide +kernel⟩,
    ⟨ready_of (by decide +kernel), by decide +kernel⟩,
    ⟨ready_of (by decide +kernel), by decide +kernel⟩,
    ⟨ready_of (by decide +kernel), by decide +kernel⟩,
    ⟨ready_of (by decide +kernel), by decide +kernel⟩,
    ⟨ready_of (by decide +kernel), by decide +kernel⟩,
    ⟨ready_of (by decide +kernel), by decide +kernel⟩⟩

/-- O10, SystemRegistersWrite: states and operands that meet the hypotheses of its clauses. -/
theorem test_syswrFold :
    (let s : State := calm 0; let y : YokeId := 0; let f : FoldId := 0; let k := s.yoke y; let c := k.lead
     let fo := s.fold f
     s.Calm y ∧
     s.foldOf y = some f ∧
     c.ring = 0 ∧
     fo.eslot = 0) ∧
    (let s : State := (withFold (calm 0) fun f => { f with eslot := 1})
     let y : YokeId := 0; let f : FoldId := 0; let k := s.yoke y; let c := k.lead; let fo := s.fold f
     s.Calm y ∧
     s.foldOf y = some f ∧
     c.ring = 0 ∧
     fo.eslot ≠ 0) ∧
    (let s : State := sizes; let y : YokeId := 0; let src : Gpr := 1; let f : FoldId := 0; let k := s.yoke y
     let c := k.lead; let v := c.rd src
     let kOk : Prop := ∀ j < 4, 8 ≤ v.toNat / 2 ^ (8 * j) % 32 ∧ v.toNat / 2 ^ (8 * j) % 32 ≤ 20
     s.Calm y ∧
     s.foldOf y = some f ∧
     c.ring = 0 ∧
     kOk) ∧
    (let s : State := calm 0; let y : YokeId := 0; let src : Gpr := 1; let f : FoldId := 0; let k := s.yoke y
     let c := k.lead; let v := c.rd src; let fo := s.fold f; let n := fieldNat fo.chsel 5 0; let ch := fo.chan n
     let kOk : Prop := ∀ j < 4, 8 ≤ v.toNat / 2 ^ (8 * j) % 32 ∧ v.toNat / 2 ^ (8 * j) % 32 ≤ 20
     s.Calm y ∧
     s.foldOf y = some f ∧
     c.ring = 0 ∧
     ¬kOk ∧
     ch.isOpen = false) ∧
    (let s : State := opened; let y : YokeId := 0; let f : FoldId := 0; let k := s.yoke y; let c := k.lead
     let fo := s.fold f; let n := fieldNat fo.chsel 5 0; let ch := fo.chan n
     s.Calm y ∧
     s.foldOf y = some f ∧
     c.ring = 0 ∧
     ch.isOpen = true) ∧
    (let s : State := opened; let y : YokeId := 0; let src : Gpr := 2; let f : FoldId := 0; let k := s.yoke y
     let c := k.lead; let v := c.rd src; let fo := s.fold f; let n := fieldNat fo.chsel 5 0; let ch := fo.chan n
     s.Calm y ∧
     s.foldOf y = some f ∧
     c.ring = 0 ∧
     2 ≤ v.toNat % 16 ∧
     v.toNat % 16 ≤ 12 ∧
     bit v 31 = false ∧
     ch.pput = none ∧
     ch.pget = none ∧
     (ch.isOpen = true → ch.dpow.toNat = v.toNat % 16)) ∧
    (let s : State := opened; let y : YokeId := 0; let src : Gpr := 3; let f : FoldId := 0; let k := s.yoke y
     let c := k.lead; let v := c.rd src; let fo := s.fold f; let n := fieldNat fo.chsel 5 0; let ch := fo.chan n
     s.Calm y ∧
     s.foldOf y = some f ∧
     c.ring = 0 ∧
     2 ≤ v.toNat % 16 ∧
     v.toNat % 16 ≤ 12 ∧
     bit v 31 = true ∧
     (ch.isOpen = true → ch.dpow.toNat = v.toNat % 16) ∧
     s.chanBufferOk f y ch.base (v.toNat % 16) = true ∧
     ch.pput = none) ∧
    (let s : State := (withFold opened fun f => { f with chans := [(5, { Channel.reset with isOpen := true, dpow := 2, base := 0x80000100, pput := some ⟨0, 3⟩ })] })
     let y : YokeId := 0; let src : Gpr := 3; let f : FoldId := 0; let k := s.yoke y; let c := k.lead
     let v := c.rd src; let fo := s.fold f; let n := fieldNat fo.chsel 5 0; let ch := fo.chan n; let r := ⟨0, 3⟩
     s.Calm y ∧
     s.foldOf y = some f ∧
     c.ring = 0 ∧
     2 ≤ v.toNat % 16 ∧
     v.toNat % 16 ≤ 12 ∧
     bit v 31 = true ∧
     (ch.isOpen = true → ch.dpow.toNat = v.toNat % 16) ∧
     s.chanBufferOk f y ch.base (v.toNat % 16) = true ∧
     ch.pput = some r) ∧
    (let s : State := sizes; let y : YokeId := 0; let src : Gpr := 3; let f : FoldId := 0; let k := s.yoke y
     let c := k.lead; let v := c.rd src; let fo := s.fold f; let n := fieldNat fo.chsel 5 0; let ch := fo.chan n
     s.Calm y ∧
     s.foldOf y = some f ∧
     c.ring = 0 ∧
     2 ≤ v.toNat % 16 ∧
     v.toNat % 16 ≤ 12 ∧
     bit v 31 = true ∧
     ch.isOpen = false ∧
     s.chanBufferOk f y ch.base (v.toNat % 16) = false) :=
  ⟨⟨calm_of (by decide +kernel) rfl, by decide +kernel⟩,
    ⟨calm_of (by decide +kernel) rfl, by decide +kernel⟩,
    ⟨calm_of (by decide +kernel) rfl, by decide +kernel⟩,
    ⟨calm_of (by decide +kernel) rfl, by decide +kernel⟩,
    ⟨calm_of (by decide +kernel) rfl, by decide +kernel⟩,
    ⟨calm_of (by decide +kernel) rfl, by decide +kernel⟩,
    ⟨calm_of (by decide +kernel) rfl, by decide +kernel⟩,
    ⟨calm_of (by decide +kernel) rfl, by decide +kernel⟩,
    ⟨calm_of (by decide +kernel) rfl, by decide +kernel⟩⟩

/-- O11, SynchronousVectorsTrapsAndGatesEnter: states and operands that meet the hypotheses of its clauses. -/
theorem test_entries :
    (let s : State := (handlerAt 2 0x0A 0x111); let y : YokeId := 0; let f : FoldId := 0; let cmd : Instr := (.brk 0)
     let vec : Byte := 0x0A; let bytes : List Byte := []; let handler : Word := 0x80000300; let attr : Word := 0x111
     let phys : List Nat := [0x0200001F80, 0x0200001F90, 0x0200001FA0, 0x0200001FB0]
     let k := s.yoke y; let c := k.lead; let tr : BitVec 2 := BitVec.ofNat 2 (attr.toNat / 16)
     let e : EntryInfo := {
      vec := vec, sec := 0, inEntry := false, masked := false, next := false, skip := 0, handler := handler, tr := tr,
      em := bit attr 8, ss := bit attr 9, k := (s.fold f).stackK tr, info := 0, syn := 0, oinfo := 0, osyn := 0, esc := none,
      event := false, floor := tr, bare := c.shadow.isNone }
     let s0 := s.setYoke y (s.going y)
     (cmd = .brk y ∧ vec = 0x0A ∧ s.Ready y .ckpt 1 ∨ cmd = .illegalOpcode y bytes ∧ vec = 0x00 ∧ dreselDecode bytes =
       .illegal ∧ s.Ready y .nop 1 ∨ cmd = .reservedOpcode y bytes ∧ vec = 0x01 ∧ dreselDecode bytes = .reserved ∧
       s.Ready y .nop 1) ∧
     s.foldOf y = some f ∧
     s.takes y vec = true ∧
     c.esc = false ∧
     c.m = false ∧
     s0.readDescriptor f y vec = (s0, .inl (handler, attr)) ∧
     attr.toNat % 4 = 1 ∧
     attr &&& 0xFFF0FCCC = 0 ∧
     tr.toNat ≤ c.ring.toNat ∧
     stackCheck c tr e.ss e.k = none ∧
     s.frameAddrs f y tr (c.frameAddr e) = some phys ∧
     s0.fetchFails f y tr handler = (s0, none)) ∧
    (let s : State := (masked (handlerAt 2 0 0x111)); let y : YokeId := 0; let f : FoldId := 0
     let cmd : Instr := (.illegalOpcode 0 [0x00, 0xFF, 0, 0, 0, 0, 0, 0, 0, 0, 0, 0])
     let vec : Byte := 0
     let bytes : List Byte := [0x00, 0xFF, 0, 0, 0, 0, 0, 0, 0, 0, 0, 0]
     let k := s.yoke y; let c := k.lead
     (cmd = .brk y ∧ vec = 0x0A ∧ s.Ready y .ckpt 1 ∨ cmd = .illegalOpcode y bytes ∧ vec = 0x00 ∧ dreselDecode bytes =
       .illegal ∧ s.Ready y .nop 1 ∨ cmd = .reservedOpcode y bytes ∧ vec = 0x01 ∧ dreselDecode bytes = .reserved ∧
       s.Ready y .nop 1) ∧
     s.foldOf y = some f ∧
     s.takes y vec = true ∧
     c.esc = false ∧
     c.m = true) ∧
    (let s : State := (handlerAt 3 1 0x102); let y : YokeId := 0; let f : FoldId := 0
     let cmd : Instr := (.reservedOpcode 0 [0xF7, 0, 0, 0, 0, 0, 0, 0, 0, 0, 0, 0])
     let vec : Byte := 1
     let bytes : List Byte := [0xF7, 0, 0, 0, 0, 0, 0, 0, 0, 0, 0, 0]
     let handler : Word := 0x80000300; let attr : Word := 0x102; let k := s.yoke y; let c := k.lead
     let s0 := s.setYoke y (s.going y)
     (cmd = .brk y ∧ vec = 0x0A ∧ s.Ready y .ckpt 1 ∨ cmd = .illegalOpcode y bytes ∧ vec = 0x00 ∧ dreselDecode bytes =
       .illegal ∧ s.Ready y .nop 1 ∨ cmd = .reservedOpcode y bytes ∧ vec = 0x01 ∧ dreselDecode bytes = .reserved ∧
       s.Ready y .nop 1) ∧
     s.foldOf y = some f ∧
     s.takes y vec = true ∧
     c.esc = false ∧
     c.m = false ∧
     s0.readDescriptor f y vec = (s0, .inl (handler, attr)) ∧
     (attr.toNat % 4 ≠ 1 ∨ attr &&& 0xFFF0FCCC ≠ 0)) ∧
    (let s : State := ((handlerAt 2 0x0A 0x111).setYoke 1 { Yoke.reset with whb := [{ entry 2 (.accepted 1) with phys := 0x02000100A0 }] })
     let y : YokeId := 0; let cmd : Instr := (.brk 0); let vec : Byte := 0x0A; let bytes : List Byte := []
     (cmd = .brk y ∧ vec = 0x0A ∧ s.Ready y .ckpt 1 ∨ cmd = .illegalOpcode y bytes ∧ vec = 0x00 ∧ dreselDecode bytes =
       .illegal ∧ s.Ready y .nop 1 ∨ cmd = .reservedOpcode y bytes ∧ vec = 0x01 ∧ dreselDecode bytes = .reserved ∧
       s.Ready y .nop 1) ∧
     s.takes y vec = false) :=
  ⟨⟨Or.inl ⟨rfl, rfl, ready_of (by decide +kernel)⟩, by decide +kernel⟩,
    ⟨Or.inr (Or.inl ⟨rfl, rfl, by decide +kernel, ready_of (by decide +kernel)⟩), by decide +kernel⟩,
    ⟨Or.inr (Or.inr ⟨rfl, rfl, by decide +kernel, ready_of (by decide +kernel)⟩), by decide +kernel⟩,
    ⟨Or.inl ⟨rfl, rfl, ready_of (by decide +kernel)⟩, by decide +kernel⟩⟩

/-- O11, SynchronousVectorsTrapsAndGatesEnter: states and operands that meet the hypotheses of its clauses. -/
theorem test_gates :
    (let s : State := calm 0; let y : YokeId := 0; let f : FoldId := 0; let n : Byte := 0x1F
     s.Ready y .ckpt 1 ∧
     s.foldOf y = some f ∧
     n.toNat < 0x20 ∧
     s.takes y 0x00 = true) ∧
    (let s : State := (handlerAt 0 0x20 1); let y : YokeId := 0; let f : FoldId := 0; let isGate : Bool := true
     let n : Byte := 0x20; let handler : Word := 0x80000300; let attr : Word := 1; let k := s.yoke y; let c := k.lead
     let kind := if isGate then 3 else 1
     let s0 := s.setYoke y (s.going y)
     s.Ready y .ckpt 1 ∧
     s.foldOf y = some f ∧
     0x20 ≤ n.toNat ∧
     k.trapReady = true ∧
     s.descHeld y n = false ∧
     s.entryHeld y 0x06 = false ∧
     c.esc = false ∧
     s0.readDescriptor f y n = (s0, .inl (handler, attr)) ∧
     (attr.toNat % 4 ≠ kind ∨ attr &&& 0xFFF0FCCC ≠ 0)) ∧
    (let s : State := (handlerAt 3 0xFF 3); let y : YokeId := 0; let f : FoldId := 0; let isGate : Bool := true
     let n : Byte := 0xFF; let handler : Word := 0x80000300; let attr : Word := 3; let k := s.yoke y; let c := k.lead
     let kind := if isGate then 3 else 1
     let s0 := s.setYoke y (s.going y)
     s.Ready y .ckpt 1 ∧
     s.foldOf y = some f ∧
     0x20 ≤ n.toNat ∧
     k.trapReady = true ∧
     s.descHeld y n = false ∧
     s.entryHeld y 0x06 = false ∧
     c.esc = false ∧
     s0.readDescriptor f y n = (s0, .inl (handler, attr)) ∧
     attr.toNat % 4 = kind ∧
     attr &&& 0xFFF0FCCC = 0 ∧
     bit attr (16 + c.ring.toNat) = false) ∧
    (let s : State := (handlerAt 0 0x20 0x10023); let y : YokeId := 0; let f : FoldId := 0; let isGate : Bool := true
     let n : Byte := 0x20; let handler : Word := 0x80000300; let attr : Word := 0x10023; let k := s.yoke y
     let c := k.lead
     let kind := if isGate then 3 else 1
     let tr : BitVec 2 := BitVec.ofNat 2 (attr.toNat / 16); let s0 := s.setYoke y (s.going y)
     s.Ready y .ckpt 1 ∧
     s.foldOf y = some f ∧
     0x20 ≤ n.toNat ∧
     k.trapReady = true ∧
     s.descHeld y n = false ∧
     s.entryHeld y 0x06 = false ∧
     c.esc = false ∧
     s0.readDescriptor f y n = (s0, .inl (handler, attr)) ∧
     attr.toNat % 4 = kind ∧
     attr &&& 0xFFF0FCCC = 0 ∧
     bit attr (16 + c.ring.toNat) = true ∧
     c.ring.toNat < tr.toNat) ∧
    (let s : State := (handlerAt 3 0x20 0x80001); let y : YokeId := 0; let f : FoldId := 0; let isGate : Bool := false
     let n : Byte := 0x20; let handler : Word := 0x80000300; let attr : Word := 0x80001
     let phys : List Nat := [0x0200000F80, 0x0200000F90, 0x0200000FA0, 0x0200000FB0]
     let k := s.yoke y; let c := k.lead
     let kind := if isGate then 3 else 1
     let tr : BitVec 2 := BitVec.ofNat 2 (attr.toNat / 16)
     let e : EntryInfo := {
      vec := n, sec := 0, inEntry := false, masked := false, next := true, skip := 2, handler := handler, tr := tr,
      em := bit attr 8, ss := bit attr 9, k := (s.fold f).stackK tr, info := 0, syn := 0, oinfo := 0, osyn := 0, esc := none,
      event := false, floor := tr, bare := c.shadow.isNone }
     let s0 := s.setYoke y (s.going y)
     s.Ready y .ckpt 1 ∧
     s.foldOf y = some f ∧
     0x20 ≤ n.toNat ∧
     k.trapReady = true ∧
     s.descHeld y n = false ∧
     s.entryHeld y 0x06 = false ∧
     c.esc = false ∧
     s0.readDescriptor f y n = (s0, .inl (handler, attr)) ∧
     attr.toNat % 4 = kind ∧
     attr &&& 0xFFF0FCCC = 0 ∧
     bit attr (16 + c.ring.toNat) = true ∧
     tr.toNat ≤ c.ring.toNat ∧
     stackCheck c tr e.ss e.k = none ∧
     s.frameAddrs f y tr (c.frameAddr e) = some phys ∧
     s0.fetchFails f y tr handler = (s0, none)) ∧
    (let s : State := ((handlerAt 0 0x20 1).setYoke 1 { Yoke.reset with whb := [{ entry 2 (.accepted 1) with phys := 0x0200010200 }] })
     let y : YokeId := 0; let f : FoldId := 0; let n : Byte := 0x20; let k := s.yoke y
     s.Ready y .ckpt 1 ∧
     s.foldOf y = some f ∧
     0x20 ≤ n.toNat ∧
     (k.trapReady = false ∨ s.descHeld y n = true)) :=
  ⟨⟨ready_of (by decide +kernel), by decide +kernel⟩,
    ⟨ready_of (by decide +kernel), by decide +kernel⟩,
    ⟨ready_of (by decide +kernel), by decide +kernel⟩,
    ⟨ready_of (by decide +kernel), by decide +kernel⟩,
    ⟨ready_of (by decide +kernel), by decide +kernel⟩,
    ⟨ready_of (by decide +kernel), by decide +kernel⟩⟩

/-- O12, EscalationTakesTheLowestFreeSlot: states and operands that meet the hypotheses of its clauses. -/
theorem test_escalation :
    (let s : State := (withFold (handlerAt 3 0 0) fun f => { f with eslot := 1 })
     let y : YokeId := 0; let f : FoldId := 0
     let phys : List Nat := [0x0200020380, 0x0200020390, 0x02000203A0, 0x02000203B0]
     let slot : Nat := 1; let k := s.yoke y; let c := k.lead; let fo := k.sees (s.fold f)
     let used (j : Nat) : Prop := bit fo.eslot j = true ∨ s.slotHeld y j = true
     let a : Word := (fo.esp &&& 0xFFFFFE00) + BitVec.ofNat 32 (512 * slot + 384)
     k.debug = .off ∧
     k.loads = [] ∧
     k.branch = none ∧
     k.floatHolds = false ∧
     s.foldOf y = some f ∧
     c.esc = false ∧
     slot ≤ fo.esp.toNat % 32 ∧
     ¬used slot ∧
     (∀ j < slot, used j) ∧
     s.frameAddrs f y 0 a = some phys ∧
     s.fetchFails f y 0 fo.escv = (s, none)) ∧
    (let s : State := (withFold (handlerAt 3 0 0) fun f => { f with eslot := 3 })
     let y : YokeId := 0; let f : FoldId := 0; let k := s.yoke y; let c := k.lead; let fo := k.sees (s.fold f)
     let used (j : Nat) : Prop := bit fo.eslot j = true ∨ s.slotHeld y j = true
     k.debug = .off ∧
     k.loads = [] ∧
     k.branch = none ∧
     k.floatHolds = false ∧
     s.foldOf y = some f ∧
     (c.esc = true ∨ ∀ j ≤ fo.esp.toNat % 32, used j)) :=
  by and_intros <;> decide +kernel

/-- O13, IretRestoresTheFrame: states and operands that meet the hypotheses of its clauses. -/
theorem test_iret :
    (let s : State := (withCore (calm 0) fun c => { c with sp := c.sp.set 0 0x80001004 })
     let y : YokeId := 0; let f : FoldId := 0; let k := s.yoke y; let c := k.lead; let a := c.spOf c.ring
     let s0 := s.setYoke y (s.going y)
     s.Ready y .iret 4 ∧
     s.foldOf y = some f ∧
     k.trapReady = true ∧
     s0.frameHeld y f = false ∧
     a.toNat % 16 ≠ 0 ∧
     s.takes y 0x02 = true) ∧
    (let s : State := (withCore (calm 3) fun c => { c with sp := c.sp.set 3 0x70000000 })
     let y : YokeId := 0; let f : FoldId := 0
     let s1 : State := (readState (frameOfTask (withCore (calm 3) fun c => { c with sp := c.sp.set 3 0x70000000 })))
     let k := s.yoke y; let c := k.lead; let a := c.spOf c.ring; let s0 := s.setYoke y (s.going y); let v := 0x04
     let i := 0x70000000; let sy := 0x24
     s.Ready y .iret 4 ∧
     s0.readFrame y f 3 0 [] = .fails s1 v i sy ∧
     s.foldOf y = some f ∧
     k.trapReady = true ∧
     s0.frameHeld y f = false ∧
     a.toNat % 16 = 0) ∧
    (let s : State := (framed 2 0x20); let y : YokeId := 0; let f : FoldId := 0
     let qs : List (QWord × LoadStatus) := (readWords (frameOfTask (framed 2 0x20)))
     let s1 : State := (readState (frameOfTask (framed 2 0x20))); let k := s.yoke y; let fr := frameOf (qs.map (·.1))
     let c := k.lead; let a := c.spOf c.ring; let st' := fr[1]; let ls := fr[7]
     let lsBad : Prop := bit st' 7 = true ∧ lsInfoValid ls = false
     let s0 := s.setYoke y (s.going y)
     s.Ready y .iret 4 ∧
     s0.readFrame y f 3 0 [] = .ok s1 qs ∧
     s.foldOf y = some f ∧
     k.trapReady = true ∧
     s0.frameHeld y f = false ∧
     a.toNat % 16 = 0 ∧
     (lsBad ∨ st'.toNat / 32 % 4 < c.ring.toNat ∨ 2 ≤ c.ring.toNat ∧ bit st' 4 = true ∧ c.m = false) ∧
     s.entryHeld y 0x05 = false) ∧
    (let s : State := (framed 3 0xEF); let y : YokeId := 0; let f : FoldId := 0
     let qs : List (QWord × LoadStatus) := (readWords (frameOfTask (framed 3 0xEF)))
     let s1 : State := (readState (frameOfTask (framed 3 0xEF))); let k := s.yoke y; let fr := frameOf (qs.map (·.1))
     let c := k.lead; let a := c.spOf c.ring; let st' := fr[1]; let ls := fr[7]
     let lsBad : Prop := bit st' 7 = true ∧ lsInfoValid ls = false
     let s0 := s.setYoke y (s.going y)
     s.Ready y .iret 4 ∧
     s0.readFrame y f 3 0 [] = .ok s1 qs ∧
     s.foldOf y = some f ∧
     k.trapReady = true ∧
     s0.frameHeld y f = false ∧
     a.toNat % 16 = 0 ∧
     ¬lsBad ∧
     c.ring.toNat ≤ st'.toNat / 32 % 4 ∧
     (c.ring.toNat ≤ 1 ∨ bit st' 4 = false ∨ c.m = true) ∧
     c.task.abort ≠ .frame a) ∧
    (let s : State := (withCore (framed 3 0xEF) fun c => { c with task := { c.task with abort := .frame 0x80004000 } })
     let y : YokeId := 0; let f : FoldId := 0
     let qs : List (QWord × LoadStatus) := (readWords (frameOfTask (withCore (framed 3 0xEF) fun c => { c with task := { c.task with abort := .frame 0x80004000 } })))
     let s1 : State := (readState (frameOfTask (withCore (framed 3 0xEF) fun c => { c with task := { c.task with abort := .frame 0x80004000 } })))
     let k := s.yoke y; let fr := frameOf (qs.map (·.1)); let c := k.lead; let a := c.spOf c.ring; let st' := fr[1]
     let ls := fr[7]
     let lsBad : Prop := bit st' 7 = true ∧ lsInfoValid ls = false
     let s0 := s.setYoke y (s.going y)
     s.Ready y .iret 4 ∧
     s0.readFrame y f 3 0 [] = .ok s1 qs ∧
     s.foldOf y = some f ∧
     k.trapReady = true ∧
     s0.frameHeld y f = false ∧
     a.toNat % 16 = 0 ∧
     ¬lsBad ∧
     c.ring.toNat ≤ st'.toNat / 32 % 4 ∧
     (c.ring.toNat ≤ 1 ∨ bit st' 4 = false ∨ c.m = true) ∧
     c.task.abort = .frame a) :=
  ⟨⟨ready_of (by decide +kernel), by decide +kernel⟩,
    ⟨ready_of (by decide +kernel), fails_of (by decide +kernel), by decide +kernel⟩,
    ⟨ready_of (by decide +kernel), ok_of (by decide +kernel), by decide +kernel⟩,
    ⟨ready_of (by decide +kernel), ok_of (by decide +kernel), by decide +kernel⟩,
    ⟨ready_of (by decide +kernel), ok_of (by decide +kernel), by decide +kernel⟩⟩

/-- O14, EventsAreAcceptedLowestFirst: states and operands that meet the hypotheses of its clauses. -/
theorem test_events :
    (let s : State := (masked offered); let y : YokeId := 0; let f : FoldId := 0; let k := s.yoke y
     s.foldOf y = some f ∧
     (k.lead.m = true ∨ k.lead.esc = true)) ∧
    (let s : State := offered; let y : YokeId := 0; let f : FoldId := 0; let ev : PendEvent := ⟨0x10, 7, 8, none⟩
     let handler : Word := 0x80000300; let attr : Word := 0x112
     let phys : List Nat := [0x0200001F80, 0x0200001F90, 0x0200001FA0, 0x0200001FB0]
     let k := s.yoke y; let c := k.lead; let tr : BitVec 2 := BitVec.ofNat 2 (attr.toNat / 16)
     let e : EntryInfo := {
      vec := ev.vec, sec := 0, inEntry := false, masked := false, next := false, skip := 0, handler := handler, tr := tr,
      em := bit attr 8, ss := bit attr 9, k := (s.fold f).stackK tr, info := ev.info, syn := ev.syn, oinfo := 0, osyn := 0,
      esc := none, event := true, floor := tr, bare := c.shadow.isNone }
     let s2 := (s.setFold f { s.fold f with
      events := (s.fold f).events.map fun o => if o.vec = ev.vec then { o with reserved := some y } else o }).setYoke y
      { k with wait := .none }
     s.foldOf y = some f ∧
     k.mayAccept = true ∧
     k.run = .task ∧
     k.debug = .off ∧
     (s.span (spanOf y)).power = .run ∧
     ev ∈ (s.fold f).events ∧
     ev.reserved = none ∧
     s.entryHeld y ev.vec = false ∧
     (∀ o ∈ (s.fold f).events, o ≠ ev → o.reserved = none → ev.vec.toNat < o.vec.toNat) ∧
     (s.readDescriptor f y ev.vec).2 = .inl (handler, attr) ∧
     s2.readDescriptor f y ev.vec = (s2, .inl (handler, attr)) ∧
     attr.toNat % 4 = 2 ∧
     attr &&& 0xFFF0FCCC = 0 ∧
     tr.toNat ≤ c.ring.toNat ∧
     stackCheck c tr e.ss e.k = none ∧
     s.frameAddrs f y tr (c.frameAddr e) = some phys ∧
     s2.fetchFails f y tr handler = (s2, none)) :=
  by and_intros <;> decide +kernel

/-- O15, LoadsLeaveAndTheirDataEntersRegisters: states and operands that meet the hypotheses of its clauses. -/
theorem test_loads :
    (let s : State := calm 3; let y : YokeId := 0; let f : FoldId := 0; let d : Gpr := 15
     let m : MemAddr := (.base 3 0); let op : LoadOp := .d; let cmd : Instr := (.ldd 0 15 (.base 3 0))
     let n : Nat := 8; let words := max 1 (n / 4)
     s.Ready y .nop 1 ∧
     (cmd, op, n) ∈ ([(.ldb y d m, .b, 1), (.ldbu y d m, .bu, 1), (.ldh y d m, .h, 2), (.ldhu y d m, .hu, 2), (.ldw y
       d m, .w, 4), (.ldd y d m, .d, 8), (.ldq y d m, .q, 16)] : List (Instr × LoadOp × Nat)) ∧
     s.foldOf y = some f ∧
     d.val % words ≠ 0 ∧
     s.takes y 0x00 = true) ∧
    (let s : State := calm 3; let y : YokeId := 0; let f : FoldId := 0; let d : Gpr := 15
     let m : MemAddr := (.base 3 1); let op : LoadOp := .h; let cmd : Instr := (.ldh 0 15 (.base 3 1))
     let n : Nat := 2; let k := s.yoke y; let c := k.lead; let a := c.ea m; let i : CoreIns := .load op d m
     let words := max 1 (n / 4)
     s.Ready y i 1 ∧
     (cmd, op, n) ∈ ([(.ldb y d m, .b, 1), (.ldbu y d m, .bu, 1), (.ldh y d m, .h, 2), (.ldhu y d m, .hu, 2), (.ldw y
       d m, .w, 4), (.ldd y d m, .d, 8), (.ldq y d m, .q, 16)] : List (Instr × LoadOp × Nat)) ∧
     s.foldOf y = some f ∧
     d.val % words = 0 ∧
     a.toNat % n ≠ 0 ∧
     s.takes y 0x02 = true) ∧
    (let s : State := calm 3; let y : YokeId := 0; let f : FoldId := 0; let d : Gpr := 15
     let m : MemAddr := (.long 0x1000); let op : LoadOp := .b; let cmd : Instr := (.ldb 0 15 (.long 0x1000))
     let n : Nat := 1; let k := s.yoke y; let c := k.lead; let a := c.ea m; let i : CoreIns := .load op d m
     let words := max 1 (n / 4)
     s.Ready y i 1 ∧
     (cmd, op, n) ∈ ([(.ldb y d m, .b, 1), (.ldbu y d m, .bu, 1), (.ldh y d m, .h, 2), (.ldhu y d m, .hu, 2), (.ldw y
       d m, .w, 4), (.ldd y d m, .d, 8), (.ldq y d m, .q, 16)] : List (Instr × LoadOp × Nat)) ∧
     s.foldOf y = some f ∧
     d.val % words = 0 ∧
     a.toNat % n = 0 ∧
     s.check f (spanOf y) c.ring a n Need.read = none ∧
     s.takes y 0x04 = true) ∧
    (let s : State := calm 3; let y : YokeId := 0; let f : FoldId := 0; let d : Gpr := 12
     let m : MemAddr := (.base 3 0); let op : LoadOp := .q; let cmd : Instr := (.ldq 0 12 (.base 3 0))
     let n : Nat := 16; let k := s.yoke y; let c := k.lead; let a := c.ea m; let i : CoreIns := .load op d m
     let words := max 1 (n / 4); let p := 0x0200000020
     s.Ready y i 1 ∧
     (cmd, op, n) ∈ ([(.ldb y d m, .b, 1), (.ldbu y d m, .bu, 1), (.ldh y d m, .h, 2), (.ldhu y d m, .hu, 2), (.ldw y
       d m, .w, 4), (.ldd y d m, .d, 8), (.ldq y d m, .q, 16)] : List (Instr × LoadOp × Nat)) ∧
     s.foldOf y = some f ∧
     d.val % words = 0 ∧
     a.toNat % n = 0 ∧
     s.check f (spanOf y) c.ring a n Need.read = some (.mem p)) ∧
    (let s : State := calm 0; let y : YokeId := 0; let f : FoldId := 0; let d : Gpr := 15
     let m : MemAddr := (.long 0x1000); let op : LoadOp := .w; let cmd : Instr := (.ldw 0 15 (.long 0x1000))
     let n : Nat := 4; let k := s.yoke y; let c := k.lead; let a := c.ea m; let i : CoreIns := .load op d m
     let words := max 1 (n / 4); let off := 0x1000
     s.Ready y i 1 ∧
     (cmd, op, n) ∈ ([(.ldb y d m, .b, 1), (.ldbu y d m, .bu, 1), (.ldh y d m, .h, 2), (.ldhu y d m, .hu, 2), (.ldw y
       d m, .w, 4), (.ldd y d m, .d, 8), (.ldq y d m, .q, 16)] : List (Instr × LoadOp × Nat)) ∧
     s.foldOf y = some f ∧
     d.val % words = 0 ∧
     a.toNat % n = 0 ∧
     s.check f (spanOf y) c.ring a n Need.read = some (.page off)) :=
  ⟨⟨ready_of (by decide +kernel), by decide +kernel⟩,
    ⟨ready_of (by decide +kernel), by decide +kernel⟩,
    ⟨ready_of (by decide +kernel), by decide +kernel⟩,
    ⟨ready_of (by decide +kernel), by decide +kernel⟩,
    ⟨ready_of (by decide +kernel), by decide +kernel⟩⟩

/-- O15, LoadsLeaveAndTheirDataEntersRegisters: states and operands that meet the hypotheses of its clauses. -/
theorem test_loadData :
    (let s : State := (loading (awaited 1 .b [12])); let y : YokeId := 0; let l : PendLoad := (awaited 1 .b [12])
     let rest : List PendLoad := []; let op : LoadOp := .b; let d : Gpr := 12; let ws : List Word := [0xFFFFFFCC]
     let k := s.yoke y
     let bs := (List.range l.size).map fun j => s.yokeByte k (l.phys + j)
     let v := leValue bs
     s.decodeAccess l.phys l.size = (s, .completed) ∧
     (op, l.size, ws) ∈ ([(.b, 1, [BitVec.ofInt 32 (BitVec.ofNat 8 v).toInt]), (.bu, 1, [BitVec.ofNat 32 v]), (.h, 2,
       [BitVec.ofInt 32 (BitVec.ofNat 16 v).toInt]), (.hu, 2, [BitVec.ofNat 32 v]), (.w, 4, [BitVec.ofNat 32 v]), (.d,
       8, [BitVec.ofNat 32 v, BitVec.ofNat 32 (v / 2 ^ 32)]), (.q, 16, [BitVec.ofNat 32 v, BitVec.ofNat 32 (v / 2 ^
       32), BitVec.ofNat 32 (v / 2 ^ 64), BitVec.ofNat 32 (v / 2 ^ 96)])] : List (LoadOp × Nat × List Word)) ∧
     k.loads = l :: rest ∧
     l.got = none ∧
     (∀ x ∈ rest, x.got = none) ∧
     k.lvq.length < 64 ∧
     l.dest = .gpr op d ∧
     d.val + ws.length ≤ 16 ∧
     s.heldElsewhere y l.phys = false ∧
     k.debug = .off) ∧
    (let s : State := (loading (awaited 16 .q [13, 15])); let y : YokeId := 0
     let l : PendLoad := (awaited 16 .q [13, 15]); let rest : List PendLoad := []; let op : LoadOp := .q
     let d : Gpr := 12
     let ws : List Word := [0xFFEEDDCC, 0x80818283, 0x7F7E7D7C, 0x99887766]
     let k := s.yoke y
     let bs := (List.range l.size).map fun j => s.yokeByte k (l.phys + j)
     let v := leValue bs
     s.decodeAccess l.phys l.size = (s, .completed) ∧
     (op, l.size, ws) ∈ ([(.b, 1, [BitVec.ofInt 32 (BitVec.ofNat 8 v).toInt]), (.bu, 1, [BitVec.ofNat 32 v]), (.h, 2,
       [BitVec.ofInt 32 (BitVec.ofNat 16 v).toInt]), (.hu, 2, [BitVec.ofNat 32 v]), (.w, 4, [BitVec.ofNat 32 v]), (.d,
       8, [BitVec.ofNat 32 v, BitVec.ofNat 32 (v / 2 ^ 32)]), (.q, 16, [BitVec.ofNat 32 v, BitVec.ofNat 32 (v / 2 ^
       32), BitVec.ofNat 32 (v / 2 ^ 64), BitVec.ofNat 32 (v / 2 ^ 96)])] : List (LoadOp × Nat × List Word)) ∧
     k.loads = l :: rest ∧
     l.got = none ∧
     (∀ x ∈ rest, x.got = none) ∧
     k.lvq.length < 64 ∧
     l.dest = .gpr op d ∧
     d.val + ws.length ≤ 16 ∧
     s.heldElsewhere y l.phys = false ∧
     k.debug = .off) :=
  ⟨⟨rfl, by decide +kernel⟩,
    ⟨rfl, by decide +kernel⟩⟩

/-- O16, FetchedBlocksReachBothCores: states and operands that meet the hypotheses of its clauses. -/
theorem test_fetch :
    (let s : State := calm 3; let y : YokeId := 0; let f : FoldId := 0; let n : Nat := 2; let p : Nat := 0x0200000020
     let k := s.yoke y; let a := blockOf k.lead.pc + BitVec.ofNat 32 (16 * n); let needed : BitVec 16 := 0xFFFF
     (∀ h < 2, (needed >>> (8 * h)).setWidth 8 ≠ (0 : Byte) → s.decodeAccess (p + 8 * h) 8 = (s, .completed)) ∧
     s.foldOf y = some f ∧
     k.run = .task ∧
     k.collapse = none ∧
     k.debug = .off ∧
     k.fetchReq = none ∧
     k.fetchLane.length < 32 ∧
     s.check f (spanOf y) k.lead.ring a 16 Need.exec = some (.mem p)) ∧
    (let s : State := (wiped (calm 3)); let y : YokeId := 0; let f : FoldId := 0; let n : Nat := 2
     let p : Nat := 0x0200000020; let k := s.yoke y; let a := blockOf k.lead.pc + BitVec.ofNat 32 (16 * n)
     let needed : BitVec 16 := 1; let b : BitVec 3 := 4; let s1 : State := (wiped (calm 3))
     s.decodeAccess p 8 = (s1, .busError b) ∧
     s.foldOf y = some f ∧
     k.run = .task ∧
     k.collapse = none ∧
     k.debug = .off ∧
     k.fetchReq = none ∧
     k.fetchLane.length < 32 ∧
     s.check f (spanOf y) k.lead.ring a 16 Need.exec = some (.mem p) ∧
     needed.setWidth 8 ≠ (0 : Byte) ∧
     s.eventWaits y = false ∧
     (s1.asStored s).takes y 0x03 = true) ∧
    (let s : State := (withCore (calm 3) fun c => { c with pc := 0x100 })
     let y : YokeId := 0; let f : FoldId := 0; let n : Nat := 0; let k := s.yoke y
     let a := blockOf k.lead.pc + BitVec.ofNat 32 (16 * n)
     s.foldOf y = some f ∧
     k.run = .task ∧
     k.collapse = none ∧
     k.debug = .off ∧
     k.fetchReq = none ∧
     k.fetchLane.length < 32 ∧
     s.check f (spanOf y) k.lead.ring a 16 Need.exec = none ∧
     s.takes y 0x04 = true) :=
  ⟨⟨by intro h hh _; interval_cases h <;> rfl, by decide +kernel⟩,
    ⟨rfl, by decide +kernel⟩,
    by and_intros <;> decide +kernel⟩

/-- O17, StoresEmitAndSyscEnterTheWriteHoldBuffer: states and operands that meet the hypotheses of its clauses. -/
theorem test_stores :
    (let s : State := calm 3; let y : YokeId := 0; let f : FoldId := 0; let d : Gpr := 14
     let m : MemAddr := (.base 3 4); let op : StoreOp := .d; let cmd : Instr := (.std 0 14 (.base 3 4))
     let n : Nat := 8; let k := s.yoke y; let c := k.lead; let a := c.ea m; let i : CoreIns := .store op d m
     let words := max 1 (n / 4)
     s.Ready y i 1 ∧
     (cmd, op, n) ∈ ([(.stb y d m, .b, 1), (.sth y d m, .h, 2), (.stw y d m, .w, 4), (.std y d m, .d, 8), (.stq y d m,
       .q, 16)] : List (Instr × StoreOp × Nat)) ∧
     s.foldOf y = some f ∧
     d.val % words = 0 ∧
     a.toNat % n ≠ 0 ∧
     s.takes y 0x02 = true) ∧
    (let s : State := calm 3; let y : YokeId := 0; let f : FoldId := 0; let d : Gpr := 15
     let m : MemAddr := (.long 0x1000); let op : StoreOp := .b; let cmd : Instr := (.stb 0 15 (.long 0x1000))
     let n : Nat := 1; let k := s.yoke y; let c := k.lead; let a := c.ea m; let i : CoreIns := .store op d m
     let words := max 1 (n / 4)
     s.Ready y i 1 ∧
     (cmd, op, n) ∈ ([(.stb y d m, .b, 1), (.sth y d m, .h, 2), (.stw y d m, .w, 4), (.std y d m, .d, 8), (.stq y d m,
       .q, 16)] : List (Instr × StoreOp × Nat)) ∧
     s.foldOf y = some f ∧
     d.val % words = 0 ∧
     a.toNat % n = 0 ∧
     s.check f (spanOf y) c.ring a n Need.write = none ∧
     s.takes y 0x04 = true) ∧
    (let s : State := (holding (List.replicate 128 { entry 3 .open with phys := 0x0200000100 }))
     let y : YokeId := 0; let f : FoldId := 0; let d : Gpr := 12; let m : MemAddr := (.base 3 0)
     let op : StoreOp := .q; let cmd : Instr := (.stq 0 12 (.base 3 0)); let n : Nat := 16
     let p : Nat := 0x0200000020; let k := s.yoke y; let c := k.lead; let a := c.ea m
     let i : CoreIns := .store op d m; let words := max 1 (n / 4)
     s.Ready y i 1 ∧
     (cmd, op, n) ∈ ([(.stb y d m, .b, 1), (.sth y d m, .h, 2), (.stw y d m, .w, 4), (.std y d m, .d, 8), (.stq y d m,
       .q, 16)] : List (Instr × StoreOp × Nat)) ∧
     s.foldOf y = some f ∧
     d.val % words = 0 ∧
     a.toNat % n = 0 ∧
     s.check f (spanOf y) c.ring a n Need.write = some (.mem p) ∧
     k.whb.length = 128 ∧
     k.mergeSlot p = none) ∧
    (let s : State := (holding [entry 3 .open]); let y : YokeId := 0; let f : FoldId := 0; let d : Gpr := 15
     let m : MemAddr := (.base 3 2); let op : StoreOp := .h; let cmd : Instr := (.sth 0 15 (.base 3 2))
     let n : Nat := 2; let p : Nat := 0x0200000022; let k := s.yoke y; let c := k.lead; let a := c.ea m
     let i : CoreIns := .store op d m; let words := max 1 (n / 4)
     let mine (e : WhbEntry) : Bool := decide (e.phys / 16 = p / 16)
     s.Ready y i 1 ∧
     (k.whb.length < 128 ∧ k.whb.filter mine = [] ∨ k.whb.length ≤ 128 ∧ ∃ e, k.whb.filter mine = [e] ∧ k.mergeSlot p
       = some e) ∧
     (cmd, op, n) ∈ ([(.stb y d m, .b, 1), (.sth y d m, .h, 2), (.stw y d m, .w, 4), (.std y d m, .d, 8), (.stq y d m,
       .q, 16)] : List (Instr × StoreOp × Nat)) ∧
     s.foldOf y = some f ∧
     d.val % words = 0 ∧
     a.toNat % n = 0 ∧
     s.check f (spanOf y) c.ring a n Need.write = some (.mem p) ∧
     (k.whb.map WhbEntry.id).Nodup) :=
  ⟨⟨ready_of (by decide +kernel), by decide +kernel⟩,
    ⟨ready_of (by decide +kernel), by decide +kernel⟩,
    ⟨ready_of (by decide +kernel), by decide +kernel⟩,
    ⟨ready_of (by decide +kernel), Or.inr ⟨by decide +kernel, _, rfl, rfl⟩, by decide +kernel⟩⟩

/-- O17, StoresEmitAndSyscEnterTheWriteHoldBuffer: states and operands that meet the hypotheses of its clauses. -/
theorem test_emit :
    (let s : State := withWindow; let y : YokeId := 0; let f : FoldId := 0; let d : Gpr := 12
     let m : MemAddr := (.long 0xF0000000); let loc : Bool := true; let sz : BitVec 3 := 4; let bank : Nat := 0xF0
     let off : Nat := 0; let k := s.yoke y; let c := k.lead; let a := c.ea m; let size := 2 ^ sz.toNat
     let words := if sz.toNat = 4 then 4 else if sz.toNat = 3 then 2 else 1
     let i : CoreIns := .emit loc sz d m
     s.Ready y i 1 ∧
     s.foldOf y = some f ∧
     sz.toNat ≤ 4 ∧
     d.val % words = 0 ∧
     k.whb.length < 128 ∧
     a.toNat % size = 0 ∧
     s.check f (spanOf y) c.ring a size Need.write = some (.io bank off) ∧
     s.isOutputWindow f bank off size = true) ∧
    (let s : State := calm 0; let y : YokeId := 0; let f : FoldId := 0; let d : Gpr := 15
     let m : MemAddr := (.long 0xF0000000); let loc : Bool := true; let sz : BitVec 3 := 0; let bank : Nat := 0xF0
     let off : Nat := 0; let k := s.yoke y; let c := k.lead; let a := c.ea m; let size := 2 ^ sz.toNat
     let words := if sz.toNat = 4 then 4 else if sz.toNat = 3 then 2 else 1
     let i : CoreIns := .emit loc sz d m
     s.Ready y i 1 ∧
     s.foldOf y = some f ∧
     sz.toNat ≤ 4 ∧
     d.val % words = 0 ∧
     k.whb.length < 128 ∧
     a.toNat % size = 0 ∧
     s.check f (spanOf y) c.ring a size Need.write = some (.io bank off) ∧
     s.isOutputWindow f bank off size = false ∧
     s.takes y 0x04 = true) ∧
    (let s : State := calm 0; let y : YokeId := 0; let f : FoldId := 0; let n : Byte := 0xFF; let k := s.yoke y
     let c := k.lead
     s.Ready y (.sysc n) 1 ∧
     s.foldOf y = some f ∧
     k.whb.length < 128 ∧
     c.ring = 0) ∧
    (let s : State := calm 1; let y : YokeId := 0; let f : FoldId := 0; let n : Byte := 0xFF; let k := s.yoke y
     let c := k.lead
     s.Ready y (.sysc n) 1 ∧
     s.foldOf y = some f ∧
     k.whb.length < 128 ∧
     c.ring ≠ 0 ∧
     s.takes y 0x05 = true) :=
  ⟨⟨ready_of (by decide +kernel), by decide +kernel⟩,
    ⟨ready_of (by decide +kernel), by decide +kernel⟩,
    ⟨ready_of (by decide +kernel), by decide +kernel⟩,
    ⟨ready_of (by decide +kernel), by decide +kernel⟩⟩

/-- O18, HeldEntriesDrainAndGroupsBecomeVisible: states and operands that meet the hypotheses of its clauses. -/
theorem test_drain :
    (let s : State := (holding [entry 2 .released]); let y : YokeId := 0; let e : WhbEntry := (entry 2 .released)
     let ecc : Ecc := .clean; let k := s.yoke y
     k.nextDrain = some e ∧
     ecc = .clean ∧
     e.ecc = .clean ∧
     s.drainRefused e = false) ∧
    (let s : State := (holding [entry 2 .released]); let y : YokeId := 0; let e : WhbEntry := (entry 2 .released)
     let ecc : Ecc := .uncorrectable; let k := s.yoke y
     k.nextDrain = some e ∧
     (ecc = .uncorrectable ∨ e.ecc = .uncorrectable ∨ ecc = .clean ∧ e.ecc = .clean ∧ s.drainRefused e = true)) ∧
    (let s : State := (wiped (holding [entry 2 .released])); let y : YokeId := 0
     let e : WhbEntry := (entry 2 .released); let ecc : Ecc := .clean; let k := s.yoke y
     k.nextDrain = some e ∧
     (ecc = .uncorrectable ∨ e.ecc = .uncorrectable ∨ ecc = .clean ∧ e.ecc = .clean ∧ s.drainRefused e = true)) ∧
    (let s : State := (holding [entry 2 .released]); let y : YokeId := 0; let e : WhbEntry := (entry 2 .released)
     let ecc : Ecc := .checkBit; let k := s.yoke y
     k.nextDrain = some e ∧
     ecc ≠ .uncorrectable ∧
     e.ecc ≠ .uncorrectable ∧
     (ecc ≠ .clean ∨ e.ecc ≠ .clean) ∧
     s.drainRefused e = false) :=
  by and_intros <;> decide +kernel

/-- O18, HeldEntriesDrainAndGroupsBecomeVisible: states and operands that meet the hypotheses of its clauses. -/
theorem test_visible :
    let s : State := (holding grouped); let y : YokeId := 0; let iv : Nat := 2; let k := s.yoke y
    let es := k.whb.filter fun e => decide (e.interval = iv)
    (∀ e ∈ es, ∃ st, e.phase = .accepted st) ∧
    NoErrors s ∧
    k.groupReady = some iv ∧
    (∀ e ∈ es, e.phys < 0x0500000000 ∧ s.wiping (e.phys / 16 * 16) = false) ∧
    Memory.wf s.mem = true :=
  ⟨by intro e h; fin_cases h <;> exact ⟨_, rfl⟩, ⟨rfl, rfl, rfl⟩, by decide +kernel⟩

/-- O19, BlockOperationsMoveOneWord: states and operands that meet the hypotheses of its clauses. -/
theorem test_blocks :
    (let s : State := (blocks 0); let y : YokeId := 0; let f : FoldId := 0; let rep : Rep := .once; let d : Gpr := 1
     let src : Gpr := 1; let op : BlockOp := .movm; let cmd : Instr := (.movm 0 .once 1 1); let k := s.yoke y
     let c : Core := if rep = .once then k.lead else { k.lead with shadow := none }
     let i : CoreIns := .block op rep d src; let rep0 := rep = .rep → c.ra = true ∨ c.ct.toNat ≤ 1024
     s.Ready y i 2 ∧
     (cmd, op) ∈ ([(.movm y rep d src, .movm), (.fillm y rep d src, .fillm), (.cmpm y rep d src, .cmpm)] : List (Instr
       × BlockOp)) ∧
     s.foldOf y = some f ∧
     rep0 ∧
     c.ct = 0) ∧
    (let s : State := (blocks 1024); let y : YokeId := 0; let f : FoldId := 0; let rep : Rep := .rep; let d : Gpr := 0
     let src : Gpr := 1; let op : BlockOp := .fillm; let cmd : Instr := (.fillm 0 .rep 0 1); let k := s.yoke y
     let c : Core := if rep = .once then k.lead else { k.lead with shadow := none }
     let i : CoreIns := .block op rep d src; let rep0 := rep = .rep → c.ra = true ∨ c.ct.toNat ≤ 1024
     s.Ready y i 2 ∧
     (cmd, op) ∈ ([(.movm y rep d src, .movm), (.fillm y rep d src, .fillm), (.cmpm y rep d src, .cmpm)] : List (Instr
       × BlockOp)) ∧
     s.foldOf y = some f ∧
     rep0 ∧
     c.ct ≠ 0 ∧
     (c.rd src).toNat % 16 ≠ 0 ∧
     s.takes y 0x02 = true) ∧
    (let s : State := (blocks 1024); let y : YokeId := 0; let f : FoldId := 0; let rep : Rep := .rep; let d : Gpr := 1
     let src : Gpr := 0; let op : BlockOp := .fillm; let cmd : Instr := (.fillm 0 .rep 1 0); let k := s.yoke y
     let c : Core := if rep = .once then k.lead else { k.lead with shadow := none }
     let i : CoreIns := .block op rep d src; let rep0 := rep = .rep → c.ra = true ∨ c.ct.toNat ≤ 1024
     s.Ready y i 2 ∧
     (cmd, op) ∈ ([(.movm y rep d src, .movm), (.fillm y rep d src, .fillm), (.cmpm y rep d src, .cmpm)] : List (Instr
       × BlockOp)) ∧
     s.foldOf y = some f ∧
     rep0 ∧
     c.ct ≠ 0 ∧
     (c.rd src).toNat % 16 = 0 ∧
     (c.rd d).toNat % 16 ≠ 0 ∧
     s.takes y 0x02 = true) ∧
    (let s : State := (blocks 1); let y : YokeId := 0; let f : FoldId := 0; let rep : Rep := .repi; let d : Gpr := 0
     let src : Gpr := 3; let p : Nat := 0x0200000020; let q : Nat := 0x0200000010; let op : BlockOp := .cmpm
     let cmd : Instr := (.cmpm 0 .repi 0 3); let k := s.yoke y
     let c : Core := if rep = .once then k.lead else { k.lead with shadow := none }
     let i : CoreIns := .block op rep d src; let rep0 := rep = .rep → c.ra = true ∨ c.ct.toNat ≤ 1024
     let need : Need := if op = .cmpm then Need.read else Need.write
     s.Ready y i 2 ∧
     s.decodeAccess p 16 = (s, .completed) ∧
     s.decodeAccess q 16 = (s, .completed) ∧
     (cmd, op) ∈ ([(.movm y rep d src, .movm), (.fillm y rep d src, .fillm), (.cmpm y rep d src, .cmpm)] : List (Instr
       × BlockOp)) ∧
     s.foldOf y = some f ∧
     rep0 ∧
     c.ct ≠ 0 ∧
     (c.rd src).toNat % 16 = 0 ∧
     (c.rd d).toNat % 16 = 0 ∧
     s.check f (spanOf y) c.ring (c.rd src) 16 Need.read = some (.mem p) ∧
     s.check f (spanOf y) c.ring (c.rd d) 16 need = some (.mem q) ∧
     (c.rd src).toNat / 2 ^ 24 ≠ 0 ∧
     (c.rd d).toNat / 2 ^ 24 ≠ 0 ∧
     s.heldElsewhere y p = false ∧
     s.heldElsewhere y q = false ∧
     k.trapReady = true ∧
     k.whb.filter (fun e => decide (e.phys / 16 = q / 16)) = []) :=
  ⟨⟨ready_of (by decide +kernel), by decide +kernel⟩,
    ⟨ready_of (by decide +kernel), by decide +kernel⟩,
    ⟨ready_of (by decide +kernel), by decide +kernel⟩,
    ⟨ready_of (by decide +kernel), rfl, rfl, by decide +kernel⟩⟩

/-- O20, AtomicsActOnceAtTheBank: states and operands that meet the hypotheses of its clauses. -/
theorem test_atomics :
    (let s : State := calm 3; let y : YokeId := 0; let f : FoldId := 0; let wide : Bool := false
     let ord : Bool := false; let d : Gpr := 15; let new : Gpr := 0; let ad : Addend := (.imm 0)
     let m : MemAddr := (.base 3 2); let p : Nat := 0; let cmd : Instr := (.xchg 0 false false 15 (.base 3 2))
     let extra : Nat := 0; let next : Option Nat := (some 0x80000200); let z : Option Bool := none; let k := s.yoke y
     let c := k.lead; let a := c.ea m
     let size := if wide then 8 else 4
     let old := leValue (memRead s.mem p size)
     let reg (r : Gpr) : Nat := if wide then (c.rd (gpr (r.val + 1))).toNat * 2 ^ 32 + (c.rd r).toNat else (c.rd r).toNat
     let even (r : Gpr) : Prop := wide = true → r.val % 2 = 0
     let addend : Nat := match ad with
      | .reg r => reg r
      | .imm x => if wide then (BitVec.ofInt 64 x.toInt).toNat else x.toNat
     let len := 2 + m.len + extra + wide.toNat + ord.toNat
     s.Calm y ∧
     (cmd = .xchg y wide ord d m ∧ extra = 0 ∧ next = some (reg d) ∧ z = none ∨ cmd = .cas y wide ord d new m ∧ extra
       = 1 ∧ next = (if old = reg d then some (reg new) else none) ∧ z = some (decide (old = reg d)) ∧ even new ∨ cmd
       = .fadd y wide ord d ad m ∧ extra = (match ad with | .reg _ => 1 | .imm _ => 5) ∧ next = some ((old + addend) %
       2 ^ (8 * size)) ∧ z = none ∧ (∀ r, ad = .reg r → even r)) ∧
     even d ∧
     len ≤ 12 ∧
     s.foldOf y = some f ∧
     a.toNat % size ≠ 0) ∧
    (let s : State := calm 3; let y : YokeId := 0; let f : FoldId := 0; let wide : Bool := true
     let ord : Bool := true; let d : Gpr := 0; let new : Gpr := 2; let ad : Addend := (.imm 0)
     let m : MemAddr := (.long 0xF0000000); let p : Nat := 0
     let cmd : Instr := (.cas 0 true true 0 2 (.long 0xF0000000))
     let extra : Nat := 1; let next : Option Nat := none; let z : Option Bool := (some false); let k := s.yoke y
     let c := k.lead; let a := c.ea m
     let size := if wide then 8 else 4
     let old := leValue (memRead s.mem p size)
     let reg (r : Gpr) : Nat := if wide then (c.rd (gpr (r.val + 1))).toNat * 2 ^ 32 + (c.rd r).toNat else (c.rd r).toNat
     let even (r : Gpr) : Prop := wide = true → r.val % 2 = 0
     let addend : Nat := match ad with
      | .reg r => reg r
      | .imm x => if wide then (BitVec.ofInt 64 x.toInt).toNat else x.toNat
     let len := 2 + m.len + extra + wide.toNat + ord.toNat
     s.Calm y ∧
     (cmd = .xchg y wide ord d m ∧ extra = 0 ∧ next = some (reg d) ∧ z = none ∨ cmd = .cas y wide ord d new m ∧ extra
       = 1 ∧ next = (if old = reg d then some (reg new) else none) ∧ z = some (decide (old = reg d)) ∧ even new ∨ cmd
       = .fadd y wide ord d ad m ∧ extra = (match ad with | .reg _ => 1 | .imm _ => 5) ∧ next = some ((old + addend) %
       2 ^ (8 * size)) ∧ z = none ∧ (∀ r, ad = .reg r → even r)) ∧
     even d ∧
     len ≤ 12 ∧
     s.foldOf y = some f ∧
     a.toNat % size = 0 ∧
     (s.check f (spanOf y) c.ring a size Need.both).bind Target.memPhys = none) ∧
    (let s : State := calm 3; let y : YokeId := 0; let f : FoldId := 0; let wide : Bool := true
     let ord : Bool := true; let d : Gpr := 14; let new : Gpr := 0; let ad : Addend := (.reg 4)
     let m : MemAddr := (.base 3 0); let p : Nat := 0x0200000020
     let cmd : Instr := (.fadd 0 true true 14 (.reg 4) (.base 3 0))
     let extra : Nat := 1; let next : Option Nat := (some 0x500000004); let z : Option Bool := none; let k := s.yoke y
     let c := k.lead; let a := c.ea m
     let size := if wide then 8 else 4
     let old := leValue (memRead s.mem p size)
     let reg (r : Gpr) : Nat := if wide then (c.rd (gpr (r.val + 1))).toNat * 2 ^ 32 + (c.rd r).toNat else (c.rd r).toNat
     let even (r : Gpr) : Prop := wide = true → r.val % 2 = 0
     let addend : Nat := match ad with
      | .reg r => reg r
      | .imm x => if wide then (BitVec.ofInt 64 x.toInt).toNat else x.toNat
     let len := 2 + m.len + extra + wide.toNat + ord.toNat
     s.Calm y ∧
     NoErrors s ∧
     (cmd = .xchg y wide ord d m ∧ extra = 0 ∧ next = some (reg d) ∧ z = none ∨ cmd = .cas y wide ord d new m ∧ extra
       = 1 ∧ next = (if old = reg d then some (reg new) else none) ∧ z = some (decide (old = reg d)) ∧ even new ∨ cmd
       = .fadd y wide ord d ad m ∧ extra = (match ad with | .reg _ => 1 | .imm _ => 5) ∧ next = some ((old + addend) %
       2 ^ (8 * size)) ∧ z = none ∧ (∀ r, ad = .reg r → even r)) ∧
     even d ∧
     len ≤ 12 ∧
     s.foldOf y = some f ∧
     a.toNat % size = 0 ∧
     s.check f (spanOf y) c.ring a size Need.both = some (.mem p) ∧
     Memory.wf s.mem = true ∧
     s.wiping p = false ∧
     s.sfm (spanOf y) = 0) :=
  ⟨⟨calm_of (by decide +kernel) rfl, by decide +kernel⟩,
    ⟨calm_of (by decide +kernel) rfl, by decide +kernel⟩,
    ⟨calm_of (by decide +kernel) rfl, ⟨rfl, rfl, rfl⟩, by decide +kernel⟩⟩

/-- O21, TethersFollowTheirRules: states and operands that meet the hypotheses of its clauses. -/
theorem test_tethers :
    (let s : State := (locked 0x80000007 []); let y : YokeId := 0; let f : FoldId := 0; let m : MemAddr := (.base 0 0)
     let p : Nat := 0x0200000010; let k := s.yoke y; let c := k.lead; let a := c.ea m
     let w : Word := BitVec.ofNat 32 (leValue (memRead s.mem p 4))
     let own := c.task.ident.toNat % 2 ^ 28; let held := w.toNat / 2 ^ 31 = 1; let mine := w.toNat % 2 ^ 28 = own
     s.Calm y ∧
     NoErrors s ∧
     s.foldOf y = some f ∧
     a.toNat % 4 = 0 ∧
     s.check f (spanOf y) c.ring a 4 Need.both = some (.mem p) ∧
     Memory.wf s.mem = true ∧
     s.wiping p = false ∧
     s.sfm (spanOf y) = 0 ∧
     held ∧
     mine) ∧
    (let s : State := (locked 0xC0000009 []); let y : YokeId := 0; let f : FoldId := 0; let m : MemAddr := (.base 0 0)
     let p : Nat := 0x0200000010; let k := s.yoke y; let c := k.lead; let a := c.ea m
     let w : Word := BitVec.ofNat 32 (leValue (memRead s.mem p 4))
     let own := c.task.ident.toNat % 2 ^ 28; let held := w.toNat / 2 ^ 31 = 1; let mine := w.toNat % 2 ^ 28 = own
     s.Calm y ∧
     NoErrors s ∧
     s.foldOf y = some f ∧
     a.toNat % 4 = 0 ∧
     s.check f (spanOf y) c.ring a 4 Need.both = some (.mem p) ∧
     Memory.wf s.mem = true ∧
     s.wiping p = false ∧
     s.sfm (spanOf y) = 0 ∧
     held ∧
     ¬mine) ∧
    (let s : State := (locked 0 (List.replicate 8 0x80000100)); let y : YokeId := 0; let f : FoldId := 0
     let m : MemAddr := (.base 0 0); let p : Nat := 0x0200000010; let k := s.yoke y; let c := k.lead; let a := c.ea m
     let w : Word := BitVec.ofNat 32 (leValue (memRead s.mem p 4))
     let held := w.toNat / 2 ^ 31 = 1
     s.Calm y ∧
     NoErrors s ∧
     s.foldOf y = some f ∧
     a.toNat % 4 = 0 ∧
     s.check f (spanOf y) c.ring a 4 Need.both = some (.mem p) ∧
     Memory.wf s.mem = true ∧
     s.wiping p = false ∧
     s.sfm (spanOf y) = 0 ∧
     ¬held ∧
     8 ≤ c.task.tlist.length) ∧
    (let s : State := (locked 0x40000007 (List.replicate 7 0x80000100))
     let y : YokeId := 0; let f : FoldId := 0; let m : MemAddr := (.base 0 0); let p : Nat := 0x0200000010
     let k := s.yoke y; let c := k.lead; let a := c.ea m
     let w : Word := BitVec.ofNat 32 (leValue (memRead s.mem p 4))
     let held := w.toNat / 2 ^ 31 = 1
     s.Calm y ∧
     NoErrors s ∧
     s.foldOf y = some f ∧
     a.toNat % 4 = 0 ∧
     s.check f (spanOf y) c.ring a 4 Need.both = some (.mem p) ∧
     Memory.wf s.mem = true ∧
     s.wiping p = false ∧
     s.sfm (spanOf y) = 0 ∧
     ¬held ∧
     c.task.tlist.length < 8) ∧
    (let s : State := (locked 0x80000007 [0x80000010]); let y : YokeId := 0; let f : FoldId := 0
     let m : MemAddr := (.base 0 0); let p : Nat := 0x0200000010; let k := s.yoke y; let c := k.lead; let a := c.ea m
     let w : Word := BitVec.ofNat 32 (leValue (memRead s.mem p 4))
     let own := c.task.ident.toNat % 2 ^ 28; let held := w.toNat / 2 ^ 31 = 1; let mine := w.toNat % 2 ^ 28 = own
     s.Calm y ∧
     NoErrors s ∧
     (∀ x ∈ c.task.tlist, s.physOf y x = some p ↔ x = a) ∧
     s.foldOf y = some f ∧
     a.toNat % 4 = 0 ∧
     s.check f (spanOf y) c.ring a 4 Need.both = some (.mem p) ∧
     Memory.wf s.mem = true ∧
     s.wiping p = false ∧
     s.sfm (spanOf y) = 0 ∧
     held ∧
     mine) ∧
    (let s : State := (locked 7 []); let y : YokeId := 0; let f : FoldId := 0; let m : MemAddr := (.base 0 0)
     let p : Nat := 0x0200000010; let k := s.yoke y; let c := k.lead; let a := c.ea m
     let w : Word := BitVec.ofNat 32 (leValue (memRead s.mem p 4))
     let own := c.task.ident.toNat % 2 ^ 28; let held := w.toNat / 2 ^ 31 = 1; let mine := w.toNat % 2 ^ 28 = own
     s.Calm y ∧
     NoErrors s ∧
     s.foldOf y = some f ∧
     a.toNat % 4 = 0 ∧
     s.check f (spanOf y) c.ring a 4 Need.both = some (.mem p) ∧
     Memory.wf s.mem = true ∧
     s.wiping p = false ∧
     s.sfm (spanOf y) = 0 ∧
     ¬(held ∧ mine)) :=
  ⟨⟨calm_of (by decide +kernel) rfl, ⟨rfl, rfl, rfl⟩, by decide +kernel⟩,
    ⟨calm_of (by decide +kernel) rfl, ⟨rfl, rfl, rfl⟩, by decide +kernel⟩,
    ⟨calm_of (by decide +kernel) rfl, ⟨rfl, rfl, rfl⟩, by decide +kernel⟩,
    ⟨calm_of (by decide +kernel) rfl, ⟨rfl, rfl, rfl⟩, by decide +kernel⟩,
    ⟨calm_of (by decide +kernel) rfl, ⟨rfl, rfl, rfl⟩, by intro x h; rw [(List.mem_singleton (b := 0x80000010)).mp h]; exact ⟨fun _ => rfl, fun _ => by decide +kernel⟩, by decide +kernel⟩,
    ⟨calm_of (by decide +kernel) rfl, ⟨rfl, rfl, rfl⟩, by decide +kernel⟩⟩

/-- O22, SpawnPushesTheChild: states and operands that meet the hypotheses of its clauses. -/
theorem test_spawn :
    (let s : State := calm 3; let y : YokeId := 0; let f : FoldId := 0; let src : Gpr := 0; let k := s.yoke y
     let c := k.lead; let a := c.rd src
     s.Calm y ∧
     s.foldOf y = some f ∧
     a.toNat % 64 ≠ 0) ∧
    (let s : State := (spawning 3 0 0x40 0); let y : YokeId := 0; let f : FoldId := 0; let src : Gpr := 1
     let p : Nat := 0x0200000040; let k := s.yoke y; let c := k.lead; let a := c.rd src
     let word (j : Nat) : Word := BitVec.ofNat 32 (leValue (memRead s.mem (p + 4 * j) 4))
     let attr := word 7
     let wrongFold : Prop := attr.toNat / 2 ^ 28 ≠ f.val ∨ attr.toNat / 32 % 4 < c.ring.toNat
     s.Calm y ∧
     (∀ j < 4, ∃ q, s.check f (spanOf y) c.ring (a + BitVec.ofNat 32 (16 * j)) 16 Need.read = some (.mem q)) ∧
     NoErrors s ∧
     s.foldOf y = some f ∧
     a.toNat % 64 = 0 ∧
     s.check f (spanOf y) c.ring a 16 Need.read = some (.mem p) ∧
     Memory.wf s.mem = true ∧
     (∀ j < 4, s.wiping (p + 16 * j) = false) ∧
     s.sfm (spanOf y) = 0 ∧
     wrongFold) ∧
    (let s : State := (spawning 3 0 0x60 1); let y : YokeId := 0; let f : FoldId := 0; let src : Gpr := 1
     let p : Nat := 0x0200000040; let k := s.yoke y; let c := k.lead; let a := c.rd src
     let word (j : Nat) : Word := BitVec.ofNat 32 (leValue (memRead s.mem (p + 4 * j) 4))
     let attr := word 7
     let wrongFold : Prop := attr.toNat / 2 ^ 28 ≠ f.val ∨ attr.toNat / 32 % 4 < c.ring.toNat
     let reservedSet : Prop := attr &&& 0x0FFFFC1F ≠ 0 ∨ word 15 ≠ 0
     s.Calm y ∧
     (∀ j < 4, ∃ q, s.check f (spanOf y) c.ring (a + BitVec.ofNat 32 (16 * j)) 16 Need.read = some (.mem q)) ∧
     NoErrors s ∧
     s.foldOf y = some f ∧
     a.toNat % 64 = 0 ∧
     s.check f (spanOf y) c.ring a 16 Need.read = some (.mem p) ∧
     Memory.wf s.mem = true ∧
     (∀ j < 4, s.wiping (p + 16 * j) = false) ∧
     s.sfm (spanOf y) = 0 ∧
     ¬wrongFold ∧
     reservedSet) ∧
    (let s : State := (spawning 3 0x80000022 0x60 0); let y : YokeId := 0; let f : FoldId := 0; let src : Gpr := 1
     let p : Nat := 0x0200000040; let k := s.yoke y; let c := k.lead; let a := c.rd src
     let word (j : Nat) : Word := BitVec.ofNat 32 (leValue (memRead s.mem (p + 4 * j) 4))
     let attr := word 7
     let wrongFold : Prop := attr.toNat / 2 ^ 28 ≠ f.val ∨ attr.toNat / 32 % 4 < c.ring.toNat
     let reservedSet : Prop := attr &&& 0x0FFFFC1F ≠ 0 ∨ word 15 ≠ 0
     s.Calm y ∧
     (∀ j < 4, ∃ q, s.check f (spanOf y) c.ring (a + BitVec.ofNat 32 (16 * j)) 16 Need.read = some (.mem q)) ∧
     NoErrors s ∧
     s.foldOf y = some f ∧
     a.toNat % 64 = 0 ∧
     s.check f (spanOf y) c.ring a 16 Need.read = some (.mem p) ∧
     Memory.wf s.mem = true ∧
     (∀ j < 4, s.wiping (p + 16 * j) = false) ∧
     s.sfm (spanOf y) = 0 ∧
     ¬wrongFold ∧
     ¬reservedSet ∧
     word 5 ≠ 0 ∧
     (word 5).toNat % 4 ≠ 0) ∧
    (let s : State := (spawning 3 0x80000020 0x160 0); let y : YokeId := 0; let f : FoldId := 0; let src : Gpr := 1
     let p : Nat := 0x0200000040; let k := s.yoke y; let c := k.lead; let a := c.rd src
     let word (j : Nat) : Word := BitVec.ofNat 32 (leValue (memRead s.mem (p + 4 * j) 4))
     let attr := word 7
     let wrongFold : Prop := attr.toNat / 2 ^ 28 ≠ f.val ∨ attr.toNat / 32 % 4 < c.ring.toNat
     let reservedSet : Prop := attr &&& 0x0FFFFC1F ≠ 0 ∨ word 15 ≠ 0
     let id : Word := BitVec.ofNat 4 f.val ++ (s.fold f).serial
     s.Calm y ∧
     (∀ j < 4, ∃ q, s.check f (spanOf y) c.ring (a + BitVec.ofNat 32 (16 * j)) 16 Need.read = some (.mem q)) ∧
     NoErrors s ∧
     s.foldOf y = some f ∧
     a.toNat % 64 = 0 ∧
     s.check f (spanOf y) c.ring a 16 Need.read = some (.mem p) ∧
     Memory.wf s.mem = true ∧
     (∀ j < 4, s.wiping (p + 16 * j) = false) ∧
     s.sfm (spanOf y) = 0 ∧
     ¬wrongFold ∧
     ¬reservedSet ∧
     (word 5 = 0 ∨ (word 5).toNat % 4 = 0 ∧ (s.translate f (spanOf y) (word 5)).memPhys ≠ none) ∧
     k.deque.length < 64 ∧
     id ∉ s.liveIdents f) ∧
    (let s : State := (spawning 0 0 0 0); let y : YokeId := 0; let f : FoldId := 0; let src : Gpr := 1
     let p : Nat := 0x0200000040; let k := s.yoke y; let c := k.lead; let a := c.rd src
     let word (j : Nat) : Word := BitVec.ofNat 32 (leValue (memRead s.mem (p + 4 * j) 4))
     let attr := word 7
     let wrongFold : Prop := attr.toNat / 2 ^ 28 ≠ f.val ∨ attr.toNat / 32 % 4 < c.ring.toNat
     let reservedSet : Prop := attr &&& 0x0FFFFC1F ≠ 0 ∨ word 15 ≠ 0
     let id : Word := BitVec.ofNat 4 f.val ++ (s.fold f).serial
     s.Calm y ∧
     (∀ j < 4, ∃ q, s.check f (spanOf y) c.ring (a + BitVec.ofNat 32 (16 * j)) 16 Need.read = some (.mem q)) ∧
     NoErrors s ∧
     s.foldOf y = some f ∧
     a.toNat % 64 = 0 ∧
     s.check f (spanOf y) c.ring a 16 Need.read = some (.mem p) ∧
     Memory.wf s.mem = true ∧
     (∀ j < 4, s.wiping (p + 16 * j) = false) ∧
     s.sfm (spanOf y) = 0 ∧
     ¬wrongFold ∧
     ¬reservedSet ∧
     (word 5 = 0 ∨ (word 5).toNat % 4 = 0 ∧ (s.translate f (spanOf y) (word 5)).memPhys ≠ none) ∧
     k.deque.length < 64 ∧
     id ∉ s.liveIdents f) :=
  ⟨⟨calm_of (by decide +kernel) rfl, by decide +kernel⟩,
    ⟨calm_of (by decide +kernel) rfl, by intro j h; interval_cases j <;> exact ⟨_, rfl⟩, ⟨rfl, rfl, rfl⟩, by decide +kernel⟩,
    ⟨calm_of (by decide +kernel) rfl, by intro j h; interval_cases j <;> exact ⟨_, rfl⟩, ⟨rfl, rfl, rfl⟩, by decide +kernel⟩,
    ⟨calm_of (by decide +kernel) rfl, by intro j h; interval_cases j <;> exact ⟨_, rfl⟩, ⟨rfl, rfl, rfl⟩, by decide +kernel⟩,
    ⟨calm_of (by decide +kernel) rfl, by intro j h; interval_cases j <;> exact ⟨_, rfl⟩, ⟨rfl, rfl, rfl⟩, by decide +kernel⟩,
    ⟨calm_of (by decide +kernel) rfl, by intro j h; interval_cases j <;> exact ⟨_, rfl⟩, ⟨rfl, rfl, rfl⟩, by decide +kernel⟩⟩

/-- O23, JoinsWaitForTaskEnds: states and operands that meet the hypotheses of its clauses. -/
theorem test_joins :
    (let s : State := (joining 0x80000000 []); let y : YokeId := 0; let f : FoldId := 0; let src : Gpr := 0
     let p : Nat := 0x0200000010; let k := s.yoke y; let c := k.lead; let sp := spanOf y; let a := c.rd src
     let count := leValue (memRead s.mem p 4) % 2 ^ 31
     s.Calm y ∧
     NoErrors s ∧
     s.foldOf y = some f ∧
     Memory.wf s.mem = true ∧
     s.sfm sp = 0 ∧
     a.toNat % 4 = 0 ∧
     s.check f sp c.ring a 4 Need.read = some (.mem p) ∧
     s.wiping p = false ∧
     count = 0) ∧
    (let s : State := (joining 1 [⟨0x0200000010, ⟨0, 0⟩⟩]); let y : YokeId := 0; let f : FoldId := 0
     let src : Gpr := 0; let p : Nat := 0x0200000010; let k := s.yoke y; let c := k.lead; let sp := spanOf y
     let a := c.rd src; let count := leValue (memRead s.mem p 4) % 2 ^ 31; let fo := s.fold f
     s.Calm y ∧
     NoErrors s ∧
     s.foldOf y = some f ∧
     Memory.wf s.mem = true ∧
     s.sfm sp = 0 ∧
     a.toNat % 4 = 0 ∧
     s.check f sp c.ring a 4 Need.read = some (.mem p) ∧
     s.wiping p = false ∧
     count ≠ 0 ∧
     (∃ j ∈ fo.joins, j.phys = p)) ∧
    (let s : State := (joining 0x7FFFFFFF []); let y : YokeId := 0; let f : FoldId := 0; let src : Gpr := 0
     let p : Nat := 0x0200000010; let slot : Nat := 1; let k := s.yoke y; let c := k.lead; let sp := spanOf y
     let a := c.rd src; let count := leValue (memRead s.mem p 4) % 2 ^ 31; let fo := s.fold f
     s.Calm y ∧
     NoErrors s ∧
     s.foldOf y = some f ∧
     Memory.wf s.mem = true ∧
     s.sfm sp = 0 ∧
     a.toNat % 4 = 0 ∧
     s.check f sp c.ring a 4 Need.read = some (.mem p) ∧
     s.wiping p = false ∧
     count ≠ 0 ∧
     (∀ j ∈ fo.joins, j.phys ≠ p) ∧
     fo.joins.length < 512 ∧
     slot < 272 ∧
     (∀ e ∈ (s.span sp).slots, e.1 ≠ slot) ∧
     (∀ n < slot, ∃ e ∈ (s.span sp).slots, e.1 = n)) ∧
    (let s : State := (locked 0 [0x80000010]); let y : YokeId := 0; let f : FoldId := 0; let op : Byte := 0
     let k := s.yoke y; let c := k.lead; let sp := spanOf y
     s.Calm y ∧
     NoErrors s ∧
     s.foldOf y = some f ∧
     Memory.wf s.mem = true ∧
     s.sfm sp = 0 ∧
     op = 0 ∧
     c.task.tlist ≠ []) ∧
    (let s : State := calm 3; let y : YokeId := 0; let f : FoldId := 0; let op : Byte := 1; let k := s.yoke y
     let c := k.lead; let sp := spanOf y
     s.Calm y ∧
     NoErrors s ∧
     s.foldOf y = some f ∧
     Memory.wf s.mem = true ∧
     s.sfm sp = 0 ∧
     op.toNat ≤ 1 ∧
     c.task.tlist = [] ∧
     c.task.tjoin = 0) ∧
    (let s : State := (joining 0x80000001 [⟨0x0200000010, ⟨0, 0⟩⟩])
     let y : YokeId := 0; let f : FoldId := 0; let op : Byte := 1; let jp : Nat := 0x0200000010; let k := s.yoke y
     let c := k.lead; let sp := spanOf y; let counter := leValue (memRead s.mem jp 4)
     s.Calm y ∧
     NoErrors s ∧
     s.foldOf y = some f ∧
     Memory.wf s.mem = true ∧
     s.sfm sp = 0 ∧
     op.toNat ≤ 1 ∧
     c.task.tlist = [] ∧
     c.task.tjoin ≠ 0 ∧
     s.physOf y c.task.tjoin = some jp ∧
     s.wiping jp = false ∧
     counter % 2 ^ 31 ≠ 0) :=
  ⟨⟨calm_of (by decide +kernel) rfl, ⟨rfl, rfl, rfl⟩, by decide +kernel⟩,
    ⟨calm_of (by decide +kernel) rfl, ⟨rfl, rfl, rfl⟩, by decide +kernel⟩,
    ⟨calm_of (by decide +kernel) rfl, ⟨rfl, rfl, rfl⟩, by decide +kernel⟩,
    ⟨calm_of (by decide +kernel) rfl, ⟨rfl, rfl, rfl⟩, by decide +kernel⟩,
    ⟨calm_of (by decide +kernel) rfl, ⟨rfl, rfl, rfl⟩, by decide +kernel⟩,
    ⟨calm_of (by decide +kernel) rfl, ⟨rfl, rfl, rfl⟩, by decide +kernel⟩⟩

/-- O24, ChannelsAreQueues: states and operands that meet the hypotheses of its clauses. -/
theorem test_channels :
    (let s : State := calm 3; let y : YokeId := 0; let f : FoldId := 0; let src : Gpr := 2; let k := s.yoke y
     let c := k.lead; let h := c.rd src; let n := h.toNat % 64; let fo := s.fold f; let ch := fo.chan n
     let isOpen : Prop := h.toNat < 64 ∧ ch.isOpen = true
     s.Calm y ∧
     NoErrors s ∧
     s.foldOf y = some f ∧
     Memory.wf s.mem = true ∧
     ¬isOpen) ∧
    (let s : State := (channel 3 3); let y : YokeId := 0; let f : FoldId := 0; let src : Gpr := 2
     let p : Nat := 0x0200000018; let k := s.yoke y; let c := k.lead; let h := c.rd src; let n := h.toNat % 64
     let fo := s.fold f; let ch := fo.chan n; let cap := 2 ^ ch.dpow.toNat
     let at' (j : Nat) : Word := ch.base + BitVec.ofNat 32 (4 * (j % cap))
     let isOpen : Prop := h.toNat < 64 ∧ ch.isOpen = true
     s.Calm y ∧
     NoErrors s ∧
     s.foldOf y = some f ∧
     Memory.wf s.mem = true ∧
     isOpen ∧
     ch.count < cap ∧
     ch.pget = none ∧
     s.physOf y (at' (ch.head + ch.count)) = some p ∧
     s.wiping p = false) ∧
    (let s : State := (channel 3 4); let y : YokeId := 0; let f : FoldId := 0; let src : Gpr := 2
     let p : Nat := 0x020000001C; let k := s.yoke y; let c := k.lead; let h := c.rd src; let n := h.toNat % 64
     let fo := s.fold f; let ch := fo.chan n; let cap := 2 ^ ch.dpow.toNat
     let at' (j : Nat) : Word := ch.base + BitVec.ofNat 32 (4 * (j % cap))
     let isOpen : Prop := h.toNat < 64 ∧ ch.isOpen = true
     s.Calm y ∧
     NoErrors s ∧
     s.foldOf y = some f ∧
     Memory.wf s.mem = true ∧
     isOpen ∧
     0 < ch.count ∧
     ch.pput = none ∧
     s.physOf y (at' ch.head) = some p ∧
     s.wiping p = false) ∧
    (let s : State := (channel 3 4); let y : YokeId := 0; let f : FoldId := 0; let src : Gpr := 2; let slot : Nat := 0
     let k := s.yoke y; let c := k.lead; let sp := spanOf y; let h := c.rd src; let n := h.toNat % 64
     let fo := s.fold f; let ch := fo.chan n; let cap := 2 ^ ch.dpow.toNat
     let isFree : Prop := slot < 272 ∧ (∀ e ∈ (s.span sp).slots, e.1 ≠ slot) ∧ ∀ n < slot, ∃ e ∈ (s.span sp).slots, e.1 = n
     let isOpen : Prop := h.toNat < 64 ∧ ch.isOpen = true
     s.Calm y ∧
     NoErrors s ∧
     s.foldOf y = some f ∧
     Memory.wf s.mem = true ∧
     isOpen ∧
     cap ≤ ch.count ∧
     ch.pput = none ∧
     isFree) ∧
    (let s : State := (channel 3 0); let y : YokeId := 0; let f : FoldId := 0; let src : Gpr := 2; let slot : Nat := 0
     let k := s.yoke y; let c := k.lead; let sp := spanOf y; let h := c.rd src; let n := h.toNat % 64
     let fo := s.fold f; let ch := fo.chan n
     let isFree : Prop := slot < 272 ∧ (∀ e ∈ (s.span sp).slots, e.1 ≠ slot) ∧ ∀ n < slot, ∃ e ∈ (s.span sp).slots, e.1 = n
     let isOpen : Prop := h.toNat < 64 ∧ ch.isOpen = true
     s.Calm y ∧
     NoErrors s ∧
     s.foldOf y = some f ∧
     Memory.wf s.mem = true ∧
     isOpen ∧
     ch.count = 0 ∧
     ch.pget = none ∧
     isFree) :=
  ⟨⟨calm_of (by decide +kernel) rfl, ⟨rfl, rfl, rfl⟩, by decide +kernel⟩,
    ⟨calm_of (by decide +kernel) rfl, ⟨rfl, rfl, rfl⟩, by decide +kernel⟩,
    ⟨calm_of (by decide +kernel) rfl, ⟨rfl, rfl, rfl⟩, by decide +kernel⟩,
    ⟨calm_of (by decide +kernel) rfl, ⟨rfl, rfl, rfl⟩, by decide +kernel⟩,
    ⟨calm_of (by decide +kernel) rfl, ⟨rfl, rfl, rfl⟩, by decide +kernel⟩⟩

/-- O25, WaitsYieldsSamplesAndFences: states and operands that meet the hypotheses of its clauses. -/
theorem test_waits :
    (let s : State := (regd 3 1 0); let y : YokeId := 0; let f : FoldId := 0; let src : Gpr := 1; let k := s.yoke y
     let c := k.lead; let set := c.rd src
     let badSet : Prop := set.toNat % 2 ^ 13 = 0 ∧ set.toNat / 2 ^ 20 = 0 ∨ set &&& 0x000FE400 ≠ 0
     s.Calm y ∧
     s.foldOf y = some f ∧
     badSet) ∧
    (let s : State := (regd 3 1 0x00200800); let y : YokeId := 0; let f : FoldId := 0; let src : Gpr := 1
     let k := s.yoke y; let c := k.lead; let set := c.rd src
     let badSet : Prop := set.toNat % 2 ^ 13 = 0 ∧ set.toNat / 2 ^ 20 = 0 ∨ set &&& 0x000FE400 ≠ 0
     s.Calm y ∧
     s.foldOf y = some f ∧
     ¬badSet ∧
     s.waitLevel f set = none) ∧
    (let s : State := (withFold (regd 3 1 0x1000) fun f => { f with mbRdy := true })
     let y : YokeId := 0; let f : FoldId := 0; let src : Gpr := 1; let k := s.yoke y; let c := k.lead
     let set := c.rd src
     let badSet : Prop := set.toNat % 2 ^ 13 = 0 ∧ set.toNat / 2 ^ 20 = 0 ∨ set &&& 0x000FE400 ≠ 0
     let b := 12
     s.Calm y ∧
     s.foldOf y = some f ∧
     ¬badSet ∧
     s.waitLevel f set = some b) ∧
    (let s : State := calm 1; let y : YokeId := 0; let f : FoldId := 0; let k := s.yoke y; let sp := spanOf y
     s.Calm y ∧
     s.foldOf y = some f ∧
     s.sfm sp ≠ 2 ∧
     k.deque = [] ∧
     (s.span sp).overflow = [] ∧
     (∀ j, (s.yoke (yokeAt sp j)).deque = [])) ∧
    (let s : State := (withSpan (withYoke (calm 1) fun k => { k with deque := [childTask, childTask] }) fun p => { p with slots := [(0, ⟨⟨coreIn 0, Vector.replicate 16 0, 0⟩, .resume⟩)] })
     let y : YokeId := 0; let f : FoldId := 0; let td : TaskDesc := childTask; let ds : List TaskDesc := [childTask]
     let slot : Nat := 1; let k := s.yoke y; let sp := spanOf y
     s.Calm y ∧
     s.foldOf y = some f ∧
     k.deque = ds ++ [td] ∧
     (s.span sp).overflow.length < 1024 ∧
     s.sfm sp = 0 ∧
     slot < 272 ∧
     (∀ e ∈ (s.span sp).slots, e.1 ≠ slot) ∧
     (∀ n < slot, ∃ e ∈ (s.span sp).slots, e.1 = n)) ∧
    (let s : State := (withPair (calm 3)); let y : YokeId := 0; let f : FoldId := 0; let pair : Byte := 0
     let k := s.yoke y; let c := k.lead; let sp := spanOf y
     let readable : Prop := s.pairReadable f pair.toNat = true ∧
      s.check f sp c.ring (0xF6000000 + BitVec.ofNat 32 (16 * pair.toNat)) 4 Need.read ≠ none
     s.Calm y ∧
     s.foldOf y = some f ∧
     readable) ∧
    (let s : State := calm 0; let y : YokeId := 0; let f : FoldId := 0; let pair : Byte := 63; let k := s.yoke y
     let c := k.lead; let sp := spanOf y
     let readable : Prop := s.pairReadable f pair.toNat = true ∧
      s.check f sp c.ring (0xF6000000 + BitVec.ofNat 32 (16 * pair.toNat)) 4 Need.read ≠ none
     s.Calm y ∧
     s.foldOf y = some f ∧
     ¬readable) ∧
    (let s : State := calm 2; let y : YokeId := 0; let f : FoldId := 0; let code : Bool := false
     s.Calm y ∧
     s.foldOf y = some f ∧
     code = false) ∧
    (let s : State := calm 2; let y : YokeId := 0; let f : FoldId := 0; let code : Bool := true
     s.Calm y ∧
     s.foldOf y = some f ∧
     code = true) ∧
    (let s : State := (waits 0x00200000 2007); let y : YokeId := 0; let f : FoldId := 0; let src : Gpr := 1
     let w : WaitInfo := ⟨0x00200000, 5, 9, 3⟩; let k := s.yoke y; let c := k.lead; let set := c.rd src
     s.foldOf y = some f ∧
     k.run = .waiting w ∧
     k.debug ≠ .stepping ∧
     w.set.toNat / 2 ^ 20 ≠ 0 ∧
     s.clk.fcPast (w.begin + w.set.toNat / 2 ^ 20 * 1000) = true) :=
  ⟨⟨calm_of (by decide +kernel) rfl, by decide +kernel⟩,
    ⟨calm_of (by decide +kernel) rfl, by decide +kernel⟩,
    ⟨calm_of (by decide +kernel) rfl, by decide +kernel⟩,
    ⟨calm_of (by decide +kernel) rfl, by decide +kernel⟩,
    ⟨calm_of (by decide +kernel) rfl, by decide +kernel⟩,
    ⟨calm_of (by decide +kernel) rfl, by decide +kernel⟩,
    ⟨calm_of (by decide +kernel) rfl, by decide +kernel⟩,
    ⟨calm_of (by decide +kernel) rfl, by decide +kernel⟩,
    ⟨calm_of (by decide +kernel) rfl, by decide +kernel⟩,
    by and_intros <;> decide +kernel⟩

/-- O26, FloatInstructionsDeliverTheirResults: states and operands that meet the hypotheses of its clauses. -/
theorem test_float (h : Obligations.FloatInstructionsDeliverTheirResults) :
    (∃ t, exec (.fmov 0 0 15) (calm 1) = .next t) ∧ (∃ t, exec (.addS 0 (.static 1) 2 15 3) (calm 1) = .next t) ∧
    ∃ t, exec (.fmvg 0 true 4 15) (calm 1) = .next t := by
  refine ⟨?_, ?_, ?_⟩
  · obtain ⟨t, _, _, e, _⟩ := h (calm 1) 0 .fcsr 0 15 3 4 5 true false false (.fmov 0 15) (.fmov 0 0 15) (0, 0)
      (List.mem_of_getElem? (i := 14) rfl) (ready_of (by decide +kernel)) rfl rfl rfl rfl rfl (by decide +kernel)
    exact ⟨t, e⟩
  · obtain ⟨t, _, _, e, _⟩ := h (calm 1) 0 (.static 1) 2 15 3 4 5 true false true (.bin .add true (.static 1) 2 15 3)
      (.addS 0 (.static 1) 2 15 3) _
      (List.mem_of_getElem? (i := 0) rfl) (ready_of (by decide +kernel)) rfl rfl rfl rfl rfl (by decide +kernel)
    exact ⟨t, e⟩
  · obtain ⟨t, _, _, e, _⟩ := h (calm 1) 0 .fcsr 0 15 3 4 5 true false false (.fmvg true 4 15) (.fmvg 0 true 4 15) (0, 0)
      (List.mem_of_getElem? (i := 20) rfl) (ready_of (by decide +kernel)) rfl rfl rfl rfl rfl (by decide +kernel)
    exact ⟨t, e⟩

/-- O28, FloatLoadsAndStoresMoveBits: states and operands that meet the hypotheses of its clauses. -/
theorem test_floatMemory :
    (let s : State := (withWords (calm 1) 0x0200000020 [5, 6]); let y : YokeId := 0; let f : FoldId := 0
     let x : Bool := false; let d : Freg := 15; let m : MemAddr := (.base 3 0); let p : Nat := 0x0200000020
     let k := s.yoke y; let c := k.lead; let a := c.ea m
     let n := if x then 4 else 8
     s.Ready y (.fld x d m) 1 ∧
     s.decodeAccess p n = (s, .completed) ∧
     s.foldOf y = some f ∧
     a.toNat % n = 0 ∧
     s.check f (spanOf y) c.ring a n Need.read = some (.mem p) ∧
     s.heldElsewhere y p = false ∧
     k.loads = [] ∧
     k.fpu.queue = [] ∧
     k.fpu.busy = [] ∧
     k.branch = none ∧
     k.pend = none ∧
     k.fpu.fcsr.toNat / 2 ^ 8 % 2 ^ 5 = 0) ∧
    (let s : State := floating; let y : YokeId := 0; let f : FoldId := 0; let x : Bool := true; let d : Freg := 0
     let m : MemAddr := (.base 3 4); let k := s.yoke y; let c := k.lead; let a := c.ea m
     let n := if x then 4 else 8
     s.Ready y (.fst x d m) 1 ∧
     s.foldOf y = some f ∧
     a.toNat % n = 0 ∧
     k.awaitsFreg d = true) ∧
    (let s : State := calm 2; let y : YokeId := 0; let f : FoldId := 0; let x : Bool := true; let d : Freg := 7
     let m : MemAddr := (.base 3 4); let p : Nat := 0x0200000024; let k := s.yoke y; let c := k.lead; let a := c.ea m
     let n := if x then 4 else 8
     s.Ready y (.fst x d m) 1 ∧
     s.foldOf y = some f ∧
     a.toNat % n = 0 ∧
     k.awaitsFreg d = false ∧
     s.check f (spanOf y) c.ring a n Need.write = some (.mem p) ∧
     k.whb.length < 128 ∧
     k.whb.filter (fun e => decide (e.phys / 16 = p / 16)) = []) :=
  ⟨⟨ready_of (by decide +kernel), rfl, by decide +kernel⟩,
    ⟨ready_of (by decide +kernel), by decide +kernel⟩,
    ⟨ready_of (by decide +kernel), by decide +kernel⟩⟩

/-- O29, TheTrailingCoreChecksTheLeading: states and operands that meet the hypotheses of its clauses. -/
theorem test_trailing :
    (let s : State := checking; let y : YokeId := 0; let e : CqEntry := oldest
     let rest : List CqEntry := (checking.yoke 0).cq.tail; let k := s.yoke y
     let mine := k.lvq.filter fun v => v.seq == e.seq
     let r := e.op.run k.trail ⟨mine.map LvqEntry.value, e.data⟩
     let intact : Prop := ∀ v ∈ mine, v.parity = parity32 v.value
     k.cq = e :: rest ∧
     e.squashed = false ∧
     e.fetchOff = none ∧
     k.trailMay (s.slipTarget y) = true ∧
     k.trailReady e = true ∧
     e.out = r.2 ∧
     intact ∧
     k.inj = false ∧
     e.op.refusedEvent k.trail = false ∧
     (∀ v ∈ mine, v.status = .completed) ∧
     k.heldReports = []) ∧
    (let s : State := checking; let y : YokeId := 0; let e : CqEntry := oldest
     let rest : List CqEntry := (checking.yoke 0).cq.tail; let f : BusField := .storeData; let mask : BitVec 128 := 1
     let a : BitVec 128 := 1; let k := s.yoke y
     let mine := k.lvq.filter fun v => v.seq == e.seq
     let r := e.op.run k.trail ⟨mine.map LvqEntry.value, e.data⟩
     let intact : Prop := ∀ v ∈ mine, v.parity = parity32 v.value
     k.cq = e :: rest ∧
     e.squashed = false ∧
     e.fetchOff = none ∧
     k.trailMay (s.slipTarget y) = true ∧
     k.trailReady e = true ∧
     e.out = r.2 ∧
     intact ∧
     r.2.field f = some a ∧
     mask &&& r.2.lines f ≠ 0 ∧
     k.inj = false ∧
     k.run = .task ∧
     k.prev = none) ∧
    (let s : State := (withYoke checking fun k => { k with prev := some ⟨4, 0, 1, 0⟩ })
     let y : YokeId := 0; let e : CqEntry := oldest; let rest : List CqEntry := (checking.yoke 0).cq.tail
     let f : BusField := .storeData; let mask : BitVec 128 := 1; let a : BitVec 128 := 1; let k := s.yoke y
     let mine := k.lvq.filter fun v => v.seq == e.seq
     let r := e.op.run k.trail ⟨mine.map LvqEntry.value, e.data⟩
     let intact : Prop := ∀ v ∈ mine, v.parity = parity32 v.value
     let p := ⟨4, 0, 1, 0⟩
     k.cq = e :: rest ∧
     e.squashed = false ∧
     e.fetchOff = none ∧
     k.trailMay (s.slipTarget y) = true ∧
     k.trailReady e = true ∧
     e.out = r.2 ∧
     intact ∧
     r.2.field f = some a ∧
     mask &&& r.2.lines f ≠ 0 ∧
     k.inj = false ∧
     k.run = .task ∧
     k.prev = some p ∧
     s.clk.time - p.time ≤ 1000000) ∧
    (let s : State := (withYoke checking fun k => { k with lvq := [{ lvqEntry 1 .load 5 .completed with parity := 1 }] })
     let y : YokeId := 0; let e : CqEntry := oldest; let rest : List CqEntry := (checking.yoke 0).cq.tail
     let k := s.yoke y
     let mine := k.lvq.filter fun v => v.seq == e.seq
     let intact : Prop := ∀ v ∈ mine, v.parity = parity32 v.value
     k.cq = e :: rest ∧
     e.squashed = false ∧
     e.fetchOff = none ∧
     k.trailMay (s.slipTarget y) = true ∧
     k.trailReady e = true ∧
     ¬intact ∧
     k.inj = false ∧
     k.run = .task ∧
     k.prev = none) ∧
    (let s : State := (withYoke checking fun k => { k with inj := true })
     let y : YokeId := 0; let e : CqEntry := oldest; let rest : List CqEntry := (checking.yoke 0).cq.tail
     let k := s.yoke y
     k.cq = e :: rest ∧
     e.squashed = false ∧
     e.fetchOff = none ∧
     k.trailMay (s.slipTarget y) = true ∧
     k.trailReady e = true ∧
     k.inj = true ∧
     k.run = .task) :=
  by and_intros <;> decide +kernel

/-- O30, CheckpointsAreCapturedAndConfirmed: states and operands that meet the hypotheses of its clauses. -/
theorem test_checkpoints :
    (let s : State := calm 0; let y : YokeId := 0
     s.Ready y .ckpt 1 ∧
     (s.yoke y).pend = none ∧
     (s.yoke y).fpu.queue = [] ∧
     (s.yoke y).fpu.busy = []) ∧
    (let s : State := (withYoke (calm 0) fun k => { k with retired := 4096 })
     let y : YokeId := 0; let cmd : Instr := (.checkpointCountTrigger 0); let k := s.yoke y
     (cmd = .checkpointCountTrigger y ∧ 4096 ≤ k.retired ∨ cmd = .checkpointTimeTrigger y ∧ 4608 ≤ s.clk.fc - k.ckFc) ∧
     k.run = .task ∧
     k.collapse = none ∧
     k.debug = .off ∧
     k.pend = none ∧
     k.loads = [] ∧
     k.branch = none ∧
     k.floatHolds = false) ∧
    (let s : State := (atTime (calm 3) 4608); let y : YokeId := 0; let cmd : Instr := (.checkpointTimeTrigger 0)
     let k := s.yoke y
     (cmd = .checkpointCountTrigger y ∧ 4096 ≤ k.retired ∨ cmd = .checkpointTimeTrigger y ∧ 4608 ≤ s.clk.fc - k.ckFc) ∧
     k.run = .task ∧
     k.collapse = none ∧
     k.debug = .off ∧
     k.pend = none ∧
     k.loads = [] ∧
     k.branch = none ∧
     k.floatHolds = false) ∧
    (let s : State := (withYoke (holding [entry 3 .open]) fun k => { k with pend := some pendingCk })
     let y : YokeId := 0; let p : PendCk := pendingCk; let rc : Core := (coreIn 0).inv
     let fl : Vector DWord 16 × Word := (Vector.replicate 16 0, 0)
     let k := s.yoke y
     k.pend = some p ∧
     p.fl = some fl ∧
     p.reached = some rc ∧
     rc.inv = p.core ∧
     k.debug = .off ∧
     k.inj = false ∧
     k.ckptDue = false ∧
     (∀ w ∈ k.whb, w.io = false ∧ (w.closes p.interval = true → w.ecc = .clean))) ∧
    (let s : State := (withYoke (holding [entry 3 .open]) fun k => { k with pend := some pendingCk })
     let y : YokeId := 0; let p : PendCk := pendingCk; let rc : Core := (coreIn 0).inv
     let fl : Vector DWord 16 × Word := (Vector.replicate 16 0, 0)
     let reg : Byte := 15; let mask : Word := 0x80000000; let k := s.yoke y
     k.pend = some p ∧
     p.fl = some fl ∧
     p.reached = some rc ∧
     rc.inv = p.core ∧
     k.debug = .off ∧
     k.inj = false ∧
     reg.toNat < 16 ∧
     mask ≠ 0 ∧
     k.run = .task ∧
     k.prev = none) ∧
    (let s : State := (atTime checking 4096); let y : YokeId := 0; let k := s.yoke y
     k.cq ≠ [] ∧
     4096 ≤ s.clk.fc - k.trailFc ∧
     k.run = .task) ∧
    (let s : State := calm 0; let y : YokeId := 0; let k := s.yoke y
     (k.cq = [] ∨ s.clk.fc - k.trailFc < 4096)) ∧
    (let s : State := (atTime checking 4095); let y : YokeId := 0; let k := s.yoke y
     (k.cq = [] ∨ s.clk.fc - k.trailFc < 4096)) :=
  ⟨⟨ready_of (by decide +kernel), by decide +kernel⟩,
    by and_intros <;> decide +kernel⟩

/-- O31, CollapsesCompleteAfterTheDrain: states and operands that meet the hypotheses of its clauses. -/
theorem test_collapses :
    (let s : State := (withYoke (collapsing (.join 0x80000010 0x0200000010) (.operand 1) 2) fun k => { k with cq := [] })
     let y : YokeId := 0; let f : FoldId := 0; let len : Nat := 2
     let op : CollapseOp := (.join 0x80000010 0x0200000010); let k := s.yoke y
     let waits (t : State) : Prop := t.collapseHeld y = true ∨ t.faultHeld y (t.perform y) = true
     s.foldOf y = some f ∧
     k.collapse = some ⟨op, len⟩ ∧
     op.bounded = true ∧
     k.pend = none ∧
     k.ckptDue = false ∧
     k.whb = [] ∧
     k.debug = .off ∧
     k.cq = [] ∧
     ¬waits s) ∧
    (let s : State := (collapsing (.join 0x80000010 0x0200000010) (.operand 1) 2)
     let y : YokeId := 0; let f : FoldId := 0; let len : Nat := 2
     let op : CollapseOp := (.join 0x80000010 0x0200000010); let e : CqEntry := (collapseEntry (.operand 1))
     let o : CollapseOut := (.operand 1); let k := s.yoke y
     let u := s.setYoke y { k with cq := [], spec := none, trailFc := s.clk.fc }
     let reached : Prop := k.cq = [e] ∧ e.op = .collapse o ∧ e.out = o.drives k.trail ∧ e.squashed = false ∧ e.fetchOff = none ∧
      e.whb = none ∧ e.lvqUse = 0 ∧ (∀ w ∈ k.lvq, w.seq ≠ e.seq) ∧ k.branch = none ∧ k.inj = false ∧ k.heldReports = []
     let waits (t : State) : Prop := t.collapseHeld y = true ∨ t.faultHeld y (t.perform y) = true
     s.foldOf y = some f ∧
     k.collapse = some ⟨op, len⟩ ∧
     op.bounded = true ∧
     k.pend = none ∧
     k.ckptDue = false ∧
     k.whb = [] ∧
     k.debug = .off ∧
     reached ∧
     ¬waits u) ∧
    (let s : State := (collapsing (.fence false) .none 2); let y : YokeId := 0; let f : FoldId := 0
     let len : Nat := 2; let op : CollapseOp := (.fence false); let e : CqEntry := (collapseEntry .none)
     let o : CollapseOut := .none; let k := s.yoke y
     let reached : Prop := k.cq = [e] ∧ e.op = .collapse o ∧ e.out = o.drives k.trail ∧ e.squashed = false ∧ e.fetchOff = none ∧
      e.whb = none ∧ e.lvqUse = 0 ∧ (∀ w ∈ k.lvq, w.seq ≠ e.seq) ∧ k.branch = none ∧ k.inj = false ∧ k.heldReports = []
     s.foldOf y = some f ∧
     k.collapse = some ⟨.fence false, len⟩ ∧
     (reached ∨ k.cq = [] ∧ k.inj = false) ∧
     k.pend = none ∧
     k.ckptDue = false ∧
     k.whb = [] ∧
     k.debug = .off ∧
     k.loads = [] ∧
     k.branch = none ∧
     k.fpu.queue = [] ∧
     k.fpu.busy = [] ∧
     k.trail = k.lead) ∧
    (let s : State := (collapsing (.join 0x80000010 0x0200000010) (.operand 1) 2)
     let y : YokeId := 0; let len : Nat := 2; let op : CollapseOp := (.join 0x80000010 0x0200000010)
     let fld : BusField := .load; let mask : BitVec 128 := (1 <<< 38)
     let a : BitVec 128 := (BitVec.ofNat 128 (1 + 2 * 2 ^ 32 + 9 * 2 ^ 35))
     let e : CqEntry := (collapseEntry (.operand 1)); let o : CollapseOut := (.operand 1); let k := s.yoke y
     let reached : Prop := k.cq = [e] ∧ e.op = .collapse o ∧ e.out = o.drives k.trail ∧ e.squashed = false ∧ e.fetchOff = none ∧
      e.whb = none ∧ e.lvqUse = 0 ∧ (∀ w ∈ k.lvq, w.seq ≠ e.seq) ∧ k.branch = none ∧ k.inj = false ∧ k.heldReports = []
     k.collapse = some ⟨op, len⟩ ∧
     reached ∧
     (o.drives k.trail).field fld = some a ∧
     mask &&& (o.drives k.trail).lines fld ≠ 0 ∧
     k.run = .task ∧
     k.prev = none) ∧
    (let s : State := calm 0; let y : YokeId := 0; let k := s.yoke y
     (k.collapse = none ∧ k.lead.task.abort ≠ .due ∨ k.collapse ≠ none ∧ 2 ≤ k.cq.length)) ∧
    (let s : State := calm 0; let sp : SpanId := 0; let v : Word := 4; let old := s.reg (rCkctl sp) 0x10
     let slip := v.toNat % 2 ^ 7
     s.power.main = true ∧
     s.firmware = true ∧
     bit old 31 = false ∧
     4 ≤ slip ∧
     slip ≤ 64) ∧
    (let s : State := calm 0; let sp : SpanId := 0; let v : Word := 64; let old := s.reg (rCkctl sp) 0x10
     let slip := v.toNat % 2 ^ 7
     s.power.main = true ∧
     s.firmware = true ∧
     bit old 31 = false ∧
     4 ≤ slip ∧
     slip ≤ 64) ∧
    (let s : State := calm 0; let sp : SpanId := 0; let v : Word := 3; let old := s.reg (rCkctl sp) 0x10
     let slip := v.toNat % 2 ^ 7
     s.power.main = true ∧
     s.firmware = true ∧
     bit old 31 = false ∧
     (slip < 4 ∨ 64 < slip)) ∧
    (let s : State := calm 0; let sp : SpanId := 0; let v : Word := 65; let old := s.reg (rCkctl sp) 0x10
     let slip := v.toNat % 2 ^ 7
     s.power.main = true ∧
     s.firmware = true ∧
     bit old 31 = false ∧
     (slip < 4 ∨ 64 < slip)) ∧
    (let s : State := ((calm 0).setReg (rCkctl 0) 0x80000010); let sp : SpanId := 0; let old := s.reg (rCkctl sp) 0x10
     s.power.main = true ∧
     s.firmware = true ∧
     bit old 31 = true) ∧
    (let s : State := calm 0; let sp : SpanId := 0; let v : Word := 0xF0010
     let named := yokeAt sp (Fin.ofNat 16 (v.toNat / 2 ^ 16))
     s.power.main = true ∧
     s.firmware = true ∧
     (s.yoke named).stalled = false ∧
     (s.yoke named).debug = .off) ∧
    (let s : State := (withYoke (calm 0) fun k => { k with stalled := true })
     let sp : SpanId := 0; let v : Word := 0x10; let named := yokeAt sp (Fin.ofNat 16 (v.toNat / 2 ^ 16))
     s.power.main = true ∧
     s.firmware = true ∧
     ((s.yoke named).stalled = true ∨ (s.yoke named).debug ≠ .off)) ∧
    (let s : State := (withYoke (withCore (calm 0) fun c => { c with task := { c.task with abort := .due } }) fun k => { k with cq := [collapseEntry (.operand 1)] })
     let y : YokeId := 0; let k := s.yoke y
     k.collapse = none ∧
     k.lead.task.abort = .due ∧
     k.run = .task ∧
     k.cq ≠ [] ∧
     k.debug = .off ∧
     k.pend = none ∧
     k.loads = [] ∧
     k.branch = none ∧
     k.floatHolds = false) ∧
    (let s : State := (withYoke ((collapsing (.join 0x80000010 0x0200000010) (.operand 1) 2).setYoke 1 { Yoke.reset with whb := [{ entry 2 (.accepted 1) with phys := 0x0200000010, be := 0xF }] }) fun k => { k with cq := [] })
     let y : YokeId := 0; let f : FoldId := 0; let len : Nat := 2
     let op : CollapseOp := (.join 0x80000010 0x0200000010); let k := s.yoke y
     let waits (t : State) : Prop := t.collapseHeld y = true ∨ t.faultHeld y (t.perform y) = true
     s.foldOf y = some f ∧
     k.collapse = some ⟨op, len⟩ ∧
     op.bounded = true ∧
     k.pend = none ∧
     k.ckptDue = false ∧
     k.whb = [] ∧
     k.debug = .off ∧
     k.cq = [] ∧
     waits s) ∧
    (let s : State := ((collapsing (.join 0x80000010 0x0200000010) (.operand 1) 2).setYoke 1 { Yoke.reset with whb := [{ entry 2 (.accepted 1) with phys := 0x0200000010, be := 0xF }] })
     let y : YokeId := 0; let f : FoldId := 0; let len : Nat := 2
     let op : CollapseOp := (.join 0x80000010 0x0200000010); let e : CqEntry := (collapseEntry (.operand 1))
     let o : CollapseOut := (.operand 1); let k := s.yoke y
     let u := s.setYoke y { k with cq := [], spec := none, trailFc := s.clk.fc }
     let reached : Prop := k.cq = [e] ∧ e.op = .collapse o ∧ e.out = o.drives k.trail ∧ e.squashed = false ∧ e.fetchOff = none ∧
      e.whb = none ∧ e.lvqUse = 0 ∧ (∀ w ∈ k.lvq, w.seq ≠ e.seq) ∧ k.branch = none ∧ k.inj = false ∧ k.heldReports = []
     let waits (t : State) : Prop := t.collapseHeld y = true ∨ t.faultHeld y (t.perform y) = true
     s.foldOf y = some f ∧
     k.collapse = some ⟨op, len⟩ ∧
     op.bounded = true ∧
     k.pend = none ∧
     k.ckptDue = false ∧
     k.whb = [] ∧
     k.debug = .off ∧
     reached ∧
     waits u) :=
  by and_intros <;> decide +kernel

/-- O32, CheckerCommandsComplete: states and operands that meet the hypotheses of its clauses. -/
theorem test_checkers :
    (let s : State := (withPair (collapsing (.sample 15 0 .safe) (.sample 0) 3))
     let y : YokeId := 0; let f : FoldId := 0; let len : Nat := 3; let d : Gpr := 15; let pair : Byte := 0
     let a : SampleVal := .safe; let e : CqEntry := (collapseEntry (.sample 0)); let o : CollapseOut := (.sample 0)
     let k := s.yoke y
     let reached : Prop := k.cq = [e] ∧ e.op = .collapse o ∧ e.out = o.drives k.trail ∧ e.squashed = false ∧ e.fetchOff = none ∧
      e.whb = none ∧ e.lvqUse = 0 ∧ (∀ w ∈ k.lvq, w.seq ≠ e.seq) ∧ k.branch = none ∧ k.inj = false ∧ k.heldReports = []
     s.foldOf y = some f ∧
     reached ∧
     k.debug = .off ∧
     s.debugger = false ∧
     k.collapse = some ⟨.sample d pair a, len⟩ ∧
     s.pairReadable f pair.toNat = true ∧
     s.check f (spanOf y) k.lead.ring (0xF6000000 + BitVec.ofNat 32 (16 * pair.toNat)) 4 Need.read ≠ none) ∧
    (let s : State := (collapsing (.fence false) .none 2); let y : YokeId := 0; let f : FoldId := 0
     let len : Nat := 2; let e : CqEntry := (collapseEntry .none); let o : CollapseOut := .none; let k := s.yoke y
     let reached : Prop := k.cq = [e] ∧ e.op = .collapse o ∧ e.out = o.drives k.trail ∧ e.squashed = false ∧ e.fetchOff = none ∧
      e.whb = none ∧ e.lvqUse = 0 ∧ (∀ w ∈ k.lvq, w.seq ≠ e.seq) ∧ k.branch = none ∧ k.inj = false ∧ k.heldReports = []
     s.foldOf y = some f ∧
     reached ∧
     k.debug = .off ∧
     s.debugger = false ∧
     k.collapse = some ⟨.fence false, len⟩ ∧
     k.pend = none ∧
     k.ckptDue = false ∧
     k.whb = [] ∧
     k.loads = [] ∧
     k.fpu.queue = [] ∧
     k.fpu.busy = [] ∧
     k.trail = k.lead) ∧
    (let s : State := calm 0; let sp : SpanId := 0; let v : Word := 4; let old := s.reg (rCkctl sp) 0x10
     let slip := v.toNat % 2 ^ 7
     s.power.main = true ∧
     s.firmware = true ∧
     bit old 31 = false ∧
     4 ≤ slip ∧
     slip ≤ 64) ∧
    (let s : State := calm 0; let sp : SpanId := 0; let v : Word := 64; let old := s.reg (rCkctl sp) 0x10
     let slip := v.toNat % 2 ^ 7
     s.power.main = true ∧
     s.firmware = true ∧
     bit old 31 = false ∧
     4 ≤ slip ∧
     slip ≤ 64) ∧
    (let s : State := calm 0; let sp : SpanId := 0; let v : Word := 0x80030010; let old := s.reg (rCkctl sp) 0x10
     let slip := v.toNat % 2 ^ 7; let injy := v.toNat / 2 ^ 16 % 2 ^ 4; let named := yokeAt sp (Fin.ofNat 16 injy)
     s.power.main = true ∧
     s.firmware = true ∧
     (s.yoke named).stalled = false ∧
     (s.yoke named).debug = .off ∧
     (bit old 31 = true ∨ 4 ≤ slip ∧ slip ≤ 64)) ∧
    (let s : State := ((calm 0).setReg (rCkctl 0) 0x80000010); let sp : SpanId := 0; let v : Word := 0x800F0000
     let old := s.reg (rCkctl sp) 0x10; let slip := v.toNat % 2 ^ 7; let injy := v.toNat / 2 ^ 16 % 2 ^ 4
     let named := yokeAt sp (Fin.ofNat 16 injy)
     s.power.main = true ∧
     s.firmware = true ∧
     (s.yoke named).stalled = false ∧
     (s.yoke named).debug = .off ∧
     (bit old 31 = true ∨ 4 ≤ slip ∧ slip ≤ 64)) :=
  by and_intros <;> decide +kernel

/-- O33, EpochBoundariesReleaseSignAndStartFrames: states and operands that meet the hypotheses of its clauses. -/
theorem test_boundaries :
    (let s : State := (epoch5 none); let f : FoldId := 0; let fo := s.fold f; let n := s.curEpoch f + 1
     (∀ y w, (s.yoke y).run ≠ .waiting w) ∧
     s.power.main = true ∧
     s.running f = true ∧
     n * s.epochNs f ≤ s.now ∧
     s.twins = [] ∧
     n < 2 ^ 32 ∧
     2 ≤ n ∧
     fo.fstart.toNat ≤ n - 1) ∧
    (let s : State := (withFold (epoch5 none) fun f => { f with held := [] })
     let f : FoldId := 0; let fo := s.fold f; let n := s.curEpoch f + 1; let e : Word := BitVec.ofNat 32 (n - 2)
     (∀ y w, (s.yoke y).run ≠ .waiting w) ∧
     s.power.main = true ∧
     s.running f = true ∧
     n * s.epochNs f ≤ s.now ∧
     s.twins = [] ∧
     n < 2 ^ 32 ∧
     2 ≤ n ∧
     fo.fstart.toNat ≤ n - 1 ∧
     fo.held.filter (fun o => o.tag == e) = []) ∧
    (let s : State := (withFold (epoch5 none) fun f => { f with marks := [⟨4, true, true⟩] })
     let f : FoldId := 0; let fo := s.fold f; let n := s.curEpoch f + 1; let e : Word := BitVec.ofNat 32 (n - 2)
     (∀ y w, (s.yoke y).run ≠ .waiting w) ∧
     s.power.main = true ∧
     s.running f = true ∧
     n * s.epochNs f ≤ s.now ∧
     s.twins = [] ∧
     n < 2 ^ 32 ∧
     2 ≤ n ∧
     fo.fstart.toNat ≤ n - 1 ∧
     (fo.mark e).late = true) ∧
    (let s : State := (withFold (epoch5 none) fun f => { f with freeze := some (6, [(0, ⟨true, true, false⟩)]) })
     let f : FoldId := 0; let n := s.curEpoch f + 1
     (∀ y w, (s.yoke y).run ≠ .waiting w) ∧
     s.power.main = true ∧
     s.running f = true ∧
     n * s.epochNs f ≤ s.now ∧
     s.twins = [] ∧
     n < 2 ^ 32) ∧
    (let s : State := (epoch5 none); let f : FoldId := 0; let fo := s.fold f; let n := s.curEpoch f + 1
     let frame := fo.fstart.toNat ≤ n ∧ (n - fo.fstart.toNat) % s.frameK f = 0
     (∀ y w, (s.yoke y).run ≠ .waiting w) ∧
     s.power.main = true ∧
     s.running f = true ∧
     n * s.epochNs f ≤ s.now ∧
     s.twins = [] ∧
     n < 2 ^ 32 ∧
     (∀ v ∈ fo.events, v.vec ≠ 0x10) ∧
     (bit fo.ien 0 = true ∨ frame ∧ fo.rootIdent.isSome = true)) ∧
    (let s : State := (epoch5 (some 9)); let f : FoldId := 0; let fo := s.fold f; let n := s.curEpoch f + 1
     let frame := fo.fstart.toNat ≤ n ∧ (n - fo.fstart.toNat) % s.frameK f = 0
     (∀ y w, (s.yoke y).run ≠ .waiting w) ∧
     s.power.main = true ∧
     s.running f = true ∧
     n * s.epochNs f ≤ s.now ∧
     s.twins = [] ∧
     n < 2 ^ 32 ∧
     frame ∧
     fo.rootIdent.isSome = true) ∧
    (let s : State := (epoch5 none); let f : FoldId := 0; let sp : SpanId := 0; let rest : List SpanId := [1]
     let p : Nat := 0x0200000040
     let d : TaskDesc := (((epoch5 none).rootDesc 0 6 (memRead (epoch5 none).mem 0x0200000040 64)).getD childTask)
     let fo := s.fold f; let n := s.curEpoch f + 1
     let frame := fo.fstart.toNat ≤ n ∧ (n - fo.fstart.toNat) % s.frameK f = 0
     let a := s.reg (rFroot f) 0
     (∀ y w, (s.yoke y).run ≠ .waiting w) ∧
     NoErrors s ∧
     s.power.main = true ∧
     s.running f = true ∧
     n * s.epochNs f ≤ s.now ∧
     s.twins = [] ∧
     n < 2 ^ 32 ∧
     frame ∧
     fo.rootIdent = none ∧
     s.foldSpans f = sp :: rest ∧
     (∀ i < 4, s.wiping (p + 16 * i) = false) ∧
     (∀ i < 4, s.check f sp 0 (a + BitVec.ofNat 32 (16 * i)) 16 Need.read = some (.mem (p + 16 * i))) ∧
     s.rootDesc f n (memRead s.mem p 64) = some d ∧
     (s.span sp).overflow.length < 1536) ∧
    (let s : State := (withFold (epoch5 none) fun f => { f with fstart := 7 })
     let f : FoldId := 0; let fo := s.fold f; let n := s.curEpoch f + 1
     let frame := fo.fstart.toNat ≤ n ∧ (n - fo.fstart.toNat) % s.frameK f = 0
     (∀ y w, (s.yoke y).run ≠ .waiting w) ∧
     s.power.main = true ∧
     s.running f = true ∧
     n * s.epochNs f ≤ s.now ∧
     s.twins = [] ∧
     n < 2 ^ 32 ∧
     ¬ frame) ∧
    (let s : State := calm 0; let f : FoldId := 0; let n := s.curEpoch f + 1
     s.now < n * s.epochNs f) :=
  ⟨⟨noWaits (by decide +kernel), by decide +kernel⟩,
    ⟨noWaits (by decide +kernel), by decide +kernel⟩,
    ⟨noWaits (by decide +kernel), by decide +kernel⟩,
    ⟨noWaits (by decide +kernel), by decide +kernel⟩,
    ⟨noWaits (by decide +kernel), by decide +kernel⟩,
    ⟨noWaits (by decide +kernel), by decide +kernel⟩,
    ⟨noWaits (by decide +kernel), ⟨rfl, rfl, rfl⟩, by decide +kernel⟩,
    ⟨noWaits (by decide +kernel), by decide +kernel⟩,
    by decide +kernel⟩

/-- O35, EpochControllerCommandsFollowTheirRules: states and operands that meet the hypotheses of its clauses. -/
theorem test_epochs :
    (let s : State := { (epoch5 none) with inUnit := { (epoch5 none).inUnit with ticked := 4 } }
     let f : FoldId := 0; let v : Word := 0; let fo := s.fold f
     (∀ e v, fo.freeze = some (e, v) → e < s.windowEpoch f s.now) ∧
     s.power.main = true ∧
     s.tickDue = false ∧
     s.running f = true ∧
     s.curEpoch f < s.windowEpoch f s.now ∧
     s.participates f = false) ∧
    (let s : State := (built rEpTsetlo 77)
     s.power.main = true ∧
     s.firmware = true ∧
     s.anyAdmitted = false) ∧
    (let s : State := (epoch5 none)
     s.power.main = true ∧
     s.firmware = true ∧
     s.anyAdmitted = true) ∧
    (let s : State := (built rEpCtl 0x40); let v : Word := 0; let old := s.reg rEpCtl 0
     s.power.main = true ∧
     s.firmware = true ∧
     bit old 31 = false ∧
     v.toNat / 2 ^ 6 % 4 = 0 ∧
     old.toNat / 2 ^ 6 % 4 = 1) ∧
    (let s : State := (built rEpCtl 0); let v : Word := 0x70; let old := s.reg rEpCtl 0
     s.power.main = true ∧
     s.firmware = true ∧
     bit old 31 = false ∧
     v.toNat / 2 ^ 6 % 4 = 1) ∧
    (let s : State := (built rEpCtl 0x80000000); let old := s.reg rEpCtl 0
     s.power.main = true ∧
     s.firmware = true ∧
     bit old 31 = true) ∧
    (let s : State := ({ (built rEpCtl 0x40) with linkUp := [0] })
     let old := s.reg rEpCtl 0
     s.power.main = true ∧
     old.toNat / 2 ^ 6 % 4 = 1 ∧
     (old.toNat / 2 ^ 4 % 4) ∈ s.linkUp ∧
     s.follows = false) ∧
    (let s : State := (atTime (built rEpCtl 0x40) 1000000000); let old := s.reg rEpCtl 0; let sync := s.reg rEpSync 0
     s.power.main = true ∧
     old.toNat / 2 ^ 6 % 4 = 1 ∧
     s.follows = false ∧
     bit sync 30 = false ∧
     s.clk.corrAt + 1000000000 ≤ s.now) ∧
    (let s : State := (built rEpCtl 0); let f : FoldId := 0; let v : Word := 0x3000A; let j := v.toNat / 2 ^ 16 % 16
     s.power.main = true ∧
     s.firmware = true ∧
     s.running f = false ∧
     3 ≤ j ∧
     j ≤ 13) ∧
    (let s : State := (built rEpCtl 0); let f : FoldId := 0; let v : Word := 0xD0000; let j := v.toNat / 2 ^ 16 % 16
     s.power.main = true ∧
     s.firmware = true ∧
     s.running f = false ∧
     3 ≤ j ∧
     j ≤ 13) ∧
    (let s : State := (built rEpCtl 0); let f : FoldId := 0; let v : Word := 0x20000; let j := v.toNat / 2 ^ 16 % 16
     s.power.main = true ∧
     s.firmware = true ∧
     s.running f = false ∧
     (j < 3 ∨ 13 < j)) ∧
    (let s : State := (built rEpCtl 0); let f : FoldId := 0; let v : Word := 0xE0000; let j := v.toNat / 2 ^ 16 % 16
     s.power.main = true ∧
     s.firmware = true ∧
     s.running f = false ∧
     (j < 3 ∨ 13 < j)) ∧
    (let s : State := (epoch5 none); let f : FoldId := 0
     s.power.main = true ∧
     s.running f = true) ∧
    (let s : State := (built (rFhsize 0) 0x10000); let f : FoldId := 0; let v : Word := 0xF0000
     let size := (s.reg (rFhsize f) 0).toNat
     let area (b n : Nat) : Prop := b % 0x10000 = 0 ∧ b < 0x4000000 ∧ s.groupFold (Fin.ofNat 64 (b / 0x100000)) = some f ∧
      n % 0x10000 = 0 ∧ b % 0x100000 + n ≤ 0x100000
     s.power.main = true ∧
     s.firmware = true ∧
     s.running f = false ∧
     area v.toNat size) ∧
    (let s : State := (built (rFhsize 0) 0x20000); let f : FoldId := 0; let v : Word := 0xF0000
     let size := (s.reg (rFhsize f) 0).toNat
     let area (b n : Nat) : Prop := b % 0x10000 = 0 ∧ b < 0x4000000 ∧ s.groupFold (Fin.ofNat 64 (b / 0x100000)) = some f ∧
      n % 0x10000 = 0 ∧ b % 0x100000 + n ≤ 0x100000
     s.power.main = true ∧
     s.firmware = true ∧
     s.running f = false ∧
     ¬ area v.toNat size) ∧
    (let s : State := (built (rFhbase 0) 0); let f : FoldId := 0; let v : Word := 0x100000
     let base := (s.reg (rFhbase f) 0).toNat
     let area (b n : Nat) : Prop := b % 0x10000 = 0 ∧ b < 0x4000000 ∧ s.groupFold (Fin.ofNat 64 (b / 0x100000)) = some f ∧
      n % 0x10000 = 0 ∧ b % 0x100000 + n ≤ 0x100000
     s.power.main = true ∧
     s.firmware = true ∧
     s.running f = false ∧
     (v = 0 ∨ area base v.toNat)) ∧
    (let s : State := (built (rFhbase 0) 0x10000); let f : FoldId := 0; let v : Word := 0x100000
     let base := (s.reg (rFhbase f) 0).toNat
     s.power.main = true ∧
     s.firmware = true ∧
     s.running f = false ∧
     v ≠ 0 ∧
     (v.toNat % 0x10000 ≠ 0 ∨ 0x100000 < base % 0x100000 + v.toNat)) ∧
    (let s : State := (epoch5 none)
     s.power.main = true ∧
     s.tickDue = true) :=
  ⟨⟨fun _ _ h => absurd (show (none : Option (Nat × KMap Nat FrozenPair)) = some _ from h) (by simp), by decide +kernel⟩,
    by and_intros <;> decide +kernel⟩

/-- O36, IdleYokesTakeTasksInOrder: states and operands that meet the hypotheses of its clauses. -/
theorem test_tasks :
    (let s : State := (withSpan ((idling [] [childTask]).setReg (rSchctl 0) 0x201) fun p => { p with follow := [(0, .serial 1 2 3), (2, .start 0 9), (5, .serial 1 2 3)] })
     let y : YokeId := 0; let v : YokeId := 3; let f : FoldId := 0; let d : TaskDesc := childTask
     let l : List TaskDesc := []; let l2 : List TaskDesc := []; let r1 : List (Nat × LogRec) := [(0, .serial 1 2 3)]
     let r2 : List (Nat × LogRec) := [(5, .serial 1 2 3)]; let m : Nat := 2; let id : Word := 9; let own := spanOf y
     let k := s.yoke y; let idle := s.clk.fc - max k.idleFc (s.span own).runFc
     (∀ x ∈ r1, ∀ j, x.2 ≠ .start (s.relSpan own) j) ∧
     (∀ w ∈ s.foldYokes f, w ≠ v → ∀ x ∈ (s.yoke w).deque, x.ident ≠ id) ∧
     k.run = .idle ∧
     k.working = true ∧
     k.debug ≠ .halted ∧
     (s.span own).power = .run ∧
     s.foldOf y = some f ∧
     s.running f = true ∧
     s.sfm own = 2 ∧
     (s.span own).follow = r1 ++ (m, .start (s.relSpan own) id) :: r2 ∧
     (∀ x ∈ r1 ++ r2, x.1 ≠ m) ∧
     v ∈ s.foldYokes f ∧
     (s.yoke v).deque = l ++ d :: l2 ∧
     d.ident = id ∧
     (∀ x ∈ l, x.ident ≠ id)) ∧
    (let s : State := (withSpan ((idling [] []).setReg (rSchctl 0) 0x201) fun p => { p with follow := [(2, .start 0 9)] })
     let y : YokeId := 0; let f : FoldId := 0; let r1 : List (Nat × LogRec) := []; let r2 : List (Nat × LogRec) := []
     let m : Nat := 2; let id : Word := 9; let own := spanOf y; let k := s.yoke y
     let idle := s.clk.fc - max k.idleFc (s.span own).runFc
     (∀ x ∈ r1, ∀ j, x.2 ≠ .start (s.relSpan own) j) ∧
     (∀ w ∈ s.foldYokes f, ∀ x ∈ (s.yoke w).deque, x.ident ≠ id) ∧
     k.run = .idle ∧
     k.working = true ∧
     k.debug ≠ .halted ∧
     (s.span own).power = .run ∧
     s.foldOf y = some f ∧
     s.running f = true ∧
     s.sfm own = 2 ∧
     (s.span own).follow = r1 ++ (m, .start (s.relSpan own) id) :: r2 ∧
     (∀ x ∈ r1 ++ r2, x.1 ≠ m) ∧
     (∀ x ∈ s.foldSpans f, (s.span x).overflow = [])) ∧
    (let s : State := (idling [{ childTask with ident := 10 }, childTask] [])
     let y : YokeId := 0; let f : FoldId := 0; let d : TaskDesc := childTask
     let l : List TaskDesc := [{ childTask with ident := 10 }]; let own := spanOf y; let k := s.yoke y
     let idle := s.clk.fc - max k.idleFc (s.span own).runFc
     k.run = .idle ∧
     k.working = true ∧
     k.debug ≠ .halted ∧
     (s.span own).power = .run ∧
     s.foldOf y = some f ∧
     s.running f = true ∧
     s.sfm own = 0 ∧
     k.deque = l ++ [d]) ∧
    (let s : State := (withSpan (idling [] []) fun p => { p with overflow := [overflowOf 0 { childTask with ident := 10 }, overflowOf 3 childTask], slots := [(1, savedTask)] })
     let y : YokeId := 0; let f : FoldId := 0; let d : TaskDesc := childTask
     let e : OvfEntry := (overflowOf 3 childTask)
     let o1 : List OvfEntry := [overflowOf 0 { childTask with ident := 10 }]
     let o2 : List OvfEntry := []; let own := spanOf y; let k := s.yoke y
     let idle := s.clk.fc - max k.idleFc (s.span own).runFc
     k.run = .idle ∧
     k.working = true ∧
     k.debug ≠ .halted ∧
     (s.span own).power = .run ∧
     s.foldOf y = some f ∧
     s.running f = true ∧
     s.sfm own = 0 ∧
     k.deque = [] ∧
     (s.span own).overflow = o1 ++ e :: o2 ∧
     (e.resumeClass = true ∧ (∀ x ∈ o1, x.resumeClass = false) ∨ e.resumeClass = false ∧ (∀ x ∈ o1 ++ o2,
       x.resumeClass = false ∧ x.prio ≤ e.prio) ∧ ∀ x ∈ o1, x.prio < e.prio) ∧
     e.body = .fresh d) ∧
    (let s : State := (withSpan (idling [] []) fun p => { p with overflow := [overflowOf 3 { childTask with ident := 10 }, resumeEntry], slots := [(1, savedTask)] })
     let y : YokeId := 0; let f : FoldId := 0; let e : OvfEntry := resumeEntry
     let o1 : List OvfEntry := [overflowOf 3 { childTask with ident := 10 }]
     let o2 : List OvfEntry := []; let slot : Nat := 1; let sv : SavedTask := savedTask; let own := spanOf y
     let k := s.yoke y; let idle := s.clk.fc - max k.idleFc (s.span own).runFc
     k.run = .idle ∧
     k.working = true ∧
     k.debug ≠ .halted ∧
     (s.span own).power = .run ∧
     s.foldOf y = some f ∧
     s.running f = true ∧
     s.sfm own = 0 ∧
     k.deque = [] ∧
     (s.span own).overflow = o1 ++ e :: o2 ∧
     (e.resumeClass = true ∧ (∀ x ∈ o1, x.resumeClass = false) ∨ e.resumeClass = false ∧ (∀ x ∈ o1 ++ o2,
       x.resumeClass = false ∧ x.prio ≤ e.prio) ∧ ∀ x ∈ o1, x.prio < e.prio) ∧
     e.body = .resume slot ∧
     (s.span own).slots.find? (fun x => x.1 == slot) = some (slot, sv)) ∧
    (let s : State := (idling [] [childTask, { childTask with ident := 10 }])
     let y : YokeId := 0; let v : YokeId := 3; let f : FoldId := 0; let d : TaskDesc := childTask
     let l2 : List TaskDesc := [{ childTask with ident := 10 }]; let own := spanOf y; let k := s.yoke y
     let sib (w : YokeId) : Prop := spanOf w = own ∧ w ≠ y ∧ (s.yoke w).working = true
     let empty : Prop := k.deque = [] ∧ (s.span own).overflow = []
     let idle := s.clk.fc - max k.idleFc (s.span own).runFc
     k.run = .idle ∧
     k.working = true ∧
     k.debug ≠ .halted ∧
     (s.span own).power = .run ∧
     s.foldOf y = some f ∧
     s.running f = true ∧
     s.sfm own = 0 ∧
     empty ∧
     sib v ∧
     (s.yoke v).deque = d :: l2 ∧
     (∀ w, sib w → (s.yoke w).deque.length ≤ (s.yoke v).deque.length ∧ (w < v → (s.yoke w).deque.length < (s.yoke
       v).deque.length))) ∧
    (let s : State := ((idling [] []).setSpan 1 { Span.reset with overflow := [overflowOf 1 childTask] })
     let y : YokeId := 0; let f : FoldId := 0; let tsp : SpanId := 1; let d : TaskDesc := childTask
     let e : OvfEntry := (overflowOf 1 childTask); let o1 : List OvfEntry := []; let o2 : List OvfEntry := []
     let own := spanOf y; let k := s.yoke y
     let sib (w : YokeId) : Prop := spanOf w = own ∧ w ≠ y ∧ (s.yoke w).working = true
     let empty : Prop := k.deque = [] ∧ (s.span own).overflow = []
     let lonely : Prop := ∀ w, sib w → (s.yoke w).deque = []; let idle := s.clk.fc - max k.idleFc (s.span own).runFc
     let stealable (x : OvfEntry) : Prop := x.resumeClass = false ∧ x.portable = true
     k.run = .idle ∧
     k.working = true ∧
     k.debug ≠ .halted ∧
     (s.span own).power = .run ∧
     s.foldOf y = some f ∧
     s.running f = true ∧
     s.sfm own = 0 ∧
     empty ∧
     lonely ∧
     256 ≤ idle ∧
     (idle - 256) % 64 = 0 ∧
     bit (s.reg (rSchctl own) 1) 0 = true ∧
     s.nextSpan f own = some tsp ∧
     e.body = .fresh d ∧
     (s.span tsp).overflow = o1 ++ e :: o2 ∧
     stealable e ∧
     (∀ x ∈ o1 ++ o2, stealable x → x.prio ≤ e.prio) ∧
     (∀ x ∈ o1, stealable x → x.prio < e.prio)) ∧
    (let s : State := ((idling [] []).setYoke 17 { Yoke.reset with deque := [childTask, { childTask with ident := 11, attr := 0xA0 }] })
     let y : YokeId := 0; let v : YokeId := 17; let f : FoldId := 0; let tsp : SpanId := 1
     let d : TaskDesc := ({ childTask with ident := 11, attr := 0xA0 })
     let l2 : List TaskDesc := []; let own := spanOf y; let k := s.yoke y
     let sib (w : YokeId) : Prop := spanOf w = own ∧ w ≠ y ∧ (s.yoke w).working = true
     let empty : Prop := k.deque = [] ∧ (s.span own).overflow = []
     let lonely : Prop := ∀ w, sib w → (s.yoke w).deque = []; let idle := s.clk.fc - max k.idleFc (s.span own).runFc
     let porta (w : YokeId) : List TaskDesc := (s.yoke w).deque.filter fun x => bit x.attr 7
     let stealable (x : OvfEntry) : Prop := x.resumeClass = false ∧ x.portable = true
     k.run = .idle ∧
     k.working = true ∧
     k.debug ≠ .halted ∧
     (s.span own).power = .run ∧
     s.foldOf y = some f ∧
     s.running f = true ∧
     s.sfm own = 0 ∧
     empty ∧
     lonely ∧
     256 ≤ idle ∧
     (idle - 256) % 64 = 0 ∧
     bit (s.reg (rSchctl own) 1) 0 = true ∧
     s.nextSpan f own = some tsp ∧
     (∀ x ∈ (s.span tsp).overflow, ¬ stealable x) ∧
     spanOf v = tsp ∧
     (s.yoke v).working = true ∧
     porta v = d :: l2 ∧
     (∀ w, spanOf w = tsp → (s.yoke w).working = true → (porta w).length ≤ (porta v).length ∧ (w < v → (porta
       w).length < (porta v).length))) ∧
    (let s : State := (withSpan (calm 0) fun p => { p with overflow := List.replicate 1535 resumeEntry })
     let sp : SpanId := 0
     1535 ≤ (s.span sp).overflow.length) ∧
    (let s : State := (withSpan (calm 0) fun p => { p with waitPush := [resumeEntry] })
     let sp : SpanId := 0; let e : OvfEntry := resumeEntry; let o2 : List OvfEntry := []
     (s.span sp).overflow.length < 1535 ∧
     (s.span sp).waitPush = e :: o2) ∧
    (let s : State := ((calm 0).setYoke 2 { Yoke.reset with stalled := true, deque := [childTask] })
     let sp : SpanId := 0; let d : TaskDesc := childTask; let l : List TaskDesc := []; let i : Fin 16 := 2
     (s.span sp).overflow.length < 1535 ∧
     (s.span sp).waitPush = [] ∧
     (s.yoke (yokeAt sp i)).working = false ∧
     (s.yoke (yokeAt sp i)).deque = d :: l ∧
     (∀ j < i, (s.yoke (yokeAt sp j)).working = true ∨ (s.yoke (yokeAt sp j)).deque = [])) :=
  ⟨⟨(by intro x h j e; rw [(List.mem_singleton (b := (0, LogRec.serial 1 2 3))).mp h] at e; cases e), (fun w _ hw x hx => absurd hx (by rw [dequeEmpty (by decide +kernel) w hw]; exact List.not_mem_nil)), by decide +kernel⟩,
    ⟨(by intro x h; cases h), (fun w _ x hx => absurd hx (by rw [noDeques (by decide +kernel) w]; exact List.not_mem_nil)), by decide +kernel⟩,
    by and_intros <;> decide +kernel⟩

/-- O37, SpansRestAndWake: states and operands that meet the hypotheses of its clauses. -/
theorem test_rests :
    (let s : State := ((resting .run).setYoke 2 { Yoke.reset with run := .waiting ⟨0, 5, 7, 3⟩ })
     let sp : SpanId := 0; let k := s.span sp
     let waits (y : YokeId) : Prop := ∃ w, (s.yoke y).run = .waiting w
     let still (y : YokeId) : Prop := (s.yoke y).run = .idle ∧ (s.yoke y).idleFc + 1024 ≤ s.clk.fc ∨
      ∃ w, (s.yoke y).run = .waiting w ∧ w.fc + 1024 ≤ s.clk.fc
     (∀ y, spanOf y = sp → still y) ∧
     ((∃ y, spanOf y = sp ∧ waits y) ∨ bit (s.reg (rPwrctl sp) 0) 0 = false) ∧
     s.power.main = true ∧
     k.power = .run ∧
     k.overflow = [] ∧
     k.waitPush = [] ∧
     k.quietFc + 1024 ≤ s.clk.fc) ∧
    (let s : State := ((resting .run).setReg (rPwrctl 0) 1); let sp : SpanId := 0; let k := s.span sp
     let waits (y : YokeId) : Prop := ∃ w, (s.yoke y).run = .waiting w
     let still (y : YokeId) : Prop := (s.yoke y).run = .idle ∧ (s.yoke y).idleFc + 1024 ≤ s.clk.fc ∨
      ∃ w, (s.yoke y).run = .waiting w ∧ w.fc + 1024 ≤ s.clk.fc
     (∀ y, spanOf y = sp → still y) ∧
     ¬ (∃ y, spanOf y = sp ∧ waits y) ∧
     s.power.main = true ∧
     k.power = .run ∧
     k.overflow = [] ∧
     k.waitPush = [] ∧
     k.quietFc + 1024 ≤ s.clk.fc ∧
     bit (s.reg (rPwrctl sp) 0) 0 = true) ∧
    (let s : State := (resting .run); let sp : SpanId := 0; let k := s.span sp
     (k.power = .run ∨ (∃ a b, k.power = .waking a b)) ∧
     s.power.main = true ∧
     s.firmware = true) ∧
    (let s : State := (resting (.entering false 3985)); let sp : SpanId := 0; let nap : Bool := false
     let since : Nat := 3985; let k := s.span sp
     s.power.main = true ∧
     k.power = .entering nap since ∧
     s.clk.fc < since + (if nap then 3200 else 16)) ∧
    (let s : State := (resting (.entering true 800)); let sp : SpanId := 0; let f : FoldId := 0
     let nap : Bool := true; let since : Nat := 800; let k := s.span sp
     s.power.main = true ∧
     k.power = .entering nap since ∧
     since + (if nap then 3200 else 16) ≤ s.clk.fc ∧
     nap = true ∧
     s.spanFold sp = some f ∧
     (∀ x ∈ s.foldSpans f, x ≠ sp → (s.span x).power = .rest true) ∧
     (∀ c, s.dmaFold c = some f → (s.dmaCh c).busy = false)) ∧
    (let s : State := (resting (.waking true 5)); let sp : SpanId := 0; let nap : Bool := true; let since : Nat := 5
     let k := s.span sp
     s.power.main = true ∧
     k.power = .waking nap since) ∧
    (let s : State := (resting (.rest true)); let sp : SpanId := 0; let nap : Bool := true; let k := s.span sp
     s.power.main = true ∧
     s.firmware = true ∧
     k.power = .rest nap) ∧
    (let s : State := (resting (.entering false 5)); let sp : SpanId := 0; let nap : Bool := false
     let since : Nat := 5; let k := s.span sp
     s.power.main = true ∧
     s.firmware = true ∧
     k.power = .entering nap since) ∧
    (let s : State := (withSpan (resting .run) fun p => { p with overflow := [resumeEntry] })
     let sp : SpanId := 0; let k := s.span sp
     s.power.main = true ∧
     (k.power ≠ .run ∨ k.overflow ≠ [] ∨ ∃ y, spanOf y = sp ∧ (s.yoke y).run = .task)) :=
  ⟨⟨by
      intro y _
      by_cases h : y = 2
      · exact Or.inr ⟨⟨0, 5, 7, 3⟩, by rw [h]; rfl, by decide⟩
      · exact Or.inl ⟨by simp only [State.yoke_setYoke_ne _ _ h]; rfl, by simp only [State.yoke_setYoke_ne _ _ h]; exact (by decide : 0 + 1024 ≤ 4000)⟩, Or.inl ⟨2, by decide, ⟨0, 5, 7, 3⟩, rfl⟩, by decide +kernel⟩,
    ⟨fun _ _ => Or.inl ⟨rfl, (by decide : 0 + 1024 ≤ 4000)⟩, fun ⟨y, _, w, h⟩ => noWaits (by decide +kernel) y w h, by decide +kernel⟩,
    ⟨Or.inl rfl, by decide +kernel⟩,
    by and_intros <;> decide +kernel⟩

/-- O38, TheDebugPortHaltsYokesAndAccessesState: states and operands that meet the hypotheses of its clauses. -/
theorem test_debug :
    (let s : State := (debugged true .off); let y : YokeId := 0; let f : FoldId := 0; let id : Word := 7
     let k := s.yoke y
     (∀ z ∈ s.foldYokes f, z ≠ y → (s.yoke z).run ≠ .idle → (s.yoke z).lead.task.ident ≠ id) ∧
     s.debugger = true ∧
     y ∈ s.foldYokes f ∧
     k.run ≠ .idle ∧
     k.lead.task.ident = id ∧
     k.debug ≠ .halted ∧
     k.collapse = none ∧
     k.branch = none ∧
     k.loads = [] ∧
     k.fpu.queue = [] ∧
     k.fpu.busy = [] ∧
     k.pend = none ∧
     (∀ w ∈ k.whb, w.closes k.interval = true → w.unconf = 0 → w.ecc ≠ .uncorrectable)) ∧
    (let s : State := (debugged true .off); let a : PhysAddr := 0x0100000017; let size : Fin 5 := 4
     let bytes := 2 ^ size.val; let base := a.toNat / bytes * bytes; let off := base % 0x200000
     NoErrors s ∧
     s.debugger = true ∧
     0x0100000000 ≤ a.toNat ∧
     a.toNat < 0x0108000000 ∧
     off < 0x1C0000 ∧
     s.wiping base = false ∧
     s.bankOffline base = false ∧
     s.retained base = false ∧
     Memory.wf s.mem = true) ∧
    (let s : State := (debugged false .off)
     s.debugger = false) ∧
    (let s : State := (debugged true .halted); let y : YokeId := 0; let n : Fin 41 := 15; let k := s.yoke y
     s.debugger = true ∧
     k.debug = .halted ∧
     n ≠ 16 ∧
     n ≠ 40) ∧
    (let s : State := (debugged true .halted); let y : YokeId := 0; let n : Fin 41 := 17; let k := s.yoke y
     s.debugger = true ∧
     k.debug = .halted ∧
     n ≠ 16 ∧
     n ≠ 40) ∧
    (let s : State := (debugged true .off); let a : PhysAddr := 0x0300000000
     s.debugger = true ∧
     0x0300000000 ≤ a.toNat ∧
     a.toNat < 0x0300040000) :=
  ⟨⟨(fun z _ hz hr => absurd (congrArg Yoke.run (otherIdle rfl z hz)) hr), by decide +kernel⟩,
    ⟨⟨rfl, rfl, rfl⟩, by decide +kernel⟩,
    by and_intros <;> decide +kernel⟩

/-- O39, WindowsWipesAndScrubbingFollowTheirRules: states and operands that meet the hypotheses of its clauses. -/
theorem test_windows :
    (let s : State := (withFold (built (rWindow 0 1 0) 0x8080000C) fun f => { f with windows := [(2, ⟨0x80, 0x80, 12, 1, 0⟩)] })
     let f : FoldId := 0; let w : Fin 64 := 1; let v : Word := 0x249
     let ent := windowOf (s.reg (rWindow f w.val 0) 0) (s.reg (rWindow f w.val 1) 0) v
     s.power.main = true ∧
     s.firmware = true ∧
     s.windowOk f w.val ent = true) ∧
    (let s : State := (built (rWindow 0 1 0) 0x01000000); let f : FoldId := 0; let w : Fin 64 := 1; let v : Word := 0
     let ent := windowOf (s.reg (rWindow f w.val 0) 0) (s.reg (rWindow f w.val 1) 0) v
     s.power.main = true ∧
     s.firmware = true ∧
     ent.blo ≤ ent.bhi ∧
     ent.size = 0) ∧
    (let s : State := (built (rWindow 0 1 0) 0x00010000); let f : FoldId := 0; let w : Fin 64 := 1; let v : Word := 0
     let src : FabricEnd := (.span 0); let node : SpanId := 0
     let ent := windowOf (s.reg (rWindow f w.val 0) 0) (s.reg (rWindow f w.val 1) 0) v
     let low := ent.obase.toNat * 0x1000
     let both (r : Nat) : Bool := ent.perm.getLsbD (3 * r + 1) && ent.perm.getLsbD (3 * r + 2)
     let x := src.node.val % 8
     s.power.main = true ∧
     s.firmware = true ∧
     (ent.bhi < ent.blo ∨ ent.size ≠ 0 ∧ (ent.size < 12 ∨ 24 < ent.size ∨ low % 2 ^ ent.size ≠ 0 ∨ both 1 = true ∨
       both 2 = true ∨ both 3 = true ∨ ∃ x ∈ (s.fold f).windows, x.1 ≠ w.val ∧ x.2.size ≠ 0 ∧ ent.blo ≤ x.2.bhi ∧
       x.2.blo ≤ ent.bhi ∧ low < x.2.obase.toNat * 0x1000 + 2 ^ x.2.size ∧ x.2.obase.toNat * 0x1000 < low + 2 ^
       ent.size))) ∧
    (let s : State := (built (rWindow 0 1 0) 0x8080000B); let f : FoldId := 0; let w : Fin 64 := 1; let v : Word := 0
     let src : FabricEnd := (.span 0); let node : SpanId := 0
     let ent := windowOf (s.reg (rWindow f w.val 0) 0) (s.reg (rWindow f w.val 1) 0) v
     let low := ent.obase.toNat * 0x1000
     let both (r : Nat) : Bool := ent.perm.getLsbD (3 * r + 1) && ent.perm.getLsbD (3 * r + 2)
     let x := src.node.val % 8
     s.power.main = true ∧
     s.firmware = true ∧
     (ent.bhi < ent.blo ∨ ent.size ≠ 0 ∧ (ent.size < 12 ∨ 24 < ent.size ∨ low % 2 ^ ent.size ≠ 0 ∨ both 1 = true ∨
       both 2 = true ∨ both 3 = true ∨ ∃ x ∈ (s.fold f).windows, x.1 ≠ w.val ∧ x.2.size ≠ 0 ∧ ent.blo ≤ x.2.bhi ∧
       x.2.blo ≤ ent.bhi ∧ low < x.2.obase.toNat * 0x1000 + 2 ^ x.2.size ∧ x.2.obase.toNat * 0x1000 < low + 2 ^
       ent.size))) ∧
    (let s : State := (built (rWindow 0 1 0) 0x8080000C); let f : FoldId := 0; let w : Fin 64 := 1; let v : Word := 0
     let src : FabricEnd := (.span 0); let node : SpanId := 0
     let ent := windowOf (s.reg (rWindow f w.val 0) 0) (s.reg (rWindow f w.val 1) 0) v
     let low := ent.obase.toNat * 0x1000
     let both (r : Nat) : Bool := ent.perm.getLsbD (3 * r + 1) && ent.perm.getLsbD (3 * r + 2)
     let x := src.node.val % 8
     s.power.main = true ∧
     s.firmware = true ∧
     (ent.bhi < ent.blo ∨ ent.size ≠ 0 ∧ (ent.size < 12 ∨ 24 < ent.size ∨ low % 2 ^ ent.size ≠ 0 ∨ both 1 = true ∨
       both 2 = true ∨ both 3 = true ∨ ∃ x ∈ (s.fold f).windows, x.1 ≠ w.val ∧ x.2.size ≠ 0 ∧ ent.blo ≤ x.2.bhi ∧
       x.2.blo ≤ ent.bhi ∧ low < x.2.obase.toNat * 0x1000 + 2 ^ x.2.size ∧ x.2.obase.toNat * 0x1000 < low + 2 ^
       ent.size))) ∧
    (let s : State := State.reset; let g : SpanId := 63
     bit (s.reg (rMemstat g) memstatReset) 31 = true) ∧
    (let s : State := State.reset; let sp : SpanId := 63
     bit (s.reg (rMemstat sp) memstatReset) 30 = true ∧
     s.spanHeld sp = false) ∧
    (let s : State := calm 0; let sp : SpanId := 0; let kind : MemKind := .group; let off : Nat := 0xFFFFF
     let i : Fin 64 := 63; let j : Fin 64 := 0; let cw := memPhysOf kind sp (off / 16 * 16) / 8
     (s.reg (rMemctl sp) 0x18).toNat % 2 ^ 8 ≠ 0 ∧
     s.wiping (cw * 8) = false ∧
     s.retained (cw * 8) = false ∧
     s.memErr = [] ∧
     Memory.wf s.mem = true ∧
     i ≠ j) ∧
    (let s : State := (built (rMemctl 0) 0); let sp : SpanId := 0; let kind : MemKind := .scratch; let off : Nat := 0
     let cw := memPhysOf kind sp (off / 16 * 16) / 8
     ((s.reg (rMemctl sp) 0x18).toNat % 2 ^ 8 = 0 ∨ s.retained (cw * 8) = true)) ∧
    (let s : State := { (calm 0) with writeback := [memPhysOf .scratch 0 0x1FFFF0 / 8] }
     let sp : SpanId := 0; let kind : MemKind := .scratch; let off : Nat := 0x1FFFFF
     let cw := memPhysOf kind sp (off / 16 * 16) / 8
     cw ∈ s.writeback ∧
     s.cwEcc cw ≠ .uncorrectable) ∧
    (let src : FabricEnd := (.span 0); let dst : FabricEnd := (.group 63); let node : SpanId := 0
     let x := src.node.val % 8; let x' := dst.node.val % 8; let n := 6
     x + n < x') ∧
    (let src : FabricEnd := (.span 63); let dst : FabricEnd := (.port 0); let node : SpanId := 0
     let x := src.node.val % 8; let x' := dst.node.val % 8; let n := 0
     x' + n < x) ∧
    (let src : FabricEnd := (.span 0); let dst : FabricEnd := (.group 63); let node : SpanId := 0
     let y := src.node.val / 8; let y' := dst.node.val / 8; let n := 6
     y + n < y') ∧
    (let src : FabricEnd := (.span 63); let dst : FabricEnd := (.group 0); let node : SpanId := 0
     let y := src.node.val / 8; let y' := dst.node.val / 8; let n := 6
     y' + n < y) ∧
    (let src : FabricEnd := (.span 0); let dst : FabricEnd := (.group 63); let hop : Nat := 16
     (fabricHops src dst)[hop]? = none) ∧
    (let src : FabricEnd := (.span 0); let dst : FabricEnd := (.group 63); let hop : Nat := 7
     let link : Nat := (((fabricHops (.span 0) (.group 63))[7]?.getD (0, 0)).2)
     let node : SpanId := (((fabricHops (.span 0) (.group 63))[7]?.getD (0, 0)).1)
     (fabricHops src dst)[hop]? = some (node, link)) :=
  by and_intros <;> decide +kernel

/-- O40, ChannelsStartAndStop: states and operands that meet the hypotheses of its clauses. -/
theorem test_starts :
    (let s : State := (channelled Dma.reset [] []); let c : DmaId := 1; let f : FoldId := 0; let d := s.dmaCh c
     let stopped : Dma := { d with state := .stopped, wait := none, xfer := none, lastWrite := none }
     NoSteppedWait s ∧
     s.dmaFold c = some f ∧
     d.busy = false ∧
     d.state ≠ .stopped) ∧
    (let s : State := (channelled { runningDma with state := .stopped } [] [])
     let c : DmaId := 1; let f : FoldId := 0; let d := s.dmaCh c
     let stopped : Dma := { d with state := .stopped, wait := none, xfer := none, lastWrite := none }
     NoSteppedWait s ∧
     s.dmaFold c = some f ∧
     d.state = .stopped) ∧
    (let s : State := (channelled runningDma [] []); let c : DmaId := 1; let f : FoldId := 0; let d := s.dmaCh c
     NoSteppedWait s ∧
     s.dmaFold c = some f ∧
     d.busy = true ∧
     d.state = .running) ∧
    (let s : State := (channelled { runningDma with state := .waiting, wait := some ⟨2, 4000, 3, 0, false, 0⟩ } [] [])
     let c : DmaId := 1; let f : FoldId := 0; let d := s.dmaCh c
     NoSteppedWait s ∧
     s.dmaFold c = some f ∧
     d.state = .waiting) ∧
    (let s : State := (channelled { runningDma with state := .done } [] [])
     let c : DmaId := 1; let f : FoldId := 0; let d := s.dmaCh c
     NoSteppedWait s ∧
     s.dmaFold c = some f ∧
     d.state ≠ .running ∧
     d.state ≠ .waiting) ∧
    (let s : State := (channelled runningDma [] []); let c : DmaId := 1; let f : FoldId := 0; let d := s.dmaCh c
     NoSteppedWait s ∧
     (∀ w, d.wait = some w → w.kind ≠ 2) ∧
     s.dmaFold c = some f) ∧
    (let s : State := (channelled { runningDma with state := .waiting, wait := some ⟨2, 4000, 3, 0, false, 0⟩ } [] [])
     let c : DmaId := 1; let f : FoldId := 0; let d := s.dmaCh c; let w := ⟨2, 4000, 3, 0, false, 0⟩
     NoSteppedWait s ∧
     s.dmaFold c = some f ∧
     d.wait = some w ∧
     w.kind = 2 ∧
     (w.tmo = 0 ∨ s.clk.cyclePast (w.begin + w.tmo * 1000) = false)) ∧
    (let s : State := calm 0; let c : DmaId := 1
     NoSteppedWait s ∧
     s.dmaFold c = none) ∧
    (let s : State := (channelled { runningDma with state := .stopping } [] [])
     let c : DmaId := 1; let f : FoldId := 0; let x : DmaXfer := ⟨1, 0, 0, 0, 7, 0, false⟩; let d := s.dmaCh c
     let live : Prop := s.dmaFold c = some f ∧ d.wdOver s.clk = false
     let atEnd : Prop := d.xfer = none ∨ ∃ x, d.xfer = some x ∧ x.op ≠ 1 ∧ x.left = 0
     NoSteppedWait s ∧
     atEnd ∧
     d.state = .stopping ∧
     live ∧
     d.lastWrite = none) ∧
    (let s : State := (channelled { runningDma with state := .stopping, xfer := some ⟨1, 0, 0, 0, 7, 0, false⟩ } [] [])
     let c : DmaId := 1; let f : FoldId := 0; let x : DmaXfer := ⟨1, 0, 0, 0, 7, 0, false⟩; let d := s.dmaCh c
     let live : Prop := s.dmaFold c = some f ∧ d.wdOver s.clk = false
     NoSteppedWait s ∧
     d.state = .stopping ∧
     live ∧
     d.xfer = some x ∧
     x.left ≠ 0) ∧
    (let s : State := (channelled { runningDma with state := .stopping, lastWrite := some (0x20000021, [(0x0200000210, 0)]) } [] [])
     let c : DmaId := 1; let f : FoldId := 0; let x : DmaXfer := ⟨1, 0, 0, 0, 7, 0, false⟩; let d := s.dmaCh c
     let live : Prop := s.dmaFold c = some f ∧ d.wdOver s.clk = false
     let atEnd : Prop := d.xfer = none ∨ ∃ x, d.xfer = some x ∧ x.op ≠ 1 ∧ x.left = 0
     let l := 0x20000021; let bs := [(0x0200000210, 0)]
     NoSteppedWait s ∧
     atEnd ∧
     s.decodeAccess (16 * l) 16 = (s, .completed) ∧
     d.state = .stopping ∧
     live ∧
     d.lastWrite = some (l, bs) ∧
     s.dmaSlot c = true ∧
     s.heldAny (16 * l) = false ∧
     (∀ b ∈ bs, memGet s.mem b.1 = b.2)) ∧
    (let s : State := (channelled { runningDma with state := .stopping, lastWrite := some (0x20000021, [(0x0200000210, 1)]) } [] [])
     let c : DmaId := 1; let f : FoldId := 0; let x : DmaXfer := ⟨1, 0, 0, 0, 7, 0, false⟩; let d := s.dmaCh c
     let live : Prop := s.dmaFold c = some f ∧ d.wdOver s.clk = false
     let atEnd : Prop := d.xfer = none ∨ ∃ x, d.xfer = some x ∧ x.op ≠ 1 ∧ x.left = 0
     let l := 0x20000021; let bs := [(0x0200000210, 1)]
     NoSteppedWait s ∧
     atEnd ∧
     s.decodeAccess (16 * l) 16 = (s, .completed) ∧
     d.state = .stopping ∧
     live ∧
     d.lastWrite = some (l, bs) ∧
     s.dmaSlot c = true ∧
     s.heldAny (16 * l) = false ∧
     (∃ b ∈ bs, memGet s.mem b.1 ≠ b.2)) ∧
    (let s : State := (channelled { runningDma with wdt := 1, wdFrom := 3000 } [] [])
     let c : DmaId := 1; let d := s.dmaCh c
     NoSteppedWait s ∧
     (d.state = .running ∨ d.state = .stopping) ∧
     d.wdt ≠ 0 ∧
     s.clk.cyclePast (d.wdFrom + d.wdt * 1000) = true) ∧
    (let s : State := (channelled { runningDma with wdt := 2, wdFrom := 3000 } [] [])
     let c : DmaId := 1; let d := s.dmaCh c
     NoSteppedWait s ∧
     (d.state = .waiting ∨ d.wdt = 0 ∨ s.clk.cyclePast (d.wdFrom + d.wdt * 1000) = false)) ∧
    (let s : State := { (channelled { runningDma with state := .stopping, lastWrite := some (0x20000021, [(0x0200000210, 0)]) } [] []).setReg rFmgrCtl 1 with slotPlan := [] }
     let c : DmaId := 1; let f : FoldId := 0; let d := s.dmaCh c
     let live : Prop := s.dmaFold c = some f ∧ d.wdOver s.clk = false
     NoSteppedWait s ∧
     d.state = .stopping ∧
     live ∧
     d.lastWrite ≠ none ∧
     s.dmaSlot c = false) :=
  ⟨⟨noStepped (by decide +kernel), by decide +kernel⟩,
    ⟨noStepped (by decide +kernel), by decide +kernel⟩,
    ⟨noStepped (by decide +kernel), by decide +kernel⟩,
    ⟨noStepped (by decide +kernel), by decide +kernel⟩,
    ⟨noStepped (by decide +kernel), by decide +kernel⟩,
    ⟨noStepped (by decide +kernel), fun _ h => absurd (show (none : Option DmaWait) = some _ from h) (by simp), by decide +kernel⟩,
    ⟨noStepped (by decide +kernel), by decide +kernel⟩,
    ⟨noStepped (by decide +kernel), by decide +kernel⟩,
    ⟨noStepped (by decide +kernel), Or.inl rfl, by decide +kernel⟩,
    ⟨noStepped (by decide +kernel), by decide +kernel⟩,
    ⟨noStepped (by decide +kernel), Or.inl rfl, rfl, by decide +kernel⟩,
    ⟨noStepped (by decide +kernel), Or.inl rfl, rfl, by decide +kernel⟩,
    ⟨noStepped (by decide +kernel), by decide +kernel⟩,
    ⟨noStepped (by decide +kernel), by decide +kernel⟩,
    ⟨noStepped (by decide +kernel), by decide +kernel⟩⟩

/-- O41, ChannelInstructionsFollowTheirTables: states and operands that meet the hypotheses of its clauses. -/
theorem test_moves :
    (let s : State := (channelled runningDma [1, 1048576] []); let c : DmaId := 1; let f : FoldId := 0
     let len : Nat := 1048576; let df : Bool := false; let d := s.dmaCh c
     let word (v : Nat) : List Byte := leBytes v 4
     let at8 (b0 b1 h2 : Nat) (tail : List Byte) : Prop := AtIns s c f ([BitVec.ofNat 8 b0, BitVec.ofNat 8 b1] ++ leBytes h2 2 ++ tail)
     let queue (a : Word) : Prop := 0xF0 ≤ a.toNat / 2 ^ 24 ∧ a.toNat / 2 ^ 24 ≤ 0xF4
     let inRange (l : Nat) : Prop := 1 ≤ l ∧ l ≤ 1048576
     NoSteppedWait s ∧
     at8 1 df.toNat 0 (word len) ∧
     s.clk.frac < 2 ^ 32 ∧
     len < 2 ^ 32 ∧
     inRange len ∧
     (df = true ↔ queue d.cdst)) ∧
    (let s : State := (channelled runningDma [0x101, 1048576] [])
     let c : DmaId := 1; let f : FoldId := 0; let len : Nat := 1048576; let df : Bool := true; let d := s.dmaCh c
     let word (v : Nat) : List Byte := leBytes v 4
     let at8 (b0 b1 h2 : Nat) (tail : List Byte) : Prop := AtIns s c f ([BitVec.ofNat 8 b0, BitVec.ofNat 8 b1] ++ leBytes h2 2 ++ tail)
     let queue (a : Word) : Prop := 0xF0 ≤ a.toNat / 2 ^ 24 ∧ a.toNat / 2 ^ 24 ≤ 0xF4
     let inRange (l : Nat) : Prop := 1 ≤ l ∧ l ≤ 1048576
     NoSteppedWait s ∧
     at8 1 df.toNat 0 (word len) ∧
     s.clk.frac < 2 ^ 32 ∧
     len < 2 ^ 32 ∧
     inRange len ∧
     ¬ (df = true ↔ queue d.cdst)) ∧
    (let s : State := (channelled runningDma [1, 1048577] []); let c : DmaId := 1; let f : FoldId := 0
     let len : Nat := 1048577; let df : Bool := false; let word (v : Nat) : List Byte := leBytes v 4
     let at8 (b0 b1 h2 : Nat) (tail : List Byte) : Prop := AtIns s c f ([BitVec.ofNat 8 b0, BitVec.ofNat 8 b1] ++ leBytes h2 2 ++ tail)
     let inRange (l : Nat) : Prop := 1 ≤ l ∧ l ≤ 1048576
     NoSteppedWait s ∧
     at8 1 df.toNat 0 (word len) ∧
     s.clk.frac < 2 ^ 32 ∧
     len < 2 ^ 32 ∧
     ¬ inRange len) ∧
    (let s : State := (channelled runningDma [1, 0] []); let c : DmaId := 1; let f : FoldId := 0; let len : Nat := 0
     let df : Bool := false; let word (v : Nat) : List Byte := leBytes v 4
     let at8 (b0 b1 h2 : Nat) (tail : List Byte) : Prop := AtIns s c f ([BitVec.ofNat 8 b0, BitVec.ofNat 8 b1] ++ leBytes h2 2 ++ tail)
     let inRange (l : Nat) : Prop := 1 ≤ l ∧ l ≤ 1048576
     NoSteppedWait s ∧
     at8 1 df.toNat 0 (word len) ∧
     s.clk.frac < 2 ^ 32 ∧
     len < 2 ^ 32 ∧
     ¬ inRange len) ∧
    (let s : State := (channelled runningDma [0x301, 0x80000380] [0x80000500, 0xF4000000, 1, 0])
     let c : DmaId := 1; let f : FoldId := 0; let w : Word := 0x80000380; let src : Word := 0x80000500
     let dst : Word := 0xF4000000; let len : Nat := 1; let df : Bool := true
     let word (v : Nat) : List Byte := leBytes v 4
     let at8 (b0 b1 h2 : Nat) (tail : List Byte) : Prop := AtIns s c f ([BitVec.ofNat 8 b0, BitVec.ofNat 8 b1] ++ leBytes h2 2 ++ tail)
     let queue (a : Word) : Prop := 0xF0 ≤ a.toNat / 2 ^ 24 ∧ a.toNat / 2 ^ 24 ≤ 0xF4
     let inRange (l : Nat) : Prop := 1 ≤ l ∧ l ≤ 1048576
     NoSteppedWait s ∧
     at8 1 (df.toNat + 2) 0 (word w.toNat) ∧
     Readable s c f w (word src.toNat ++ word dst.toNat ++ word len ++ word 0) ∧
     s.clk.frac < 2 ^ 32 ∧
     w.toNat % 16 = 0 ∧
     len < 2 ^ 32 ∧
     inRange len ∧
     (df = true ↔ queue dst)) ∧
    (let s : State := (channelled runningDma [0x30002, 0x80000380] [0x80000500, 7])
     let c : DmaId := 1; let f : FoldId := 0; let w : Word := 0x80000380; let src : Word := 0x80000500
     let len : Nat := 7; let n : Nat := 3; let df : Bool := false; let d := s.dmaCh c
     let word (v : Nat) : List Byte := leBytes v 4
     let at8 (b0 b1 h2 : Nat) (tail : List Byte) : Prop := AtIns s c f ([BitVec.ofNat 8 b0, BitVec.ofNat 8 b1] ++ leBytes h2 2 ++ tail)
     let queue (a : Word) : Prop := 0xF0 ≤ a.toNat / 2 ^ 24 ∧ a.toNat / 2 ^ 24 ≤ 0xF4
     let inRange (l : Nat) : Prop := 1 ≤ l ∧ l ≤ 1048576
     NoSteppedWait s ∧
     Readable s c f (w + BitVec.ofNat 32 (8 * d.entry.toNat)) (word src.toNat ++ word len) ∧
     at8 2 df.toNat n (word w.toNat) ∧
     s.clk.frac < 2 ^ 32 ∧
     w.toNat % 8 = 0 ∧
     1 ≤ n ∧
     n ≤ 4096 ∧
     d.entry.toNat < n ∧
     len < 2 ^ 32 ∧
     (df = true ↔ queue d.cdst) ∧
     inRange len) ∧
    (let s : State := (channelled runningDma [0x30002, 0x80000380] [0x80000500, 0])
     let c : DmaId := 1; let f : FoldId := 0; let w : Word := 0x80000380; let src : Word := 0x80000500
     let len : Nat := 0; let n : Nat := 3; let df : Bool := false; let d := s.dmaCh c
     let word (v : Nat) : List Byte := leBytes v 4
     let at8 (b0 b1 h2 : Nat) (tail : List Byte) : Prop := AtIns s c f ([BitVec.ofNat 8 b0, BitVec.ofNat 8 b1] ++ leBytes h2 2 ++ tail)
     let queue (a : Word) : Prop := 0xF0 ≤ a.toNat / 2 ^ 24 ∧ a.toNat / 2 ^ 24 ≤ 0xF4
     let inRange (l : Nat) : Prop := 1 ≤ l ∧ l ≤ 1048576
     NoSteppedWait s ∧
     Readable s c f (w + BitVec.ofNat 32 (8 * d.entry.toNat)) (word src.toNat ++ word len) ∧
     at8 2 df.toNat n (word w.toNat) ∧
     s.clk.frac < 2 ^ 32 ∧
     w.toNat % 8 = 0 ∧
     1 ≤ n ∧
     n ≤ 4096 ∧
     d.entry.toNat < n ∧
     len < 2 ^ 32 ∧
     (df = true ↔ queue d.cdst) ∧
     ¬ inRange len) ∧
    (let s : State := (channelled { runningDma with entry := 1 } [0x30003, 0x80000380] [0, 0, 0x80000500, 7])
     let c : DmaId := 1; let f : FoldId := 0; let w : Word := 0x80000380; let src : Word := 0x80000500
     let len : Nat := 7; let n : Nat := 3; let d := s.dmaCh c; let word (v : Nat) : List Byte := leBytes v 4
     let at8 (b0 b1 h2 : Nat) (tail : List Byte) : Prop := AtIns s c f ([BitVec.ofNat 8 b0, BitVec.ofNat 8 b1] ++ leBytes h2 2 ++ tail)
     let inRange (l : Nat) : Prop := 1 ≤ l ∧ l ≤ 1048576
     NoSteppedWait s ∧
     Readable s c f (w + BitVec.ofNat 32 (8 * d.entry.toNat)) (word src.toNat ++ word len) ∧
     at8 3 0 n (word w.toNat) ∧
     s.clk.frac < 2 ^ 32 ∧
     w.toNat % 8 = 0 ∧
     1 ≤ n ∧
     n ≤ 4096 ∧
     d.entry.toNat < n ∧
     len < 2 ^ 32 ∧
     inRange len) ∧
    (let s : State := (channelled runningDma [0x30003, 0x80000380] [0x80000500, 1048577])
     let c : DmaId := 1; let f : FoldId := 0; let w : Word := 0x80000380; let src : Word := 0x80000500
     let len : Nat := 1048577; let n : Nat := 3; let d := s.dmaCh c; let word (v : Nat) : List Byte := leBytes v 4
     let at8 (b0 b1 h2 : Nat) (tail : List Byte) : Prop := AtIns s c f ([BitVec.ofNat 8 b0, BitVec.ofNat 8 b1] ++ leBytes h2 2 ++ tail)
     let inRange (l : Nat) : Prop := 1 ≤ l ∧ l ≤ 1048576
     NoSteppedWait s ∧
     Readable s c f (w + BitVec.ofNat 32 (8 * d.entry.toNat)) (word src.toNat ++ word len) ∧
     at8 3 0 n (word w.toNat) ∧
     s.clk.frac < 2 ^ 32 ∧
     w.toNat % 8 = 0 ∧
     1 ≤ n ∧
     n ≤ 4096 ∧
     d.entry.toNat < n ∧
     len < 2 ^ 32 ∧
     ¬ inRange len) :=
  ⟨⟨noStepped (by decide +kernel), atIns 0x0200000100 (by decide +kernel) ⟨rfl, rfl, rfl⟩, by decide +kernel⟩,
    ⟨noStepped (by decide +kernel), atIns 0x0200000100 (by decide +kernel) ⟨rfl, rfl, rfl⟩, by decide +kernel⟩,
    ⟨noStepped (by decide +kernel), atIns 0x0200000100 (by decide +kernel) ⟨rfl, rfl, rfl⟩, by decide +kernel⟩,
    ⟨noStepped (by decide +kernel), atIns 0x0200000100 (by decide +kernel) ⟨rfl, rfl, rfl⟩, by decide +kernel⟩,
    ⟨noStepped (by decide +kernel), atIns 0x0200000100 (by decide +kernel) ⟨rfl, rfl, rfl⟩, readable 0x0200000380 (by decide +kernel), by decide +kernel⟩,
    ⟨noStepped (by decide +kernel), (by first | exact readable 0x0200000380 (by decide +kernel) | exact readable 0x0200000388 (by decide +kernel)), atIns 0x0200000100 (by decide +kernel) ⟨rfl, rfl, rfl⟩, by decide +kernel⟩,
    ⟨noStepped (by decide +kernel), (by first | exact readable 0x0200000380 (by decide +kernel) | exact readable 0x0200000388 (by decide +kernel)), atIns 0x0200000100 (by decide +kernel) ⟨rfl, rfl, rfl⟩, by decide +kernel⟩,
    ⟨noStepped (by decide +kernel), (by first | exact readable 0x0200000380 (by decide +kernel) | exact readable 0x0200000388 (by decide +kernel)), atIns 0x0200000100 (by decide +kernel) ⟨rfl, rfl, rfl⟩, by decide +kernel⟩,
    ⟨noStepped (by decide +kernel), (by first | exact readable 0x0200000380 (by decide +kernel) | exact readable 0x0200000388 (by decide +kernel)), atIns 0x0200000100 (by decide +kernel) ⟨rfl, rfl, rfl⟩, by decide +kernel⟩⟩

/-- O41, ChannelInstructionsFollowTheirTables: states and operands that meet the hypotheses of its clauses. -/
theorem test_loops :
    (let s : State := (channelled { runningDma with loopAct := true, lpc := 8 } [0x30004, 1] [])
     let c : DmaId := 1; let f : FoldId := 0; let n : Nat := 3; let back : Nat := 1; let d := s.dmaCh c
     let at8 (b0 b1 h2 : Nat) (tail : List Byte) : Prop := AtIns s c f ([BitVec.ofNat 8 b0, BitVec.ofNat 8 b1] ++ leBytes h2 2 ++ tail)
     NoSteppedWait s ∧
     at8 4 0 n (leBytes back 2 ++ [0, 0]) ∧
     s.clk.frac < 2 ^ 32 ∧
     1 ≤ n ∧
     n < 2 ^ 16 ∧
     1 ≤ back ∧
     back ≤ 1023 ∧
     d.loopAct = true ∧
     d.lpc ≠ d.cpc) ∧
    (let s : State := (channelled runningDma [0xFFFF0004, 1023] [])
     let c : DmaId := 1; let f : FoldId := 0; let n : Nat := 65535; let back : Nat := 1023; let d := s.dmaCh c
     let at8 (b0 b1 h2 : Nat) (tail : List Byte) : Prop := AtIns s c f ([BitVec.ofNat 8 b0, BitVec.ofNat 8 b1] ++ leBytes h2 2 ++ tail)
     let cnt : Half := if d.loopAct then d.lcnt - 1 else BitVec.ofNat 16 (n - 1)
     NoSteppedWait s ∧
     at8 4 0 n (leBytes back 2 ++ [0, 0]) ∧
     s.clk.frac < 2 ^ 32 ∧
     1 ≤ n ∧
     n < 2 ^ 16 ∧
     1 ≤ back ∧
     back ≤ 1023 ∧
     (d.loopAct = false ∨ d.lpc = d.cpc) ∧
     cnt ≠ 0) ∧
    (let s : State := (channelled { runningDma with loopAct := true, lcnt := 1, lpc := 0x80000100 } [0x30004, 1] [])
     let c : DmaId := 1; let f : FoldId := 0; let n : Nat := 3; let back : Nat := 1; let d := s.dmaCh c
     let at8 (b0 b1 h2 : Nat) (tail : List Byte) : Prop := AtIns s c f ([BitVec.ofNat 8 b0, BitVec.ofNat 8 b1] ++ leBytes h2 2 ++ tail)
     let cnt : Half := if d.loopAct then d.lcnt - 1 else BitVec.ofNat 16 (n - 1)
     NoSteppedWait s ∧
     at8 4 0 n (leBytes back 2 ++ [0, 0]) ∧
     s.clk.frac < 2 ^ 32 ∧
     1 ≤ n ∧
     n < 2 ^ 16 ∧
     1 ≤ back ∧
     back ≤ 1023 ∧
     (d.loopAct = false ∨ d.lpc = d.cpc) ∧
     cnt = 0) :=
  ⟨⟨noStepped (by decide +kernel), atIns 0x0200000100 (by decide +kernel) ⟨rfl, rfl, rfl⟩, by decide +kernel⟩,
    ⟨noStepped (by decide +kernel), atIns 0x0200000100 (by decide +kernel) ⟨rfl, rfl, rfl⟩, by decide +kernel⟩,
    ⟨noStepped (by decide +kernel), atIns 0x0200000100 (by decide +kernel) ⟨rfl, rfl, rfl⟩, by decide +kernel⟩⟩

/-- O41, ChannelInstructionsFollowTheirTables: states and operands that meet the hypotheses of its clauses. -/
theorem test_waitings :
    (let s : State := (channelled runningDma [0x4D0105, 0] []); let c : DmaId := 1; let f : FoldId := 0
     let tmo : Nat := 77; let d := s.dmaCh c; let word (v : Nat) : List Byte := leBytes v 4
     let at8 (b0 b1 h2 : Nat) (tail : List Byte) : Prop := AtIns s c f ([BitVec.ofNat 8 b0, BitVec.ofNat 8 b1] ++ leBytes h2 2 ++ tail)
     let k := 1
     NoSteppedWait s ∧
     at8 5 k tmo (word 0) ∧
     s.clk.frac < 2 ^ 32 ∧
     tmo < 2 ^ 16 ∧
     (k = 1 ∨ k = 3 ∨ k = 2 ∧ d.ev = false)) ∧
    (let s : State := (channelled runningDma [0x4D0205, 0] []); let c : DmaId := 1; let f : FoldId := 0
     let tmo : Nat := 77; let d := s.dmaCh c; let word (v : Nat) : List Byte := leBytes v 4
     let at8 (b0 b1 h2 : Nat) (tail : List Byte) : Prop := AtIns s c f ([BitVec.ofNat 8 b0, BitVec.ofNat 8 b1] ++ leBytes h2 2 ++ tail)
     let k := 2
     NoSteppedWait s ∧
     at8 5 k tmo (word 0) ∧
     s.clk.frac < 2 ^ 32 ∧
     tmo < 2 ^ 16 ∧
     (k = 1 ∨ k = 3 ∨ k = 2 ∧ d.ev = false)) ∧
    (let s : State := (channelled { runningDma with ev := true } [0x4D0205, 0] [])
     let c : DmaId := 1; let f : FoldId := 0; let tmo : Nat := 77; let d := s.dmaCh c
     let word (v : Nat) : List Byte := leBytes v 4
     let at8 (b0 b1 h2 : Nat) (tail : List Byte) : Prop := AtIns s c f ([BitVec.ofNat 8 b0, BitVec.ofNat 8 b1] ++ leBytes h2 2 ++ tail)
     NoSteppedWait s ∧
     at8 5 2 tmo (word 0) ∧
     s.clk.frac < 2 ^ 32 ∧
     tmo < 2 ^ 16 ∧
     d.ev = true) ∧
    (let s : State := (channelled runningDma [0x4D0405, 0x80000380] [0])
     let c : DmaId := 1; let f : FoldId := 0; let w : Word := 0x80000380; let tmo : Nat := 77
     let word (v : Nat) : List Byte := leBytes v 4
     let at8 (b0 b1 h2 : Nat) (tail : List Byte) : Prop := AtIns s c f ([BitVec.ofNat 8 b0, BitVec.ofNat 8 b1] ++ leBytes h2 2 ++ tail)
     NoSteppedWait s ∧
     at8 5 4 tmo (word w.toNat) ∧
     Readable s c f w [0, 0, 0, 0] ∧
     s.clk.frac < 2 ^ 32 ∧
     tmo < 2 ^ 16 ∧
     w.toNat % 4 = 0) ∧
    (let s : State := (channelled runningDma [0x4D0405, 0x80000380] [5])
     let c : DmaId := 1; let f : FoldId := 0; let w : Word := 0x80000380; let tmo : Nat := 77
     let bs : List Byte := [5, 0, 0, 0]; let word (v : Nat) : List Byte := leBytes v 4
     let at8 (b0 b1 h2 : Nat) (tail : List Byte) : Prop := AtIns s c f ([BitVec.ofNat 8 b0, BitVec.ofNat 8 b1] ++ leBytes h2 2 ++ tail)
     NoSteppedWait s ∧
     at8 5 4 tmo (word w.toNat) ∧
     Readable s c f w bs ∧
     s.clk.frac < 2 ^ 32 ∧
     tmo < 2 ^ 16 ∧
     w.toNat % 4 = 0 ∧
     bs.length = 4 ∧
     bs ≠ [0, 0, 0, 0]) ∧
    (let s : State := (channelled { runningDma with state := .waiting, wait := some ⟨2, 1000, 3, 0, true, 0⟩ } [] [])
     let c : DmaId := 1; let f : FoldId := 0; let tmo : Nat := 77; let wt : DmaWait := ⟨2, 1000, 3, 0, true, 0⟩
     let d := s.dmaCh c; let ended := wt.seen
     let late := wt.tmo ≠ 0 ∧ s.clk.cyclePast (wt.begin + wt.tmo * 1000) = true
     NoSteppedWait s ∧
     s.clk.frac < 2 ^ 32 ∧
     s.dmaFold c = some f ∧
     d.state = .waiting ∧
     d.wait = some wt ∧
     wt.kind ≠ 4 ∧
     ended = true ∧
     late) ∧
    (let s : State := (channelled { runningDma with state := .waiting, wait := some ⟨1, 1000, 3, 0, false, 0⟩ } [] [])
     let c : DmaId := 1; let f : FoldId := 0; let tmo : Nat := 77; let wt : DmaWait := ⟨1, 1000, 3, 0, false, 0⟩
     let d := s.dmaCh c; let ended := wt.seen
     let late := wt.tmo ≠ 0 ∧ s.clk.cyclePast (wt.begin + wt.tmo * 1000) = true
     NoSteppedWait s ∧
     s.clk.frac < 2 ^ 32 ∧
     s.dmaFold c = some f ∧
     d.state = .waiting ∧
     d.wait = some wt ∧
     wt.kind ≠ 4 ∧
     ended = false ∧
     late) ∧
    (let s : State := (channelled { runningDma with state := .waiting, wait := some ⟨3, 4000, 3, 0, false, 0⟩ } [] [])
     let c : DmaId := 1; let f : FoldId := 0; let tmo : Nat := 77; let wt : DmaWait := ⟨3, 4000, 3, 0, false, 0⟩
     let d := s.dmaCh c
     let late := wt.tmo ≠ 0 ∧ s.clk.cyclePast (wt.begin + wt.tmo * 1000) = true
     NoSteppedWait s ∧
     s.clk.frac < 2 ^ 32 ∧
     s.dmaFold c = some f ∧
     d.state = .waiting ∧
     d.wait = some wt ∧
     wt.kind ≠ 4 ∧
     ¬ late) :=
  ⟨⟨noStepped (by decide +kernel), atIns 0x0200000100 (by decide +kernel) ⟨rfl, rfl, rfl⟩, by decide +kernel⟩,
    ⟨noStepped (by decide +kernel), atIns 0x0200000100 (by decide +kernel) ⟨rfl, rfl, rfl⟩, by decide +kernel⟩,
    ⟨noStepped (by decide +kernel), atIns 0x0200000100 (by decide +kernel) ⟨rfl, rfl, rfl⟩, by decide +kernel⟩,
    ⟨noStepped (by decide +kernel), atIns 0x0200000100 (by decide +kernel) ⟨rfl, rfl, rfl⟩, readable 0x0200000380 (by decide +kernel), by decide +kernel⟩,
    ⟨noStepped (by decide +kernel), atIns 0x0200000100 (by decide +kernel) ⟨rfl, rfl, rfl⟩, readable 0x0200000380 (by decide +kernel), by decide +kernel⟩,
    ⟨noStepped (by decide +kernel), by decide +kernel⟩,
    ⟨noStepped (by decide +kernel), by decide +kernel⟩,
    ⟨noStepped (by decide +kernel), by decide +kernel⟩⟩

/-- O41, ChannelInstructionsFollowTheirTables: states and operands that meet the hypotheses of its clauses. -/
theorem test_signals :
    (let s : State := ((channelled runningDma [0x03EF0306, 0] []).setReg (rDmaown 3) 0x80000000)
     let c : DmaId := 1; let tc : DmaId := 3; let f : FoldId := 0; let e : Bool := true; let sig : Bool := true
     let code : Byte := 0xEF; let d := s.dmaCh c; let word (v : Nat) : List Byte := leBytes v 4
     let at8 (b0 b1 h2 : Nat) (tail : List Byte) : Prop := AtIns s c f ([BitVec.ofNat 8 b0, BitVec.ofNat 8 b1] ++ leBytes h2 2 ++ tail)
     let written : Prop := ∃ l lb, d.lastWrite = some (l, lb) ∧ s.heldAny (16 * l) = false ∧
      s.decodeAccess (16 * l) 16 = (s, .completed) ∧ ∀ b ∈ lb, memGet s.mem b.1 = b.2
     let settled : Prop := d.lastWrite = none ∨ written
     NoSteppedWait s ∧
     at8 6 (sig.toNat + 2 * e.toNat) (code.toNat + 256 * (if e then tc.val else 0)) (word 0) ∧
     settled ∧
     s.clk.frac < 2 ^ 32 ∧
     code.toNat ≤ 0xEF ∧
     s.dmaFold tc = some f ∧
     tc ≠ c) ∧
    (let s : State := ((channelled { runningDma with lastWrite := some (0x20000021, [(0x0200000210, 0)]) } [0x00EF0106, 0] []).setReg (rDmaown 3) 0x80000000)
     let c : DmaId := 1; let tc : DmaId := 3; let f : FoldId := 0; let e : Bool := false; let sig : Bool := true
     let code : Byte := 0xEF; let d := s.dmaCh c; let word (v : Nat) : List Byte := leBytes v 4
     let at8 (b0 b1 h2 : Nat) (tail : List Byte) : Prop := AtIns s c f ([BitVec.ofNat 8 b0, BitVec.ofNat 8 b1] ++ leBytes h2 2 ++ tail)
     let written : Prop := ∃ l lb, d.lastWrite = some (l, lb) ∧ s.heldAny (16 * l) = false ∧
      s.decodeAccess (16 * l) 16 = (s, .completed) ∧ ∀ b ∈ lb, memGet s.mem b.1 = b.2
     NoSteppedWait s ∧
     at8 6 (sig.toNat + 2 * e.toNat) (code.toNat + 256 * (if e then tc.val else 0)) (word 0) ∧
     written ∧
     s.clk.frac < 2 ^ 32 ∧
     code.toNat ≤ 0xEF ∧
     s.dmaFold tc = some f ∧
     tc ≠ c) ∧
    (let s : State := (channelled { runningDma with crc := 0xFFFFFFFA } [0x0207, 5] [])
     let c : DmaId := 1; let f : FoldId := 0; let w : Word := 5; let clr : Bool := true; let d := s.dmaCh c
     let word (v : Nat) : List Byte := leBytes v 4
     let at8 (b0 b1 h2 : Nat) (tail : List Byte) : Prop := AtIns s c f ([BitVec.ofNat 8 b0, BitVec.ofNat 8 b1] ++ leBytes h2 2 ++ tail)
     NoSteppedWait s ∧
     at8 7 (2 * clr.toNat) 0 (word w.toNat) ∧
     s.clk.frac < 2 ^ 32 ∧
     w = ~~~d.crc) ∧
    (let s : State := (channelled runningDma [0x0007, 5] []); let c : DmaId := 1; let f : FoldId := 0
     let w : Word := 5; let clr : Bool := false; let d := s.dmaCh c; let word (v : Nat) : List Byte := leBytes v 4
     let at8 (b0 b1 h2 : Nat) (tail : List Byte) : Prop := AtIns s c f ([BitVec.ofNat 8 b0, BitVec.ofNat 8 b1] ++ leBytes h2 2 ++ tail)
     NoSteppedWait s ∧
     at8 7 (2 * clr.toNat) 0 (word w.toNat) ∧
     s.clk.frac < 2 ^ 32 ∧
     w ≠ ~~~d.crc) ∧
    (let s : State := (channelled { runningDma with crc := 0xFFFFFFFA } [0x0107, 0x80000380] [5])
     let c : DmaId := 1; let f : FoldId := 0; let w : Word := 0x80000380; let src : Word := 5; let clr : Bool := false
     let d := s.dmaCh c; let word (v : Nat) : List Byte := leBytes v 4
     let at8 (b0 b1 h2 : Nat) (tail : List Byte) : Prop := AtIns s c f ([BitVec.ofNat 8 b0, BitVec.ofNat 8 b1] ++ leBytes h2 2 ++ tail)
     NoSteppedWait s ∧
     at8 7 (1 + 2 * clr.toNat) 0 (word w.toNat) ∧
     Readable s c f w (word src.toNat) ∧
     s.clk.frac < 2 ^ 32 ∧
     w.toNat % 4 = 0 ∧
     src = ~~~d.crc) ∧
    (let s : State := (channelled runningDma [0x0307, 0x80000380] [5])
     let c : DmaId := 1; let f : FoldId := 0; let w : Word := 0x80000380; let src : Word := 5; let clr : Bool := true
     let d := s.dmaCh c; let word (v : Nat) : List Byte := leBytes v 4
     let at8 (b0 b1 h2 : Nat) (tail : List Byte) : Prop := AtIns s c f ([BitVec.ofNat 8 b0, BitVec.ofNat 8 b1] ++ leBytes h2 2 ++ tail)
     NoSteppedWait s ∧
     at8 7 (1 + 2 * clr.toNat) 0 (word w.toNat) ∧
     Readable s c f w (word src.toNat) ∧
     s.clk.frac < 2 ^ 32 ∧
     w.toNat % 4 = 0 ∧
     src ≠ ~~~d.crc) ∧
    (let s : State := (channelled runningDma [0x0108, 0] []); let c : DmaId := 1; let f : FoldId := 0
     let sig : Bool := true; let d := s.dmaCh c; let word (v : Nat) : List Byte := leBytes v 4
     let at8 (b0 b1 h2 : Nat) (tail : List Byte) : Prop := AtIns s c f ([BitVec.ofNat 8 b0, BitVec.ofNat 8 b1] ++ leBytes h2 2 ++ tail)
     let written : Prop := ∃ l lb, d.lastWrite = some (l, lb) ∧ s.heldAny (16 * l) = false ∧
      s.decodeAccess (16 * l) 16 = (s, .completed) ∧ ∀ b ∈ lb, memGet s.mem b.1 = b.2
     let settled : Prop := d.lastWrite = none ∨ written
     NoSteppedWait s ∧
     at8 8 sig.toNat 0 (word 0) ∧
     settled ∧
     s.clk.frac < 2 ^ 32) ∧
    (let s : State := (channelled { runningDma with lastWrite := some (0x20000021, [(0x0200000210, 0)]) } [0x0008, 0] [])
     let c : DmaId := 1; let f : FoldId := 0; let sig : Bool := false; let d := s.dmaCh c
     let word (v : Nat) : List Byte := leBytes v 4
     let at8 (b0 b1 h2 : Nat) (tail : List Byte) : Prop := AtIns s c f ([BitVec.ofNat 8 b0, BitVec.ofNat 8 b1] ++ leBytes h2 2 ++ tail)
     let written : Prop := ∃ l lb, d.lastWrite = some (l, lb) ∧ s.heldAny (16 * l) = false ∧
      s.decodeAccess (16 * l) 16 = (s, .completed) ∧ ∀ b ∈ lb, memGet s.mem b.1 = b.2
     NoSteppedWait s ∧
     at8 8 sig.toNat 0 (word 0) ∧
     written ∧
     s.clk.frac < 2 ^ 32) :=
  ⟨⟨noStepped (by decide +kernel), atIns 0x0200000100 (by decide +kernel) ⟨rfl, rfl, rfl⟩, Or.inl rfl, by decide +kernel⟩,
    ⟨noStepped (by decide +kernel), atIns 0x0200000100 (by decide +kernel) ⟨rfl, rfl, rfl⟩, ⟨0x20000021, [(0x0200000210, 0)], by decide +kernel, by decide +kernel, rfl, by decide +kernel⟩, by decide +kernel⟩,
    ⟨noStepped (by decide +kernel), atIns 0x0200000100 (by decide +kernel) ⟨rfl, rfl, rfl⟩, by decide +kernel⟩,
    ⟨noStepped (by decide +kernel), atIns 0x0200000100 (by decide +kernel) ⟨rfl, rfl, rfl⟩, by decide +kernel⟩,
    ⟨noStepped (by decide +kernel), atIns 0x0200000100 (by decide +kernel) ⟨rfl, rfl, rfl⟩, readable 0x0200000380 (by decide +kernel), by decide +kernel⟩,
    ⟨noStepped (by decide +kernel), atIns 0x0200000100 (by decide +kernel) ⟨rfl, rfl, rfl⟩, readable 0x0200000380 (by decide +kernel), by decide +kernel⟩,
    ⟨noStepped (by decide +kernel), atIns 0x0200000100 (by decide +kernel) ⟨rfl, rfl, rfl⟩, Or.inl rfl, by decide +kernel⟩,
    ⟨noStepped (by decide +kernel), atIns 0x0200000100 (by decide +kernel) ⟨rfl, rfl, rfl⟩, ⟨0x20000021, [(0x0200000210, 0)], by decide +kernel, by decide +kernel, rfl, by decide +kernel⟩, by decide +kernel⟩⟩

/-- O41, ChannelInstructionsFollowTheirTables: states and operands that meet the hypotheses of its clauses. -/
theorem test_bursts :
    (let s : State := (channelled { runningDma with state := .stopping, csrc := 0x80000380, cdst := 0x80000510, xfer := some ⟨1, 0, 0, 0, 300, 0, false⟩ } [] [1, 2])
     let c : DmaId := 1; let f : FoldId := 0; let q : Nat := 0x0200000510; let df : Bool := false
     let bs : List Byte := (memRead (channelled runningDma [] [1, 2]).mem 0x0200000380 128)
     let x : DmaXfer := ⟨1, 0, 0, 0, 300, 0, false⟩; let d := s.dmaCh c
     let queue (a : Word) : Prop := 0xF0 ≤ a.toNat / 2 ^ 24 ∧ a.toNat / 2 ^ 24 ≤ 0xF4
     let a := if x.op = 2 then x.addr else d.csrc
     let b := if x.op = 3 then x.addr else d.cdst
     let m := min x.left (min (256 - a.toNat % 256) (if x.df then 256 else 256 - b.toNat % 256))
     NoSteppedWait s ∧
     Readable s c f a bs ∧
     NoErrors s ∧
     s.clk.frac < 2 ^ 32 ∧
     s.dmaFold c = some f ∧
     d.wdOver s.clk = false ∧
     (d.state = .running ∨ d.state = .stopping) ∧
     d.xfer = some x ∧
     x.left ≠ 0 ∧
     (x.op = 1 ∨ x.op = 2 ∨ x.op = 3) ∧
     s.dmaFirst c = true ∧
     s.dmaSlot c = true ∧
     bs.length = m ∧
     ¬ queue b ∧
     s.dmaPhys f d b m Need.write false = some q ∧
     (∀ j < m, s.wiping (q + j) = false) ∧
     Memory.wf s.mem = true) ∧
    (let s : State := { (channelled { runningDma with csrc := 0x80000380, cdst := 0xF4000000, xfer := some ⟨1, 0, 0, 0, 8, 0, true⟩ } [] [1, 2]).setReg rFmgrCtl 1 with slotPlan := [] }
     let c : DmaId := 1; let f : FoldId := 0; let x : DmaXfer := ⟨1, 0, 0, 0, 8, 0, true⟩; let d := s.dmaCh c
     NoSteppedWait s ∧
     s.clk.frac < 2 ^ 32 ∧
     s.dmaFold c = some f ∧
     d.wdOver s.clk = false ∧
     (d.state = .running ∨ d.state = .stopping) ∧
     d.xfer = some x ∧
     x.left ≠ 0 ∧
     (x.op = 1 ∨ x.op = 2 ∨ x.op = 3) ∧
     (s.dmaReady c = false ∨ s.dmaSlot c = false ∨ ∃ z : DmaId, z.val / 8 = c.val / 8 ∧ s.dmaFold z = some f ∧
       s.dmaReady z = true ∧ d.prio.toNat < (s.dmaCh z).prio.toNat)) ∧
    (let s : State := (((channelled { runningDma with csrc := 0x80000380, cdst := 0xF0000000, xfer := some ⟨1, 0, 0, 0, 8, 0, true⟩ } [] [1, 2]).setReg (rPqown 0 0) 0x80000000).setReg (rFhsize 0) 0x10000)
     let c : DmaId := 1; let f : FoldId := 0; let df : Bool := false; let bs : List Byte := [1, 0, 0, 0, 2, 0, 0, 0]
     let x : DmaXfer := ⟨1, 0, 0, 0, 8, 0, true⟩; let d := s.dmaCh c
     let queue (a : Word) : Prop := 0xF0 ≤ a.toNat / 2 ^ 24 ∧ a.toNat / 2 ^ 24 ≤ 0xF4
     let a := if x.op = 2 then x.addr else d.csrc
     let b := if x.op = 3 then x.addr else d.cdst
     let m := min x.left (min (256 - a.toNat % 256) (if x.df then 256 else 256 - b.toNat % 256))
     let h : HeldOutput := ⟨outputDest (b.toNat / 2 ^ 24) (b.toNat % 2 ^ 24), bs, false, d.oepoch, ⟨d.cpc, some (c, d.seq)⟩⟩
     NoSteppedWait s ∧
     Readable s c f a bs ∧
     NoErrors s ∧
     s.clk.frac < 2 ^ 32 ∧
     s.dmaFold c = some f ∧
     d.wdOver s.clk = false ∧
     (d.state = .running ∨ d.state = .stopping) ∧
     d.xfer = some x ∧
     x.left ≠ 0 ∧
     (x.op = 1 ∨ x.op = 2 ∨ x.op = 3) ∧
     s.dmaFirst c = true ∧
     s.dmaSlot c = true ∧
     bs.length = m ∧
     queue b ∧
     x.op ≠ 3 ∧
     s.isTxWindow f (b.toNat / 2 ^ 24) (b.toNat % 2 ^ 24) = true ∧
     s.check f 0 d.ring b m Need.write ≠ none ∧
     (s.fold f).phase = .running ∧
     serialGe d.oepoch (BitVec.ofNat 32 (s.curEpoch f)) = true ∧
     (s.fold f).heldBytes + h.bytes ≤ (s.reg (rFhsize f) 0).toNat) ∧
    (let s : State := (((channelled { runningDma with csrc := 0x80000380, cdst := 0xF0000000, xfer := some ⟨1, 0, 0, 0, 8, 0, true⟩ } [] [1, 2]).setReg (rPqown 0 0) 0x80000000).setReg (rFhsize 0) 31)
     let c : DmaId := 1; let f : FoldId := 0; let df : Bool := false; let bs : List Byte := [1, 0, 0, 0, 2, 0, 0, 0]
     let x : DmaXfer := ⟨1, 0, 0, 0, 8, 0, true⟩; let d := s.dmaCh c
     let queue (a : Word) : Prop := 0xF0 ≤ a.toNat / 2 ^ 24 ∧ a.toNat / 2 ^ 24 ≤ 0xF4
     let a := if x.op = 2 then x.addr else d.csrc
     let b := if x.op = 3 then x.addr else d.cdst
     let m := min x.left (min (256 - a.toNat % 256) (if x.df then 256 else 256 - b.toNat % 256))
     let h : HeldOutput := ⟨outputDest (b.toNat / 2 ^ 24) (b.toNat % 2 ^ 24), bs, false, d.oepoch, ⟨d.cpc, some (c, d.seq)⟩⟩
     NoSteppedWait s ∧
     Readable s c f a bs ∧
     NoErrors s ∧
     s.clk.frac < 2 ^ 32 ∧
     s.dmaFold c = some f ∧
     d.wdOver s.clk = false ∧
     (d.state = .running ∨ d.state = .stopping) ∧
     d.xfer = some x ∧
     x.left ≠ 0 ∧
     (x.op = 1 ∨ x.op = 2 ∨ x.op = 3) ∧
     s.dmaFirst c = true ∧
     s.dmaSlot c = true ∧
     bs.length = m ∧
     queue b ∧
     x.op ≠ 3 ∧
     s.isTxWindow f (b.toNat / 2 ^ 24) (b.toNat % 2 ^ 24) = true ∧
     s.check f 0 d.ring b m Need.write ≠ none ∧
     (s.fold f).phase = .running ∧
     serialGe d.oepoch (BitVec.ofNat 32 (s.curEpoch f)) = true ∧
     (s.reg (rFhsize f) 0).toNat < (s.fold f).heldBytes + h.bytes) ∧
    (let s : State := ((channelled runningDma [] []).setReg (rDmaown 1) 0)
     let c : DmaId := 1
     NoSteppedWait s ∧
     s.clk.frac < 2 ^ 32 ∧
     s.dmaFold c = none) :=
  ⟨⟨noStepped (by decide +kernel), readable 0x0200000380 (by decide +kernel), ⟨rfl, rfl, rfl⟩, by decide +kernel⟩,
    ⟨noStepped (by decide +kernel), by decide +kernel⟩,
    ⟨noStepped (by decide +kernel), readable 0x0200000380 (by decide +kernel), ⟨rfl, rfl, rfl⟩, by decide +kernel⟩,
    ⟨noStepped (by decide +kernel), readable 0x0200000380 (by decide +kernel), ⟨rfl, rfl, rfl⟩, by decide +kernel⟩,
    ⟨noStepped (by decide +kernel), by decide +kernel⟩⟩

/-- O42, FoldsAreBuiltAdmittedAndMadeSafe: states and operands that meet the hypotheses of its clauses. -/
theorem test_folds :
    (let s : State := (phased .empty); let f : FoldId := 0; let fo := s.fold f
     s.power.main = true ∧
     s.firmware = true ∧
     fo.phase = .empty) ∧
    (let s : State := (phased .build); let f : FoldId := 0; let fo := s.fold f
     let cfg := (s.reg (rFcfg f) 0x00030000).toNat; let period := 2 ^ (cfg / 2 ^ 16 % 16) * (cfg % 2 ^ 10 + 1)
     let size := (s.reg (rFhsize f) 0).toNat; let base := (s.reg (rFhbase f) 0).toNat
     let area : Prop := size ≠ 0 ∧ size % 0x10000 = 0 ∧ base % 0x10000 = 0 ∧ base % 0x100000 + size ≤ 0x100000 ∧ base < 0x4000000 ∧
      s.groupFold (Fin.ofNat 64 (base / 0x100000)) = some f
     let checks : Prop := s.foldSpans f ≠ [] ∧ (∃ i < 47, ownerOf (s.reg (rSlot i) 0) = some f) ∧ area ∧
      ((s.reg (rFpwr f) 0).toNat % 2 ^ 11 ≠ 0 ∨ bit s.fmgrCtl 1 = true) ∧
      (∀ x ∈ s.foldSpans f, bit (s.reg (rMemstat x) memstatReset) 30 = false) ∧
      (∀ g ∈ s.foldGroups f, bit (s.reg (rMemstat g) memstatReset) 31 = false) ∧ 250 ≤ period ∧ period ≤ 10000 ∧
      s.fm.dsafe = false ∧ s.sec.pend = false ∧ s.sec.mok = true
     s.power.main = true ∧
     s.firmware = true ∧
     fo.phase = .build ∧
     ¬ checks) ∧
    (let s : State := admissible; let f : FoldId := 0; let sp : SpanId := 0; let rest : List SpanId := [1]
     let fo := s.fold f; let cfg := (s.reg (rFcfg f) 0x00030000).toNat
     let period := 2 ^ (cfg / 2 ^ 16 % 16) * (cfg % 2 ^ 10 + 1); let size := (s.reg (rFhsize f) 0).toNat
     let base := (s.reg (rFhbase f) 0).toNat
     let area : Prop := size ≠ 0 ∧ size % 0x10000 = 0 ∧ base % 0x10000 = 0 ∧ base % 0x100000 + size ≤ 0x100000 ∧ base < 0x4000000 ∧
      s.groupFold (Fin.ofNat 64 (base / 0x100000)) = some f
     let checks : Prop := s.foldSpans f ≠ [] ∧ (∃ i < 47, ownerOf (s.reg (rSlot i) 0) = some f) ∧ area ∧
      ((s.reg (rFpwr f) 0).toNat % 2 ^ 11 ≠ 0 ∨ bit s.fmgrCtl 1 = true) ∧
      (∀ x ∈ s.foldSpans f, bit (s.reg (rMemstat x) memstatReset) 30 = false) ∧
      (∀ g ∈ s.foldGroups f, bit (s.reg (rMemstat g) memstatReset) 31 = false) ∧ 250 ≤ period ∧ period ≤ 10000 ∧
      s.fm.dsafe = false ∧ s.sec.pend = false ∧ s.sec.mok = true
     s.power.main = true ∧
     s.firmware = true ∧
     fo.phase = .build ∧
     checks ∧
     s.foldSpans f = sp :: rest ∧
     (s.span sp).overflow.length < 1536) ∧
    (let s : State := (phased .running); let f : FoldId := 0; let fo := s.fold f
     s.power.main = true ∧
     s.firmware = true ∧
     fo.phase = .running) ∧
    (let s : State := { (phased .running) with fm := { FaultMgr.reset with dsafe := true } }
     let f : FoldId := 0; let fo := s.fold f
     s.power.main = true ∧
     s.firmware = true ∧
     fo.phase = .running) ∧
    (let s : State := (phased .safe); let f : FoldId := 0; let fo := s.fold f
     s.power.main = true ∧
     s.firmware = true ∧
     fo.phase = .safe) ∧
    (let s : State := (phased .build); let f : FoldId := 0; let fo := s.fold f
     let owns : Prop := s.foldSpans f ≠ [] ∨ s.foldGroups f ≠ [] ∨ (∃ c, s.dmaFold c = some f) ∨
      (∃ i < 47, ownerOf (s.reg (rSlot i) 0) = some f) ∨ (∃ p < 4, ∃ q < 64, ownerOf (s.reg (rPqown p q) 0) = some f) ∨
      ∃ x < 256, s.sends f x = true ∨ s.receives f x = true
     s.power.main = true ∧
     s.firmware = true ∧
     (fo.phase = .build ∨ fo.phase = .safe) ∧
     owns) ∧
    (let s : State := (bareFold .safe); let f : FoldId := 0; let fo := s.fold f
     let owns : Prop := s.foldSpans f ≠ [] ∨ s.foldGroups f ≠ [] ∨ (∃ c, s.dmaFold c = some f) ∨
      (∃ i < 47, ownerOf (s.reg (rSlot i) 0) = some f) ∨ (∃ p < 4, ∃ q < 64, ownerOf (s.reg (rPqown p q) 0) = some f) ∨
      ∃ x < 256, s.sends f x = true ∨ s.receives f x = true
     s.power.main = true ∧
     s.firmware = true ∧
     (fo.phase = .build ∨ fo.phase = .safe) ∧
     ¬ owns) :=
  by and_intros <;> decide +kernel

/-- O43, FoldManagerRegistersFollowTheirRules: states and operands that meet the hypotheses of its clauses. -/
theorem test_ownership :
    (let s : State := (phased .running); let f : FoldId := 0; let g : GroupId := 2
     s.power.main = true ∧
     s.firmware = true ∧
     ((s.fold f).phase = .build ∨ (s.fold f).phase = .running) ∧
     s.power.bist = false ∧
     s.groupFold g = none ∧
     (s.running f = true → ∀ h ∈ s.foldGroups f, h < g)) ∧
    (let s : State := ((phased .running).setReg (rMemstat 2) 0); let f : FoldId := 0; let i : SpanId := 2
     s.power.main = true ∧
     s.firmware = true ∧
     ((s.fold f).phase = .build ∨ (s.fold f).phase = .running) ∧
     s.power.bist = false ∧
     s.spanFold i = none ∧
     bit (s.reg (rMemstat i) memstatReset) 30 = false ∧
     (s.running f = true → ∀ h ∈ s.foldSpans f, h < i)) ∧
    (let s : State := (phased .build); let f : FoldId := 0; let c : DmaId := 1
     s.power.main = true ∧
     s.firmware = true ∧
     ((s.fold f).phase = .build ∨ (s.fold f).phase = .running) ∧
     s.dmaFold c = none) ∧
    (let s : State := (phased .build); let f : FoldId := 0; let p : EthPort := 3; let q : Fin 64 := 63
     s.power.main = true ∧
     s.firmware = true ∧
     ((s.fold f).phase = .build ∨ (s.fold f).phase = .running) ∧
     ownerOf (s.reg (rPqown p.val q.val) 0) = none) ∧
    (let s : State := ((phased .build).setReg (rSpanown 2) 0x80000001)
     let f : FoldId := 0; let i : SpanId := 2; let h := 1
     s.power.main = true ∧
     s.firmware = true ∧
     s.spanFold i = some h ∧
     h ≠ f) ∧
    (let s : State := ((phased .build).setReg (rGrpown 2) 0x80000001)
     let f : FoldId := 0; let g : GroupId := 2; let h := 1
     s.power.main = true ∧
     s.firmware = true ∧
     s.groupFold g = some h ∧
     h ≠ f) ∧
    (let s : State := (phased .build); let i : SpanId := 2
     s.power.main = true ∧
     s.firmware = true ∧
     s.spanFold i = none ∧
     (s.power.bist = true ∨ bit (s.reg (rMemstat i) memstatReset) 30 = true)) ∧
    (let s : State := ((phased .running).setReg (rGrpown 3) 0x80000000)
     let f : FoldId := 0; let g : GroupId := 2
     s.power.main = true ∧
     s.firmware = true ∧
     s.power.bist = false ∧
     s.groupFold g = none ∧
     s.running f = true ∧
     (∃ h ∈ s.foldGroups f, g ≤ h)) ∧
    (let s : State := (phased .empty); let f : FoldId := 0; let g : GroupId := 2
     s.power.main = true ∧
     s.firmware = true ∧
     s.power.bist = false ∧
     s.groupFold g = none ∧
     ((s.fold f).phase = .empty ∨ (s.fold f).phase = .safe)) ∧
    (let s : State := (phased .build); let f : FoldId := 0; let i : SpanId := 1
     s.power.main = true ∧
     s.firmware = true ∧
     s.spanFold i = some f ∧
     s.running f = false ∧
     s.spanFree i = true) ∧
    (let s : State := ((phased .build).setSpan 1 { Span.reset with overflow := [resumeEntry] })
     let f : FoldId := 0; let i : SpanId := 1; let g : GroupId := 2
     let slots (g : FoldId) : List Nat := (List.range 47).filter fun j => ownerOf (s.reg (rSlot j) 0) = some g
     s.power.main = true ∧
     s.firmware = true ∧
     s.spanFold i = some f ∧
     s.running f = false ∧
     ((s.span i).overflow ≠ [] ∨ (s.span i).slots ≠ [] ∨ (∃ y, spanOf y = i ∧ (s.yoke y).run ≠ .idle))) ∧
    (let s : State := ((phased .build).setFold 0 { Fold.reset with phase := .build })
     let f : FoldId := 0; let g : GroupId := 1
     s.power.main = true ∧
     s.firmware = true ∧
     s.groupFold g = some f ∧
     s.running f = false ∧
     s.holdingPart f = none ∧
     (s.fold f).windows = []) ∧
    (let s : State := (((phased .build).setReg (rDmaown 1) 0x80000000).setDma 1 runningDma)
     let f : FoldId := 0; let c : DmaId := 1
     s.power.main = true ∧
     s.firmware = true ∧
     s.dmaFold c = some f ∧
     (s.dmaCh c).busy = true) ∧
    (let s : State := ((phased .build).setReg (rDmaown 1) 0x80000000)
     let f : FoldId := 0; let c : DmaId := 1
     s.power.main = true ∧
     s.firmware = true ∧
     s.dmaFold c = some f ∧
     (s.dmaCh c).busy = false) ∧
    (let s : State := { (phased .build) with power := { (phased .build).power with bist := true } }
     let g : GroupId := 2
     s.power.main = true ∧
     s.firmware = true ∧
     s.groupFold g = none ∧
     s.power.bist = true) :=
  by and_intros <;> decide +kernel

/-- O43, FoldManagerRegistersFollowTheirRules: states and operands that meet the hypotheses of its clauses. -/
theorem test_slots :
    (let s : State := (phased .build); let g : GroupId := 2; let v : Word := 0x80000000; let k : Fin 48 := 46
     let named : FoldId := Fin.ofNat 16 v.toNat
     let slots (g : FoldId) : List Nat := (List.range 47).filter fun j => ownerOf (s.reg (rSlot j) 0) = some g
     s.power.main = true ∧
     s.firmware = true ∧
     k.val < 47 ∧
     (bit v 31 = true → (s.fold named).phase ≠ .empty) ∧
     (∀ h, ownerOf (s.reg (rSlot k.val) 0) = some h → s.running h = true → (bit v 31 = true ∧ named = h) ∨ 1 < (slots
       h).length)) ∧
    (let s : State := (phased .build); let v : Word := 0x80000001; let k : Fin 48 := 46
     let named : FoldId := Fin.ofNat 16 v.toNat
     s.power.main = true ∧
     s.firmware = true ∧
     k.val < 47 ∧
     bit v 31 = true ∧
     (s.fold named).phase = .empty) ∧
    (let s : State := ((phased .running).setReg (rSlot 46) 0x80000000)
     let g : GroupId := 2; let v : Word := 0; let k : Fin 48 := 46
     let slots (g : FoldId) : List Nat := (List.range 47).filter fun j => ownerOf (s.reg (rSlot j) 0) = some g
     s.power.main = true ∧
     s.firmware = true ∧
     k.val < 47 ∧
     bit v 31 = false ∧
     (∃ h, ownerOf (s.reg (rSlot k.val) 0) = some h ∧ s.running h = true ∧ (slots h).length = 1)) ∧
    (let s : State := (phased .build); let k : Fin 48 := 47
     s.power.main = true ∧
     s.firmware = true ∧
     k.val = 47) ∧
    (let s : State := (phased .build)
     s.power.main = true ∧
     s.firmware = true ∧
     s.clk.fc % 96 = 0) ∧
    (let s : State := (phased .build); let v : Word := 0x00060100; let x : Fin 256 := 255
     let old := s.reg (rXchown x.val) 0; let tx (w : Word) : FoldId := Fin.ofNat 16 w.toNat
     let rx (w : Word) : FoldId := Fin.ofNat 16 (w.toNat / 2 ^ 8)
     let depth (w : Word) : Nat := if bit w 31 then 2 ^ (w.toNat / 2 ^ 16 % 8) else 0
     let decl : Word := (v ||| 0x80000000) &&& 0x80070F0F
     let others := (List.range 256).foldl (fun m j => m + if j = x.val then 0 else depth (s.reg (rXchown j) 0)) 0
     s.power.main = true ∧
     s.firmware = true ∧
     decl ≠ old ∧
     (bit old 31 = true → s.running (tx old) = false ∧ s.running (rx old) = false) ∧
     tx v ≠ rx v ∧
     v.toNat / 2 ^ 16 % 8 ≤ 6 ∧
     others + depth decl ≤ 4096 ∧
     s.running (tx v) = false) ∧
    (let s : State := (phased .running); let v : Word := 0x00060100; let x : Fin 256 := 255
     let old := s.reg (rXchown x.val) 0; let tx (w : Word) : FoldId := Fin.ofNat 16 w.toNat
     let rx (w : Word) : FoldId := Fin.ofNat 16 (w.toNat / 2 ^ 8)
     let depth (w : Word) : Nat := if bit w 31 then 2 ^ (w.toNat / 2 ^ 16 % 8) else 0
     let decl : Word := (v ||| 0x80000000) &&& 0x80070F0F
     let others := (List.range 256).foldl (fun m j => m + if j = x.val then 0 else depth (s.reg (rXchown j) 0)) 0
     s.power.main = true ∧
     s.firmware = true ∧
     decl ≠ old ∧
     (bit old 31 = true ∧ (s.running (tx old) = true ∨ s.running (rx old) = true) ∨ tx v = rx v ∨ 6 < v.toNat / 2 ^ 16
       % 8 ∨ 4096 < others + depth decl ∨ s.running (tx v) = true)) ∧
    (let s : State := (phased .build); let v : Word := 0x00070100; let x : Fin 256 := 255
     let old := s.reg (rXchown x.val) 0; let tx (w : Word) : FoldId := Fin.ofNat 16 w.toNat
     let rx (w : Word) : FoldId := Fin.ofNat 16 (w.toNat / 2 ^ 8)
     let depth (w : Word) : Nat := if bit w 31 then 2 ^ (w.toNat / 2 ^ 16 % 8) else 0
     let decl : Word := (v ||| 0x80000000) &&& 0x80070F0F
     let others := (List.range 256).foldl (fun m j => m + if j = x.val then 0 else depth (s.reg (rXchown j) 0)) 0
     s.power.main = true ∧
     s.firmware = true ∧
     decl ≠ old ∧
     (bit old 31 = true ∧ (s.running (tx old) = true ∨ s.running (rx old) = true) ∨ tx v = rx v ∨ 6 < v.toNat / 2 ^ 16
       % 8 ∨ 4096 < others + depth decl ∨ s.running (tx v) = true)) ∧
    (let s : State := ((phased .build).setReg (rXchown 255) 0x80010100)
     let x : Fin 256 := 255; let old := s.reg (rXchown x.val) 0; let tx (w : Word) : FoldId := Fin.ofNat 16 w.toNat
     s.power.main = true ∧
     s.firmware = true ∧
     bit old 31 = true ∧
     s.running (tx old) = false) ∧
    (let s : State := ((phased .running).setReg (rXchown 255) 0x80010100)
     let x : Fin 256 := 255; let old := s.reg (rXchown x.val) 0; let tx (w : Word) : FoldId := Fin.ofNat 16 w.toNat
     s.power.main = true ∧
     s.firmware = true ∧
     bit old 31 = true ∧
     s.running (tx old) = true) ∧
    (let s : State := (phased .build); let f : FoldId := 0; let v : Word := 1650; let budget := v.toNat % 2 ^ 11
     s.power.main = true ∧
     s.firmware = true ∧
     budget ≤ 1650 ∧
     (budget = 0 → s.running f = true → bit s.fmgrCtl 1 = true)) ∧
    (let s : State := (phased .build); let f : FoldId := 0; let v : Word := 1651; let budget := v.toNat % 2 ^ 11
     s.power.main = true ∧
     s.firmware = true ∧
     (1650 < budget ∨ budget = 0 ∧ s.running f = true ∧ bit s.fmgrCtl 1 = false)) ∧
    (let s : State := (phased .running); let f : FoldId := 0; let v : Word := 0; let budget := v.toNat % 2 ^ 11
     s.power.main = true ∧
     s.firmware = true ∧
     (1650 < budget ∨ budget = 0 ∧ s.running f = true ∧ bit s.fmgrCtl 1 = false)) ∧
    (let s : State := (phased .build)
     s.power.main = true ∧
     s.firmware = true ∧
     s.pwr.samples < 1024) ∧
    (let s : State := { (phased .running) with pwr := { PwrMgr.reset with samples := 1024, acc := [(0, 409600000)] } }
     s.power.main = true ∧
     s.firmware = true ∧
     1024 ≤ s.pwr.samples ∧
     s.adaptive = false) ∧
    (let s : State := (phased .build); let a : BitVec 24 := 0x150000
     s.power.main = true ∧
     s.firmware = true ∧
     (a.toNat % 4 ≠ 0 ∨ 0x150000 ≤ a.toNat)) ∧
    (let s : State := (phased .build); let a : BitVec 24 := 1
     s.power.main = true ∧
     s.firmware = true ∧
     (a.toNat % 4 ≠ 0 ∨ 0x150000 ≤ a.toNat)) ∧
    (let s : State := (phased .build); let a : BitVec 24 := 0x14
     s.power.main = true ∧
     s.firmware = true ∧
     a.toNat % 4 = 0 ∧
     a.toNat < 0x18) ∧
    (let s : State := (phased .running); let sp : SpanId := 0
     s.power.main = true ∧
     s.firmware = true ∧
     (s.adaptive = false ∨ (∃ y, spanOf y = sp ∧ (s.yoke y).run = .task ∧ (s.yoke y).unchecked = false ∧ (s.yoke
       y).pend ≠ none))) ∧
    (let s : State := (phased .build)
     s.power.main = true ∧
     s.firmware = true ∧
     s.pwr.samples < 1024) ∧
    (let s : State := ((phased .running).setReg rFmgrCtl 2); let sp : SpanId := 0
     s.power.main = true ∧
     s.firmware = true ∧
     s.adaptive = true ∧
     (∀ y, spanOf y = sp → (s.yoke y).run = .task → (s.yoke y).unchecked = true ∨ (s.yoke y).pend = none ∧ kget
       s.pwr.wantAt 0 y ≤ (s.yoke y).interval)) :=
  by and_intros <;> decide +kernel

/-- O44, FaultsBecomeIncidentsWithReactions: states and operands that meet the hypotheses of its clauses. -/
theorem test_incidents :
    (let s : State := (faulty [incident 2 4] none); let i : Incident := (incident 2 4); let v : Word := 0
     let cls := v.toNat % 8
     (∀ x, s.fm.current = some x → x.cls < i.cls) ∧
     NoSteppedWait s ∧
     s.power.main = true ∧
     i ∈ s.fm.queue ∧
     i.done = false ∧
     i.begun = false ∧
     s.fm.extra = none ∧
     (∀ x ∈ s.fm.queue, x.done = true ∨ x = i ∨ x.cls < i.cls ∨ x.cls = i.cls ∧ i.ord < x.ord) ∧
     (∀ x ∈ s.fm.queue, x.ord = i.ord → x = i) ∧
     (s.reg rFmCtl 1).toNat % 8 ≤ i.cls.toNat) ∧
    (let s : State := (faulty [incident 0 3, incident 1 4, incident 1 5] (some 3))
     let i : Incident := (incident 1 4); let f : FoldId := 0; let v : Word := 0; let cls := v.toNat % 8
     (∀ x, s.fm.current = some x → x.cls < i.cls) ∧
     NoSteppedWait s ∧
     s.power.main = true ∧
     i ∈ s.fm.queue ∧
     i.done = false ∧
     i.begun = false ∧
     s.fm.extra = none ∧
     (∀ x ∈ s.fm.queue, x.done = true ∨ x = i ∨ x.cls < i.cls ∨ x.cls = i.cls ∧ i.ord < x.ord) ∧
     (∀ x ∈ s.fm.queue, x.ord = i.ord → x = i) ∧
     i.cls = 1 ∧
     i.fold = some f ∧
     s.running f = true) ∧
    (let s : State := (faulty [incident 4 4] none); let i : Incident := (incident 4 4); let f : FoldId := 0
     let v : Word := 0; let cls := v.toNat % 8
     (∀ x, s.fm.current = some x → x.cls < i.cls) ∧
     NoSteppedWait s ∧
     s.power.main = true ∧
     i ∈ s.fm.queue ∧
     i.done = false ∧
     i.begun = false ∧
     s.fm.extra = none ∧
     (∀ x ∈ s.fm.queue, x.done = true ∨ x = i ∨ x.cls < i.cls ∨ x.cls = i.cls ∧ i.ord < x.ord) ∧
     (∀ x ∈ s.fm.queue, x.ord = i.ord → x = i) ∧
     i.cls = 4 ∧
     i.fold = some f ∧
     s.running f = true) ∧
    (let s : State := (faulty [incident 6 4] none); let i : Incident := (incident 6 4); let v : Word := 0
     let cls := v.toNat % 8
     (∀ x, s.fm.current = some x → x.cls < i.cls) ∧
     NoSteppedWait s ∧
     s.power.main = true ∧
     i ∈ s.fm.queue ∧
     i.done = false ∧
     i.begun = false ∧
     s.fm.extra = none ∧
     (∀ x ∈ s.fm.queue, x.done = true ∨ x = i ∨ x.cls < i.cls ∨ x.cls = i.cls ∧ i.ord < x.ord) ∧
     (∀ x ∈ s.fm.queue, x.ord = i.ord → x = i) ∧
     5 ≤ i.cls.toNat ∧
     i.cls.toNat ≤ 6) ∧
    (let s : State := (reports (faulty [] none) [reported 0x06]); let r : Report := (reported 0x06)
     let rest : List Report := []
     s.power.main = true ∧
     s.reports = r :: rest ∧
     (∀ x ∈ s.fm.queue, x.takes r (s.classOf r) s.clk.fc = false) ∧
     s.fm.queue.length < 64 ∧
     (∀ g, s.scopeOf r = some g → (s.fm.queue.filter fun x => x.fold == some g).length < 3)) ∧
    (let s : State := (reports (faulty [{ incident 0 4 with cls := (State.reset.classOf (reported 0x06)) }] none) [reported 0x06])
     let r : Report := (reported 0x06); let rest : List Report := []
     let i : Incident := { incident 0 4 with cls := (State.reset.classOf (reported 0x06)) }
     s.power.main = true ∧
     s.reports = r :: rest ∧
     s.fm.queue.find? (fun x => x.takes r (s.classOf r) s.clk.fc) = some i ∧
     s.fm.extra = none ∧
     (∀ x ∈ s.fm.queue, x.ord = i.ord → x = i)) ∧
    (let s : State := (faulty [] none)
     s.power.main = true ∧
     s.reports = [] ∧
     s.fm.queue = [] ∧
     s.fm.extra = none) ∧
    (let s : State := (faulty [{ incident 2 3 with begun := true }, incident 1 4] (some 3))
     let i : Incident := { incident 2 3 with begun := true }; let v : Word := 0; let cls := v.toNat % 8
     let x := { incident 2 3 with begun := true }
     s.power.main = true ∧
     s.fm.current = some x ∧
     s.fm.best = some i ∧
     i.cls ≤ x.cls) ∧
    (let s : State := (faulty [] none)
     s.power.main = true ∧
     s.fm.current = none) ∧
    (let s : State := (faulty [{ incident 3 4 with begun := true }] (some 4))
     let i : Incident := { incident 3 4 with begun := true }; let v : Word := 0; let cls := v.toNat % 8
     s.power.main = true ∧
     s.fm.current = some i ∧
     i ∈ s.fm.queue ∧
     (∀ x ∈ s.fm.queue, x.ord = i.ord → x = i) ∧
     s.fm.extra = none ∧
     i.cls.toNat ≤ 3 ∧
     i.windowOpen s.clk.fc = true) ∧
    (let s : State := (atTime (faulty [{ incident 3 4 with begun := true }] (some 4)) 4096)
     let i : Incident := { incident 3 4 with begun := true }; let v : Word := 0; let cls := v.toNat % 8
     s.power.main = true ∧
     s.fm.current = some i ∧
     i ∈ s.fm.queue ∧
     (∀ x ∈ s.fm.queue, x.ord = i.ord → x = i) ∧
     s.fm.extra = none ∧
     i.cls.toNat ≤ 3 ∧
     i.windowOpen s.clk.fc = false) ∧
    (let s : State := (withFold (faulty [{ incident 4 4 with begun := true, safed := true }] (some 4)) fun f => { f with phase := .safe })
     let i : Incident := { incident 4 4 with begun := true, safed := true }
     let f : FoldId := 0; let v : Word := 0; let cls := v.toNat % 8
     s.power.main = true ∧
     s.fm.current = some i ∧
     i ∈ s.fm.queue ∧
     (∀ x ∈ s.fm.queue, x.ord = i.ord → x = i) ∧
     s.fm.extra = none ∧
     i.cls = 4 ∧
     i.safed = true ∧
     i.fold = some f ∧
     (s.fold f).phase = .safe) ∧
    (let s : State := (faulty [{ incident 4 4 with begun := true }] (some 4))
     let i : Incident := { incident 4 4 with begun := true }; let v : Word := 0; let cls := v.toNat % 8
     s.power.main = true ∧
     s.fm.current = some i ∧
     i ∈ s.fm.queue ∧
     (∀ x ∈ s.fm.queue, x.ord = i.ord → x = i) ∧
     s.fm.extra = none ∧
     i.cls = 4 ∧
     i.safed = false) ∧
    (let s : State := (faulty [{ incident 5 4 with begun := true }] (some 4))
     let i : Incident := { incident 5 4 with begun := true }; let v : Word := 0; let cls := v.toNat % 8
     s.power.main = true ∧
     s.fm.current = some i ∧
     i ∈ s.fm.queue ∧
     (∀ x ∈ s.fm.queue, x.ord = i.ord → x = i) ∧
     s.fm.extra = none ∧
     i.cls = 5) ∧
    (let s : State := (faulty [{ incident 6 4 with begun := true }] (some 4))
     let i : Incident := { incident 6 4 with begun := true }; let v : Word := 0; let cls := v.toNat % 8
     s.power.main = true ∧
     s.fm.current = some i ∧
     i ∈ s.fm.queue ∧
     (∀ x ∈ s.fm.queue, x.ord = i.ord → x = i) ∧
     s.fm.extra = none ∧
     i.cls = 6) ∧
    (let s : State := (atTime (faulty [{ incident 1 4 with done := true }] none) 4096)
     let i : Incident := { incident 1 4 with done := true }
     s.power.main = true ∧
     i ∈ s.fm.queue ∧
     i.done = true ∧
     i.openFc + 4095 < s.clk.fc ∧
     (∀ x ∈ s.fm.queue, x.num = i.num → x = i) ∧
     (∀ x ∈ s.fm.queue, x.ord = i.ord → x = i)) ∧
    (let s : State := (atTime (faulty [{ incident 1 4 with done := true }] none) 4095)
     s.power.main = true ∧
     (∀ x ∈ s.fm.queue, x.done = false ∨ s.clk.fc ≤ x.openFc + 4095)) ∧
    (let s : State := (faulty [] none); let v : Word := 0x07000000; let reqCls := v.toNat / 2 ^ 24 % 8
     s.power.main = true ∧
     s.firmware = true ∧
     reqCls = 7) ∧
    (let s : State := (faulty [] none); let v : Word := 0x06000000; let reqCls := v.toNat / 2 ^ 24 % 8
     s.power.main = true ∧
     s.firmware = true ∧
     reqCls = 6 ∧
     v.toNat % 2 ^ 16 ≠ 0x5A06) ∧
    (let s : State := (faulty [] none); let v : Word := 0x06005A06; let reqCls := v.toNat / 2 ^ 24 % 8
     s.power.main = true ∧
     s.firmware = true ∧
     (reqCls < 6 ∨ reqCls = 6 ∧ v.toNat % 2 ^ 16 = 0x5A06) ∧
     s.fm.queue = [] ∧
     bit v 27 = false) ∧
    (let s : State := (faulty [] none); let v : Word := 0x58000123; let reqCls := v.toNat / 2 ^ 24 % 8
     s.power.main = true ∧
     s.firmware = true ∧
     (reqCls < 6 ∨ reqCls = 6 ∧ v.toNat % 2 ^ 16 = 0x5A06) ∧
     s.fm.queue = [] ∧
     bit v 27 = true) ∧
    (let s : State := (faulty [] none)
     s.power.main = true ∧
     s.firmware = true ∧
     s.fm.dsafe = false ∧
     s.sec.lc ≠ lcOpened) ∧
    (let s : State := { (faulty [] none) with fm := { FaultMgr.reset with dsafe := true } }
     s.power.main = true ∧
     (s.firmware = false ∨ s.fm.dsafe = true ∨ s.sec.lc = lcOpened)) ∧
    (let s : State := ((faulty [] none).setReg rFmCtl 0x80000000)
     let c : BitVec 6 := 6; let src : Byte := c.zeroExtend 8
     s.power.main = true ∧
     (bit (s.reg rFmCtl 1) 31 = true ∨ src = 0 ∨ 0x2D < src.toNat)) ∧
    (let s : State := (faulty [] none); let c : BitVec 6 := 0x2E; let src : Byte := c.zeroExtend 8
     s.power.main = true ∧
     (bit (s.reg rFmCtl 1) 31 = true ∨ src = 0 ∨ 0x2D < src.toNat)) ∧
    (let s : State := (faulty [] none); let v : Word := 6; let c : BitVec 6 := 0x2D; let src : Byte := c.zeroExtend 8
     let cls := v.toNat % 8
     s.power.main = true ∧
     s.firmware = true ∧
     bit (s.reg rFmCtl 1) 31 = false ∧
     1 ≤ src.toNat ∧
     src.toNat ≤ 0x2D ∧
     srcMin src ≤ cls ∧
     cls ≠ 7) ∧
    (let s : State := (faulty [] none); let v : Word := 7; let c : BitVec 6 := 1; let src : Byte := c.zeroExtend 8
     let cls := v.toNat % 8
     s.power.main = true ∧
     s.firmware = true ∧
     bit (s.reg rFmCtl 1) 31 = false ∧
     1 ≤ src.toNat ∧
     src.toNat ≤ 0x2D ∧
     (cls < srcMin src ∨ cls = 7)) :=
  ⟨⟨(by intro x h; first | exact absurd (show (none : Option Incident) = some x from h) (by simp) | (cases (show some (incident 0 3) = some x from h); decide)), noStepped (by decide +kernel), by decide +kernel⟩,
    ⟨(by intro x h; first | exact absurd (show (none : Option Incident) = some x from h) (by simp) | (cases (show some (incident 0 3) = some x from h); decide)), noStepped (by decide +kernel), by decide +kernel⟩,
    ⟨(by intro x h; first | exact absurd (show (none : Option Incident) = some x from h) (by simp) | (cases (show some (incident 0 3) = some x from h); decide)), noStepped (by decide +kernel), by decide +kernel⟩,
    ⟨(by intro x h; first | exact absurd (show (none : Option Incident) = some x from h) (by simp) | (cases (show some (incident 0 3) = some x from h); decide)), noStepped (by decide +kernel), by decide +kernel⟩,
    by and_intros <;> decide +kernel⟩

/-- O45, WatchdogsAndRecorderFollowTheirRules: states and operands that meet the hypotheses of its clauses. -/
theorem test_foldWatchdogs :
    (let s : State := (regd 2 1 0x6C3A95D1); let f : FoldId := 0; let y : YokeId := 0; let r : Gpr := 1
     let k := s.yoke y; let c := k.lead; let w := c.rd r
     s.Calm y ∧
     s.foldOf y = some f ∧
     c.ring.toNat ≤ 2 ∧
     w = 0x6C3A95D1) ∧
    (let s : State := (regd 2 1 0x6C3A95D0); let f : FoldId := 0; let y : YokeId := 0; let r : Gpr := 1
     let k := s.yoke y; let c := k.lead; let w := c.rd r
     s.Calm y ∧
     s.foldOf y = some f ∧
     c.ring.toNat ≤ 2 ∧
     w ≠ 0x6C3A95D1) ∧
    (let s : State := (withFold (regd 0 1 0xE530) fun f => { f with wdKeyed := true })
     let f : FoldId := 0; let y : YokeId := 0; let r : Gpr := 1; let fo := s.fold f; let k := s.yoke y
     let c := k.lead; let w := c.rd r; let cfg := s.reg (rFwdcfg f) 0
     s.Calm y ∧
     s.foldOf y = some f ∧
     c.ring = 0 ∧
     bit cfg 30 = false ∧
     fo.wdKeyed = true ∧
     w = 0x0000E530) ∧
    (let s : State := (regd 0 1 0x1ACF); let f : FoldId := 0; let y : YokeId := 0; let r : Gpr := 1
     let fo := s.fold f; let k := s.yoke y; let c := k.lead; let w := c.rd r; let cfg := s.reg (rFwdcfg f) 0
     s.Calm y ∧
     s.foldOf y = some f ∧
     c.ring = 0 ∧
     bit cfg 30 = false ∧
     (fo.wdKeyed = false ∨ w ≠ 0x0000E530)) ∧
    (let s : State := ((regd 0 1 0x1ACF).setReg (rFwdcfg 0) 0x40000000)
     let f : FoldId := 0; let y : YokeId := 0; let k := s.yoke y; let c := k.lead; let cfg := s.reg (rFwdcfg f) 0
     s.Calm y ∧
     s.foldOf y = some f ∧
     c.ring = 0 ∧
     bit cfg 30 = true) ∧
    (let s : State := (regd 0 1 0x40000000); let f : FoldId := 0; let y : YokeId := 0; let k := s.yoke y
     let c := k.lead
     s.Calm y ∧
     s.foldOf y = some f ∧
     c.ring = 0) ∧
    (let s : State := (phased .running); let v : Word := 0x80000000; let period := v.toNat / 2 ^ 15 % 2 ^ 15
     let warn := v.toNat % 2 ^ 14
     s.power.main = true ∧
     s.firmware = true ∧
     (bit v 31 = true ∧ period = 0 ∨ warn ≠ 0 ∧ period ≤ warn)) ∧
    (let s : State := (phased .running); let v : Word := 0x00008001; let period := v.toNat / 2 ^ 15 % 2 ^ 15
     let warn := v.toNat % 2 ^ 14
     s.power.main = true ∧
     s.firmware = true ∧
     (bit v 31 = true ∧ period = 0 ∨ warn ≠ 0 ∧ period ≤ warn)) ∧
    (let s : State := (phased .build); let f : FoldId := 0; let v : Word := 0x80010001
     let period := v.toNat / 2 ^ 15 % 2 ^ 15; let warn := v.toNat % 2 ^ 14
     s.power.main = true ∧
     s.firmware = true ∧
     ¬ (bit v 31 = true ∧ period = 0) ∧
     ¬ (warn ≠ 0 ∧ period ≤ warn) ∧
     s.running f = false) ∧
    (let s : State := (phased .running); let f : FoldId := 0; let v : Word := 0x80010001
     let cfg := s.reg (rFwdcfg f) 0; let period := v.toNat / 2 ^ 15 % 2 ^ 15; let warn := v.toNat % 2 ^ 14
     s.power.main = true ∧
     s.firmware = true ∧
     ¬ (bit v 31 = true ∧ period = 0) ∧
     ¬ (warn ≠ 0 ∧ period ≤ warn) ∧
     s.running f = true ∧
     bit v 31 = true ∧
     bit cfg 31 = false) ∧
    (let s : State := (phased .running); let f : FoldId := 0; let v : Word := 0
     let period := v.toNat / 2 ^ 15 % 2 ^ 15; let warn := v.toNat % 2 ^ 14
     s.power.main = true ∧
     s.firmware = true ∧
     ¬ (bit v 31 = true ∧ period = 0) ∧
     ¬ (warn ≠ 0 ∧ period ≤ warn) ∧
     s.running f = true ∧
     bit v 31 = false) ∧
    (let s : State := (watched 9); let f : FoldId := 0; let fo := s.fold f; let cfg := s.reg (rFwdcfg f) 0
     let setTo := cfg.toNat % 2 ^ 14; let ran := s.clk.time / 1000 - fo.wdFrom
     s.power.main = true ∧
     fo.wdRun = true ∧
     fo.wdPaused = false ∧
     fo.wdWrn = false ∧
     setTo ≠ 0 ∧
     fo.wdVal < ran + setTo ∧
     (∀ e ∈ fo.events, e.vec ≠ 0x0B)) ∧
    (let s : State := (watched 10); let f : FoldId := 0; let fo := s.fold f; let cfg := s.reg (rFwdcfg f) 0
     let setTo := cfg.toNat % 2 ^ 14; let ran := s.clk.time / 1000 - fo.wdFrom
     s.power.main = true ∧
     (fo.wdRun = false ∨ fo.wdPaused = true ∨ fo.wdWrn = true ∨ setTo = 0 ∨ ran + setTo ≤ fo.wdVal)) ∧
    (let s : State := (atTime (watched 0) 1000); let f : FoldId := 0; let fo := s.fold f
     let ran := s.clk.time / 1000 - fo.wdFrom
     s.power.main = true ∧
     fo.wdRun = true ∧
     fo.wdPaused = false ∧
     fo.wdVal < ran) ∧
    (let s : State := (watched 0); let f : FoldId := 0; let fo := s.fold f; let ran := s.clk.time / 1000 - fo.wdFrom
     s.power.main = true ∧
     (fo.wdRun = false ∨ fo.wdPaused = true ∨ ran ≤ fo.wdVal)) :=
  ⟨⟨calm_of (by decide +kernel) rfl, by decide +kernel⟩,
    ⟨calm_of (by decide +kernel) rfl, by decide +kernel⟩,
    ⟨calm_of (by decide +kernel) rfl, by decide +kernel⟩,
    ⟨calm_of (by decide +kernel) rfl, by decide +kernel⟩,
    ⟨calm_of (by decide +kernel) rfl, by decide +kernel⟩,
    ⟨calm_of (by decide +kernel) rfl, by decide +kernel⟩,
    by and_intros <;> decide +kernel⟩

/-- O45, WatchdogsAndRecorderFollowTheirRules: states and operands that meet the hypotheses of its clauses. -/
theorem test_aonWatchdog :
    (let s : State := (phased .build)
     s.power.main = true ∧
     s.firmware = true ∧
     s.aon.en = false) ∧
    (let s : State := (phased .build); let v : Word := 0x6C3A95D1
     s.power.main = true ∧
     s.firmware = true ∧
     v = 0x6C3A95D1) ∧
    (let s : State := { (withAon fun a => { a with en := true, val := 0 }) with clk := { State.reset.clk with bt := 1 } }
     let bt := s.clk.bt
     s.power.main = true ∧
     s.aon.en = true ∧
     s.aon.exp = false ∧
     s.aon.val < bt - s.aon.since) ∧
    (let s : State := (phased .build); let v : Word := 1
     s.power.main = true ∧
     s.firmware = true ∧
     v ≠ 0x6C3A95D1 ∧
     s.aon.exp = false) ∧
    (let s : State := (withAon fun a => { a with exp := true })
     let v : Word := 1
     s.power.main = true ∧
     s.firmware = true ∧
     v ≠ 0x6C3A95D1 ∧
     s.aon.exp = true) ∧
    (let s : State := { (withAon fun a => { a with en := true, exp := true, val := 0 }) with clk := { State.reset.clk with bt := 1 } }
     let bt := s.clk.bt
     s.power.main = true ∧
     s.aon.en = true ∧
     s.aon.exp = true ∧
     s.aon.val < bt - s.aon.since) ∧
    (let s : State := (withAon fun a => { a with en := true })
     let bt := s.clk.bt
     s.power.main = true ∧
     (s.aon.en = false ∨ bt - s.aon.since ≤ s.aon.val)) ∧
    (let s : State := (withAon fun a => { a with hwstart := true })
     s.power.main = true ∧
     (s.aon.hwstart = true ∨ s.aon.lock = true)) ∧
    (let s : State := (withAon fun a => { a with keyed := true })
     let v : Word := 0xE530
     s.power.main = true ∧
     s.firmware = true ∧
     s.aon.hwstart = false ∧
     s.aon.lock = false ∧
     s.aon.keyed = true ∧
     v.toNat % 2 ^ 16 = 0xE530) ∧
    (let s : State := (phased .build); let v : Word := 0x1ACF
     s.power.main = true ∧
     s.firmware = true ∧
     s.aon.hwstart = false ∧
     s.aon.lock = false ∧
     (s.aon.keyed = false ∨ v.toNat % 2 ^ 16 ≠ 0xE530)) :=
  by and_intros <;> decide +kernel

/-- O45, WatchdogsAndRecorderFollowTheirRules: states and operands that meet the hypotheses of its clauses. -/
theorem test_recorder :
    (let s : State := (atTime (withRec .arming) 1024)
     s.power.main = true ∧
     s.fr.state = .arming ∧
     s.fr.armFc + 1024 ≤ s.clk.fc) ∧
    (let s : State := (atTime (withRec .arming) 1023)
     s.power.main = true ∧
     (s.fr.state ≠ .arming ∨ s.clk.fc < s.fr.armFc + 1024)) ∧
    (let s : State := (withRec .armed)
     s.power.main = true ∧
     s.firmware = true ∧
     s.fr.state = .armed) ∧
    (let s : State := (withRec .captured)
     s.power.main = true ∧
     s.firmware = true ∧
     s.fr.state ≠ .armed) ∧
    (let s : State := (withRec .armed)
     s.power.main = true ∧
     s.firmware = true ∧
     s.fr.state = .armed) ∧
    (let s : State := (withRec .capturing)
     s.power.main = true ∧
     s.firmware = true ∧
     s.fr.state = .capturing) ∧
    (let s : State := (withRec .captured)
     s.power.main = true ∧
     s.firmware = true ∧
     (s.fr.state = .arming ∨ s.fr.state = .captured)) :=
  by and_intros <;> decide +kernel

/-- O46, TheTwinLinkResolvesRolesAndIsLost: states and operands that meet the hypotheses of its clauses. -/
theorem test_twinLink :
    (let s : State := (phased .build); let en := bit (s.reg 0x0C0000 0) 0
     NoSteppedWait s ∧
     s.power.main = true ∧
     (en = false ∨ s.twin.link = 2)) ∧
    (let s : State := (twinned id); let h : Heartbeat := { beat with sideB := false }
     let en := bit (s.reg 0x0C0000 0) 0
     NoSteppedWait s ∧
     s.power.main = true ∧
     en = true ∧
     s.twin.link ≠ 2 ∧
     h.sideB = s.sideB) ∧
    (let s : State := (twinned id); let h : Heartbeat := beat; let en := bit (s.reg 0x0C0000 0) 0
     let claim := bit (s.reg 0x0C0000 0) 1
     NoSteppedWait s ∧
     s.power.main = true ∧
     en = true ∧
     s.twin.link ≠ 2 ∧
     h.sideB ≠ s.sideB ∧
     claim = true ∧
     h.claim = false) ∧
    (let s : State := ((twinned id).setReg 0x0C0000 1); let h : Heartbeat := { beat with claim := true }
     let en := bit (s.reg 0x0C0000 0) 0; let claim := bit (s.reg 0x0C0000 0) 1
     NoSteppedWait s ∧
     s.power.main = true ∧
     en = true ∧
     s.twin.link ≠ 2 ∧
     h.sideB ≠ s.sideB ∧
     claim = false ∧
     h.claim = true) ∧
    (let s : State := ((twinned id).setReg 0x0C0000 1); let h : Heartbeat := beat; let en := bit (s.reg 0x0C0000 0) 0
     let claim := bit (s.reg 0x0C0000 0) 1
     NoSteppedWait s ∧
     s.power.main = true ∧
     en = true ∧
     s.twin.link ≠ 2 ∧
     h.sideB ≠ s.sideB ∧
     claim = false ∧
     h.claim = false) ∧
    (let s : State := (twinned id); let h : Heartbeat := { beat with claim := true }
     let en := bit (s.reg 0x0C0000 0) 0; let claim := bit (s.reg 0x0C0000 0) 1
     NoSteppedWait s ∧
     s.power.main = true ∧
     en = true ∧
     s.twin.link ≠ 2 ∧
     h.sideB ≠ s.sideB ∧
     claim = true ∧
     h.claim = true) ∧
    (let s : State := (twinned id); let h : Heartbeat := beat; let en := bit (s.reg 0x0C0000 0) 0
     NoSteppedWait s ∧
     s.power.main = true ∧
     en = true ∧
     s.twin.link ≠ 2 ∧
     h.sideB ≠ s.sideB ∧
     (∀ g, s.running g = false)) ∧
    (let s : State := (withFold (twinned fun t => { t with role := 1 }) fun f => { f with phase := .running })
     let h : Heartbeat := { beat with claim := true }; let f : FoldId := 0; let en := bit (s.reg 0x0C0000 0) 0
     NoSteppedWait s ∧
     s.power.main = true ∧
     en = true ∧
     s.twin.link ≠ 2 ∧
     h.sideB ≠ s.sideB ∧
     s.running f = true) ∧
    (let s : State := (twinned id)
     NoSteppedWait s ∧
     s.power.main = true ∧
     s.twin.link ≠ 2) ∧
    (let s : State := (twinned fun t => { t with link := 2 })
     let x : Flit := flit; let errs : Nat := 9
     let hdr : Byte := BitVec.ofNat 8 (x.vc.val + x.creditVc.val * 4 + x.credits.toNat * 16)
     let intact : Prop := markGood x.mark = true ∧ errs ≤ 8 ∧ crc32c ([hdr, x.seq, x.ack] ++ x.payload) = x.crc
     NoSteppedWait s ∧
     s.power.main = true ∧
     s.twin.link = 2 ∧
     ¬ intact) ∧
    (let s : State := (twinned fun t => { t with link := 2 })
     let x : Flit := flit; let errs : Nat := 0
     let hdr : Byte := BitVec.ofNat 8 (x.vc.val + x.creditVc.val * 4 + x.credits.toNat * 16)
     let intact : Prop := markGood x.mark = true ∧ errs ≤ 8 ∧ crc32c ([hdr, x.seq, x.ack] ++ x.payload) = x.crc
     let next : Prop := x.seq = s.twin.recvSeq + 1 ∧ s.twin.buffered x.vc < twinBuffers[x.vc]
     NoSteppedWait s ∧
     s.power.main = true ∧
     s.twin.link = 2 ∧
     intact ∧
     s.twin.waiting = [] ∧
     s.twin.detach = false ∧
     next) ∧
    (let s : State := (twinned fun t => { t with link := 2, unacked := [⟨6, 0, 3, 0, 0, []⟩, ⟨7, 0, 3, 0, 0, []⟩, ⟨8, 0, 3, 0, 0, []⟩] })
     let x : Flit := flit; let errs : Nat := 0
     let hdr : Byte := BitVec.ofNat 8 (x.vc.val + x.creditVc.val * 4 + x.credits.toNat * 16)
     let intact : Prop := markGood x.mark = true ∧ errs ≤ 8 ∧ crc32c ([hdr, x.seq, x.ack] ++ x.payload) = x.crc
     let l := [⟨6, 0, 3, 0, 0, []⟩]; let u := ⟨7, 0, 3, 0, 0, []⟩; let m := [⟨8, 0, 3, 0, 0, []⟩]
     NoSteppedWait s ∧
     s.power.main = true ∧
     s.twin.link = 2 ∧
     intact ∧
     s.twin.waiting = [] ∧
     s.twin.detach = false ∧
     s.twin.unacked = l ++ u :: m ∧
     u.seq = x.ack ∧
     (∀ w ∈ l, w.seq ≠ x.ack)) ∧
    (let s : State := (twinned fun t => { t with link := 2 })
     let x : Flit := flit; let errs : Nat := 0
     let hdr : Byte := BitVec.ofNat 8 (x.vc.val + x.creditVc.val * 4 + x.credits.toNat * 16)
     let intact : Prop := markGood x.mark = true ∧ errs ≤ 8 ∧ crc32c ([hdr, x.seq, x.ack] ++ x.payload) = x.crc
     let next : Prop := x.seq = s.twin.recvSeq + 1 ∧ s.twin.buffered x.vc < twinBuffers[x.vc]
     NoSteppedWait s ∧
     s.power.main = true ∧
     s.twin.link = 2 ∧
     intact ∧
     s.twin.waiting = [] ∧
     s.twin.detach = false ∧
     next) ∧
    (let s : State := (twinned fun t => { t with link := 2, recvSeq := 1 })
     let x : Flit := flit; let errs : Nat := 0
     let hdr : Byte := BitVec.ofNat 8 (x.vc.val + x.creditVc.val * 4 + x.credits.toNat * 16)
     let intact : Prop := markGood x.mark = true ∧ errs ≤ 8 ∧ crc32c ([hdr, x.seq, x.ack] ++ x.payload) = x.crc
     let next : Prop := x.seq = s.twin.recvSeq + 1 ∧ s.twin.buffered x.vc < twinBuffers[x.vc]
     NoSteppedWait s ∧
     s.power.main = true ∧
     s.twin.link = 2 ∧
     intact ∧
     s.twin.waiting = [] ∧
     s.twin.detach = false ∧
     ¬ next) ∧
    (let s : State := (twinned fun t => { t with link := 2, unacked := [⟨6, 0, 3, 0, 19000, []⟩] })
     let now := s.clk.time; let u := ⟨6, 0, 3, 0, 19000, []⟩; let l := []
     NoSteppedWait s ∧
     s.power.main = true ∧
     s.twin.unacked = u :: l ∧
     s.twin.link = 2 ∧
     u.time + 1000 ≤ now) ∧
    (let s : State := (twinned fun t => { t with link := 2, unacked := [⟨6, 0, 3, 0, 19001, []⟩] })
     let now := s.clk.time
     NoSteppedWait s ∧
     s.power.main = true ∧
     (s.twin.link ≠ 2 ∨ (∀ u ∈ s.twin.unacked, now < u.time + 1000))) ∧
    (let s : State := (twinned fun t => { t with link := 2, beatAt := 18836 })
     let now := s.clk.time
     NoSteppedWait s ∧
     s.power.main = true ∧
     (s.twin.link ≠ 2 ∨ now < s.twin.beatAt + 1165)) ∧
    (let s : State := (twinned fun t => { t with link := 2, beatAt := 18835 })
     let now := s.clk.time
     NoSteppedWait s ∧
     s.power.main = true ∧
     s.twin.link = 2 ∧
     s.twin.beatAt + 1165 ≤ now ∧
     s.twin.waiting = [] ∧
     1 ≤ s.twin.credits[(2 : Fin 4)] ∧
     s.twin.unacked.length < 64) ∧
    (let s : State := (twinned id)
     NoSteppedWait s ∧
     s.power.main = true ∧
     s.twin.link ≠ 2) ∧
    (let s : State := ((twinned fun t => { t with link := 2 }).setTwinFold 0 { TwinFold.reset with mode := 1 })
     let h : Heartbeat := { beat with modes := List.replicate 16 2, dsafe := true }
     let f : FoldId := 0
     let mode (t : State) (g : FoldId) : BitVec 3 := (t.twinFold g).mode
     NoSteppedWait s ∧
     s.power.main = true ∧
     s.twin.link = 2 ∧
     h.modes.getD f.val 0 = 2 ∧
     (s.twinFold f).crossFrom * s.epochNs f < h.time ∧
     mode s f = 1) ∧
    (let s : State := (twinned fun t => { t with link := 2, role := 2 })
     let h : Heartbeat := { beat with time := 19990, echo := some (19980, 0) }
     let now := s.clk.time
     let off : Option Int := h.echo.map fun e => (h.time : Int) + ((now - e.1 - e.2) / 2 : Nat) - now
     let o := 0
     NoSteppedWait s ∧
     s.power.main = true ∧
     s.twin.link = 2 ∧
     s.twin.role = 2 ∧
     off = some o) ∧
    (let s : State := (twinned fun t => { t with link := 2, lastFlit := 10001 })
     let lanes : Bool := false; let now := s.clk.time
     NoSteppedWait s ∧
     s.power.main = true ∧
     (s.twin.link ≠ 2 ∨ lanes = false ∧ now < s.twin.lastFlit + 10000)) ∧
    (let s : State := (twinned fun t => { t with link := 2, lastFlit := 10000 })
     let lanes : Bool := false; let now := s.clk.time
     NoSteppedWait s ∧
     s.power.main = true ∧
     s.twin.link = 2 ∧
     (lanes = true ∨ s.twin.lastFlit + 10000 ≤ now)) ∧
    (let s : State := (twinned id)
     NoSteppedWait s ∧
     s.power.main = true ∧
     s.twin.link ≠ 2) ∧
    (let s : State := (twinned fun t => { t with link := 2 })
     NoSteppedWait s ∧
     s.power.main = true ∧
     s.twin.link = 2 ∧
     s.firmware = true ∧
     s.twin.waiting = [] ∧
     1 ≤ s.twin.credits[(2 : Fin 4)] ∧
     s.twin.unacked.length < 64) ∧
    (let s : State := (twinned fun t => { t with link := 2 })
     let x : Flit := (flitOn 2); let errs : Nat := 0
     let hdr : Byte := BitVec.ofNat 8 (x.vc.val + x.creditVc.val * 4 + x.credits.toNat * 16)
     let intact : Prop := markGood x.mark = true ∧ errs ≤ 8 ∧ crc32c ([hdr, x.seq, x.ack] ++ x.payload) = x.crc
     let next : Prop := x.seq = s.twin.recvSeq + 1 ∧ s.twin.buffered x.vc < twinBuffers[x.vc]
     NoSteppedWait s ∧
     s.power.main = true ∧
     s.twin.link = 2 ∧
     intact ∧
     s.twin.waiting = [] ∧
     s.twin.detach = false ∧
     (∀ m ∈ s.twin.inbox, m.1.val < 2) ∧
     next ∧
     2 ≤ x.vc.val) ∧
    (let s : State := (twinned fun t => { t with link := 2 })
     let h : Heartbeat := beat; let f : FoldId := 0
     NoSteppedWait s ∧
     s.power.main = true ∧
     s.twin.link = 2 ∧
     (h.modes.getD f.val 0 ≠ 2 ∨ h.time ≤ (s.twinFold f).crossFrom * s.epochNs f)) ∧
    (let s : State := (twinned fun t => { t with link := 2 })
     let h : Heartbeat := { beat with time := 19990, echo := some (19980, 0) }
     let now := s.clk.time
     let off : Option Int := h.echo.map fun e => (h.time : Int) + ((now - e.1 - e.2) / 2 : Nat) - now
     let o := 0
     NoSteppedWait s ∧
     s.power.main = true ∧
     s.twin.link = 2 ∧
     off = some o ∧
     -8388608 ≤ o ∧
     o ≤ 8388607) ∧
    (let s : State := (twinned fun t => { t with link := 2 })
     let h : Heartbeat := beat; let now := s.clk.time
     let off : Option Int := h.echo.map fun e => (h.time : Int) + ((now - e.1 - e.2) / 2 : Nat) - now
     NoSteppedWait s ∧
     s.power.main = true ∧
     s.twin.link = 2 ∧
     (s.twin.role ≠ 2 ∨ off = none)) ∧
    (let s : State := (twinned fun t => { t with link := 2 })
     let h : Heartbeat := { beat with dsafe := true }
     NoSteppedWait s ∧
     s.power.main = true ∧
     s.twin.link = 2 ∧
     h.dsafe = true ∧
     s.twin.pdsafe = false) ∧
    (let s : State := (twinned fun t => { t with link := 2, credits := #v[0, 0, 0, 0] })
     NoSteppedWait s ∧
     s.power.main = true ∧
     s.firmware = true ∧
     s.twin.link = 2 ∧
     (s.twin.credits[(2 : Fin 4)] = 0 ∨ 64 ≤ s.twin.unacked.length)) ∧
    (let s : State := (twinned id)
     NoSteppedWait s ∧
     s.power.main = true ∧
     s.firmware = true ∧
     s.twin.link ≠ 2) :=
  ⟨⟨noStepped (by decide +kernel), by decide +kernel⟩,
    ⟨noStepped (by decide +kernel), by decide +kernel⟩,
    ⟨noStepped (by decide +kernel), by decide +kernel⟩,
    ⟨noStepped (by decide +kernel), by decide +kernel⟩,
    ⟨noStepped (by decide +kernel), by decide +kernel⟩,
    ⟨noStepped (by decide +kernel), by decide +kernel⟩,
    ⟨noStepped (by decide +kernel), by decide +kernel⟩,
    ⟨noStepped (by decide +kernel), by decide +kernel⟩,
    ⟨noStepped (by decide +kernel), by decide +kernel⟩,
    ⟨noStepped (by decide +kernel), by decide +kernel⟩,
    ⟨noStepped (by decide +kernel), by decide +kernel⟩,
    ⟨noStepped (by decide +kernel), by decide +kernel⟩,
    ⟨noStepped (by decide +kernel), by decide +kernel⟩,
    ⟨noStepped (by decide +kernel), by decide +kernel⟩,
    ⟨noStepped (by decide +kernel), by decide +kernel⟩,
    ⟨noStepped (by decide +kernel), by decide +kernel⟩,
    ⟨noStepped (by decide +kernel), by decide +kernel⟩,
    ⟨noStepped (by decide +kernel), by decide +kernel⟩,
    ⟨noStepped (by decide +kernel), by decide +kernel⟩,
    ⟨noStepped (by decide +kernel), by decide +kernel⟩,
    ⟨noStepped (by decide +kernel), by decide +kernel⟩,
    ⟨noStepped (by decide +kernel), by decide +kernel⟩,
    ⟨noStepped (by decide +kernel), by decide +kernel⟩,
    ⟨noStepped (by decide +kernel), by decide +kernel⟩,
    ⟨noStepped (by decide +kernel), by decide +kernel⟩,
    ⟨noStepped (by decide +kernel), by decide +kernel⟩,
    ⟨noStepped (by decide +kernel), by decide +kernel⟩,
    ⟨noStepped (by decide +kernel), by decide +kernel⟩,
    ⟨noStepped (by decide +kernel), by decide +kernel⟩,
    ⟨noStepped (by decide +kernel), by decide +kernel⟩,
    ⟨noStepped (by decide +kernel), by decide +kernel⟩,
    ⟨noStepped (by decide +kernel), by decide +kernel⟩⟩

/-- O47, TwinModesAgreementAndTransferFollowTheirRules: states and operands that meet the hypotheses of its clauses. -/
theorem test_twinModes :
    (let s : State := (phased .build); let f : FoldId := 0; let m : BitVec 3 := 0
     NoSteppedWait s ∧
     s.power.main = true ∧
     s.firmware = true ∧
     s.running f = false ∧
     m = 0) ∧
    (let s : State := (phased .build); let f : FoldId := 0; let m : BitVec 3 := 7
     NoSteppedWait s ∧
     s.power.main = true ∧
     s.firmware = true ∧
     s.running f = false ∧
     m ≠ 0) ∧
    (let s : State := (twinFold 2 .none); let f : FoldId := 0; let m : BitVec 3 := 2; let tf := s.twinFold f
     NoSteppedWait s ∧
     s.power.main = true ∧
     s.firmware = true ∧
     s.running f = true ∧
     m = tf.mode) ∧
    (let s : State := (twinFold 2 .none); let f : FoldId := 0; let m : BitVec 3 := 0; let tf := s.twinFold f
     NoSteppedWait s ∧
     s.power.main = true ∧
     s.firmware = true ∧
     s.running f = true ∧
     m ≠ tf.mode ∧
     m = 0 ∧
     tf.mode = 2) ∧
    (let s : State := (twinFold 2 .none); let f : FoldId := 0; let m : BitVec 3 := 1; let tf := s.twinFold f
     let passes : Prop := s.twin.link = 2 ∧ s.sec.twinOk = true
     let may : Prop := (s.twin.role ≠ 0 ∧ s.twin.tlock = true ∧ passes) ∧ (tf.mode = 3 → tf.cutDone = true)
     NoSteppedWait s ∧
     s.power.main = true ∧
     s.firmware = true ∧
     s.running f = true ∧
     m ≠ tf.mode ∧
     m = 1 ∧
     tf.mode ≠ 4 ∧
     may) ∧
    (let s : State := (twinFold 1 .none); let f : FoldId := 0; let m : BitVec 3 := 4; let tf := s.twinFold f
     NoSteppedWait s ∧
     s.power.main = true ∧
     s.firmware = true ∧
     s.running f = true ∧
     m ≠ tf.mode ∧
     (m = 2 ∨ m = 4)) ∧
    (let s : State := (twinFold 2 .none); let f : FoldId := 0; let m : BitVec 3 := 3; let tf := s.twinFold f
     NoSteppedWait s ∧
     s.power.main = true ∧
     s.firmware = true ∧
     s.running f = true ∧
     m ≠ tf.mode ∧
     m = 3) ∧
    (let s : State := (twinFold 4 .none); let f : FoldId := 0; let m : BitVec 3 := 1; let tf := s.twinFold f
     let passes : Prop := s.twin.link = 2 ∧ s.sec.twinOk = true
     let may : Prop := (s.twin.role ≠ 0 ∧ s.twin.tlock = true ∧ passes) ∧ (tf.mode = 3 → tf.cutDone = true)
     NoSteppedWait s ∧
     s.power.main = true ∧
     s.firmware = true ∧
     s.running f = true ∧
     m ≠ tf.mode ∧
     (m = 0 ∧ tf.mode ≠ 2 ∨ m = 1 ∧ (tf.mode = 4 ∨ ¬ may) ∨ 5 ≤ m.toNat)) ∧
    (let s : State := (phased .build); let f : FoldId := 0; let n : BitVec 10 := 512; let g : GroupId := 0
     let sum := ((List.finRange 16).map fun g => if g = f then n.toNat else (s.reg (rFctl g) 0).toNat % 1024).sum
     NoSteppedWait s ∧
     s.power.main = true ∧
     s.firmware = true ∧
     sum * 16 ≤ 8192) ∧
    (let s : State := (phased .build); let f : FoldId := 0; let n : BitVec 10 := 513; let g : GroupId := 0
     let sum := ((List.finRange 16).map fun g => if g = f then n.toNat else (s.reg (rFctl g) 0).toNat % 1024).sum
     NoSteppedWait s ∧
     s.power.main = true ∧
     s.firmware = true ∧
     8192 < sum * 16) ∧
    (let s : State := (twinFold 1 .none); let f : FoldId := 0; let tf := s.twinFold f
     let passes : Prop := s.twin.link = 2 ∧ s.sec.twinOk = true
     let joins : Prop := passes ∧ (tf.mode = 1 ∨ tf.mode = 3 ∨ tf.mode = 4 ∨ tf.next = some 1 ∨ tf.mode = 2 ∧
      ∃ p, s.twin.partner = some p ∧ (p.modes.getD f.val 0 = 3 ∨ p.modes.getD f.val 0 = 4))
     NoSteppedWait s ∧
     joins ∧
     s.power.main = true) ∧
    (let s : State := (phased .build); let f : FoldId := 0; let tf := s.twinFold f
     let passes : Prop := s.twin.link = 2 ∧ s.sec.twinOk = true
     let joins : Prop := passes ∧ (tf.mode = 1 ∨ tf.mode = 3 ∨ tf.mode = 4 ∨ tf.next = some 1 ∨ tf.mode = 2 ∧
      ∃ p, s.twin.partner = some p ∧ (p.modes.getD f.val 0 = 3 ∨ p.modes.getD f.val 0 = 4))
     NoSteppedWait s ∧
     ¬ joins ∧
     s.power.main = true) ∧
    (let s : State := (twinFold 1 .none); let f : FoldId := 0; let r : SigRecord := sigRecord; let tf := s.twinFold f
     let passes : Prop := s.twin.link = 2 ∧ s.sec.twinOk = true
     NoSteppedWait s ∧
     s.power.main = true ∧
     passes ∧
     tf.mode = 1 ∧
     tf.crossFrom ≤ r.epoch.toNat ∧
     (∀ q ∈ tf.partner, q.epoch ≠ r.epoch) ∧
     (∀ q ∈ tf.own, q.epoch ≠ r.epoch)) ∧
    (let s : State := ((twinFold 1 .none).setTwinFold 0 { TwinFold.reset with mode := 1, own := [{ sigRecord with sig := 8 }] })
     let f : FoldId := 0; let r : SigRecord := sigRecord; let tf := s.twinFold f
     let passes : Prop := s.twin.link = 2 ∧ s.sec.twinOk = true; let q := { sigRecord with sig := 8 }
     let same : Prop := q.sig = r.sig ∧ q.nsigned = r.nsigned ∧ bit q.flags 0 = bit r.flags 0
     NoSteppedWait s ∧
     s.power.main = true ∧
     passes ∧
     tf.mode = 1 ∧
     tf.crossFrom ≤ r.epoch.toNat ∧
     (∀ q ∈ tf.partner, q.epoch ≠ r.epoch) ∧
     q ∈ tf.own ∧
     q.epoch = r.epoch ∧
     (∀ z ∈ tf.own, z.epoch = r.epoch → z = q) ∧
     bit q.flags 1 = false ∧
     bit r.flags 1 = false ∧
     ¬ same) ∧
    (let s : State := ((twinFold 1 .none).setTwinFold 0 { TwinFold.reset with mode := 1, own := [sigRecord] })
     let f : FoldId := 0; let r : SigRecord := sigRecord; let tf := s.twinFold f
     let passes : Prop := s.twin.link = 2 ∧ s.sec.twinOk = true; let q := sigRecord
     let same : Prop := q.sig = r.sig ∧ q.nsigned = r.nsigned ∧ bit q.flags 0 = bit r.flags 0
     NoSteppedWait s ∧
     s.power.main = true ∧
     passes ∧
     tf.mode = 1 ∧
     tf.crossFrom ≤ r.epoch.toNat ∧
     (∀ q ∈ tf.partner, q.epoch ≠ r.epoch) ∧
     q ∈ tf.own ∧
     q.epoch = r.epoch ∧
     (∀ z ∈ tf.own, z.epoch = r.epoch → z = q) ∧
     bit q.flags 1 = false ∧
     bit r.flags 1 = false ∧
     same) ∧
    (let s : State := ((twinFold 1 .none).setTwinFold 0 { TwinFold.reset with mode := 1, own := [sigRecord] })
     let f : FoldId := 0; let r : SigRecord := { sigRecord with flags := 2 }; let tf := s.twinFold f
     let passes : Prop := s.twin.link = 2 ∧ s.sec.twinOk = true; let q := sigRecord
     NoSteppedWait s ∧
     s.power.main = true ∧
     passes ∧
     tf.mode = 1 ∧
     tf.crossFrom ≤ r.epoch.toNat ∧
     (∀ q ∈ tf.partner, q.epoch ≠ r.epoch) ∧
     q ∈ tf.own ∧
     q.epoch = r.epoch ∧
     (∀ z ∈ tf.own, z.epoch = r.epoch → z = q) ∧
     (bit q.flags 1 = true ∨ bit r.flags 1 = true)) ∧
    (let s : State := (twinFold 2 .none); let f : FoldId := 0; let r : SigRecord := sigRecord; let tf := s.twinFold f
     let passes : Prop := s.twin.link = 2 ∧ s.sec.twinOk = true
     NoSteppedWait s ∧
     s.power.main = true ∧
     (¬ passes ∨ tf.mode ≠ 1 ∨ r.epoch.toNat < tf.crossFrom)) :=
  ⟨⟨noStepped (by decide +kernel), by decide +kernel⟩,
    ⟨noStepped (by decide +kernel), by decide +kernel⟩,
    ⟨noStepped (by decide +kernel), by decide +kernel⟩,
    ⟨noStepped (by decide +kernel), by decide +kernel⟩,
    ⟨noStepped (by decide +kernel), by decide +kernel⟩,
    ⟨noStepped (by decide +kernel), by decide +kernel⟩,
    ⟨noStepped (by decide +kernel), by decide +kernel⟩,
    ⟨noStepped (by decide +kernel), by decide +kernel⟩,
    ⟨noStepped (by decide +kernel), by decide +kernel⟩,
    ⟨noStepped (by decide +kernel), by decide +kernel⟩,
    ⟨noStepped (by decide +kernel), ⟨⟨rfl, rfl⟩, Or.inl rfl⟩, by decide +kernel⟩,
    ⟨noStepped (by decide +kernel), (by intro h; exact absurd h.1.1 (by decide +kernel)), by decide +kernel⟩,
    ⟨noStepped (by decide +kernel), by decide +kernel⟩,
    ⟨noStepped (by decide +kernel), by decide +kernel⟩,
    ⟨noStepped (by decide +kernel), by decide +kernel⟩,
    ⟨noStepped (by decide +kernel), by decide +kernel⟩,
    ⟨noStepped (by decide +kernel), by decide +kernel⟩⟩

/-- O47, TwinModesAgreementAndTransferFollowTheirRules: states and operands that meet the hypotheses of its clauses. -/
theorem test_transfer :
    (let s : State := (phased .build); let f : FoldId := 0; let tf := s.twinFold f
     let passes : Prop := s.twin.link = 2 ∧ s.sec.twinOk = true
     let sends : Prop := passes ∧ s.running f = true ∧ tf.mode = 2 ∧ s.stateSlots f ≠ 0 ∧
      ∃ p, s.twin.partner = some p ∧ p.modes.getD f.val 0 = 3
     let free : Prop := ∀ w ∈ s.twin.waiting, w.fold ≠ some f ∨ w.kind ≠ 6 ∧ w.kind ≠ 7
     NoSteppedWait s ∧
     (¬ sends ∨ ¬ free) ∧
     s.power.main = true) ∧
    (let s : State := (twinFold 2 .none); let f : FoldId := 0; let tf := s.twinFold f
     let passes : Prop := s.twin.link = 2 ∧ s.sec.twinOk = true
     let sends : Prop := passes ∧ s.running f = true ∧ tf.mode = 2 ∧ s.stateSlots f ≠ 0 ∧
      ∃ p, s.twin.partner = some p ∧ p.modes.getD f.val 0 = 3
     let free : Prop := ∀ w ∈ s.twin.waiting, w.fold ≠ some f ∨ w.kind ≠ 6 ∧ w.kind ≠ 7
     let p := ((twinFold 2 .none).foldPages 0).head!; let l := ((twinFold 2 .none).foldPages 0).tail
     NoSteppedWait s ∧
     sends ∧
     s.power.main = true ∧
     free ∧
     tf.phase = .none ∧
     s.foldPages f = p :: l) ∧
    (let s : State := (twinFold 2 (.bulk [0x100000])); let f : FoldId := 0; let tf := s.twinFold f
     let passes : Prop := s.twin.link = 2 ∧ s.sec.twinOk = true
     let sends : Prop := passes ∧ s.running f = true ∧ tf.mode = 2 ∧ s.stateSlots f ≠ 0 ∧
      ∃ p, s.twin.partner = some p ∧ p.modes.getD f.val 0 = 3
     let free : Prop := ∀ w ∈ s.twin.waiting, w.fold ≠ some f ∨ w.kind ≠ 6 ∧ w.kind ≠ 7
     let p := 0x100000; let l := []
     NoSteppedWait s ∧
     sends ∧
     s.power.main = true ∧
     free ∧
     tf.phase = .bulk (p :: l)) ∧
    (let s : State := (twinFold 2 (.bulk [])); let f : FoldId := 0; let tf := s.twinFold f
     let passes : Prop := s.twin.link = 2 ∧ s.sec.twinOk = true
     let sends : Prop := passes ∧ s.running f = true ∧ tf.mode = 2 ∧ s.stateSlots f ≠ 0 ∧
      ∃ p, s.twin.partner = some p ∧ p.modes.getD f.val 0 = 3
     let free : Prop := ∀ w ∈ s.twin.waiting, w.fold ≠ some f ∨ w.kind ≠ 6 ∧ w.kind ≠ 7
     NoSteppedWait s ∧
     sends ∧
     s.power.main = true ∧
     free ∧
     tf.phase = .bulk []) ∧
    (let s : State := (twinFold 2 (.delta [5])); let f : FoldId := 0; let tf := s.twinFold f
     let passes : Prop := s.twin.link = 2 ∧ s.sec.twinOk = true
     let sends : Prop := passes ∧ s.running f = true ∧ tf.mode = 2 ∧ s.stateSlots f ≠ 0 ∧
      ∃ p, s.twin.partner = some p ∧ p.modes.getD f.val 0 = 3
     let free : Prop := ∀ w ∈ s.twin.waiting, w.fold ≠ some f ∨ w.kind ≠ 6 ∧ w.kind ≠ 7
     let p := 5; let l := []
     NoSteppedWait s ∧
     sends ∧
     s.power.main = true ∧
     free ∧
     tf.phase = .delta (p :: l)) ∧
    (let s : State := (twinFold 2 (.delta [])); let f : FoldId := 0; let tf := s.twinFold f
     let passes : Prop := s.twin.link = 2 ∧ s.sec.twinOk = true
     let sends : Prop := passes ∧ s.running f = true ∧ tf.mode = 2 ∧ s.stateSlots f ≠ 0 ∧
      ∃ p, s.twin.partner = some p ∧ p.modes.getD f.val 0 = 3
     let free : Prop := ∀ w ∈ s.twin.waiting, w.fold ≠ some f ∨ w.kind ≠ 6 ∧ w.kind ≠ 7
     NoSteppedWait s ∧
     sends ∧
     s.power.main = true ∧
     free ∧
     tf.phase = .delta []) ∧
    (let s : State := (twinFold 2 (.cut [5])); let f : FoldId := 0; let tf := s.twinFold f
     let passes : Prop := s.twin.link = 2 ∧ s.sec.twinOk = true
     let sends : Prop := passes ∧ s.running f = true ∧ tf.mode = 2 ∧ s.stateSlots f ≠ 0 ∧
      ∃ p, s.twin.partner = some p ∧ p.modes.getD f.val 0 = 3
     let free : Prop := ∀ w ∈ s.twin.waiting, w.fold ≠ some f ∨ w.kind ≠ 6 ∧ w.kind ≠ 7
     let l := [5]
     NoSteppedWait s ∧
     sends ∧
     s.power.main = true ∧
     free ∧
     tf.phase = .cut l ∧
     s.cutOpen f = false) ∧
    (let s : State := (phased .build); let f : FoldId := 0; let tf := s.twinFold f
     let passes : Prop := s.twin.link = 2 ∧ s.sec.twinOk = true
     NoSteppedWait s ∧
     s.power.main = true ∧
     (¬ passes ∨ tf.mode ≠ 3)) ∧
    (let s : State := (twinFold 3 .none); let f : FoldId := 0; let tf := s.twinFold f
     let passes : Prop := s.twin.link = 2 ∧ s.sec.twinOk = true
     NoSteppedWait s ∧
     s.power.main = true ∧
     passes ∧
     tf.mode = 3) ∧
    (let s : State := (twinFold 3 .none); let f : FoldId := 0; let bytes : List Byte := (List.replicate 4096 7)
     let sp : SpanId := 1; let ix : Nat := 1; let page : Nat := 511; let tf := s.twinFold f
     let passes : Prop := s.twin.link = 2 ∧ s.sec.twinOk = true
     NoSteppedWait s ∧
     NoErrors s ∧
     (∀ j < 4096, s.wiping (physScratch sp (page % 512 * 4096) + j) = false) ∧
     s.power.main = true ∧
     passes ∧
     tf.mode = 3 ∧
     Memory.wf s.mem = true ∧
     bytes.length = 4096 ∧
     (s.foldSpans f)[ix]? = some sp) ∧
    (let s : State := (twinFold 3 .none); let f : FoldId := 0; let bytes : List Byte := (List.replicate 4096 7)
     let ix : Nat := 1; let page : Nat := 256; let g : GroupId := 1; let tf := s.twinFold f
     let passes : Prop := s.twin.link = 2 ∧ s.sec.twinOk = true
     NoSteppedWait s ∧
     NoErrors s ∧
     (∀ j < 4096, s.wiping (physGroup g (page % 256 * 4096) + j) = false) ∧
     s.power.main = true ∧
     passes ∧
     tf.mode = 3 ∧
     Memory.wf s.mem = true ∧
     bytes.length = 4096 ∧
     (s.foldGroups f)[ix]? = some g) ∧
    (let s : State := ((twinFold 3 .none).setReg (rSchctl 0) 0x201)
     let sp : SpanId := 0; let passes : Prop := s.twin.link = 2 ∧ s.sec.twinOk = true
     NoSteppedWait s ∧
     s.power.main = true ∧
     passes ∧
     s.sfm sp = 2) ∧
    (let s : State := (phased .build); let sp : SpanId := 0
     let passes : Prop := s.twin.link = 2 ∧ s.sec.twinOk = true
     NoSteppedWait s ∧
     s.power.main = true ∧
     (¬ passes ∨ s.sfm sp ≠ 2)) ∧
    (let s : State := (cutting (.cut [5]) []); let f : FoldId := 0; let tf := s.twinFold f
     let passes : Prop := s.twin.link = 2 ∧ s.sec.twinOk = true
     let sends : Prop := passes ∧ s.running f = true ∧ tf.mode = 2 ∧ s.stateSlots f ≠ 0 ∧
      ∃ p, s.twin.partner = some p ∧ p.modes.getD f.val 0 = 3
     let free : Prop := ∀ w ∈ s.twin.waiting, w.fold ≠ some f ∨ w.kind ≠ 6 ∧ w.kind ≠ 7
     let p := 5; let l := []
     NoSteppedWait s ∧
     sends ∧
     s.power.main = true ∧
     free ∧
     tf.phase = .cut (p :: l) ∧
     s.cutOpen f = true) ∧
    (let s : State := (cutting (.cut []) [5]); let f : FoldId := 0; let tf := s.twinFold f
     let passes : Prop := s.twin.link = 2 ∧ s.sec.twinOk = true
     let sends : Prop := passes ∧ s.running f = true ∧ tf.mode = 2 ∧ s.stateSlots f ≠ 0 ∧
      ∃ p, s.twin.partner = some p ∧ p.modes.getD f.val 0 = 3
     let free : Prop := ∀ w ∈ s.twin.waiting, w.fold ≠ some f ∨ w.kind ≠ 6 ∧ w.kind ≠ 7
     let p := 5; let l := []
     NoSteppedWait s ∧
     sends ∧
     s.power.main = true ∧
     free ∧
     tf.phase = .cut [] ∧
     s.cutOpen f = true ∧
     tf.dirty = p :: l) ∧
    (let s : State := (cutting (.cut []) []); let f : FoldId := 0; let tf := s.twinFold f
     let passes : Prop := s.twin.link = 2 ∧ s.sec.twinOk = true
     let sends : Prop := passes ∧ s.running f = true ∧ tf.mode = 2 ∧ s.stateSlots f ≠ 0 ∧
      ∃ p, s.twin.partner = some p ∧ p.modes.getD f.val 0 = 3
     let free : Prop := ∀ w ∈ s.twin.waiting, w.fold ≠ some f ∨ w.kind ≠ 6 ∧ w.kind ≠ 7
     NoSteppedWait s ∧
     sends ∧
     s.power.main = true ∧
     free ∧
     tf.phase = .cut [] ∧
     s.cutOpen f = true ∧
     tf.dirty = [] ∧
     s.twin.waiting = []) ∧
    (let s : State := (cutting (.image ((cutting .none []).imageOf 0)) [])
     let f : FoldId := 0; let tf := s.twinFold f; let passes : Prop := s.twin.link = 2 ∧ s.sec.twinOk = true
     let sends : Prop := passes ∧ s.running f = true ∧ tf.mode = 2 ∧ s.stateSlots f ≠ 0 ∧
      ∃ p, s.twin.partner = some p ∧ p.modes.getD f.val 0 = 3
     let free : Prop := ∀ w ∈ s.twin.waiting, w.fold ≠ some f ∨ w.kind ≠ 6 ∧ w.kind ≠ 7
     let sent := ((cutting .none []).imageOf 0)
     NoSteppedWait s ∧
     sends ∧
     s.power.main = true ∧
     free ∧
     tf.phase = .image sent ∧
     s.cutOpen f = true ∧
     tf.dirty = [] ∧
     s.imageOf f = sent) ∧
    (let s : State := (cutting (.image imageOf) [5]); let f : FoldId := 0; let tf := s.twinFold f
     let passes : Prop := s.twin.link = 2 ∧ s.sec.twinOk = true
     let sends : Prop := passes ∧ s.running f = true ∧ tf.mode = 2 ∧ s.stateSlots f ≠ 0 ∧
      ∃ p, s.twin.partner = some p ∧ p.modes.getD f.val 0 = 3
     let free : Prop := ∀ w ∈ s.twin.waiting, w.fold ≠ some f ∨ w.kind ≠ 6 ∧ w.kind ≠ 7
     let sent := imageOf
     NoSteppedWait s ∧
     sends ∧
     s.power.main = true ∧
     free ∧
     tf.phase = .image sent ∧
     s.cutOpen f = true ∧
     (tf.dirty ≠ [] ∨ s.imageOf f ≠ sent)) ∧
    (let s : State := (twinFold 2 (.image imageOf)); let f : FoldId := 0; let tf := s.twinFold f
     let passes : Prop := s.twin.link = 2 ∧ s.sec.twinOk = true
     let sends : Prop := passes ∧ s.running f = true ∧ tf.mode = 2 ∧ s.stateSlots f ≠ 0 ∧
      ∃ p, s.twin.partner = some p ∧ p.modes.getD f.val 0 = 3
     let free : Prop := ∀ w ∈ s.twin.waiting, w.fold ≠ some f ∨ w.kind ≠ 6 ∧ w.kind ≠ 7
     let sent := imageOf
     NoSteppedWait s ∧
     sends ∧
     s.power.main = true ∧
     free ∧
     tf.phase = .image sent ∧
     s.cutOpen f = false ∧
     tf.cutDone = false) :=
  ⟨⟨noStepped (by decide +kernel), Or.inl (by intro h; exact absurd h.1.1 (by decide +kernel)), by decide +kernel⟩,
    ⟨noStepped (by decide +kernel), ⟨⟨rfl, rfl⟩, rfl, rfl, by decide +kernel, _, rfl, by decide⟩, by decide +kernel⟩,
    ⟨noStepped (by decide +kernel), ⟨⟨rfl, rfl⟩, rfl, rfl, by decide +kernel, _, rfl, by decide⟩, by decide +kernel⟩,
    ⟨noStepped (by decide +kernel), ⟨⟨rfl, rfl⟩, rfl, rfl, by decide +kernel, _, rfl, by decide⟩, by decide +kernel⟩,
    ⟨noStepped (by decide +kernel), ⟨⟨rfl, rfl⟩, rfl, rfl, by decide +kernel, _, rfl, by decide⟩, by decide +kernel⟩,
    ⟨noStepped (by decide +kernel), ⟨⟨rfl, rfl⟩, rfl, rfl, by decide +kernel, _, rfl, by decide⟩, by decide +kernel⟩,
    ⟨noStepped (by decide +kernel), ⟨⟨rfl, rfl⟩, rfl, rfl, by decide +kernel, _, rfl, by decide⟩, by decide +kernel⟩,
    ⟨noStepped (by decide +kernel), by decide +kernel⟩,
    ⟨noStepped (by decide +kernel), by decide +kernel⟩,
    ⟨noStepped (by decide +kernel), ⟨rfl, rfl, rfl⟩, in4096 (by decide +kernel), by decide +kernel⟩,
    ⟨noStepped (by decide +kernel), ⟨rfl, rfl, rfl⟩, in4096 (by decide +kernel), by decide +kernel⟩,
    ⟨noStepped (by decide +kernel), by decide +kernel⟩,
    ⟨noStepped (by decide +kernel), by decide +kernel⟩,
    ⟨noStepped (by decide +kernel), ⟨⟨rfl, rfl⟩, rfl, rfl, by decide +kernel, _, rfl, by decide⟩, by decide +kernel⟩,
    ⟨noStepped (by decide +kernel), ⟨⟨rfl, rfl⟩, rfl, rfl, by decide +kernel, _, rfl, by decide⟩, by decide +kernel⟩,
    ⟨noStepped (by decide +kernel), ⟨⟨rfl, rfl⟩, rfl, rfl, by decide +kernel, _, rfl, by decide⟩, by decide +kernel⟩,
    ⟨noStepped (by decide +kernel), ⟨⟨rfl, rfl⟩, rfl, rfl, by decide +kernel, _, rfl, by decide⟩, by decide +kernel⟩,
    ⟨noStepped (by decide +kernel), ⟨⟨rfl, rfl⟩, rfl, rfl, by decide +kernel, _, rfl, by decide⟩, by decide +kernel⟩,
    ⟨noStepped (by decide +kernel), ⟨⟨rfl, rfl⟩, rfl, rfl, by decide +kernel, _, rfl, by decide⟩, by decide +kernel⟩⟩

/-- O48, ReceiveQueuesPopAndReport: states and operands that meet the hypotheses of its clauses. -/
theorem test_receiveQueues :
    (let s : State := calm 3; let y : YokeId := 0; let f : FoldId := 0; let d : Gpr := 15
     s.Calm y ∧
     s.foldOf y = some f ∧
     d.val % 4 ≠ 0) ∧
    (let s : State := (receiving [rxEntry] [7]); let y : YokeId := 0; let f : FoldId := 0; let d : Gpr := 12
     let p : PortId := 0; let q : Fin 64 := 3; let k := s.yoke y; let c := k.lead
     let j : Nat := if p = 4 then 8 * f.val + q.val else q.val
     let w := s.queue p.val j
     let own : Prop := if p = 4 then q.val < 8 else s.queueFold p.val q.val = some f
     let popAt : Word := BitVec.ofNat 32 (0xF0000100 + 0x1000000 * p.val + 0x400 * q.val)
     let sees (a : Word) (n : Nat) : Prop :=
      s.check f (spanOf y) c.ring a n Need.read = some (.io (a.toNat / 2 ^ 24) (a.toNat % 2 ^ 24))
     let e := rxEntry; let l := []
     s.Calm y ∧
     s.foldOf y = some f ∧
     d.val % 4 = 0 ∧
     sees popAt 16 ∧
     own ∧
     w.rx = e :: l) ∧
    (let s : State := (receiving [] []); let y : YokeId := 0; let f : FoldId := 0; let d : Gpr := 12
     let p : PortId := 0; let q : Fin 64 := 3; let k := s.yoke y; let c := k.lead
     let j : Nat := if p = 4 then 8 * f.val + q.val else q.val
     let w := s.queue p.val j
     let own : Prop := if p = 4 then q.val < 8 else s.queueFold p.val q.val = some f
     let popAt : Word := BitVec.ofNat 32 (0xF0000100 + 0x1000000 * p.val + 0x400 * q.val)
     let sees (a : Word) (n : Nat) : Prop :=
      s.check f (spanOf y) c.ring a n Need.read = some (.io (a.toNat / 2 ^ 24) (a.toNat % 2 ^ 24))
     s.Calm y ∧
     s.foldOf y = some f ∧
     d.val % 4 = 0 ∧
     sees popAt 16 ∧
     own ∧
     w.rx = []) ∧
    (let s : State := (receiving [] []); let y : YokeId := 0; let f : FoldId := 0; let d : Gpr := 12
     let p : PortId := 1; let q : Fin 64 := 3; let k := s.yoke y; let c := k.lead
     let own : Prop := if p = 4 then q.val < 8 else s.queueFold p.val q.val = some f
     let popAt : Word := BitVec.ofNat 32 (0xF0000100 + 0x1000000 * p.val + 0x400 * q.val)
     let sees (a : Word) (n : Nat) : Prop :=
      s.check f (spanOf y) c.ring a n Need.read = some (.io (a.toNat / 2 ^ 24) (a.toNat % 2 ^ 24))
     s.Calm y ∧
     s.foldOf y = some f ∧
     d.val % 4 = 0 ∧
     sees popAt 16 ∧
     ¬ own) ∧
    (let s : State := (receiving [rxEntry] [7]); let y : YokeId := 0; let f : FoldId := 0; let p : PortId := 0
     let q : Fin 64 := 3; let k := s.yoke y; let c := k.lead
     let own : Prop := if p = 4 then q.val < 8 else s.queueFold p.val q.val = some f
     let statAt : Word := BitVec.ofNat 32 (0xF0000110 + 0x1000000 * p.val + 0x400 * q.val)
     let sees (a : Word) (n : Nat) : Prop :=
      s.check f (spanOf y) c.ring a n Need.read = some (.io (a.toNat / 2 ^ 24) (a.toNat % 2 ^ 24))
     s.Calm y ∧
     s.foldOf y = some f ∧
     sees statAt 4 ∧
     own) ∧
    (let s : State := (receiving [] []); let y : YokeId := 0; let f : FoldId := 0; let p : PortId := 1
     let q : Fin 64 := 3; let k := s.yoke y; let c := k.lead
     let own : Prop := if p = 4 then q.val < 8 else s.queueFold p.val q.val = some f
     let statAt : Word := BitVec.ofNat 32 (0xF0000110 + 0x1000000 * p.val + 0x400 * q.val)
     let sees (a : Word) (n : Nat) : Prop :=
      s.check f (spanOf y) c.ring a n Need.read = some (.io (a.toNat / 2 ^ 24) (a.toNat % 2 ^ 24))
     s.Calm y ∧
     s.foldOf y = some f ∧
     sees statAt 4 ∧
     ¬ own) ∧
    (let s : State := (receiving [] []); let y : YokeId := 0; let f : FoldId := 0; let p : PortId := 4
     let q : Fin 64 := 7; let k := s.yoke y; let c := k.lead
     let own : Prop := if p = 4 then q.val < 8 else s.queueFold p.val q.val = some f
     let statAt : Word := BitVec.ofNat 32 (0xF0000110 + 0x1000000 * p.val + 0x400 * q.val)
     let sees (a : Word) (n : Nat) : Prop :=
      s.check f (spanOf y) c.ring a n Need.read = some (.io (a.toNat / 2 ^ 24) (a.toNat % 2 ^ 24))
     s.Calm y ∧
     s.foldOf y = some f ∧
     sees statAt 4 ∧
     own) ∧
    (let s : State := (receiving [] []); let y : YokeId := 0; let f : FoldId := 0; let d : Gpr := 12
     let p : PortId := 4; let q : Fin 64 := 8; let k := s.yoke y; let c := k.lead
     let own : Prop := if p = 4 then q.val < 8 else s.queueFold p.val q.val = some f
     let popAt : Word := BitVec.ofNat 32 (0xF0000100 + 0x1000000 * p.val + 0x400 * q.val)
     let sees (a : Word) (n : Nat) : Prop :=
      s.check f (spanOf y) c.ring a n Need.read = some (.io (a.toNat / 2 ^ 24) (a.toNat % 2 ^ 24))
     s.Calm y ∧
     s.foldOf y = some f ∧
     d.val % 4 = 0 ∧
     sees popAt 16 ∧
     ¬ own) ∧
    (let s : State := (receiving [rxEntry] [7]); let y : YokeId := 0; let f : FoldId := 0; let d : Gpr := 12
     let x : Fin 256 := 5; let k := s.yoke y; let c := k.lead; let xq := s.xchQ x.val
     let xown := (s.reg (0x020A00 + 4 * x.val) 0).toNat
     let ends : Prop := xown / 2 ^ 31 = 1 ∧ xown / 2 ^ 8 % 16 = f.val
     let xpopAt : Word := BitVec.ofNat 32 (0xF8000080 + 0x100 * x.val)
     let sees (a : Word) (n : Nat) : Prop :=
      s.check f (spanOf y) c.ring a n Need.read = some (.io (a.toNat / 2 ^ 24) (a.toNat % 2 ^ 24))
     let e := 7; let l := []
     s.Calm y ∧
     s.foldOf y = some f ∧
     d.val % 4 = 0 ∧
     sees xpopAt 16 ∧
     ends ∧
     xq.items = e :: l) ∧
    (let s : State := (receiving [] []); let y : YokeId := 0; let f : FoldId := 0; let d : Gpr := 12
     let x : Fin 256 := 5; let k := s.yoke y; let c := k.lead; let xq := s.xchQ x.val
     let xown := (s.reg (0x020A00 + 4 * x.val) 0).toNat
     let ends : Prop := xown / 2 ^ 31 = 1 ∧ xown / 2 ^ 8 % 16 = f.val
     let xpopAt : Word := BitVec.ofNat 32 (0xF8000080 + 0x100 * x.val)
     let sees (a : Word) (n : Nat) : Prop :=
      s.check f (spanOf y) c.ring a n Need.read = some (.io (a.toNat / 2 ^ 24) (a.toNat % 2 ^ 24))
     s.Calm y ∧
     s.foldOf y = some f ∧
     d.val % 4 = 0 ∧
     sees xpopAt 16 ∧
     ends ∧
     xq.items = []) ∧
    (let s : State := (receiving [] []); let y : YokeId := 0; let f : FoldId := 0; let d : Gpr := 12
     let x : Fin 256 := 6; let k := s.yoke y; let c := k.lead; let xown := (s.reg (0x020A00 + 4 * x.val) 0).toNat
     let ends : Prop := xown / 2 ^ 31 = 1 ∧ xown / 2 ^ 8 % 16 = f.val
     let xpopAt : Word := BitVec.ofNat 32 (0xF8000080 + 0x100 * x.val)
     let sees (a : Word) (n : Nat) : Prop :=
      s.check f (spanOf y) c.ring a n Need.read = some (.io (a.toNat / 2 ^ 24) (a.toNat % 2 ^ 24))
     s.Calm y ∧
     s.foldOf y = some f ∧
     d.val % 4 = 0 ∧
     sees xpopAt 16 ∧
     ¬ ends) ∧
    (let s : State := (receiving [rxEntry] [7]); let y : YokeId := 0; let f : FoldId := 0; let x : Fin 256 := 5
     let k := s.yoke y; let c := k.lead; let xq := s.xchQ x.val; let xown := (s.reg (0x020A00 + 4 * x.val) 0).toNat
     let ends : Prop := xown / 2 ^ 31 = 1 ∧ xown / 2 ^ 8 % 16 = f.val
     let xstatAt : Word := BitVec.ofNat 32 (0xF8000090 + 0x100 * x.val)
     let sees (a : Word) (n : Nat) : Prop :=
      s.check f (spanOf y) c.ring a n Need.read = some (.io (a.toNat / 2 ^ 24) (a.toNat % 2 ^ 24))
     s.Calm y ∧
     s.foldOf y = some f ∧
     sees xstatAt 4 ∧
     ends ∧
     xq.items.length < 2 ^ 15) ∧
    (let s : State := (receiving [] []); let y : YokeId := 0; let f : FoldId := 0; let x : Fin 256 := 6
     let k := s.yoke y; let c := k.lead; let xown := (s.reg (0x020A00 + 4 * x.val) 0).toNat
     let ends : Prop := xown / 2 ^ 31 = 1 ∧ xown / 2 ^ 8 % 16 = f.val
     let xstatAt : Word := BitVec.ofNat 32 (0xF8000090 + 0x100 * x.val)
     let sees (a : Word) (n : Nat) : Prop :=
      s.check f (spanOf y) c.ring a n Need.read = some (.io (a.toNat / 2 ^ 24) (a.toNat % 2 ^ 24))
     s.Calm y ∧
     s.foldOf y = some f ∧
     sees xstatAt 4 ∧
     ¬ ends) :=
  ⟨⟨calm_of (by decide +kernel) rfl, by decide +kernel⟩,
    ⟨calm_of (by decide +kernel) rfl, by decide +kernel⟩,
    ⟨calm_of (by decide +kernel) rfl, by decide +kernel⟩,
    ⟨calm_of (by decide +kernel) rfl, by decide +kernel⟩,
    ⟨calm_of (by decide +kernel) rfl, by decide +kernel⟩,
    ⟨calm_of (by decide +kernel) rfl, by decide +kernel⟩,
    ⟨calm_of (by decide +kernel) rfl, by decide +kernel⟩,
    ⟨calm_of (by decide +kernel) rfl, by decide +kernel⟩,
    ⟨calm_of (by decide +kernel) rfl, by decide +kernel⟩,
    ⟨calm_of (by decide +kernel) rfl, by decide +kernel⟩,
    ⟨calm_of (by decide +kernel) rfl, by decide +kernel⟩,
    ⟨calm_of (by decide +kernel) rfl, by decide +kernel⟩,
    ⟨calm_of (by decide +kernel) rfl, by decide +kernel⟩⟩

/-- O49, EthernetPortsReceiveSendAndFollowTheirLink: states and operands that meet the hypotheses of its clauses. -/
theorem test_ethernet :
    (let s : State := portUp; let p : EthPort := 0; let fr : List Byte := [1, 2, 3]; let up : Prop := p.val ∈ s.linkUp
     let len := fr.length; let body := fr.take (len - 4); let ty (i : Nat) : Nat := beValue ((body.drop i).take 2)
     let tagged : Prop := ty 12 = 0x8100
     let intact : Prop := 64 ≤ len ∧ len ≤ 2000 ∧ ethFcs body = fr.drop (len - 4)
     let plain : Prop := ∀ i, i = 12 ∨ i = 16 ∧ tagged → ty i ≠ 0x8808 ∧ ty i ≠ 0x88A8 ∧ ty i ≠ 0x892F ∧ (i = 16 → ty i ≠ 0x8100)
     (¬ intact ∨ ¬ plain) ∧
     s.power.main = true ∧
     up) ∧
    (let s : State := portUp; let p : EthPort := 0; let fr : List Byte := (ethFrame [0x88, 0x08])
     let up : Prop := p.val ∈ s.linkUp; let len := fr.length; let body := fr.take (len - 4)
     let ty (i : Nat) : Nat := beValue ((body.drop i).take 2); let tagged : Prop := ty 12 = 0x8100
     let intact : Prop := 64 ≤ len ∧ len ≤ 2000 ∧ ethFcs body = fr.drop (len - 4)
     let plain : Prop := ∀ i, i = 12 ∨ i = 16 ∧ tagged → ty i ≠ 0x8808 ∧ ty i ≠ 0x88A8 ∧ ty i ≠ 0x892F ∧ (i = 16 → ty i ≠ 0x8100)
     (¬ intact ∨ ¬ plain) ∧
     s.power.main = true ∧
     up) ∧
    (let s : State := portUp; let p : EthPort := 0; let fr : List Byte := (ethFrame [0x08]); let f : FoldId := 0
     let q : Fin 64 := 3
     let at_ (off : Nat) : Nat := 0x0D0000 + p.val * 0x2000 + off
     let up : Prop := p.val ∈ s.linkUp; let len := fr.length; let body := fr.take (len - 4)
     let ty (i : Nat) : Nat := beValue ((body.drop i).take 2); let tagged : Prop := ty 12 = 0x8100
     let intact : Prop := 64 ≤ len ∧ len ≤ 2000 ∧ ethFcs body = fr.drop (len - 4)
     let plain : Prop := ∀ i, i = 12 ∨ i = 16 ∧ tagged → ty i ≠ 0x8808 ∧ ty i ≠ 0x88A8 ∧ ty i ≠ 0x892F ∧ (i = 16 → ty i ≠ 0x8100)
     let cfg := s.reg (at_ (0x100 + 4 * q.val)) 0
     plain ∧
     s.power.main = true ∧
     up ∧
     intact ∧
     s.queueFold p.val q.val = some f ∧
     s.running f = true ∧
     bit cfg 31 = false ∧
     bit cfg 30 = false) ∧
    (let s : State := { (portUp.setReg 0x0D010C 0x80000000) with conns := [(3, ⟨0x80300009, 0x00070000, 0, 1, 0, [], false, 0, false⟩)] }
     let p : EthPort := 0; let fr : List Byte := safetyFrame; let f : FoldId := 0; let q : Fin 64 := 3
     let n : Fin 4096 := 3
     let at_ (off : Nat) : Nat := 0x0D0000 + p.val * 0x2000 + off
     let up : Prop := p.val ∈ s.linkUp; let len := fr.length; let body := fr.take (len - 4)
     let ty (i : Nat) : Nat := beValue ((body.drop i).take 2); let tagged : Prop := ty 12 = 0x8100
     let rest := if tagged then body.drop 16 else body.drop 12
     let intact : Prop := 64 ≤ len ∧ len ≤ 2000 ∧ ethFcs body = fr.drop (len - 4)
     let plain : Prop := ∀ i, i = 12 ∨ i = 16 ∧ tagged → ty i ≠ 0x8808 ∧ ty i ≠ 0x88A8 ∧ ty i ≠ 0x892F ∧ (i = 16 → ty i ≠ 0x8100)
     let cfg := s.reg (at_ (0x100 + 4 * q.val)) 0; let c := s.conn n.val; let w0 := s.reg 0x110014 0 &&& 0xFFF0FFFF
     let pdu := rest.drop 2; let be (i k : Nat) : Nat := beValue ((pdu.drop i).take k); let m := be 6 2
     plain ∧
     s.power.main = true ∧
     up ∧
     intact ∧
     s.queueFold p.val q.val = some f ∧
     s.running f = true ∧
     bit cfg 31 = true ∧
     bit cfg 30 = false ∧
     ty 12 = (s.reg (at_ 0x10) 0x88B5).toNat % 2 ^ 16 ∧
     ¬ tagged ∧
     be 0 2 / 2 ^ 12 = 1 ∧
     be 0 2 % 2 ^ 11 = 0 ∧
     m ≤ 1456 ∧
     20 + m + 4 ≤ pdu.length ∧
     s.rxConn p.val q.val (be 2 2) (be 4 2) = some n.val ∧
     bit c.w0 29 = false) ∧
    (let s : State := ((portUp.setReg (rPqown 0 5) 0x80000001).setReg rFmgrCtl 1)
     let p : EthPort := 0
     let at_ (off : Nat) : Nat := 0x0D0000 + p.val * 0x2000 + off
     let gcl := s.reg (at_ 0x608) 0; let isolated : Prop := bit s.fmgrCtl 0 = true
     (∃ i < 64, ∃ j < 64, ∃ g h, s.queueFold p.val i = some g ∧ s.queueFold p.val j = some h ∧ g ≠ h) ∧
     s.power.main = true ∧
     isolated ∧
     bit gcl 0 = false) ∧
    (let s : State := portUp; let p : EthPort := 0; let fr : List Byte := (ethFrame [0x89, 0x2F])
     let up : Prop := p.val ∈ s.linkUp; let len := fr.length; let body := fr.take (len - 4)
     let ty (i : Nat) : Nat := beValue ((body.drop i).take 2); let tagged : Prop := ty 12 = 0x8100
     let intact : Prop := 64 ≤ len ∧ len ≤ 2000 ∧ ethFcs body = fr.drop (len - 4)
     let plain : Prop := ∀ i, i = 12 ∨ i = 16 ∧ tagged → ty i ≠ 0x8808 ∧ ty i ≠ 0x88A8 ∧ ty i ≠ 0x892F ∧ (i = 16 → ty i ≠ 0x8100)
     (¬ intact ∨ ¬ plain) ∧
     s.power.main = true ∧
     up) ∧
    (let s : State := (running (calm 0)); let p : EthPort := 0; let up : Prop := p.val ∈ s.linkUp
     s.power.main = true ∧
     ¬ up) ∧
    (let s : State := { portUp with fm := { FaultMgr.reset with dsafe := true } }
     s.power.main = true ∧
     s.fm.dsafe = true) ∧
    (let s : State := portUp; let p : EthPort := 0
     let tx (t : State) (j : Nat) : List TxRec := (t.queue p.val j).tx
     s.power.main = true ∧
     (∀ j < 64, tx s j = [])) ∧
    (let s : State := (portUp.setQueue 0 3 { PortQueue.reset with tx := [txRec 0] })
     let p : EthPort := 0; let q : Fin 64 := 3; let r : TxRec := (txRec 0); let l : List TxRec := []
     let at_ (off : Nat) : Nat := 0x0D0000 + p.val * 0x2000 + off
     let up : Prop := p.val ∈ s.linkUp; let cfg := s.reg (at_ (0x100 + 4 * q.val)) 0
     let tx (t : State) (j : Nat) : List TxRec := (t.queue p.val j).tx
     let gcl := s.reg (at_ 0x608) 0; let isolated : Prop := bit s.fmgrCtl 0 = true
     s.power.main = true ∧
     up ∧
     s.fm.dsafe = false ∧
     bit gcl 0 = false ∧
     (isolated → ∃ g, ∀ j < 64, s.queueFold p.val j = none ∨ s.queueFold p.val j = some g) ∧
     tx s q.val = r :: l ∧
     (∀ j < 64, j ≠ q.val → tx s j ≠ [] → (s.qcfg p.val j).toNat / 2 ^ 27 % 8 < cfg.toNat / 2 ^ 27 % 8)) :=
  ⟨⟨Or.inl (by decide +kernel), by decide +kernel⟩,
    ⟨Or.inr (fun h => absurd (h 12 (Or.inl rfl)) (by decide +kernel)), by decide +kernel⟩,
    ⟨(by rintro i (rfl | ⟨rfl, h⟩) <;> first | decide +kernel | exact absurd h (by decide +kernel)), by decide +kernel⟩,
    ⟨(by rintro i (rfl | ⟨rfl, h⟩) <;> first | decide +kernel | exact absurd h (by decide +kernel)), by decide +kernel⟩,
    ⟨⟨3, by decide, 5, by decide, 0, 1, by decide +kernel, by decide +kernel, by decide⟩, by decide +kernel⟩,
    ⟨Or.inr (fun h => absurd (h 12 (Or.inl rfl)) (by decide +kernel)), by decide +kernel⟩,
    by and_intros <;> decide +kernel⟩

/-- O49, EthernetPortsReceiveSendAndFollowTheirLink: states and operands that meet the hypotheses of its clauses. -/
theorem test_ports :
    (let s : State := portUp; let p : EthPort := 0
     let at_ (off : Nat) : Nat := 0x0D0000 + p.val * 0x2000 + off
     let gcl := s.reg (at_ 0x608) 0; let gates := gcl.toNat / 2 ^ 16 % 512
     s.power.main = true ∧
     (bit gcl 0 = false ∨ gates = 0)) ∧
    (let s : State := ((portUp.setReg 0x0D0608 0x00020001).setReg 0x0D0610 10)
     let p : EthPort := 0; let now := s.clk.time
     let at_ (off : Nat) : Nat := 0x0D0000 + p.val * 0x2000 + off
     let gcl := s.reg (at_ 0x608) 0; let gates := gcl.toNat / 2 ^ 16 % 512
     let base := (s.reg (at_ 0x610) 0).toNat + (s.reg (at_ 0x614) 0).toNat * 2 ^ 32
     s.power.main = true ∧
     bit gcl 0 = true ∧
     gates ≠ 0 ∧
     (∀ e ∈ s.gateAt, e.1 ≠ p.val) ∧
     now < base) ∧
    (let s : State := (portUp.setReg 0x0D0608 0x00020001); let p : EthPort := 0; let now := s.clk.time
     let at_ (off : Nat) : Nat := 0x0D0000 + p.val * 0x2000 + off
     let gcl := s.reg (at_ 0x608) 0; let gates := gcl.toNat / 2 ^ 16 % 512
     let base := (s.reg (at_ 0x610) 0).toNat + (s.reg (at_ 0x614) 0).toNat * 2 ^ 32
     s.power.main = true ∧
     bit gcl 0 = true ∧
     gates ≠ 0 ∧
     (∀ e ∈ s.gateAt, e.1 ≠ p.val) ∧
     base ≤ now) ∧
    (let s : State := { ((portUp.setReg 0x0D0608 0x00020001).setReg 0x0D060C 100) with gateAt := [(0, 1, 0)] }
     let p : EthPort := 0; let now := s.clk.time
     let at_ (off : Nat) : Nat := 0x0D0000 + p.val * 0x2000 + off
     let gcl := s.reg (at_ 0x608) 0; let gates := gcl.toNat / 2 ^ 16 % 512
     let cyc := max 1 (s.reg (at_ 0x60C) 0).toNat
     let base := (s.reg (at_ 0x610) 0).toNat + (s.reg (at_ 0x614) 0).toNat * 2 ^ 32
     let begin_ (t : Nat) : Nat := base + (t - base) / cyc * cyc; let i := 1; let start := 0
     let e1 := begin_ start + cyc
     let e := if gates ≤ i + 1 then e1 else min e1 (start + (s.reg (rGcl p.val i) 0).toNat % 2 ^ 24 * 8)
     s.power.main = true ∧
     bit gcl 0 = true ∧
     gates ≠ 0 ∧
     s.gateAt.find? (fun e => e.1 == p.val) = some (p.val, i, start) ∧
     now < e) ∧
    (let s : State := { ((portUp.setReg 0x0D0608 0x00020001).setReg 0x0D060C 100) with gateAt := [(0, 0, 0)] }
     let p : EthPort := 0; let now := s.clk.time
     let at_ (off : Nat) : Nat := 0x0D0000 + p.val * 0x2000 + off
     let gcl := s.reg (at_ 0x608) 0; let gates := gcl.toNat / 2 ^ 16 % 512
     let cyc := max 1 (s.reg (at_ 0x60C) 0).toNat
     let base := (s.reg (at_ 0x610) 0).toNat + (s.reg (at_ 0x614) 0).toNat * 2 ^ 32
     let begin_ (t : Nat) : Nat := base + (t - base) / cyc * cyc; let i := 0; let start := 0
     let e1 := begin_ start + cyc
     let e := if gates ≤ i + 1 then e1 else min e1 (start + (s.reg (rGcl p.val i) 0).toNat % 2 ^ 24 * 8)
     s.power.main = true ∧
     bit gcl 0 = true ∧
     gates ≠ 0 ∧
     s.gateAt.find? (fun e => e.1 == p.val) = some (p.val, i, start) ∧
     e ≤ now) ∧
    (let s : State := portUp; let p : EthPort := 0; let mode : BitVec 3 := 0
     let at_ (off : Nat) : Nat := 0x0D0000 + p.val * 0x2000 + off
     let up : Prop := p.val ∈ s.linkUp; let cur := (s.reg (at_ 0) 0).toNat % 8
     s.power.main = true ∧
     (up ∨ cur = 0 ∨ mode = 0 ∨ 4 < mode.toNat ∨ cur ≤ 4 ∧ mode.toNat ≠ cur)) ∧
    (let s : State := { portUp with linkUp := [] }; let p : EthPort := 0; let mode : BitVec 3 := 1
     let at_ (off : Nat) : Nat := 0x0D0000 + p.val * 0x2000 + off
     let up : Prop := p.val ∈ s.linkUp; let cur := (s.reg (at_ 0) 0).toNat % 8
     s.power.main = true ∧
     ¬ up ∧
     cur ≠ 0 ∧
     mode ≠ 0 ∧
     mode.toNat ≤ 4 ∧
     (4 < cur ∨ mode.toNat = cur)) ∧
    (let s : State := portUp; let p : EthPort := 0; let up : Prop := p.val ∈ s.linkUp
     s.power.main = true ∧
     up) ∧
    (let s : State := portUp; let p : EthPort := 0; let v : Word := 2
     let at_ (off : Nat) : Nat := 0x0D0000 + p.val * 0x2000 + off
     let up : Prop := p.val ∈ s.linkUp; let cur := (s.reg (at_ 0) 0).toNat % 8
     let new := if bit (s.reg (at_ 0) 0) 31 = true ∨ 6 ≤ v.toNat % 8 then cur else v.toNat % 8
     s.power.main = true ∧
     s.firmware = true ∧
     new ≠ cur ∧
     up) ∧
    (let s : State := portUp; let n : Fin 4096 := 3; let now := s.clk.time; let c := s.conn n.val
     let w0 := s.reg 0x110014 0 &&& 0xFFF0FFFF
     s.power.main = true ∧
     (bit c.w0 31 = false ∨ bit c.w0 30 = true ∨ c.stale = true ∨ now < c.since + c.w3.toNat % 2 ^ 16 * 10000)) ∧
    (let s : State := { portUp with conns := [(3, ⟨0x80300009, 0x00070000, 0, 1, 0, [], false, 0, false⟩)], clk := { State.reset.clk with time := 10000 } }
     let n : Fin 4096 := 3; let now := s.clk.time; let c := s.conn n.val; let w0 := s.reg 0x110014 0 &&& 0xFFF0FFFF
     s.power.main = true ∧
     bit c.w0 31 = true ∧
     bit c.w0 30 = false ∧
     c.stale = false ∧
     c.since + c.w3.toNat % 2 ^ 16 * 10000 ≤ now) ∧
    (let s : State := ((portUp.setReg 0x110010 3).setReg 0x110014 0x80500000)
     let n : Fin 4096 := 3; let w0 := s.reg 0x110014 0 &&& 0xFFF0FFFF; let w1 := s.reg 0x110018 0 &&& 0xFFFFFF00
     let port := w0.toNat / 2 ^ 26 % 8; let qn := w0.toNat / 2 ^ 20 % 64
     let ownedBy : Option FoldId := if port < 4 then s.queueFold port qn else if port = 4 then some (Fin.ofNat 16 (qn / 8)) else none
     let clash : Prop := bit w0 30 = false ∧ ∃ e ∈ s.conns, e.1 ≠ n.val ∧ bit (s.conn e.1).w0 31 = true ∧ bit (s.conn e.1).w0 30 = false ∧
      (s.conn e.1).w0.toNat / 2 ^ 26 % 8 = port ∧ (s.conn e.1).w0.toNat % 2 ^ 16 = w0.toNat % 2 ^ 16 ∧
      (s.conn e.1).w1.toNat / 2 ^ 16 = w1.toNat / 2 ^ 16
     s.power.main = true ∧
     s.firmware = true ∧
     (s.reg 0x110010 0).toNat % 2 ^ 12 = n.val ∧
     bit w0 31 = true ∧
     (ownedBy = none ∨ clash)) ∧
    (let s : State := ((portUp.setReg 0x110010 3).setReg 0x110014 0x80300000)
     let n : Fin 4096 := 3; let w0 := s.reg 0x110014 0 &&& 0xFFF0FFFF; let w1 := s.reg 0x110018 0 &&& 0xFFFFFF00
     let port := w0.toNat / 2 ^ 26 % 8; let qn := w0.toNat / 2 ^ 20 % 64
     let ownedBy : Option FoldId := if port < 4 then s.queueFold port qn else if port = 4 then some (Fin.ofNat 16 (qn / 8)) else none
     let clash : Prop := bit w0 30 = false ∧ ∃ e ∈ s.conns, e.1 ≠ n.val ∧ bit (s.conn e.1).w0 31 = true ∧ bit (s.conn e.1).w0 30 = false ∧
      (s.conn e.1).w0.toNat / 2 ^ 26 % 8 = port ∧ (s.conn e.1).w0.toNat % 2 ^ 16 = w0.toNat % 2 ^ 16 ∧
      (s.conn e.1).w1.toNat / 2 ^ 16 = w1.toNat / 2 ^ 16
     s.power.main = true ∧
     s.firmware = true ∧
     (s.reg 0x110010 0).toNat % 2 ^ 12 = n.val ∧
     (bit w0 31 = false ∨ ownedBy ≠ none ∧ ¬ clash)) :=
  by and_intros <;> decide +kernel

/-- O50, PcieRequestsEntriesAndDeliveryFollowTheirRules: states and operands that meet the hypotheses of its clauses. -/
theorem test_pcie :
    (let s : State := (running (calm 0)); let up : Prop := 4 ∈ s.linkUp
     s.power.main = true ∧
     ¬ up) ∧
    (let s : State := (hosted id); let f : FoldId := 0; let off : Nat := 8190; let data : List Byte := [1, 2, 3, 4]
     let up : Prop := 4 ∈ s.linkUp; let pc := s.pcie
     let serves : Prop := pc.vfEnable = true ∧ s.running f = true ∧ f.val ∉ pc.flr
     let inside : Prop := data ≠ [] ∧ data.length ≤ 512 ∧ off + data.length ≤ 0x10000 ∧ off % 0x2000 + data.length ≤ 0x2000
     s.power.main = true ∧
     up ∧
     (¬ serves ∨ ¬ inside)) ∧
    (let s : State := (hosted id); let f : FoldId := 0; let off : Nat := 0; let data : List Byte := []
     let up : Prop := 4 ∈ s.linkUp; let pc := s.pcie
     let serves : Prop := pc.vfEnable = true ∧ s.running f = true ∧ f.val ∉ pc.flr
     let inside : Prop := data ≠ [] ∧ data.length ≤ 512 ∧ off + data.length ≤ 0x10000 ∧ off % 0x2000 + data.length ≤ 0x2000
     s.power.main = true ∧
     up ∧
     (¬ serves ∨ ¬ inside)) ∧
    (let s : State := (hosted id); let f : FoldId := 0; let off : Nat := 65532; let data : List Byte := [1, 2, 3, 4]
     let up : Prop := 4 ∈ s.linkUp; let pc := s.pcie
     let serves : Prop := pc.vfEnable = true ∧ s.running f = true ∧ f.val ∉ pc.flr
     let win := 8 * f.val + off / 0x2000
     let inside : Prop := data ≠ [] ∧ data.length ≤ 512 ∧ off + data.length ≤ 0x10000 ∧ off % 0x2000 + data.length ≤ 0x2000
     s.power.main = true ∧
     up ∧
     serves ∧
     inside ∧
     bit (s.qcfg 4 win) 31 = false) ∧
    (let s : State := (hosted id); let tag : Nat := 5; let up : Prop := 4 ∈ s.linkUp; let pc := s.pcie
     let named : List HostRead → Option HostRead := fun x => x.find? fun y => y.parts.any fun p => p.tag == tag
     s.power.main = true ∧
     up ∧
     named pc.reads = none) ∧
    (let s : State := ((hosted fun p => { p with reads := [⟨0, 3, 0x1000, 0, [⟨5, 8, []⟩]⟩] }))
     let f : FoldId := 0; let data : List Byte := (List.replicate 8 1); let tag : Nat := 5
     let h : HostRead := ⟨0, 3, 0x1000, 0, [⟨5, 8, []⟩]⟩; let up : Prop := 4 ∈ s.linkUp; let pc := s.pcie
     let named : List HostRead → Option HostRead := fun x => x.find? fun y => y.parts.any fun p => p.tag == tag
     let parts := h.parts.map fun (p : ReadPart) => if p.tag = tag then { p with got := p.got ++ data } else p
     s.power.main = true ∧
     up ∧
     named pc.reads = some h ∧
     s.queueFold 4 h.queue = some f ∧
     s.running f = true ∧
     (∀ p ∈ parts, p.len ≤ p.got.length)) ∧
    (let s : State := ((hosted fun p => { p with reads := [⟨0, 3, 0x1000, 0, [⟨5, 8, []⟩]⟩] }))
     let f : FoldId := 0; let data : List Byte := (List.replicate 7 1); let tag : Nat := 5
     let h : HostRead := ⟨0, 3, 0x1000, 0, [⟨5, 8, []⟩]⟩; let up : Prop := 4 ∈ s.linkUp; let pc := s.pcie
     let named : List HostRead → Option HostRead := fun x => x.find? fun y => y.parts.any fun p => p.tag == tag
     let parts := h.parts.map fun (p : ReadPart) => if p.tag = tag then { p with got := p.got ++ data } else p
     s.power.main = true ∧
     up ∧
     named pc.reads = some h ∧
     s.queueFold 4 h.queue = some f ∧
     s.running f = true ∧
     (∃ p ∈ parts, p.got.length < p.len)) ∧
    (let s : State := (hosted id); let tag : Nat := 5; let up : Prop := 4 ∈ s.linkUp; let pc := s.pcie
     let named : List HostRead → Option HostRead := fun x => x.find? fun y => y.parts.any fun p => p.tag == tag
     s.power.main = true ∧
     named pc.reads = none ∧
     up ∧
     pc.vfEnable = true) ∧
    (let s : State := (hosted fun p => { p with vfEnable := false })
     let up : Prop := 4 ∈ s.linkUp; let pc := s.pcie
     s.power.main = true ∧
     up ∧
     pc.vfEnable = false) ∧
    (let s : State := (hosted id); let f : FoldId := 0; let now := s.clk.time; let pc := s.pcie
     let used := if pc.frame = now / 8192 then kget pc.used 0 f else 0
     s.power.main = true ∧
     (s.fm.dsafe = true ∨ s.fshare f ≤ used ∨ now / 128 < pc.shareAt)) ∧
    (let s : State := (((hosted fun p => { p with bme := [] }).setQueue 4 1 { PortQueue.reset with tx := [txRec 1] }).setReg (rPort 4 0x500) 1)
     let f : FoldId := 0; let j : Fin 8 := 1; let r : TxRec := (txRec 1); let l : List TxRec := []
     let now := s.clk.time; let up : Prop := 4 ∈ s.linkUp; let pc := s.pcie
     let used := if pc.frame = now / 8192 then kget pc.used 0 f else 0
     let txq := s.queue 4 (8 * f.val + j.val)
     let may : Prop := pc.vfEnable = true ∧ f.val ∈ pc.bme ∧ f.val ∉ pc.flr
     let posted (x : TxRec) : Prop := x.kind = 1 ∨ x.kind = 4
     s.power.main = true ∧
     up ∧
     s.fm.dsafe = false ∧
     used < s.fshare f ∧
     pc.shareAt ≤ now / 128 ∧
     s.running f = true ∧
     txq.tx = r :: l ∧
     (∀ i < j.val, (s.queue 4 (8 * f.val + i)).tx = []) ∧
     0 < pc.mps ∧
     ¬ may ∧
     posted r) ∧
    (let s : State := (((hosted fun p => { p with bme := [] }).setQueue 4 1 { PortQueue.reset with tx := [txRec 2] }).setReg (rPort 4 0x500) 1)
     let f : FoldId := 0; let j : Fin 8 := 1; let r : TxRec := (txRec 2); let l : List TxRec := []
     let now := s.clk.time; let up : Prop := 4 ∈ s.linkUp; let pc := s.pcie
     let used := if pc.frame = now / 8192 then kget pc.used 0 f else 0
     let txq := s.queue 4 (8 * f.val + j.val)
     let may : Prop := pc.vfEnable = true ∧ f.val ∈ pc.bme ∧ f.val ∉ pc.flr
     let posted (x : TxRec) : Prop := x.kind = 1 ∨ x.kind = 4
     s.power.main = true ∧
     up ∧
     s.fm.dsafe = false ∧
     used < s.fshare f ∧
     pc.shareAt ≤ now / 128 ∧
     s.running f = true ∧
     txq.tx = r :: l ∧
     (∀ i < j.val, (s.queue 4 (8 * f.val + i)).tx = []) ∧
     0 < pc.mps ∧
     ¬ may ∧
     ¬ posted r) ∧
    (let s : State := (((hosted id).setQueue 4 1 { PortQueue.reset with tx := [txRec 1] }).setReg (rPort 4 0x500) 1)
     let f : FoldId := 0; let j : Fin 8 := 1; let r : TxRec := (txRec 1); let l : List TxRec := []
     let now := s.clk.time; let up : Prop := 4 ∈ s.linkUp; let pc := s.pcie
     let used := if pc.frame = now / 8192 then kget pc.used 0 f else 0
     let txq := s.queue 4 (8 * f.val + j.val)
     let may : Prop := pc.vfEnable = true ∧ f.val ∈ pc.bme ∧ f.val ∉ pc.flr
     s.power.main = true ∧
     up ∧
     s.fm.dsafe = false ∧
     used < s.fshare f ∧
     pc.shareAt ≤ now / 128 ∧
     s.running f = true ∧
     txq.tx = r :: l ∧
     (∀ i < j.val, (s.queue 4 (8 * f.val + i)).tx = []) ∧
     0 < pc.mps ∧
     may ∧
     r.kind = 1) ∧
    (let s : State := (((hosted id).setQueue 4 1 { PortQueue.reset with tx := [txRec 4] }).setReg (rPort 4 0x500) 1)
     let f : FoldId := 0; let j : Fin 8 := 1; let r : TxRec := (txRec 4); let l : List TxRec := []
     let now := s.clk.time; let up : Prop := 4 ∈ s.linkUp; let pc := s.pcie
     let used := if pc.frame = now / 8192 then kget pc.used 0 f else 0
     let txq := s.queue 4 (8 * f.val + j.val)
     let may : Prop := pc.vfEnable = true ∧ f.val ∈ pc.bme ∧ f.val ∉ pc.flr
     let posted (x : TxRec) : Prop := x.kind = 1 ∨ x.kind = 4
     s.power.main = true ∧
     up ∧
     s.fm.dsafe = false ∧
     used < s.fshare f ∧
     pc.shareAt ≤ now / 128 ∧
     s.running f = true ∧
     txq.tx = r :: l ∧
     (∀ i < j.val, (s.queue 4 (8 * f.val + i)).tx = []) ∧
     0 < pc.mps ∧
     may ∧
     posted r) ∧
    (let s : State := (((hosted id).setQueue 4 1 { PortQueue.reset with tx := [txRec 2] }).setReg (rPort 4 0x500) 1)
     let f : FoldId := 0; let j : Fin 8 := 1; let r : TxRec := (txRec 2); let l : List TxRec := []
     let now := s.clk.time; let up : Prop := 4 ∈ s.linkUp; let pc := s.pcie
     let used := if pc.frame = now / 8192 then kget pc.used 0 f else 0
     let txq := s.queue 4 (8 * f.val + j.val)
     let may : Prop := pc.vfEnable = true ∧ f.val ∈ pc.bme ∧ f.val ∉ pc.flr
     s.power.main = true ∧
     up ∧
     s.fm.dsafe = false ∧
     used < s.fshare f ∧
     pc.shareAt ≤ now / 128 ∧
     s.running f = true ∧
     txq.tx = r :: l ∧
     (∀ i < j.val, (s.queue 4 (8 * f.val + i)).tx = []) ∧
     0 < pc.mps ∧
     may ∧
     r.kind = 2) ∧
    (let s : State := ((hosted id).setReg rFmgrCtl 1); let f : FoldId := 0
     s.power.main = true ∧
     (s.running f = false ∨ (∀ i < 8, (s.queue 4 (8 * f.val + i)).tx = [])) ∧
     bit s.fmgrCtl 0 = true) ∧
    (let s : State := (hosted id); let pc := s.pcie
     s.power.main = true ∧
     pc.undelivered = []) ∧
    (let s : State := (hosted fun p => { p with undelivered := [(0, 1, txRec 1)] })
     let f : FoldId := 0; let r : TxRec := (txRec 1); let q : Nat := 1; let w : List (FoldId × Nat × TxRec) := []
     let pc := s.pcie
     s.power.main = true ∧
     pc.undelivered = (f, q, r) :: w) ∧
    (let s : State := (hosted id); let up : Prop := 4 ∈ s.linkUp
     s.power.main = true ∧
     up) ∧
    (let s : State := (hosted fun p => { p with perst := true })
     let pc := s.pcie
     s.power.main = true ∧
     pc.perst = true) ∧
    (let s : State := (hosted id); let up : Prop := 4 ∈ s.linkUp; let pc := s.pcie
     s.power.main = true ∧
     pc.perst = false ∧
     (up ∨ pc.perst = true)) ∧
    (let s : State := (running (calm 0)); let up : Prop := 4 ∈ s.linkUp; let pc := s.pcie
     s.power.main = true ∧
     ¬ up ∧
     pc.perst = false) ∧
    (let s : State := (atTime (hosted fun p => { p with reads := [⟨0, 3, 0x1000, 0, [⟨5, 8, []⟩]⟩] }) 9999999)
     let f : FoldId := 0; let tag : Nat := 5; let h : HostRead := ⟨0, 3, 0x1000, 0, [⟨5, 8, []⟩]⟩
     let now := s.clk.time; let up : Prop := 4 ∈ s.linkUp; let pc := s.pcie
     let named : List HostRead → Option HostRead := fun x => x.find? fun y => y.parts.any fun p => p.tag == tag
     s.power.main = true ∧
     up ∧
     named pc.reads = some h ∧
     s.queueFold 4 h.queue = some f ∧
     s.running f = true ∧
     now < h.since + pc.timeoutNs) ∧
    (let s : State := (atTime (hosted fun p => { p with reads := [⟨0, 3, 0x1000, 0, [⟨5, 8, []⟩]⟩] }) 10000000)
     let f : FoldId := 0; let tag : Nat := 5; let h : HostRead := ⟨0, 3, 0x1000, 0, [⟨5, 8, []⟩]⟩
     let now := s.clk.time; let up : Prop := 4 ∈ s.linkUp; let pc := s.pcie
     let named : List HostRead → Option HostRead := fun x => x.find? fun y => y.parts.any fun p => p.tag == tag
     s.power.main = true ∧
     up ∧
     named pc.reads = some h ∧
     s.queueFold 4 h.queue = some f ∧
     s.running f = true ∧
     h.since + pc.timeoutNs ≤ now) ∧
    (let s : State := (hosted fun p => { p with reads := [⟨0, 3, 0x1000, 0, [⟨5, 8, []⟩]⟩] })
     let f : FoldId := 0; let tag : Nat := 5; let h : HostRead := ⟨0, 3, 0x1000, 0, [⟨5, 8, []⟩]⟩
     let up : Prop := 4 ∈ s.linkUp; let pc := s.pcie
     let named : List HostRead → Option HostRead := fun x => x.find? fun y => y.parts.any fun p => p.tag == tag
     let k := 2
     s.power.main = true ∧
     up ∧
     named pc.reads = some h ∧
     s.queueFold 4 h.queue = some f ∧
     s.running f = true ∧
     (k = 1 ∨ k = 2)) ∧
    (let s : State := (hosted id); let pc := s.pcie
     s.power.main = true ∧
     pc.range = 0) ∧
    (let s : State := (((hosted fun p => { p with msixOn := [0], msixHeld := [], msix := [(0, ⟨5, 6, true, true⟩)] }).setQueue 4 1 { PortQueue.reset with tx := [txRec 3] }).setReg (rPort 4 0x500) 1)
     let f : FoldId := 0; let v : Fin 16 := 0; let up : Prop := 4 ∈ s.linkUp; let pc := s.pcie
     s.power.main = true ∧
     up ∧
     f.val ∈ pc.msixOn ∧
     f.val ∉ pc.msixHeld ∧
     (∀ u < 16, u ≠ v.val → (s.msixVec f u).pending = false) ∧
     (s.msixVec f v.val).pending = true) ∧
    (let s : State := (((hosted fun p => { p with msixOn := [0], msixHeld := [], msix := [(0, ⟨5, 6, false, false⟩)] }).setQueue 4 1 { PortQueue.reset with tx := [txRec 3] }).setReg (rPort 4 0x500) 1)
     let f : FoldId := 0; let j : Fin 8 := 1; let r : TxRec := (txRec 3); let l : List TxRec := []
     let now := s.clk.time; let up : Prop := 4 ∈ s.linkUp; let pc := s.pcie
     let used := if pc.frame = now / 8192 then kget pc.used 0 f else 0
     let arg := le16 r.hdr 4; let vec := s.msixVec f arg; let txq := s.queue 4 (8 * f.val + j.val)
     let may : Prop := pc.vfEnable = true ∧ f.val ∈ pc.bme ∧ f.val ∉ pc.flr
     s.power.main = true ∧
     up ∧
     s.fm.dsafe = false ∧
     used < s.fshare f ∧
     pc.shareAt ≤ now / 128 ∧
     s.running f = true ∧
     txq.tx = r :: l ∧
     (∀ i < j.val, (s.queue 4 (8 * f.val + i)).tx = []) ∧
     0 < pc.mps ∧
     may ∧
     r.kind = 3 ∧
     f.val ∈ pc.msixOn ∧
     f.val ∉ pc.msixHeld ∧
     vec.masked = false) ∧
    (let s : State := (((hosted fun p => { p with msixOn := [0], msixHeld := [0], msix := [(0, ⟨5, 6, false, false⟩)] }).setQueue 4 1 { PortQueue.reset with tx := [txRec 3] }).setReg (rPort 4 0x500) 1)
     let f : FoldId := 0; let j : Fin 8 := 1; let r : TxRec := (txRec 3); let l : List TxRec := []
     let now := s.clk.time; let up : Prop := 4 ∈ s.linkUp; let pc := s.pcie
     let used := if pc.frame = now / 8192 then kget pc.used 0 f else 0
     let arg := le16 r.hdr 4; let vec := s.msixVec f arg; let txq := s.queue 4 (8 * f.val + j.val)
     let may : Prop := pc.vfEnable = true ∧ f.val ∈ pc.bme ∧ f.val ∉ pc.flr
     s.power.main = true ∧
     up ∧
     s.fm.dsafe = false ∧
     used < s.fshare f ∧
     pc.shareAt ≤ now / 128 ∧
     s.running f = true ∧
     txq.tx = r :: l ∧
     (∀ i < j.val, (s.queue 4 (8 * f.val + i)).tx = []) ∧
     0 < pc.mps ∧
     may ∧
     r.kind = 3 ∧
     f.val ∈ pc.msixOn ∧
     (f.val ∈ pc.msixHeld ∨ vec.masked = true)) :=
  by and_intros <;> decide +kernel

/-- O51, ServiceInterfacesAnswer: states and operands that meet the hypotheses of its clauses. -/
theorem test_service :
    (let s : State := { State.reset with power := { State.reset.power with vddio := false } }
     s.power.vddio = false) ∧
    (let s : State := { State.reset with power := { State.reset.power with vddio := true } }
     let sv := s.service
     s.power.vddio = true ∧
     (sv.alert = 0 ∨ s.power.main = false)) ∧
    (let s : State := { (running (calm 0)) with service := { Service.reset with alert := 2 }, power := { State.reset.power with main := true, vddio := true } }
     let sv := s.service
     s.power.vddio = true ∧
     sv.alert ≠ 0 ∧
     s.power.main = true) ∧
    (let s : State := { State.reset with sec := { State.reset.sec with lc := 3 } }
     let lc := s.sec.lc
     lc = 3) ∧
    (let s : State := State.reset; let lc := s.sec.lc
     lc ≠ 3) ∧
    (let s : State := { State.reset with sec := { State.reset.sec with lc := 5 } }
     let lc := s.sec.lc
     (lc = 3 ∨ lc = 5)) ∧
    (let s : State := State.reset; let lc := s.sec.lc
     lc ≠ 3 ∧
     lc ≠ 5) ∧
    (let s : State := { State.reset with power := { State.reset.power with main := false } }
     (s.power.main = false ∨ s.firmware = false)) ∧
    (let s : State := (running (calm 0)); let f : FoldId := 0; let fo := s.fold f
     s.power.main = true ∧
     s.firmware = true ∧
     fo.mbPend = false) ∧
    (let s : State := (withFold (running (calm 0)) fun f => { f with mbPend := true, mbBytes := [(3, 9)] })
     let f : FoldId := 0; let fo := s.fold f
     s.power.main = true ∧
     s.firmware = true ∧
     fo.mbPend = true ∧
     Memory.wf fo.mbBytes = true) ∧
    (let s : State := { State.reset with power := { State.reset.power with vddio := true } }
     let bs : List Byte := [1]; let pec : Option Byte := (some 9)
     let a : Byte := if bit s.straps 0 then 0x9A else 0x98
     let code := smbusPec ([a, 3, BitVec.ofNat 8 bs.length] ++ bs)
     s.power.vddio = true ∧
     pec ≠ some code) :=
  by and_intros <;> decide +kernel

/-- O52, SafeInputsAndOutputsFollowTheirRules: states and operands that meet the hypotheses of its clauses. -/
theorem test_safeInputs :
    (let s : State := (inputs 0x8000000A ⟨12345, 5, none, none⟩ false false 0 false)
     let i : Fin 64 := 3; let us := s.clk.time / 1000; let cfg := s.reg (0x110100 + 4 * i.val) 0x000003E8
     let filt := cfg.toNat / 2 ^ 18 % 256
     let run (c : InChan) (l : Bool) : Nat := if l = c.sample then min 256 (c.run + 1) else 1
     let sampled (c : InChan) (l : Bool) (c' : InChan) : Prop := c'.sample = l ∧ c'.run = run c l ∧
      c'.value = if filt < run c l then l else c.value
     let u := s.inUnit
     s.power.main = true ∧
     us ≤ u.sampled) ∧
    (let s : State := (inputs 0x8000000A ⟨12344, 5, none, none⟩ false false 0 false)
     let i : Fin 64 := 3; let f : FoldId := 0; let w : Fin 3 := 0; let us := s.clk.time / 1000
     let cfg := s.reg (0x110100 + 4 * i.val) 0x000003E8; let filt := cfg.toNat / 2 ^ 18 % 256
     let limit := cfg.toNat % 2 ^ 18
     let run (c : InChan) (l : Bool) : Nat := if l = c.sample then min 256 (c.run + 1) else 1
     let sampled (c : InChan) (l : Bool) (c' : InChan) : Prop := c'.sample = l ∧ c'.run = run c l ∧
      c'.value = if filt < run c l then l else c.value
     let u := s.inUnit; let net := s.reg (0x110300 + 4 * i.val) 0
     let val : Nat := if w = 0 then (s.sampleOf f i.val).toNat
      else if w = 1 then (if 16 ≤ i.val then 2 ^ 31 else 0) + (cfg.toNat / 2 ^ 30 % 2) * 2 ^ 30 + limit
      else if 16 ≤ i.val then net.toNat / 2 ^ 20 * 2 ^ 16 + net.toNat / 2 ^ 4 % 2 ^ 12 else 0
     s.power.main = true ∧
     u.sampled < us ∧
     i.val < 16 ∧
     bit cfg 30 = false) ∧
    (let s : State := (inputs 0xC000000A ⟨12344, 5, some 12300, none⟩ false false 0 false)
     let i : Fin 64 := 3; let f : FoldId := 0; let la : Half := 8; let w : Fin 3 := 0; let us := s.clk.time / 1000
     let cfg := s.reg (0x110100 + 4 * i.val) 0x000003E8; let valid : Prop := cfg.toNat / 2 ^ 31 = 1
     let owner := cfg.toNat / 2 ^ 26 % 16; let p := s.inPair i.val; let filt := cfg.toNat / 2 ^ 18 % 256
     let limit := cfg.toNat % 2 ^ 18
     let run (c : InChan) (l : Bool) : Nat := if l = c.sample then min 256 (c.run + 1) else 1
     let sampled (c : InChan) (l : Bool) (c' : InChan) : Prop := c'.sample = l ∧ c'.run = run c l ∧
      c'.value = if filt < run c l then l else c.value
     let tpw := (s.reg 0x110004 0x000A0064).toNat % 2 ^ 10; let u := s.inUnit
     let net := s.reg (0x110300 + 4 * i.val) 0
     let val : Nat := if w = 0 then (s.sampleOf f i.val).toNat
      else if w = 1 then (if 16 ≤ i.val then 2 ^ 31 else 0) + (cfg.toNat / 2 ^ 30 % 2) * 2 ^ 30 + limit
      else if 16 ≤ i.val then net.toNat / 2 ^ 20 * 2 ^ 16 + net.toNat / 2 ^ 4 % 2 ^ 12 else 0
     let b := 12300
     s.power.main = true ∧
     u.sampled < us ∧
     i.val < 16 ∧
     bit cfg 30 = true ∧
     valid ∧
     owner = f.val ∧
     p.dfault = false ∧
     u.tpb = none ∧
     u.tpa = some b ∧
     us < b + tpw ∧
     b + tpw ≤ us + 10 ∧
     bit la i.val = true) ∧
    (let s : State := (inputs 0xC000000A ⟨12344, 5, some 12300, none⟩ false false 0 false)
     let i : Fin 64 := 3; let f : FoldId := 0; let w : Fin 3 := 0; let us := s.clk.time / 1000
     let cfg := s.reg (0x110100 + 4 * i.val) 0x000003E8; let valid : Prop := cfg.toNat / 2 ^ 31 = 1
     let owner := cfg.toNat / 2 ^ 26 % 16; let p := s.inPair i.val; let filt := cfg.toNat / 2 ^ 18 % 256
     let limit := cfg.toNat % 2 ^ 18
     let run (c : InChan) (l : Bool) : Nat := if l = c.sample then min 256 (c.run + 1) else 1
     let sampled (c : InChan) (l : Bool) (c' : InChan) : Prop := c'.sample = l ∧ c'.run = run c l ∧
      c'.value = if filt < run c l then l else c.value
     let tpw := (s.reg 0x110004 0x000A0064).toNat % 2 ^ 10; let u := s.inUnit
     let net := s.reg (0x110300 + 4 * i.val) 0
     let val : Nat := if w = 0 then (s.sampleOf f i.val).toNat
      else if w = 1 then (if 16 ≤ i.val then 2 ^ 31 else 0) + (cfg.toNat / 2 ^ 30 % 2) * 2 ^ 30 + limit
      else if 16 ≤ i.val then net.toNat / 2 ^ 20 * 2 ^ 16 + net.toNat / 2 ^ 4 % 2 ^ 12 else 0
     let b := 12300
     s.power.main = true ∧
     u.sampled < us ∧
     i.val < 16 ∧
     bit cfg 30 = true ∧
     valid ∧
     owner = f.val ∧
     p.dfault = false ∧
     u.tpb = none ∧
     u.tpa = some b ∧
     us < b + 2 * tpw) ∧
    (let s : State := (inputs 0xC000000A ⟨12344, 5, none, none⟩ false false 0 false)
     let i : Fin 64 := 3; let f : FoldId := 0; let w : Fin 3 := 0; let us := s.clk.time / 1000
     let cfg := s.reg (0x110100 + 4 * i.val) 0x000003E8; let valid : Prop := cfg.toNat / 2 ^ 31 = 1
     let owner := cfg.toNat / 2 ^ 26 % 16; let p := s.inPair i.val; let filt := cfg.toNat / 2 ^ 18 % 256
     let limit := cfg.toNat % 2 ^ 18
     let run (c : InChan) (l : Bool) : Nat := if l = c.sample then min 256 (c.run + 1) else 1
     let sampled (c : InChan) (l : Bool) (c' : InChan) : Prop := c'.sample = l ∧ c'.run = run c l ∧
      c'.value = if filt < run c l then l else c.value
     let u := s.inUnit; let net := s.reg (0x110300 + 4 * i.val) 0
     let val : Nat := if w = 0 then (s.sampleOf f i.val).toNat
      else if w = 1 then (if 16 ≤ i.val then 2 ^ 31 else 0) + (cfg.toNat / 2 ^ 30 % 2) * 2 ^ 30 + limit
      else if 16 ≤ i.val then net.toNat / 2 ^ 20 * 2 ^ 16 + net.toNat / 2 ^ 4 % 2 ^ 12 else 0
     s.power.main = true ∧
     u.sampled < us ∧
     i.val < 16 ∧
     bit cfg 30 = true ∧
     valid ∧
     owner = f.val ∧
     p.dfault = false ∧
     u.tpb = none ∧
     u.tpa = none) ∧
    (let s : State := (inputs 0x8000000A ⟨5, 1234, none, none⟩ false false 0 false)
     let i : Fin 64 := 3; let us := s.clk.time / 1000; let cfg := s.reg (0x110100 + 4 * i.val) 0x000003E8
     let filt := cfg.toNat / 2 ^ 18 % 256
     let run (c : InChan) (l : Bool) : Nat := if l = c.sample then min 256 (c.run + 1) else 1
     let sampled (c : InChan) (l : Bool) (c' : InChan) : Prop := c'.sample = l ∧ c'.run = run c l ∧
      c'.value = if filt < run c l then l else c.value
     let u := s.inUnit
     let tick : Prop := u.ticked < us / 10 ∧ us / 10 * 10 ≤ u.sampled
     s.power.main = true ∧
     ¬ tick) ∧
    (let s : State := (inputs 0 ⟨12345, 1233, none, none⟩ false false 0 false)
     let i : Fin 64 := 3; let us := s.clk.time / 1000; let cfg := s.reg (0x110100 + 4 * i.val) 0x000003E8
     let valid : Prop := cfg.toNat / 2 ^ 31 = 1; let filt := cfg.toNat / 2 ^ 18 % 256
     let run (c : InChan) (l : Bool) : Nat := if l = c.sample then min 256 (c.run + 1) else 1
     let sampled (c : InChan) (l : Bool) (c' : InChan) : Prop := c'.sample = l ∧ c'.run = run c l ∧
      c'.value = if filt < run c l then l else c.value
     let u := s.inUnit
     let tick : Prop := u.ticked < us / 10 ∧ us / 10 * 10 ≤ u.sampled
     s.power.main = true ∧
     tick ∧
     ¬ valid) ∧
    (let s : State := (inputs 0x8000000A ⟨12345, 1233, none, none⟩ true false 0 true)
     let i : Fin 64 := 3; let us := s.clk.time / 1000; let cfg := s.reg (0x110100 + 4 * i.val) 0x000003E8
     let valid : Prop := cfg.toNat / 2 ^ 31 = 1; let p := s.inPair i.val; let filt := cfg.toNat / 2 ^ 18 % 256
     let run (c : InChan) (l : Bool) : Nat := if l = c.sample then min 256 (c.run + 1) else 1
     let sampled (c : InChan) (l : Bool) (c' : InChan) : Prop := c'.sample = l ∧ c'.run = run c l ∧
      c'.value = if filt < run c l then l else c.value
     let u := s.inUnit
     let tick : Prop := u.ticked < us / 10 ∧ us / 10 * 10 ≤ u.sampled
     s.power.main = true ∧
     tick ∧
     valid ∧
     p.dfault = true) ∧
    (let s : State := (inputs 0x8000000A ⟨12345, 1233, none, none⟩ false false 0 false)
     let i : Fin 64 := 3; let us := s.clk.time / 1000; let cfg := s.reg (0x110100 + 4 * i.val) 0x000003E8
     let valid : Prop := cfg.toNat / 2 ^ 31 = 1; let p := s.inPair i.val; let filt := cfg.toNat / 2 ^ 18 % 256
     let run (c : InChan) (l : Bool) : Nat := if l = c.sample then min 256 (c.run + 1) else 1
     let sampled (c : InChan) (l : Bool) (c' : InChan) : Prop := c'.sample = l ∧ c'.run = run c l ∧
      c'.value = if filt < run c l then l else c.value
     let chan := s.channels i.val; let u := s.inUnit
     let tick : Prop := u.ticked < us / 10 ∧ us / 10 * 10 ≤ u.sampled
     s.power.main = true ∧
     tick ∧
     valid ∧
     p.dfault = false ∧
     chan.1 = chan.2) ∧
    (let s : State := (inputs 0x8000000A ⟨12345, 1233, none, none⟩ true false 8 false)
     let i : Fin 64 := 3; let us := s.clk.time / 1000; let cfg := s.reg (0x110100 + 4 * i.val) 0x000003E8
     let valid : Prop := cfg.toNat / 2 ^ 31 = 1; let p := s.inPair i.val; let filt := cfg.toNat / 2 ^ 18 % 256
     let limit := cfg.toNat % 2 ^ 18
     let run (c : InChan) (l : Bool) : Nat := if l = c.sample then min 256 (c.run + 1) else 1
     let sampled (c : InChan) (l : Bool) (c' : InChan) : Prop := c'.sample = l ∧ c'.run = run c l ∧
      c'.value = if filt < run c l then l else c.value
     let chan := s.channels i.val; let u := s.inUnit
     let tick : Prop := u.ticked < us / 10 ∧ us / 10 * 10 ≤ u.sampled
     s.power.main = true ∧
     tick ∧
     valid ∧
     p.dfault = false ∧
     chan.1 ≠ chan.2 ∧
     p.timer + 1 < limit) ∧
    (let s : State := (inputs 0x8000000A ⟨12345, 1233, none, none⟩ true false 9 false)
     let i : Fin 64 := 3; let f : FoldId := 0; let w : Fin 3 := 0; let us := s.clk.time / 1000
     let cfg := s.reg (0x110100 + 4 * i.val) 0x000003E8; let valid : Prop := cfg.toNat / 2 ^ 31 = 1
     let owner := cfg.toNat / 2 ^ 26 % 16; let p := s.inPair i.val; let filt := cfg.toNat / 2 ^ 18 % 256
     let limit := cfg.toNat % 2 ^ 18
     let run (c : InChan) (l : Bool) : Nat := if l = c.sample then min 256 (c.run + 1) else 1
     let sampled (c : InChan) (l : Bool) (c' : InChan) : Prop := c'.sample = l ∧ c'.run = run c l ∧
      c'.value = if filt < run c l then l else c.value
     let chan := s.channels i.val; let u := s.inUnit
     let tick : Prop := u.ticked < us / 10 ∧ us / 10 * 10 ≤ u.sampled
     let net := s.reg (0x110300 + 4 * i.val) 0
     let val : Nat := if w = 0 then (s.sampleOf f i.val).toNat
      else if w = 1 then (if 16 ≤ i.val then 2 ^ 31 else 0) + (cfg.toNat / 2 ^ 30 % 2) * 2 ^ 30 + limit
      else if 16 ≤ i.val then net.toNat / 2 ^ 20 * 2 ^ 16 + net.toNat / 2 ^ 4 % 2 ^ 12 else 0
     s.power.main = true ∧
     tick ∧
     valid ∧
     owner = f.val ∧
     p.dfault = false ∧
     chan.1 ≠ chan.2 ∧
     limit ≤ p.timer + 1) ∧
    (let s : State := (withFold (inputs 0x8000000A ⟨12345, 1233, none, none⟩ true false 9 false) fun f => { f with phase := .running })
     let i : Fin 64 := 3; let f : FoldId := 0; let w : Fin 3 := 0; let us := s.clk.time / 1000
     let cfg := s.reg (0x110100 + 4 * i.val) 0x000003E8; let valid : Prop := cfg.toNat / 2 ^ 31 = 1
     let owner := cfg.toNat / 2 ^ 26 % 16; let p := s.inPair i.val; let filt := cfg.toNat / 2 ^ 18 % 256
     let limit := cfg.toNat % 2 ^ 18
     let run (c : InChan) (l : Bool) : Nat := if l = c.sample then min 256 (c.run + 1) else 1
     let sampled (c : InChan) (l : Bool) (c' : InChan) : Prop := c'.sample = l ∧ c'.run = run c l ∧
      c'.value = if filt < run c l then l else c.value
     let chan := s.channels i.val; let u := s.inUnit
     let tick : Prop := u.ticked < us / 10 ∧ us / 10 * 10 ≤ u.sampled
     let running (n : Nat) : Prop := s.running (Fin.ofNat 16 n) = true
     let net := s.reg (0x110300 + 4 * i.val) 0
     let val : Nat := if w = 0 then (s.sampleOf f i.val).toNat
      else if w = 1 then (if 16 ≤ i.val then 2 ^ 31 else 0) + (cfg.toNat / 2 ^ 30 % 2) * 2 ^ 30 + limit
      else if 16 ≤ i.val then net.toNat / 2 ^ 20 * 2 ^ 16 + net.toNat / 2 ^ 4 % 2 ^ 12 else 0
     s.power.main = true ∧
     tick ∧
     valid ∧
     owner = f.val ∧
     p.dfault = false ∧
     chan.1 ≠ chan.2 ∧
     limit ≤ p.timer + 1 ∧
     s.running f = true ∧
     (∀ e ∈ (s.fold f).events, e.vec ≠ 0x0F)) ∧
    (let s : State := (inputs 0x8000000A ⟨12345, 1233, none, none⟩ true false 8 false)
     let i : Fin 64 := 3; let cfg := s.reg (0x110100 + 4 * i.val) 0x000003E8; let p := s.inPair i.val
     let limit := cfg.toNat % 2 ^ 18; let chan := s.channels i.val
     s.power.main = true ∧
     (p.dfault = true ∨ chan.1 = chan.2 ∨ p.timer + 1 < limit)) ∧
    (let s : State := (inputs 0x8000000A ⟨12345, 1233, none, none⟩ false false 0 false)
     let u := s.inUnit
     s.power.main = true ∧
     u.tpa = none) ∧
    (let s : State := (inputs 0x8000000A ⟨12345, 1233, some 12300, none⟩ false false 0 false)
     let us := s.clk.time / 1000
     let tpp := (s.reg 0x110004 0x000A0064).toNat / 2 ^ 16 % 2 ^ 10
     let u := s.inUnit; let b := 12300
     s.power.main = true ∧
     u.tpa = some b ∧
     us < b + tpp * 1000) ∧
    (let s : State := ({ inputs 0x8000000A ⟨12345, 1233, some 12300, none⟩ false false 0 false with clk := { State.reset.clk with time := 112300000 } })
     let us := s.clk.time / 1000
     let tpp := (s.reg 0x110004 0x000A0064).toNat / 2 ^ 16 % 2 ^ 10
     let u := s.inUnit; let b := 12300
     s.power.main = true ∧
     u.tpa = some b ∧
     b + tpp * 1000 ≤ us) ∧
    (let s : State := (inputs 0x8000000A ⟨12345, 1233, some 12300, none⟩ false false 0 false)
     let us := s.clk.time / 1000
     let tpp := (s.reg 0x110004 0x000A0064).toNat / 2 ^ 16 % 2 ^ 10
     let u := s.inUnit; let b := 12300
     s.power.main = true ∧
     u.tpa = some b ∧
     (us < b + tpp * 500 ∨ b + tpp * 1000 ≤ us ∨ u.tpb = some (b + tpp * 500))) ∧
    (let s : State := ({ inputs 0x8000000A ⟨12345, 1233, some 12300, none⟩ false false 0 false with clk := { State.reset.clk with time := 62300000 } })
     let us := s.clk.time / 1000
     let tpp := (s.reg 0x110004 0x000A0064).toNat / 2 ^ 16 % 2 ^ 10
     let u := s.inUnit; let b := 12300
     s.power.main = true ∧
     u.tpa = some b ∧
     b + tpp * 500 ≤ us ∧
     us < b + tpp * 1000 ∧
     u.tpb ≠ some (b + tpp * 500)) :=
  by and_intros <;> decide +kernel

/-- O52, SafeInputsAndOutputsFollowTheirRules: states and operands that meet the hypotheses of its clauses. -/
theorem test_safeOutputs :
    (let s : State := (withFold (inputs 0x8000000A ⟨5, 5, none, none⟩ false false 0 false) fun f => { f with windows := [(0, ⟨0xF6, 0xF6, 24, 0, 0xFFF⟩)] })
     let i : Fin 64 := 3; let f : FoldId := 0; let y : YokeId := 0; let w : Fin 3 := 1
     let cfg := s.reg (0x110100 + 4 * i.val) 0x000003E8; let valid : Prop := cfg.toNat / 2 ^ 31 = 1
     let owner := cfg.toNat / 2 ^ 26 % 16; let limit := cfg.toNat % 2 ^ 18
     let a : Word := BitVec.ofNat 32 (0xF6000000 + 16 * i.val + 4 * w.val)
     let c := (s.yoke y).lead; let net := s.reg (0x110300 + 4 * i.val) 0
     let val : Nat := if w = 0 then (s.sampleOf f i.val).toNat
      else if w = 1 then (if 16 ≤ i.val then 2 ^ 31 else 0) + (cfg.toNat / 2 ^ 30 % 2) * 2 ^ 30 + limit
      else if 16 ≤ i.val then net.toNat / 2 ^ 20 * 2 ^ 16 + net.toNat / 2 ^ 4 % 2 ^ 12 else 0
     s.Calm y ∧
     s.foldOf y = some f ∧
     s.check f (spanOf y) c.ring a 4 Need.read = some (.io 0xF6 (16 * i.val + 4 * w.val)) ∧
     valid ∧
     owner = f.val) ∧
    (let s : State := (withFold (inputs 0 ⟨5, 5, none, none⟩ false false 0 false) fun f => { f with windows := [(0, ⟨0xF6, 0xF6, 24, 0, 0xFFF⟩)] })
     let i : Fin 64 := 3; let f : FoldId := 0; let y : YokeId := 0; let w : Fin 3 := 0
     let cfg := s.reg (0x110100 + 4 * i.val) 0x000003E8; let valid : Prop := cfg.toNat / 2 ^ 31 = 1
     let owner := cfg.toNat / 2 ^ 26 % 16; let limit := cfg.toNat % 2 ^ 18
     let a : Word := BitVec.ofNat 32 (0xF6000000 + 16 * i.val + 4 * w.val)
     let c := (s.yoke y).lead; let net := s.reg (0x110300 + 4 * i.val) 0
     let val : Nat := if w = 0 then (s.sampleOf f i.val).toNat
      else if w = 1 then (if 16 ≤ i.val then 2 ^ 31 else 0) + (cfg.toNat / 2 ^ 30 % 2) * 2 ^ 30 + limit
      else if 16 ≤ i.val then net.toNat / 2 ^ 20 * 2 ^ 16 + net.toNat / 2 ^ 4 % 2 ^ 12 else 0
     s.Calm y ∧
     s.foldOf y = some f ∧
     s.check f (spanOf y) c.ring a 4 Need.read = some (.io 0xF6 (16 * i.val + 4 * w.val)) ∧
     (¬ valid ∨ owner ≠ f.val)) ∧
    (let s : State := (outputs { OutPair.reset with soaAt := some 12346 })
     let k : Fin 8 := 0; let us := s.clk.time / 1000; let o := s.outPair k.val; let x := 12346
     s.power.main = true ∧
     o.soaAt = some x ∧
     us < x) ∧
    (let s : State := (outputs { OutPair.reset with soaAt := some 12345 })
     let k : Fin 8 := 0; let us := s.clk.time / 1000; let o := s.outPair k.val; let x := 12345
     s.power.main = true ∧
     o.soaAt = some x ∧
     x ≤ us) ∧
    (let s : State := (outputs OutPair.reset); let k : Fin 8 := 0; let o := s.outPair k.val
     s.power.main = true ∧
     o.soaAt = none) ∧
    (let s : State := (outputs { OutPair.reset with changed := 12324 })
     let i : Fin 64 := 3; let k : Fin 8 := 0; let f : FoldId := 0; let w : Fin 3 := 0; let us := s.clk.time / 1000
     let cfg := s.reg (0x110100 + 4 * i.val) 0x000003E8; let limit := cfg.toNat % 2 ^ 18
     let ocfg := s.reg (0x110500 + 4 * k.val) 0x00C86414; let ovalid : Prop := ocfg.toNat / 2 ^ 31 = 1
     let ofold := ocfg.toNat / 2 ^ 27 % 16; let settle := ocfg.toNat % 2 ^ 7; let o := s.outPair k.val
     let net := s.reg (0x110300 + 4 * i.val) 0
     let val : Nat := if w = 0 then (s.sampleOf f i.val).toNat
      else if w = 1 then (if 16 ≤ i.val then 2 ^ 31 else 0) + (cfg.toNat / 2 ^ 30 % 2) * 2 ^ 30 + limit
      else if 16 ≤ i.val then net.toNat / 2 ^ 20 * 2 ^ 16 + net.toNat / 2 ^ 4 % 2 ^ 12 else 0
     let a0 := true; let b0 := false; let a1 := true; let b1 := false
     let wrong : Prop := (a0 ≠ o.dra ∧ a1 ≠ o.dra) ∨ (b0 ≠ o.drb ∧ b1 ≠ o.drb)
     s.power.main = true ∧
     ovalid ∧
     ofold = f.val ∧
     wrong ∧
     o.ofault = false ∧
     o.changed + settle + 1 ≤ us) ∧
    (let s : State := (outputs { OutPair.reset with changed := 12325 })
     let k : Fin 8 := 0; let us := s.clk.time / 1000; let ocfg := s.reg (0x110500 + 4 * k.val) 0x00C86414
     let settle := ocfg.toNat % 2 ^ 7; let o := s.outPair k.val; let a0 := true; let b0 := false; let a1 := true
     let b1 := false
     let wrong : Prop := (a0 ≠ o.dra ∧ a1 ≠ o.dra) ∨ (b0 ≠ o.drb ∧ b1 ≠ o.drb)
     s.power.main = true ∧
     (¬ wrong ∨ o.ofault = true ∨ us < o.changed + settle + 1)) ∧
    (let s : State := ((outputs OutPair.reset).setReg 0x110500 0x80026414)
     let k : Fin 8 := 0; let us := s.clk.time / 1000; let ocfg := s.reg (0x110500 + 4 * k.val) 0x00C86414
     let ovalid : Prop := ocfg.toNat / 2 ^ 31 = 1; let ofold := ocfg.toNat / 2 ^ 27 % 16
     let live : Prop := s.fm.nsafe = false ∧ s.fm.dsafe = false ∧ (s.fold (Fin.ofNat 16 ofold)).phase ≠ .safe
     let half := us / (ocfg.toNat / 2 ^ 17 % 2 ^ 10 * 500); let o := s.outPair k.val
     s.power.main = true ∧
     ovalid ∧
     live ∧
     o.ofault = false ∧
     o.soaAt = none ∧
     o.test = none ∧
     o.tests < half ∧
     half % 2 = 0) ∧
    (let s : State := ({ (outputs OutPair.reset).setReg 0x110500 0x80026414 with clk := { State.reset.clk with time := 12600000 } })
     let k : Fin 8 := 0; let us := s.clk.time / 1000; let ocfg := s.reg (0x110500 + 4 * k.val) 0x00C86414
     let ovalid : Prop := ocfg.toNat / 2 ^ 31 = 1; let ofold := ocfg.toNat / 2 ^ 27 % 16
     let live : Prop := s.fm.nsafe = false ∧ s.fm.dsafe = false ∧ (s.fold (Fin.ofNat 16 ofold)).phase ≠ .safe
     let half := us / (ocfg.toNat / 2 ^ 17 % 2 ^ 10 * 500); let o := s.outPair k.val
     s.power.main = true ∧
     ovalid ∧
     live ∧
     o.ofault = false ∧
     o.soaAt = none ∧
     o.test = none ∧
     o.tests < half ∧
     half % 2 = 1) ∧
    (let s : State := (outputs { OutPair.reset with ofault := true })
     let k : Fin 8 := 0; let us := s.clk.time / 1000; let ocfg := s.reg (0x110500 + 4 * k.val) 0x00C86414
     let ovalid : Prop := ocfg.toNat / 2 ^ 31 = 1; let ofold := ocfg.toNat / 2 ^ 27 % 16
     let live : Prop := s.fm.nsafe = false ∧ s.fm.dsafe = false ∧ (s.fold (Fin.ofNat 16 ofold)).phase ≠ .safe
     let half := us / (ocfg.toNat / 2 ^ 17 % 2 ^ 10 * 500); let o := s.outPair k.val
     s.power.main = true ∧
     (¬ ovalid ∨ ¬ live ∨ o.ofault = true ∨ o.soaAt ≠ none ∨ o.test ≠ none ∨ half ≤ o.tests)) ∧
    (let s : State := (outputs OutPair.reset); let k : Fin 8 := 0; let o := s.outPair k.val
     s.power.main = true ∧
     o.test = none) ∧
    (let s : State := (outputs { OutPair.reset with test := some ⟨false, 12246⟩ })
     let k : Fin 8 := 0; let us := s.clk.time / 1000; let ocfg := s.reg (0x110500 + 4 * k.val) 0x00C86414
     let o := s.outPair k.val; let x := ⟨false, 12246⟩; let width := ocfg.toNat / 2 ^ 8 % 2 ^ 9
     s.power.main = true ∧
     o.test = some x ∧
     us < x.since + width) ∧
    (let s : State := (outputs { OutPair.reset with test := some ⟨false, 12245⟩ })
     let k : Fin 8 := 0; let us := s.clk.time / 1000; let ocfg := s.reg (0x110500 + 4 * k.val) 0x00C86414
     let o := s.outPair k.val; let x := ⟨false, 12245⟩; let width := ocfg.toNat / 2 ^ 8 % 2 ^ 9
     s.power.main = true ∧
     o.test = some x ∧
     x.since + width ≤ us) ∧
    (let s : State := (withFold (outputs OutPair.reset) fun f => { f with phase := .running })
     let k : Fin 8 := 0; let ocfg := s.reg (0x110500 + 4 * k.val) 0x00C86414
     let ovalid : Prop := ocfg.toNat / 2 ^ 31 = 1; let ofold := ocfg.toNat / 2 ^ 27 % 16
     let running (n : Nat) : Prop := s.running (Fin.ofNat 16 n) = true
     s.power.main = true ∧
     ovalid ∧
     running ofold) ∧
    (let s : State := (outputs OutPair.reset); let k : Fin 8 := 0; let v : Word := 0
     let ocfg := s.reg (0x110500 + 4 * k.val) 0x00C86414; let ovalid : Prop := ocfg.toNat / 2 ^ 31 = 1
     let ofold := ocfg.toNat / 2 ^ 27 % 16
     let running (n : Nat) : Prop := s.running (Fin.ofNat 16 n) = true
     let otp := v.toNat / 2 ^ 17 % 2 ^ 10; let otw := v.toNat / 2 ^ 8 % 2 ^ 9; let ost := v.toNat % 2 ^ 7
     let oOk : Prop := ost < otw ∧ otw ≤ 500 ∧ 10 ≤ otp ∧ otp ≤ 1000 ∧ 1 ≤ ost ∧ ost ≤ 100
     s.power.main = true ∧
     ¬ (ovalid ∧ running ofold) ∧
     s.firmware = true ∧
     ¬ oOk) ∧
    (let s : State := (outputs OutPair.reset); let k : Fin 8 := 0; let v : Word := 0x80C86414
     let ocfg := s.reg (0x110500 + 4 * k.val) 0x00C86414; let ovalid : Prop := ocfg.toNat / 2 ^ 31 = 1
     let ofold := ocfg.toNat / 2 ^ 27 % 16
     let running (n : Nat) : Prop := s.running (Fin.ofNat 16 n) = true
     let otp := v.toNat / 2 ^ 17 % 2 ^ 10; let otw := v.toNat / 2 ^ 8 % 2 ^ 9; let ost := v.toNat % 2 ^ 7
     let oOk : Prop := ost < otw ∧ otw ≤ 500 ∧ 10 ≤ otp ∧ otp ≤ 1000 ∧ 1 ≤ ost ∧ ost ≤ 100
     s.power.main = true ∧
     ¬ (ovalid ∧ running ofold) ∧
     s.firmware = true ∧
     oOk) ∧
    (let s : State := (withFold (inputs 0x8000000A ⟨5, 5, none, none⟩ false false 0 false) fun f => { f with phase := .running })
     let i : Fin 64 := 3; let cfg := s.reg (0x110100 + 4 * i.val) 0x000003E8
     let valid : Prop := cfg.toNat / 2 ^ 31 = 1; let owner := cfg.toNat / 2 ^ 26 % 16
     let running (n : Nat) : Prop := s.running (Fin.ofNat 16 n) = true
     s.power.main = true ∧
     valid ∧
     running owner) ∧
    (let s : State := (inputs 0x8000000A ⟨5, 5, none, none⟩ false false 0 false)
     let i : Fin 64 := 3; let v : Word := 9; let cfg := s.reg (0x110100 + 4 * i.val) 0x000003E8
     let valid : Prop := cfg.toNat / 2 ^ 31 = 1; let owner := cfg.toNat / 2 ^ 26 % 16
     let running (n : Nat) : Prop := s.running (Fin.ofNat 16 n) = true
     s.power.main = true ∧
     s.firmware = true ∧
     ¬ (valid ∧ running owner) ∧
     (v.toNat % 2 ^ 18 < 10 ∨ 200000 < v.toNat % 2 ^ 18)) ∧
    (let s : State := (inputs 0x8000000A ⟨5, 5, none, none⟩ false false 0 false)
     let i : Fin 64 := 3; let v : Word := 200001; let cfg := s.reg (0x110100 + 4 * i.val) 0x000003E8
     let valid : Prop := cfg.toNat / 2 ^ 31 = 1; let owner := cfg.toNat / 2 ^ 26 % 16
     let running (n : Nat) : Prop := s.running (Fin.ofNat 16 n) = true
     s.power.main = true ∧
     s.firmware = true ∧
     ¬ (valid ∧ running owner) ∧
     (v.toNat % 2 ^ 18 < 10 ∨ 200000 < v.toNat % 2 ^ 18)) ∧
    (let s : State := (inputs 0x8000000A ⟨5, 5, none, none⟩ false false 0 false)
     let i : Fin 64 := 3; let v : Word := 200000; let cfg := s.reg (0x110100 + 4 * i.val) 0x000003E8
     let valid : Prop := cfg.toNat / 2 ^ 31 = 1; let owner := cfg.toNat / 2 ^ 26 % 16
     let running (n : Nat) : Prop := s.running (Fin.ofNat 16 n) = true
     s.power.main = true ∧
     s.firmware = true ∧
     ¬ (valid ∧ running owner) ∧
     10 ≤ v.toNat % 2 ^ 18 ∧
     v.toNat % 2 ^ 18 ≤ 200000 ∧
     (bit v 31 = false ∨ ¬ valid)) ∧
    (let s : State := (inputs 0x8000000A ⟨5, 5, none, none⟩ false false 0 false)
     let i : Fin 64 := 3; let v : Word := 0x8000000A; let cfg := s.reg (0x110100 + 4 * i.val) 0x000003E8
     let valid : Prop := cfg.toNat / 2 ^ 31 = 1; let owner := cfg.toNat / 2 ^ 26 % 16
     let running (n : Nat) : Prop := s.running (Fin.ofNat 16 n) = true
     s.power.main = true ∧
     s.firmware = true ∧
     ¬ (valid ∧ running owner) ∧
     10 ≤ v.toNat % 2 ^ 18 ∧
     v.toNat % 2 ^ 18 ≤ 200000 ∧
     bit v 31 = true ∧
     valid) ∧
    (let s : State := (inputs 0x8000000A ⟨5, 5, none, none⟩ false false 0 false)
     let i : Fin 64 := 3; let f : FoldId := 0; let w : Fin 3 := 0; let cfg := s.reg (0x110100 + 4 * i.val) 0x000003E8
     let valid : Prop := cfg.toNat / 2 ^ 31 = 1; let owner := cfg.toNat / 2 ^ 26 % 16; let limit := cfg.toNat % 2 ^ 18
     let running (n : Nat) : Prop := s.running (Fin.ofNat 16 n) = true
     let net := s.reg (0x110300 + 4 * i.val) 0
     let val : Nat := if w = 0 then (s.sampleOf f i.val).toNat
      else if w = 1 then (if 16 ≤ i.val then 2 ^ 31 else 0) + (cfg.toNat / 2 ^ 30 % 2) * 2 ^ 30 + limit
      else if 16 ≤ i.val then net.toNat / 2 ^ 20 * 2 ^ 16 + net.toNat / 2 ^ 4 % 2 ^ 12 else 0
     s.power.main = true ∧
     s.firmware = true ∧
     ¬ (valid ∧ running owner) ∧
     i.val < 16) ∧
    (let s : State := (safeIo 0 0 ⟨5, 5, none, none⟩ ⟨⟨false, 3, false⟩, ⟨false, 3, false⟩, 0, false⟩ OutPair.reset)
     let i : Fin 64 := 16; let f : FoldId := 0; let v : Word := 0x00100010; let w : Fin 3 := 0
     let cfg := s.reg (0x110100 + 4 * i.val) 0x000003E8; let valid : Prop := cfg.toNat / 2 ^ 31 = 1
     let owner := cfg.toNat / 2 ^ 26 % 16; let limit := cfg.toNat % 2 ^ 18
     let running (n : Nat) : Prop := s.running (Fin.ofNat 16 n) = true
     let net := s.reg (0x110300 + 4 * i.val) 0
     let val : Nat := if w = 0 then (s.sampleOf f i.val).toNat
      else if w = 1 then (if 16 ≤ i.val then 2 ^ 31 else 0) + (cfg.toNat / 2 ^ 30 % 2) * 2 ^ 30 + limit
      else if 16 ≤ i.val then net.toNat / 2 ^ 20 * 2 ^ 16 + net.toNat / 2 ^ 4 % 2 ^ 12 else 0
     s.power.main = true ∧
     s.firmware = true ∧
     ¬ (valid ∧ running owner) ∧
     16 ≤ i.val ∧
     v.toNat / 2 ^ 20 = v.toNat / 2 ^ 4 % 2 ^ 12) ∧
    (let s : State := (safeIo 0 0 ⟨5, 5, none, none⟩ ⟨⟨false, 3, false⟩, ⟨false, 3, false⟩, 0, false⟩ OutPair.reset)
     let i : Fin 64 := 16; let f : FoldId := 0; let v : Word := 0x00100020; let w : Fin 3 := 0
     let cfg := s.reg (0x110100 + 4 * i.val) 0x000003E8; let valid : Prop := cfg.toNat / 2 ^ 31 = 1
     let owner := cfg.toNat / 2 ^ 26 % 16; let limit := cfg.toNat % 2 ^ 18
     let running (n : Nat) : Prop := s.running (Fin.ofNat 16 n) = true
     let net := s.reg (0x110300 + 4 * i.val) 0
     let val : Nat := if w = 0 then (s.sampleOf f i.val).toNat
      else if w = 1 then (if 16 ≤ i.val then 2 ^ 31 else 0) + (cfg.toNat / 2 ^ 30 % 2) * 2 ^ 30 + limit
      else if 16 ≤ i.val then net.toNat / 2 ^ 20 * 2 ^ 16 + net.toNat / 2 ^ 4 % 2 ^ 12 else 0
     s.power.main = true ∧
     s.firmware = true ∧
     ¬ (valid ∧ running owner) ∧
     16 ≤ i.val ∧
     v.toNat / 2 ^ 20 ≠ v.toNat / 2 ^ 4 % 2 ^ 12) :=
  ⟨⟨calm_of (by decide +kernel) rfl, by decide +kernel⟩,
    ⟨calm_of (by decide +kernel) rfl, by decide +kernel⟩,
    by and_intros <;> decide +kernel⟩

/-- O53, ClocksHeatStandbyAndTallyFollowTheirRules: states and operands that meet the hypotheses of its clauses. -/
theorem test_clocksHeatAndTally :
    (let s : State := (withFold (bellAt PwrMgr.reset id) fun f => { f with phase := .running, ien := 2 })
     let f : FoldId := 0; let bt := s.clk.bt; let tickp := (s.reg 0x080010 0x20).toNat % 2 ^ 16
     (∀ y ∈ s.foldYokes f, ∀ w, (s.yoke y).run ≠ .waiting w) ∧
     s.power.main = true ∧
     bt % tickp = 0 ∧
     bt ≠ s.power.tickBt ∧
     s.running f = true ∧
     bit (s.fold f).ien 1 = true) ∧
    (let s : State := (bellAt PwrMgr.reset id); let b : ClockBranch := .fabric; let n : Nat := 816; let e := 800
     s.power.main = true ∧
     s.expectedCount b = some e ∧
     (n ≤ e ∧ (e - n) * 50 ≤ e ∨ e ≤ n ∧ (n - e) * 50 ≤ e)) ∧
    (let s : State := (bellAt PwrMgr.reset id); let b : ClockBranch := .fabric; let n : Nat := 817; let e := 800
     s.power.main = true ∧
     s.expectedCount b = some e ∧
     (e < (e - n) * 50 ∨ e < (n - e) * 50)) ∧
    (let s : State := (withSpan (bellAt PwrMgr.reset id) fun p => { p with power := .rest true })
     let b : ClockBranch := (.span 0)
     s.power.main = true ∧
     s.expectedCount b = none) ∧
    (let s : State := (bellAt PwrMgr.reset id)
     s.power.main = true ∧
     s.power.mainen = true) ∧
    (let s : State := (bellAt PwrMgr.reset fun p => { p with mainen := false })
     s.power.main = true ∧
     s.power.mainen = false) ∧
    (let s : State := (bellAt PwrMgr.reset fun p => { p with tickBt := 77 })
     let bt := s.clk.bt; let tickp := (s.reg 0x080010 0x20).toNat % 2 ^ 16
     s.power.main = true ∧
     (bt % tickp ≠ 0 ∨ bt = s.power.tickBt)) ∧
    (let s : State := (bellAt PwrMgr.reset id); let bt := s.clk.bt
     let alarm := (s.reg 0x080008 0).toNat + (s.reg 0x08000C 0).toNat % 2 ^ 16 * 2 ^ 32
     let rings : Prop := bit (s.reg 0x080010 0x20) 16 = true ∧ bt = alarm ∧ bt ≠ s.power.alarmBt
     s.power.main = true ∧
     rings) ∧
    (let s : State := (bellAt PwrMgr.reset fun p => { p with alarmBt := 77 })
     let bt := s.clk.bt
     let alarm := (s.reg 0x080008 0).toNat + (s.reg 0x08000C 0).toNat % 2 ^ 16 * 2 ^ 32
     let rings : Prop := bit (s.reg 0x080010 0x20) 16 = true ∧ bt = alarm ∧ bt ≠ s.power.alarmBt
     s.power.main = true ∧
     ¬ rings) ∧
    (let s : State := (bellAt PwrMgr.reset id)
     s.power.main = true ∧
     s.power.standby = none) ∧
    (let s : State := (bellAt PwrMgr.reset fun p => { p with standby := some 70 })
     s.power.main = true ∧
     s.power.standby ≠ none) ∧
    (let s : State := (bellAt { PwrMgr.reset with tempAt := 10 } id)
     s.power.main = true ∧
     s.clk.time / 10000 ≤ s.pwr.tempAt) ∧
    (let s : State := (bellAt { PwrMgr.reset with tempAt := 9, hot := [(5, 3)] } id)
     let vals : List Half := (List.replicate 72 1001); let i : Nat := 5
     let lim : Int := ((s.reg 0x090000 0x697D).toNat % 2 ^ 7 : Nat) * 8
     let new : Int := (vals.getD i 0).toInt; let hot := kget s.pwr.hot 0 i
     s.power.main = true ∧
     s.pwr.tempAt < s.clk.time / 10000 ∧
     i < 72 ∧
     lim < new ∧
     hot = 3) ∧
    (let s : State := (bellAt { PwrMgr.reset with tempAt := 9 } id)
     let vals : List Half := (List.replicate 72 920); let i : Nat := 5
     let lim : Int := ((s.reg 0x090000 0x697D).toNat % 2 ^ 7 : Nat) * 8
     let old : Int := ((s.reg (0x090200 + 4 * i) 0).setWidth 16 : Half).toInt
     let new : Int := (vals.getD i 0).toInt
     s.power.main = true ∧
     s.pwr.tempAt < s.clk.time / 10000 ∧
     i < 72 ∧
     old < lim - 80 ∧
     lim - 80 ≤ new) ∧
    (let s : State := (bellAt PwrMgr.reset id); let v : Word := 0
     s.power.main = true ∧
     s.firmware = true ∧
     (v ≠ 0x0000D5B7 ∨ (∃ x, s.running x = true))) ∧
    (let s : State := (running (bellAt PwrMgr.reset id)); let v : Word := 0xD5B7
     s.power.main = true ∧
     s.firmware = true ∧
     (v ≠ 0x0000D5B7 ∨ (∃ x, s.running x = true))) ∧
    (let s : State := (bellAt PwrMgr.reset id); let v : Word := 0xD5B7
     s.power.main = true ∧
     s.firmware = true ∧
     v = 0x0000D5B7 ∧
     (∀ x, s.running x = false)) ∧
    (let s : State := (bellAt PwrMgr.reset fun p => { p with standby := some 75 })
     let bt := s.clk.bt
     let woken (t : State) (k : Nat) : Prop := bit (t.reg 0x080018 0) k = true ∧
      (s.power.standby ≠ none → t.power.mainen = true ∧ t.power.woken = true)
     let x := 75
     s.power.main = true ∧
     s.power.standby = some x ∧
     (bt < x + 3 ∨ s.power.woken = true)) ∧
    (let s : State := (bellAt PwrMgr.reset fun p => { p with standby := some 74 })
     let bt := s.clk.bt
     let woken (t : State) (k : Nat) : Prop := bit (t.reg 0x080018 0) k = true ∧
      (s.power.standby ≠ none → t.power.mainen = true ∧ t.power.woken = true)
     let x := 74
     s.power.main = true ∧
     s.power.standby = some x ∧
     x + 3 ≤ bt ∧
     s.power.woken = false) ∧
    (let s : State := (bellAt PwrMgr.reset id)
     s.power.main = true ∧
     s.power.standby = none) ∧
    (let s : State := (bellAt PwrMgr.reset id); let v : Word := 0x0A0B0C0D; let sp : SpanId := 0
     let slack (w : Word) (j : Nat) : Nat := w.toNat / 2 ^ (8 * j) % 2 ^ 8
     let low (t : State) (k : Nat) : Nat := kget t.pwr.floor 0 (8 * sp.val + k)
     let poor (j : Nat) : Prop := slack v j < 10; let fourth : Prop := ∃ j < 4, poor j ∧ low s j = 3
     s.power.main = true ∧
     ((s.span sp).power = .run ∨ s.power.bist = true) ∧
     ¬ fourth) ∧
    (let s : State := (bellAt { PwrMgr.reset with floor := [(43, 3)] } id)
     let v : Word := 0x090B0C0D; let sp : SpanId := 5
     let slack (w : Word) (j : Nat) : Nat := w.toNat / 2 ^ (8 * j) % 2 ^ 8
     let low (t : State) (k : Nat) : Nat := kget t.pwr.floor 0 (8 * sp.val + k)
     let poor (j : Nat) : Prop := slack v j < 10; let fourth : Prop := ∃ j < 4, poor j ∧ low s j = 3
     s.power.main = true ∧
     ((s.span sp).power = .run ∨ s.power.bist = true) ∧
     fourth) ∧
    (let s : State := (bellAt PwrMgr.reset id); let v : Word := 0x090B0C0D; let sp : SpanId := 0
     let slack (w : Word) (j : Nat) : Nat := w.toNat / 2 ^ (8 * j) % 2 ^ 8
     let low (t : State) (k : Nat) : Nat := kget t.pwr.floor 0 (8 * sp.val + k)
     let poor (j : Nat) : Prop := slack v j < 10; let fourth : Prop := ∃ j < 4, poor j ∧ low s j = 3
     s.power.main = true ∧
     ((s.span sp).power = .run ∨ s.power.bist = true) ∧
     ¬ fourth) ∧
    (let s : State := (bellAt PwrMgr.reset id); let m : BitVec 4 := 2; let g : BitVec 4 := 1
     s.power.main = true ∧
     g.toNat < 2 ∧
     2 ≤ m.toNat) ∧
    (let s : State := (bellAt { PwrMgr.reset with floor := [(44, 3)] } id)
     let sp : SpanId := 5; let m : BitVec 4 := 1
     let low (t : State) (k : Nat) : Nat := kget t.pwr.floor 0 (8 * sp.val + k)
     s.power.main = true ∧
     m.toNat < 2 ∧
     low s 4 = 3) ∧
    (let s : State := (bellAt PwrMgr.reset id); let sp : SpanId := 0; let m : BitVec 4 := 1
     let low (t : State) (k : Nat) : Nat := kget t.pwr.floor 0 (8 * sp.val + k)
     s.power.main = true ∧
     m.toNat < 2 ∧
     low s 4 ≠ 3) ∧
    (let s : State := (bellAt PwrMgr.reset id); let sp : SpanId := 0
     s.power.main = true ∧
     (s.span sp).power = .run ∧
     s.memErr = []) ∧
    (let s : State := (withSpan (bellAt PwrMgr.reset id) fun p => { p with power := .rest true })
     let sp : SpanId := 0
     s.power.main = true ∧
     (s.span sp).power ≠ .run) ∧
    (let s : State := (bellAt PwrMgr.reset id); let v : Word := 0; let sp : SpanId := 0
     s.power.main = true ∧
     (bit v 0 = false ∨ s.spanFold sp ≠ none)) ∧
    (let s : State := (bellAt PwrMgr.reset id); let v : Word := 1; let sp : SpanId := 0
     s.power.main = true ∧
     (bit v 0 = false ∨ s.spanFold sp ≠ none)) ∧
    (let s : State := (bellAt PwrMgr.reset id); let v : Word := 1; let sp : SpanId := 5
     s.power.main = true ∧
     s.firmware = true ∧
     bit v 0 = true ∧
     s.spanFold sp = none) ∧
    (let s : State := (withSpan (bellAt PwrMgr.reset fun p => { p with bist := false }) fun p => { p with power := .rest true })
     let sp : SpanId := 0
     s.power.main = true ∧
     (s.span sp).power ≠ .run ∧
     s.power.bist = false) ∧
    (let s : State := { bellAt PwrMgr.reset id with memErr := [(bandWord 0 3, (3, 0))] }
     let sp : SpanId := 0
     let band : Nat := if 920 ≤ s.temp sp.val then 0 else if 760 ≤ s.temp sp.val then 1 else if 560 ≤ s.temp sp.val then 2 else 3
     s.power.main = true ∧
     (s.span sp).power = .run ∧
     s.cwEcc (bandWord sp band) = .uncorrectable) ∧
    (let s : State := (bellAt PwrMgr.reset id)
     s.power.main = true ∧
     s.firmware = true) :=
  ⟨⟨fun y _ => noWaits (by decide +kernel) y, by decide +kernel⟩,
    by and_intros <;> decide +kernel⟩

/-- O54, SelfTestAndResetsFollowTheirRules: states and operands that meet the hypotheses of its clauses. -/
theorem test_selfTest :
    (let s : State := (tested id Bist.reset); let y : YokeId := 0; let k := s.yoke y
     let free : Prop := (∃ q, k.bist = .requested q ∧ (k.run = .idle ∨ k.pend = none ∧ q ≤ k.interval)) ∧ k.stalled = false ∧
      k.unchecked = false ∧ k.inWait = false
     let p := s.power
     ¬ free ∧
     p.main = true) ∧
    (let s : State := (tested (fun k => { k with run := .idle, bist := .requested 3 }) Bist.reset)
     let y : YokeId := 0; let n : Nat := 0; let k := s.yoke y
     let free : Prop := (∃ q, k.bist = .requested q ∧ (k.run = .idle ∨ k.pend = none ∧ q ≤ k.interval)) ∧ k.stalled = false ∧
      k.unchecked = false ∧ k.inWait = false
     let p := s.power
     free ∧
     p.main = true ∧
     k.run = .idle ∧
     (s.span (spanOf y)).freeSlot 0 272 = some n) ∧
    (let s : State := (tested (fun k => { k with bist := .requested 3 }) Bist.reset)
     let y : YokeId := 0; let n : Nat := 0; let k := s.yoke y
     let free : Prop := (∃ q, k.bist = .requested q ∧ (k.run = .idle ∨ k.pend = none ∧ q ≤ k.interval)) ∧ k.stalled = false ∧
      k.unchecked = false ∧ k.inWait = false
     let p := s.power
     free ∧
     p.main = true ∧
     k.run ≠ .idle ∧
     (s.span (spanOf y)).freeSlot 0 272 = some n) ∧
    (let s : State := (tested id Bist.reset); let y : YokeId := 0; let k := s.yoke y
     let testing (z : YokeId) : Prop := (s.yoke z).bist ≠ .none; let p := s.power
     (∀ x, k.bist ≠ .testing x) ∧
     p.main = true) ∧
    (let s : State := (tested (fun k => { k with stalled := true }) Bist.reset)
     let y : YokeId := 0; let v : Word := 0; let k := s.yoke y
     let testing (z : YokeId) : Prop := (s.yoke z).bist ≠ .none
     let names : Prop := v.toNat / 2 ^ 8 % 2 ^ 6 = y.val / 16 ∧ v.toNat % 2 ^ 4 = y.val % 16
     let p := s.power
     p.main = true ∧
     names ∧
     (k.stalled = true ∨ testing y)) ∧
    (let s : State := (tested (fun k => { k with bist := .testing 5 }) Bist.reset)
     let y : YokeId := 0; let v : Word := 0; let k := s.yoke y
     let testing (z : YokeId) : Prop := (s.yoke z).bist ≠ .none
     let names : Prop := v.toNat / 2 ^ 8 % 2 ^ 6 = y.val / 16 ∧ v.toNat % 2 ^ 4 = y.val % 16
     let p := s.power
     p.main = true ∧
     names ∧
     (k.stalled = true ∨ testing y)) ∧
    (let s : State := (tested id Bist.reset); let y : YokeId := 0; let v : Word := 0; let k := s.yoke y
     let testing (z : YokeId) : Prop := (s.yoke z).bist ≠ .none
     let inSpan := ((List.finRange 16).filter fun j => decide ((s.yoke (yokeAt (spanOf y) j)).bist ≠ .none)).length
     let inAll := ((List.finRange 1024).filter fun z => decide ((s.yoke z).bist ≠ .none)).length
     let names : Prop := v.toNat / 2 ^ 8 % 2 ^ 6 = y.val / 16 ∧ v.toNat % 2 ^ 4 = y.val % 16
     let p := s.power
     p.main = true ∧
     s.firmware = true ∧
     names ∧
     k.stalled = false ∧
     ¬ testing y ∧
     inSpan < 2 ∧
     inAll < 32) ∧
    (let s : State := (((tested id Bist.reset).setYoke 1 { Yoke.reset with bist := .testing 5 }).setYoke 2 { Yoke.reset with bist := .requested 5 })
     let y : YokeId := 0; let v : Word := 0; let k := s.yoke y
     let testing (z : YokeId) : Prop := (s.yoke z).bist ≠ .none
     let inSpan := ((List.finRange 16).filter fun j => decide ((s.yoke (yokeAt (spanOf y) j)).bist ≠ .none)).length
     let inAll := ((List.finRange 1024).filter fun z => decide ((s.yoke z).bist ≠ .none)).length
     let names : Prop := v.toNat / 2 ^ 8 % 2 ^ 6 = y.val / 16 ∧ v.toNat % 2 ^ 4 = y.val % 16
     let p := s.power
     p.main = true ∧
     s.firmware = true ∧
     names ∧
     k.stalled = false ∧
     ¬ testing y ∧
     (2 ≤ inSpan ∨ 32 ≤ inAll)) ∧
    (let s : State := (withSpan (tested (fun k => { k with bist := .requested 3 }) Bist.reset) fun p => { p with slots := (List.range 272).map fun i => (i, savedTask) })
     let y : YokeId := 0; let p := s.power
     p.main = true ∧
     (s.span (spanOf y)).freeSlot 0 272 = none) ∧
    (let s : State := (tested (fun k => { k with bist := .testing 760001 }) Bist.reset)
     let y : YokeId := 0; let k := s.yoke y; let testing (z : YokeId) : Prop := (s.yoke z).bist ≠ .none
     let p := s.power; let x := 760001
     p.main = true ∧
     k.bist = .testing x ∧
     s.clk.fc < x + 2240000) ∧
    (let s : State := (tested (fun k => { k with bist := .testing 760000 }) Bist.reset)
     let y : YokeId := 0; let pass : Bool := true; let k := s.yoke y
     let testing (z : YokeId) : Prop := (s.yoke z).bist ≠ .none; let p := s.power; let x := 760000
     p.main = true ∧
     k.bist = .testing x ∧
     x + 2240000 ≤ s.clk.fc ∧
     pass = true) ∧
    (let s : State := (tested (fun k => { k with bist := .testing 760000 }) Bist.reset)
     let y : YokeId := 0; let pass : Bool := false; let k := s.yoke y
     let testing (z : YokeId) : Prop := (s.yoke z).bist ≠ .none; let p := s.power; let x := 760000
     p.main = true ∧
     k.bist = .testing x ∧
     x + 2240000 ≤ s.clk.fc ∧
     pass = false) ∧
    (let s : State := (tested id Bist.reset); let v : Word := 0x80000500; let p := s.power
     p.main = true ∧
     s.firmware = true ∧
     s.bist.mem = [] ∧
     s.testFold (v &&& 0x80003F1F) = none) ∧
    (let s : State := (tested id ⟨[⟨0x100, 0, some 2935809⟩], none, none⟩)
     let unit : Word := 0x100
     let length := if bit unit 31 then 128384 else 64192
     let p := s.power; let w := 0; let x := 2935809
     p.main = true ∧
     s.bist.mem = [⟨unit, w, some x⟩] ∧
     s.clk.fc < x + length) ∧
    (let s : State := (tested id ⟨[⟨0x100, 0, some 2935808⟩], none, none⟩)
     let unit : Word := 0x100; let pass : Bool := true
     let length := if bit unit 31 then 128384 else 64192
     let p := s.power; let w := 0; let x := 2935808
     p.main = true ∧
     s.bist.mem = [⟨unit, w, some x⟩] ∧
     x + length ≤ s.clk.fc ∧
     pass = true) ∧
    (let s : State := (tested id ⟨[⟨0x80000104, 0, some 2871616⟩], none, none⟩)
     let unit : Word := 0x80000104; let pass : Bool := false
     let length := if bit unit 31 then 128384 else 64192
     let p := s.power; let w := 0; let x := 2871616
     p.main = true ∧
     s.bist.mem = [⟨unit, w, some x⟩] ∧
     x + length ≤ s.clk.fc ∧
     pass = false) ∧
    (let s : State := (tested id Bist.reset); let p := s.power
     p.main = true ∧
     s.bist.mem = []) ∧
    (let s : State := ({ (tested id Bist.reset) with power := { State.reset.power with main := true, bist := false } })
     let p := s.power
     p.main = true ∧
     p.bist = false) ∧
    (let s : State := (powered fun p => { p with main := true, bist := true })
     let p := s.power
     p.main = true ∧
     p.bist = true ∧
     Memory.wf s.mem = true ∧
     (∀ x, s.reg (rMemstat x) memstatReset = memstatReset) ∧
     (∀ x, s.spanHeld x = false)) ∧
    (let s : State := (tested id Bist.reset); let p := s.power
     p.main = true ∧
     s.firmware = true ∧
     s.bist.outvoted = none ∧
     (∀ x, s.bist.drover = some x → x.2 + 96000000 ≤ s.clk.fc)) ∧
    (let s : State := (tested id ⟨[], some (1, 5), none⟩); let p := s.power
     p.main = true ∧
     ((∃ x, s.bist.drover = some x ∧ s.clk.fc < x.2 + 96000000) ∨ s.bist.outvoted ≠ none)) ∧
    (let s : State := (tested id ⟨[], none, some 1⟩); let p := s.power
     p.main = true ∧
     ((∃ x, s.bist.drover = some x ∧ s.clk.fc < x.2 + 96000000) ∨ s.bist.outvoted ≠ none)) :=
  ⟨⟨(by rintro ⟨⟨q, h, _⟩, _⟩; cases (show YokeBist.none = .requested q from h)), by decide +kernel⟩,
    ⟨⟨⟨3, rfl, by decide +kernel⟩, rfl, rfl, rfl⟩, by decide +kernel⟩,
    ⟨⟨⟨3, rfl, by decide +kernel⟩, rfl, rfl, rfl⟩, by decide +kernel⟩,
    ⟨(by intro x h; cases (show YokeBist.none = .testing x from h)), by decide +kernel⟩,
    by and_intros <;> decide +kernel⟩

/-- O54, SelfTestAndResetsFollowTheirRules: states and operands that meet the hypotheses of its clauses. -/
theorem test_resets :
    (let s : State := ({ (tested id Bist.reset) with power := { State.reset.power with main := true } })
     let p := s.power
     Memory.wf s.mem = true ∧
     p.main = true) ∧
    (let s : State := (powered fun p => { p with nreset := true })
     let p := s.power
     p.nreset = true) ∧
    (let s : State := (powered fun p => { p with nreset := false })
     let p := s.power
     p.nreset = false) ∧
    (let s : State := (powered fun p => { p with nreset := true })
     let p := s.power
     (p.main = true ∨ p.mainen = false ∨ p.standby ≠ none ∧ p.woken = false)) ∧
    (let s : State := (powered fun p => { p with main := false, nreset := false, mainen := true, rails := false })
     let p := s.power; let fresh : Prop := p.rails = false ∨ p.standby ≠ none
     Memory.wf s.mem = true ∧
     p.main = false ∧
     p.nreset = false ∧
     p.mainen = true ∧
     (p.standby = none ∨ p.woken = true) ∧
     fresh) ∧
    (let s : State := (powered fun p => { p with main := false, nreset := false, mainen := true, rails := true })
     let p := s.power; let fresh : Prop := p.rails = false ∨ p.standby ≠ none
     Memory.wf s.mem = true ∧
     p.main = false ∧
     p.nreset = false ∧
     p.mainen = true ∧
     (p.standby = none ∨ p.woken = true) ∧
     ¬ fresh) ∧
    (let s : State := (powered fun p => { p with main := false, nreset := false, mainen := true, c6 := true })
     let p := s.power
     Memory.wf s.mem = true ∧
     p.main = false ∧
     p.nreset = false ∧
     p.mainen = true ∧
     (p.standby = none ∨ p.woken = true) ∧
     p.c6 = true) ∧
    (let s : State := (powered fun p => { p with main := false, nreset := false, mainen := true, c6 := false, standby := some 5, woken := true })
     let p := s.power
     Memory.wf s.mem = true ∧
     p.main = false ∧
     p.nreset = false ∧
     p.mainen = true ∧
     (p.standby = none ∨ p.woken = true) ∧
     p.c6 = false ∧
     p.standby ≠ none) ∧
    (let s : State := (powered fun p => { p with vaon := true, crystal := false, dead := false })
     let p := s.power
     p.vaon = true ∧
     p.crystal = false ∧
     p.dead = false) ∧
    (let s : State := (powered fun p => { p with vaon := false })
     let p := s.power
     (p.vaon = false ∨ p.crystal = true)) ∧
    (let s : State := (powered fun p => { p with dead := true })
     let p := s.power
     p.dead = true) ∧
    (let s : State := (powered fun p => { p with vaon := true, crystal := false })
     let p := s.power
     p.vaon = true ∧
     p.crystal = false) ∧
    (let s : State := (powered fun p => { p with main := false, nreset := true, mainen := true })
     let p := s.power
     p.main = false ∧
     p.nreset = true ∧
     p.mainen = true ∧
     (p.standby = none ∨ p.woken = true)) :=
  by and_intros <;> decide +kernel

/-- O55, SecurityCommandsFollowTheirRules: states and operands that meet the hypotheses of its clauses. -/
theorem test_security :
    (let s : State := (secure id); let v : Word := 0
     s.power.main = true ∧
     Memory.wf s.mem = true ∧
     s.firmware = true ∧
     bit v 0 = false) ∧
    (let s : State := ((secure fun c => { c with lc := 2 }).setReg 0x120020 0x1CF)
     let v : Word := 1; let c := s.sec; let lc := c.lc.toNat; let a := (s.reg 0x120020 0).toNat % 2 ^ 11
     let d : Byte := BitVec.ofNat 8 (s.reg 0x120024 0).toNat
     let may : Prop := (a < 3 ∧ lc = 0 ∧ d.toNat < 2 ∧ s.debugger = true) ∨ (a = 3 ∧ lc ≤ 2) ∨ (a = 4 ∧ lc ≠ 5) ∨ (8 ≤ a ∧ a < 0x10 ∧ lc = 0) ∨
      (0x10 ≤ a ∧ a < 0x20 ∧ lc ≠ 5) ∨ (0x20 ≤ a ∧ a < 0x1D0 ∧ (lc = 1 ∨ lc = 2)) ∨ (0x1D0 ≤ a ∧ a < 0x220 ∧ lc = 0)
     s.power.main = true ∧
     Memory.wf s.mem = true ∧
     s.firmware = true ∧
     bit v 0 = true ∧
     may) ∧
    (let s : State := ((secure fun c => { c with lc := 0 }).setReg 0x120020 0x1CF)
     let v : Word := 1; let c := s.sec; let lc := c.lc.toNat; let a := (s.reg 0x120020 0).toNat % 2 ^ 11
     let d : Byte := BitVec.ofNat 8 (s.reg 0x120024 0).toNat
     let may : Prop := (a < 3 ∧ lc = 0 ∧ d.toNat < 2 ∧ s.debugger = true) ∨ (a = 3 ∧ lc ≤ 2) ∨ (a = 4 ∧ lc ≠ 5) ∨ (8 ≤ a ∧ a < 0x10 ∧ lc = 0) ∨
      (0x10 ≤ a ∧ a < 0x20 ∧ lc ≠ 5) ∨ (0x20 ≤ a ∧ a < 0x1D0 ∧ (lc = 1 ∨ lc = 2)) ∨ (0x1D0 ≤ a ∧ a < 0x220 ∧ lc = 0)
     s.power.main = true ∧
     Memory.wf s.mem = true ∧
     s.firmware = true ∧
     bit v 0 = true ∧
     ¬ may) ∧
    (let s : State := (secure fun c => { c with lc := 1 })
     let v : Word := 0x2C1A5; let c := s.sec; let otp (t : State) (j : Nat) : Byte := kget t.sec.otp 0 j
     let lc := c.lc.toNat; let target := v.toNat / 2 ^ 16 % 2 ^ 3
     let slots (base : Nat) : Prop := ∃ j < 4, s.slotProgrammed base j = true ∧ s.slotRevoked base j = false
     let path : Prop := (target = 2 ∧ lc = 1) ∨
      (target = 3 ∧ (lc = 1 ∨ lc = 2) ∧ (otp s 3).getLsbD 1 = false ∧ slots 0x020 ∧ slots 0x0E0) ∨ (target = 5 ∧ lc ≠ 5)
     let idle : Prop := ∀ f, s.running f = false
     s.power.main = true ∧
     Memory.wf s.mem = true ∧
     s.firmware = true ∧
     v.toNat % 2 ^ 16 = 0xC1A5 ∧
     path ∧
     idle ∧
     c.pend = false) ∧
    (let s : State := (secure fun c => { c with lc := 2, otp := [(0x20, 5), (0xE0, 3)] })
     let v : Word := 0x3C1A5; let c := s.sec; let otp (t : State) (j : Nat) : Byte := kget t.sec.otp 0 j
     let lc := c.lc.toNat; let target := v.toNat / 2 ^ 16 % 2 ^ 3
     let slots (base : Nat) : Prop := ∃ j < 4, s.slotProgrammed base j = true ∧ s.slotRevoked base j = false
     let path : Prop := (target = 2 ∧ lc = 1) ∨
      (target = 3 ∧ (lc = 1 ∨ lc = 2) ∧ (otp s 3).getLsbD 1 = false ∧ slots 0x020 ∧ slots 0x0E0) ∨ (target = 5 ∧ lc ≠ 5)
     let idle : Prop := ∀ f, s.running f = false
     s.power.main = true ∧
     Memory.wf s.mem = true ∧
     s.firmware = true ∧
     v.toNat % 2 ^ 16 = 0xC1A5 ∧
     path ∧
     idle ∧
     c.pend = false) ∧
    (let s : State := (running (secure fun c => { c with lc := 1 }))
     let v : Word := 0x2C1A5; let c := s.sec; let otp (t : State) (j : Nat) : Byte := kget t.sec.otp 0 j
     let lc := c.lc.toNat; let target := v.toNat / 2 ^ 16 % 2 ^ 3
     let slots (base : Nat) : Prop := ∃ j < 4, s.slotProgrammed base j = true ∧ s.slotRevoked base j = false
     let path : Prop := (target = 2 ∧ lc = 1) ∨
      (target = 3 ∧ (lc = 1 ∨ lc = 2) ∧ (otp s 3).getLsbD 1 = false ∧ slots 0x020 ∧ slots 0x0E0) ∨ (target = 5 ∧ lc ≠ 5)
     let idle : Prop := ∀ f, s.running f = false
     s.power.main = true ∧
     Memory.wf s.mem = true ∧
     s.firmware = true ∧
     (v.toNat % 2 ^ 16 ≠ 0xC1A5 ∨ ¬ path ∨ ¬ idle ∨ c.pend = true)) ∧
    (let s : State := (secure id); let c := s.sec
     s.power.main = true ∧
     Memory.wf s.mem = true ∧
     c.mbusy = false) ∧
    (let s : State := (secure fun c => { c with mbusy := true })
     let c := s.sec
     let im := s.droverRead c.mver (max 512 (min (imageField (s.droverRead c.mver 12) 8 4) 98304))
     s.power.main = true ∧
     Memory.wf s.mem = true ∧
     c.mbusy = true ∧
     headerShape im 0x4D464248 = false) ∧
    (let s : State := ({ (secure fun c => { c with mbusy := true }) with mem := [(0x0600000000, 0x48), (0x0600000001, 0x42), (0x0600000002, 0x46), (0x0600000003, 0x4D), (0x0600000004, 1)] })
     let c := s.sec
     let im := s.droverRead c.mver (max 512 (min (imageField (s.droverRead c.mver 12) 8 4) 98304))
     s.power.main = true ∧
     Memory.wf s.mem = true ∧
     c.mbusy = true ∧
     headerShape im 0x4D464248 = true ∧
     manifestRanges im = false) ∧
    (let s : State := ({ (secure fun c => { c with mbusy := true }) with mem := [(0x0600000000, 0x48), (0x0600000001, 0x42), (0x0600000002, 0x46), (0x0600000003, 0x4D), (0x0600000004, 1), (0x0600000009, 0x12), (0x060000000C, 1), (0x0600000011, 2), (0x0600000019, 2)] })
     let c := s.sec
     let im := s.droverRead c.mver (max 512 (min (imageField (s.droverRead c.mver 12) 8 4) 98304))
     s.power.main = true ∧
     Memory.wf s.mem = true ∧
     c.mbusy = true ∧
     headerShape im 0x4D464248 = true ∧
     manifestRanges im = true) ∧
    (let s : State := (secure fun c => { c with fwsvn := 64, lc := 3 })
     let n : BitVec 7 := 64; let c := s.sec; let lc := c.lc.toNat
     s.power.main = true ∧
     Memory.wf s.mem = true ∧
     s.firmware = true ∧
     n.toNat ≤ c.fwsvn ∧
     lc ≠ 5 ∧
     n.toNat ≤ 64) ∧
    (let s : State := (secure fun c => { c with lc := 3 })
     let n : BitVec 7 := 1; let c := s.sec; let lc := c.lc.toNat
     s.power.main = true ∧
     Memory.wf s.mem = true ∧
     s.firmware = true ∧
     (c.fwsvn < n.toNat ∨ lc = 5)) ∧
    (let s : State := (secure fun c => { c with mnsvn := 64, lc := 3 })
     let n : BitVec 7 := 64; let c := s.sec; let lc := c.lc.toNat
     s.power.main = true ∧
     Memory.wf s.mem = true ∧
     s.firmware = true ∧
     n.toNat ≤ c.mnsvn ∧
     lc ≠ 5 ∧
     n.toNat ≤ 64) ∧
    (let s : State := (secure fun c => { c with lc := 5 })
     let n : BitVec 7 := 0; let c := s.sec; let lc := c.lc.toNat
     s.power.main = true ∧
     Memory.wf s.mem = true ∧
     s.firmware = true ∧
     (c.mnsvn < n.toNat ∨ lc = 5)) ∧
    (let s : State := (secure fun c => { c with rngFail := true })
     let c := s.sec
     s.power.main = true ∧
     Memory.wf s.mem = true ∧
     c.rngFail = true) ∧
    (let s : State := (secure id); let c := s.sec
     s.power.main = true ∧
     Memory.wf s.mem = true ∧
     c.rngFail = false) ∧
    (let s : State := (secure fun c => { c with lockBt := 301 })
     let c := s.sec; let idle : Prop := ∀ f, s.running f = false; let bt := s.clk.bt
     s.power.main = true ∧
     Memory.wf s.mem = true ∧
     (¬ idle ∨ c.rngFail = true ∨ bt < c.lockBt)) ∧
    (let s : State := (secure fun c => { c with lockBt := 300 })
     let c := s.sec; let idle : Prop := ∀ f, s.running f = false; let bt := s.clk.bt
     s.power.main = true ∧
     Memory.wf s.mem = true ∧
     s.firmware = true ∧
     idle ∧
     c.rngFail = false ∧
     c.lockBt ≤ bt) ∧
    (let s : State := (secure id); let v : Word := 0; let c := s.sec; let lc := c.lc.toNat
     s.power.main = true ∧
     Memory.wf s.mem = true ∧
     (v.toNat % 2 ^ 16 ≠ 0x0BE4 ∨ lc ≠ 3)) ∧
    (let s : State := (secure fun c => { c with lc := 3 })
     let v : Word := 0xBE4; let c := s.sec; let lc := c.lc.toNat; let idle : Prop := ∀ f, s.running f = false
     let bt := s.clk.bt
     let fresh : Prop := ∃ b, c.chalAt = some b ∧ bt ≤ b + 19660800
     let key := s.respBytes 0 97
     let opens : Prop := fresh ∧ idle ∧ (s.otpBytes 0x1A0 48).any (· ≠ 0) = true ∧ sha384 key = s.otpBytes 0x1A0 48 ∧
      signatureOk key (sha384 c.chal) (s.respBytes 0x64 96) = true
     s.power.main = true ∧
     Memory.wf s.mem = true ∧
     s.firmware = true ∧
     v.toNat % 2 ^ 16 = 0x0BE4 ∧
     lc = 3 ∧
     ¬ opens) ∧
    (let s : State := ({ secure fun c => { c with lc := 3 } with power := { State.reset.power with main := false, vaon := false } })
     let kind : Fin 4 := 0
     let asleep : Prop := s.power.standby ≠ none ∨ s.power.rails = false
     (s.power.vaon = false ∨ asleep ∧ kind.val = 2)) ∧
    (let s : State := (secure id)
     let asleep : Prop := s.power.standby ≠ none ∨ s.power.rails = false
     s.power.vaon = true ∧
     ¬ asleep ∧
     Memory.wf s.mem = true) ∧
    (let s : State := ({ secure id with power := { State.reset.power with main := false, vaon := true, rails := false } })
     let kind : Fin 4 := 0
     let asleep : Prop := s.power.standby ≠ none ∨ s.power.rails = false
     s.power.vaon = true ∧
     asleep ∧
     kind.val ≠ 2 ∧
     Memory.wf s.mem = true) ∧
    (let s : State := (secure fun c => { c with bootstat := 0xC0000000 })
     s.power.main = true ∧
     Memory.wf s.mem = true ∧
     s.firmware = false) :=
  by and_intros <;> decide +kernel

/-- O55, SecurityCommandsFollowTheirRules: states and operands that meet the hypotheses of its clauses. -/
theorem test_opening :
    let s : State := (secure openable); let v : Word := 0xBE4; let c := s.sec; let lc := c.lc.toNat
    let idle : Prop := ∀ f, s.running f = false; let bt := s.clk.bt
    let fresh : Prop := ∃ b, c.chalAt = some b ∧ bt ≤ b + 19660800
    let key := s.respBytes 0 97
    let opens : Prop := fresh ∧ idle ∧ (s.otpBytes 0x1A0 48).any (· ≠ 0) = true ∧ sha384 key = s.otpBytes 0x1A0 48 ∧
     signatureOk key (sha384 c.chal) (s.respBytes 0x64 96) = true
    s.power.main = true ∧
    Memory.wf s.mem = true ∧
    s.firmware = true ∧
    v.toNat % 2 ^ 16 = 0x0BE4 ∧
    lc = 3 ∧
    opens :=
  by and_intros <;> decide +kernel

/-- O56, CryptoJobsRunInOrder: states and operands that meet the hypotheses of its clauses. -/
theorem test_jobs :
    (let s : State := (secure id); let v : Word := 0; let ws : List (Word × List Byte) := []
     let flips : List (BitVec 18 × CwFlip) := []
     let u := (flips.foldl (fun s x => s.flip (0x0060000000 + x.1.toNat) x.2) (s.patch ws)).setReg 0x12020C v
     (u.jobAtHead = none ∨ ∃ x, u.jobAtHead = some x ∧ x.valid = true) ∧
     s.power.main = true ∧
     Memory.wf s.mem = true ∧
     s.firmware = true) ∧
    (let s : State := (jobbed (jobOf 4) 0 []); let v : Word := 1; let ws : List (Word × List Byte) := []
     let flips : List (BitVec 18 × CwFlip) := []
     let u := (flips.foldl (fun s x => s.flip (0x0060000000 + x.1.toNat) x.2) (s.patch ws)).setReg 0x12020C v
     (u.jobAtHead = none ∨ ∃ x, u.jobAtHead = some x ∧ x.valid = true) ∧
     s.power.main = true ∧
     Memory.wf s.mem = true ∧
     s.firmware = true) ∧
    (let s : State := (jobbed (jobOf 0) 0 []); let v : Word := 1; let ws : List (Word × List Byte) := []
     let flips : List (BitVec 18 × CwFlip) := []
     let u := (flips.foldl (fun s x => s.flip (0x0060000000 + x.1.toNat) x.2) (s.patch ws)).setReg 0x12020C v
     let x := (jobOf 0)
     s.power.main = true ∧
     Memory.wf s.mem = true ∧
     s.firmware = true ∧
     u.jobAtHead = some x ∧
     x.valid = false) ∧
    (let s : State := (secure id)
     s.power.main = true ∧
     Memory.wf s.mem = true ∧
     s.jobAtHead = none) ∧
    (let s : State := (jobbed (jobOf 3) 0 []); let j : Job := (jobOf 3)
     s.power.main = true ∧
     Memory.wf s.mem = true ∧
     s.jobAtHead = some j ∧
     (j.op ≠ 4 ∨ j.valid = false) ∧
     (j.op ≠ 6 ∨ j.valid = false)) ∧
    (let s : State := ({ jobbed ⟨0, 4, 0, 0x80000000, 0x80, 8, 0, 0x100, 0x140, 0⟩ 0x200 [] with memErr := [(0x0300000000 / 8, (3, 0))] })
     let j : Job := ⟨0, 4, 0, 0x80000000, 0x80, 8, 0, 0x100, 0x140, 0⟩
     let n := 2 ^ ((s.reg 0x120204 0).toNat % 2 ^ 4); let next := (s.sec.cqHead + 1) % n
     s.power.main = true ∧
     Memory.wf s.mem = true ∧
     s.jobAtHead = some j ∧
     j.valid = true ∧
     next = (s.reg 0x12020C 0).toNat % n ∧
     j.op = 4 ∧
     (∃ w ∈ j.words, s.cwEcc w = .uncorrectable)) ∧
    (let s : State := (jobbed (jobOf 1) 0 []); let j : Job := (jobOf 1)
     let n := 2 ^ ((s.reg 0x120204 0).toNat % 2 ^ 4); let next := (s.sec.cqHead + 1) % n
     s.power.main = true ∧
     Memory.wf s.mem = true ∧
     s.jobAtHead = some j ∧
     j.valid = true ∧
     next = (s.reg 0x12020C 0).toNat % n ∧
     s.memErr = [] ∧
     j.op = 1) ∧
    (let s : State := (jobbed (jobOf 2) 0 []); let j : Job := (jobOf 2)
     let n := 2 ^ ((s.reg 0x120204 0).toNat % 2 ^ 4); let next := (s.sec.cqHead + 1) % n
     s.power.main = true ∧
     Memory.wf s.mem = true ∧
     s.jobAtHead = some j ∧
     j.valid = true ∧
     next = (s.reg 0x12020C 0).toNat % n ∧
     s.memErr = [] ∧
     j.op = 2) ∧
    (let s : State := (jobbed (jobOf 3) 0 []); let j : Job := (jobOf 3)
     let n := 2 ^ ((s.reg 0x120204 0).toNat % 2 ^ 4); let next := (s.sec.cqHead + 1) % n
     s.power.main = true ∧
     Memory.wf s.mem = true ∧
     s.jobAtHead = some j ∧
     j.valid = true ∧
     next = (s.reg 0x12020C 0).toNat % n ∧
     s.memErr = [] ∧
     j.op = 3) ∧
    (let s : State := (jobbed (jobOf 4) 0 []); let j : Job := (jobOf 4)
     let n := 2 ^ ((s.reg 0x120204 0).toNat % 2 ^ 4); let next := (s.sec.cqHead + 1) % n
     s.power.main = true ∧
     Memory.wf s.mem = true ∧
     s.jobAtHead = some j ∧
     j.valid = true ∧
     next = (s.reg 0x12020C 0).toNat % n ∧
     s.memErr = [] ∧
     j.op = 4) ∧
    (let s : State := (jobbed (jobOf 5) 0 []); let j : Job := (jobOf 5)
     let n := 2 ^ ((s.reg 0x120204 0).toNat % 2 ^ 4); let next := (s.sec.cqHead + 1) % n
     s.power.main = true ∧
     Memory.wf s.mem = true ∧
     s.jobAtHead = some j ∧
     j.valid = true ∧
     next = (s.reg 0x12020C 0).toNat % n ∧
     s.memErr = [] ∧
     j.op = 5) ∧
    (let s : State := (jobbed (jobOf 6) 0 []); let j : Job := (jobOf 6)
     let n := 2 ^ ((s.reg 0x120204 0).toNat % 2 ^ 4); let next := (s.sec.cqHead + 1) % n
     s.power.main = true ∧
     Memory.wf s.mem = true ∧
     s.jobAtHead = some j ∧
     j.valid = true ∧
     next = (s.reg 0x12020C 0).toNat % n ∧
     s.memErr = [] ∧
     j.op = 6) ∧
    (let s : State := (jobbed (jobOf 7) 0 []); let j : Job := (jobOf 7)
     let n := 2 ^ ((s.reg 0x120204 0).toNat % 2 ^ 4); let next := (s.sec.cqHead + 1) % n
     s.power.main = true ∧
     Memory.wf s.mem = true ∧
     s.jobAtHead = some j ∧
     j.valid = true ∧
     next = (s.reg 0x12020C 0).toNat % n ∧
     s.memErr = [] ∧
     j.op = 7 ∧
     s.sec.rngFail = false ∧
     s.sec.lc ≠ lcOpened) ∧
    (let s : State := ({ jobbed (jobOf 7) 0 [] with sec := { State.reset.sec with rngFail := true } })
     let j : Job := (jobOf 7); let n := 2 ^ ((s.reg 0x120204 0).toNat % 2 ^ 4); let next := (s.sec.cqHead + 1) % n
     s.power.main = true ∧
     Memory.wf s.mem = true ∧
     s.jobAtHead = some j ∧
     j.valid = true ∧
     next = (s.reg 0x12020C 0).toNat % n ∧
     s.memErr = [] ∧
     j.op = 7 ∧
     s.sec.rngFail = true) ∧
    (let s : State := ({ secure id with sec := { (secure id).sec with bootstat := 0xC0000000 } })
     s.power.main = true ∧
     Memory.wf s.mem = true ∧
     s.firmware = false) :=
  ⟨⟨Or.inl (by decide +kernel), by decide +kernel⟩,
    ⟨Or.inr ⟨jobOf 4, by decide +kernel, by decide +kernel⟩, by decide +kernel⟩,
    by and_intros <;> decide +kernel⟩

/-- O57, AStepRunsTheCommandInFront: states and operands that meet the hypotheses of its clauses. -/
theorem test_step :
    (let s : State := ({ calm 0 with pending := [.fence 0 false, .yield 0] })
     let c : Instr := (.fence 0 false); let rest : List Instr := [.yield 0]
     s.pending = c :: rest) ∧
    (let s : State := calm 0
     s.pending = []) :=
  by and_intros <;> decide +kernel

/-- O60, EveryStepKeepsTheInvariant: states and operands that meet the hypotheses of its clauses. -/
theorem test_invariant : ∃ t, step { calm 0 with pending := [.pllLockLoss 0] } = .next t ∧ State.Sound { calm 0 with pending := [.pllLockLoss 0] } :=
  ⟨_, rfl, by decide +kernel, by decide +kernel, by decide +kernel, by decide +kernel, by decide +kernel, by decide +kernel⟩

/-- O27, FloatArithmeticIsExactThenRoundedOnce: states and operands that meet the hypotheses of its clauses. -/
theorem test_floatArithmetic (h : Obligations.FloatArithmeticIsExactThenRoundedOnce) :
    (∃ k : Nat, RoundsTo 0 false ((3 : Nat) * (2 : ℚ) ^ ((-1 : Int) - max ((-1 : Int) + Nat.log2 3 + 1 - FFmt.d.prec) FFmt.d.qmin)) k) := by
  obtain ⟨k, hk, _⟩ := h.1 FFmt.d 0 false false 3 (-1) (Or.inl rfl) (by decide)
  exact ⟨k, hk⟩

/-- O27, FloatArithmeticIsExactThenRoundedOnce: states and operands that meet the hypotheses of its clauses. -/
theorem test_exact : ratOf (.fin false 3 (-1)) + ratOf (.fin true 1 0) ≠ 0 ∧ ratOf (.fin false 3 (-1)) - ratOf (.fin true 1 0) ≠ 0 ∧
   ratOf (.fin false 3 (-1)) * ratOf (.fin true 1 0) ≠ 0 ∧ ratOf (.fin false 3 (-1)) * ratOf (.fin true 1 0) + ratOf (.fin false 1 0) ≠ 0 := by
  norm_num [ratOf]

/-! Each ill-formed command below is refused by the check on its operand. -/

/-- 71 readings where R569 gives 72 sensors. -/
theorem test_wfTempReading : (Instr.tempReading (List.replicate 71 0)).wf = false := by decide +kernel

/-- 63 bytes of a mailbox of 64. -/
theorem test_wfSmbusMailbox : (Instr.smbusMailboxWrite (List.replicate 63 0) none).wf = false := by decide +kernel

/-- Scrubbing beyond the end of a group of 1 MiB. -/
theorem test_wfPatrolScrub : (Instr.patrolScrub .group 0 0x100000 .none .none).wf = false := by decide +kernel

/-- A write-back beyond the end of a scratchpad of 2 MiB. -/
theorem test_wfEccWriteback : (Instr.eccWriteback .scratch 0 0x200000).wf = false := by decide +kernel

/-- A seventeenth hop. -/
theorem test_wfFabricCrcRetry : (Instr.fabricCrcRetry (.span 0) .flash 16 .linkEvent 0).wf = false := by decide +kernel

/-- Eleven bytes where a decoder sees twelve. -/
theorem test_wfIllegalOpcode : (Instr.illegalOpcode 0 (List.replicate 11 0)).wf = false ∧
    (Instr.reservedOpcode 0 (List.replicate 11 0)).wf = false := by decide +kernel

/-- A flit with no payload. -/
theorem test_wfTwinFlit : (Instr.twinFlitReceive flit 0).wf = false := by decide +kernel

/-- Fifteen modes where R480 sends sixteen. -/
theorem test_wfHeartbeat : (Instr.twinHeartbeatReceive { beat with modes := List.replicate 15 0 }).wf = false ∧
    (Instr.twinLinkUp { beat with modes := List.replicate 15 0 }).wf = false := by decide +kernel

/-- A page of 4,095 bytes. -/
theorem test_wfTwinState : (Instr.twinStateReceive 0 (.page .scratch 0 0 (List.replicate 4095 0))).wf = false := by decide +kernel

/-- A frame shorter than its header. -/
theorem test_wfEthFrame : (Instr.ethFrameReceive 0 (List.replicate 13 0)).wf = false := by decide +kernel

/-- A write beyond the memory window of a function. -/
theorem test_wfPcieWrite : (Instr.pcieWriteReceive 0 0x10000 [] true).wf = false := by decide +kernel

/-- A Max_Payload_Size that is no setting of Table 14.6. -/
theorem test_wfPcieConfig : (Instr.pcieConfigRequest (.maxPayload 100) true).wf = false := by decide +kernel

/-- A struck word that lies neither in the vault nor in the retained area. -/
theorem test_wfCryptoSubmit : (Instr.cryptoSubmit 0 [] [(0x8000, CwFlip.none)]).wf = false := by decide +kernel

/-- A result of 249 bytes. -/
theorem test_wfServiceTurn : (Instr.serviceTurn 0 (some (0, List.replicate 249 0, [])) none).wf = false := by decide +kernel

/-- A unit word with a reserved bit. -/
theorem test_wfSelfTest : (Instr.startupBistDone false [] [0x20]).wf = false ∧ (Instr.memoryBistDone 0x20 true).wf = false := by
  decide +kernel

/-- An image longer than any manifest. -/
theorem test_wfManifest : (Instr.manifestVerify 0 (List.replicate 98305 0)).wf = false := by
  rw [Instr.wf, List.length_replicate]; rfl

/-! One step each, with results from the spec's examples or a published standard. -/

/-- The decoder reads `bs`, followed by zeros, as an instruction of `n` bytes. -/
def reads (bs : List Byte) (n : Nat) : Bool := dreselDecode (bs ++ List.replicate 12 0) == .ok n

/-- The encodings of Table 4.16. -/
theorem test_exampleEncodings :
    reads [0x01, 0x12] 2 ∧ reads [0x1E, 0x50, 0xFE, 0xFF] 4 ∧ reads [0x44, 0x46, 0x10, 0x00] 4 ∧ reads [0x52, 0x7F, 0x40, 0x2A, 0x01] 5 ∧
    reads [0xF1, 0x44, 0x2F, 0x40, 0x00, 0x00, 0x82] 7 ∧ reads [0x61, 0x01, 0xFA, 0xFF] 4 ∧ reads [0xF5, 0x5D, 0x23] 3 ∧
    reads [0x95, 0x12, 0x3A] 3 ∧ reads [0xF2, 0x01, 0x46] 3 ∧
    reads [0xF0, 0x82, 0x5A, 0x3F, 0x01, 0x50, 0x34, 0x12, 0x00, 0x01, 0x00, 0x00] 12 := by decide +kernel

/-- The 13 bytes of the example after Table 4.16 are illegal. -/
theorem test_thirteenBytes :
    dreselDecode [0xF3, 0xF0, 0x82, 0x5A, 0x3F, 0x01, 0x50, 0x34, 0x12, 0x00, 0x01, 0x00, 0x00] = .illegal := by decide +kernel

/-- The leading core of yoke 0 after a command. -/
def leadAfter (c : Instr) (s : State) : Core :=
  match exec c s with
  | .next t => (t.yoke 0).lead
  | _ => (s.yoke 0).lead

/-- 0xFFFFFFF0 + 0x20 carries and does not overflow (Table 6.1). -/
theorem test_addWraps : (leadAfter (.add 0 false .once 7 (.imm32 0x20)) (calm 0)).g[7] = 0x10 ∧
    (leadAfter (.add 0 false .once 7 (.imm32 0x20)) (calm 0)).st = 4 := by decide +kernel

/-- 1 - 2 borrows: N and C (Table 6.1). -/
theorem test_subBorrows : (leadAfter (.sub 0 false .once 1 (.reg 2)) (calm 0)).g[1] = 0xFFFFFFFF ∧
    (leadAfter (.sub 0 false .once 1 (.reg 2)) (calm 0)).st = 6 := by decide +kernel

/-- Yoke 0 before the last row of Table 6.4: -1,000 / 7. -/
def dividing : State := withCore (calm 0) fun c => { c with g := ((c.g.set 4 0x8E).set 5 0x80000005).set 6 7, st := c.st ||| 8 }

/-- That row gives -142 and -6, with N and C. -/
theorem test_signedDivision : (leadAfter (.dfix 0 4 6) dividing).g[4] = 0xFFFFFF72 ∧
    (leadAfter (.dfix 0 4 6) dividing).g[5] = 0xFFFFFFFA ∧ (leadAfter (.dfix 0 4 6) dividing).st = 6 := by decide +kernel

/-- 1.0 + 2.0 = 3.0 and the square root of 2.0 to nearest (IEEE 754-2019). -/
theorem test_floatSum :
    fadd FFmt.d 0 false (fdecode FFmt.d 0x3FF0000000000000) (fdecode FFmt.d 0x4000000000000000) = ⟨0x4008000000000000, 0⟩ ∧
    (fsqrt FFmt.d 0 false (fdecode FFmt.d 0x4000000000000000)).bits = 0x3FF6A09E667F3BCD := by decide +kernel

/-- The check values of CRC-32 and CRC-32C over "123456789". -/
theorem test_crcs : ethFcs [49, 50, 51, 52, 53, 54, 55, 56, 57] = [0x26, 0x39, 0xF4, 0xCB] ∧
    crc32c [49, 50, 51, 52, 53, 54, 55, 56, 57] = 0xE3069283 := by decide +kernel

/-- The hash of "abc" (FIPS 180-4). -/
theorem test_sha384 : sha384 [0x61, 0x62, 0x63] = [
    0xCB, 0x00, 0x75, 0x3F, 0x45, 0xA3, 0x5E, 0x8B, 0xB5, 0xA0, 0x3D, 0x69, 0x9A, 0xC6, 0x50, 0x07, 0x27,
    0x2C, 0x32, 0xAB, 0x0E, 0xDE, 0xD1, 0x63, 0x1A, 0x8B, 0x60, 0x5A, 0x43, 0xFF, 0x5B, 0xED, 0x80, 0x86,
    0x07, 0x2B, 0xA1, 0xE7, 0xCC, 0x23, 0x58, 0xBA, 0xEC, 0xA1, 0x34, 0xC8, 0x25, 0xA7] := by decide +kernel

/-- An idle step is one fc. -/
theorem test_idleStep : ∃ t, step State.reset = .next t ∧ t.clk.fc = 1 := ⟨_, rfl, by decide +kernel⟩

end Sys2Proof.Tests
end

section
/-! PROOFS of the family of chapter 4: short addresses through BK (R138) and control transfers (R154, R155, R164, R199). First
what a ready leading core does with a core-held SYSWR and with a branch, then the two statements. -/

namespace Sys2Proof.Machine

variable {s : State} {y : YokeId}

@[simp] theorem State.foldOf_setYoke (s : State) (y z : YokeId) (k : Yoke) : (s.setYoke y k).foldOf z = s.foldOf z := rfl

@[simp] theorem State.executed_lead (s : State) (y : YokeId) (i : CoreIns) (c : Core) (out : BusOut) :
    ((s.executed y i c out).yoke y).lead = c := by
  simp [State.executed]

/-- A SYSWR to a register that the core holds and that every ring may write, with no check of its own (R201, R202). -/
theorem State.issueSyswr_ready {num : BitVec 12} {src : Gpr} {f : FoldId} (h : s.Ready y (.syswr num src) 1)
    (hf : s.foldOf y = some f) (hp : sysPerm num (s.yoke y).lead.ring true = .ok) (ho : sysOutside num = false)
    (h0 : num.toNat ≠ 0x000) (h3 : num.toNat ≠ 0x003) (h40 : num.toNat ≠ 0x040) :
    s.issueSyswr y num src = s.executed y (.syswr num src)
      (((s.yoke y).lead.sysWrite num ((s.yoke y).lead.rd src)).step 4)
      { BusOut.none with sys := some (num, (s.yoke y).lead.rd src) } := by
  unfold State.issueSyswr
  rw [State.lead_ready h]
  · simp [hp, hf, ho, State.sysWriteIn, State.executed, CoreIns.run, CoreIns.sees, CoreIns.isRepeat, CoreIns.len]
  · simp [hp, hf, ho, State.sysWriteIn, h.debugger]
  · simp [hp, hf, ho, State.sysWriteIn, h.debug]

/-- BK may be written from every ring (R138). -/
theorem sysPerm_bk (ring : BitVec 2) (w : Bool) : sysPerm 0x001 ring w = .ok := rfl

/-- The value of a short address without a prefix (R138, R153). -/
theorem Core.ea_short_toNat (c : Core) (off : BitVec 24) :
    (c.ea (.short none off)).toNat = c.bk.toNat * 2 ^ 24 + off.toNat := by
  have h : (c.bk ++ off).toNat = c.bk.toNat <<< 24 ||| off.toNat := BitVec.toNat_append ..
  rw [← Nat.shiftLeft_add_eq_or_of_lt off.isLt, Nat.shiftLeft_eq] at h
  exact h

@[simp] theorem State.logRec_yoke (s : State) (sp : SpanId) (r : LogRec) (y : YokeId) : (s.logRec sp r).yoke y = s.yoke y := by
  unfold State.logRec; split <;> rfl

/-- A task starts from the core of its descriptor, with ST.DBG clear (R87, R291). -/
theorem State.startTask_lead (s : State) (y : YokeId) (d : TaskDesc) :
    ((s.startTask y d).yoke y).lead = { freshCore d with st := setBit (freshCore d).st 10 false } := by
  simp [State.startTask, Yoke.load]

/-- A relative target is the address of the byte after the branch plus the signed displacement, modulo 2^32 (R154). -/
theorem Core.target_rel (c : Core) (x : Half) (len : Nat) :
    c.target (.rel x) len = BitVec.ofInt 32 ((c.pc.toNat : Int) + len + x.toInt) := by
  have hpc : BitVec.ofInt 32 (c.pc.toNat : Int) = c.pc := by simp
  rw [BitVec.ofInt_add, BitVec.ofInt_add, hpc, BitVec.ofInt_natCast]
  rfl

section apply

variable (c : Core) (t : BrTarget) (src : Gpr) (cond : BitVec 4) (taken : Bool)

theorem BranchOp.apply_br : (BranchOp.br t).apply c true = { c with pc := c.target t (t.len 0), shadow := none } := rfl

theorem BranchOp.apply_brl : (BranchOp.brl t).apply c true =
    { c.wr 15 (c.pc + BitVec.ofNat 32 (t.len 0)) with pc := c.target t (t.len 0), shadow := none } := rfl

theorem BranchOp.apply_jr : (BranchOp.jr src).apply c true = { c with pc := c.rd src, shadow := none } := rfl

theorem BranchOp.apply_jrl : (BranchOp.jrl src).apply c true =
    { c.wr 15 (c.pc + 2) with pc := c.rd src, shadow := none } := rfl

theorem BranchOp.apply_ret : BranchOp.ret.apply c true = { c with pc := c.rd 15, shadow := none } := rfl

theorem BranchOp.apply_bcc : (BranchOp.bcc cond t).apply c taken =
    { c with pc := if taken then c.target t (t.len 1) else c.pc + BitVec.ofNat 32 (t.len 1), shadow := none } := rfl

theorem BranchOp.apply_loop : (BranchOp.loop t).apply c taken =
    { c with
      ct := c.ct - 1, pc := if taken then c.target t (t.len 0) else c.pc + BitVec.ofNat 32 (t.len 0), shadow := none } := rfl

/-- Bcc other than AL is predicted taken when it leads backward (R177). -/
theorem BranchOp.predicted_bcc (h : cond ≠ 14) :
    (BranchOp.bcc cond t).predicted c = decide ((c.target t (t.len 1)).toNat < c.pc.toNat) := if_neg h

/-- LOOP is predicted taken when it leads backward (R177). -/
theorem BranchOp.predicted_loop :
    (BranchOp.loop t).predicted c = decide ((c.target t (t.len 0)).toNat < c.pc.toNat) := rfl

end apply

/-- A control transfer that is not predicted is executed like any instruction of the core. -/
theorem State.issueBranch_ready {b : BranchOp} {c : Core} (h : s.Ready y (.branch b) 1) (hb : b.isPredicted = false)
    (ha : b.apply (s.yoke y).lead (b.taken (s.yoke y).lead) = c) :
    s.issueBranch y b = s.executed y (.branch b) c .none := by
  unfold State.issueBranch
  rw [State.lead_ready h]
  · simp [hb, State.executed, CoreIns.run, CoreIns.sees, CoreIns.isRepeat, ha]
  · simp [hb, h.debugger]
  · simp [hb, h.debug]

/-- The yoke after it has issued `i`, a branch predicted to go the way `p` that goes the way `t`, where `path` is the core on
either way: it follows the prediction and keeps the way the branch goes (R177). -/
def State.predicting (s : State) (y : YokeId) (i : CoreIns) (path : Bool → Core) (p t : Bool) : Yoke :=
  let e := (s.going y).push i (path p) .none [] none 0
  { e with branch := some ⟨e.seq, decide (p ≠ t), path t, e.retired⟩ }

/-- A predicted branch follows its prediction and keeps the way it goes (R177). -/
theorem State.issueBranch_predicted {b : BranchOp} {path : Bool → Core} {p t : Bool} (h : s.Ready y (.branch b) 1)
    (hb : b.isPredicted = true) (hp : b.predicted (s.yoke y).lead = p) (ht : b.taken (s.yoke y).lead = t)
    (ha : ∀ d, b.apply (s.yoke y).lead d = path d) :
    s.issueBranch y b = s.setYoke y (s.predicting y (.branch b) path p t) := by
  unfold State.issueBranch
  rw [State.lead_ready h]
  · simp [hb, hp, ht, ha, State.predicting]
  · simp [hb, h.debugger]
  · simp [hb, h.debug]

end Sys2Proof.Machine

namespace Sys2Proof.Claims

open Sys2Proof.Machine

/-- Settles O6: a short address is BK followed by its offset, and each of the three writers leaves its value in BK. -/
theorem bankRegisterSuppliesShortAddresses : Obligations.BankRegisterSuppliesShortAddresses := by
  refine ⟨Core.ea_short_toNat, fun s y b h => ?bkld, fun s y src f hf h => ?syswr, fun s y d => ?start⟩
  case bkld => exact ⟨_, congrArg Host.Outcome.next (State.issue_ready h), by rw [State.executed_lead]; rfl⟩
  case syswr =>
    have hi := State.issueSyswr_ready h hf (sysPerm_bk _ _) rfl (by decide) (by decide) (by decide)
    exact ⟨_, congrArg Host.Outcome.next hi, by
      rw [State.executed_lead]; exact BitVec.toNat_setWidth ..⟩
  case start => rw [State.startTask_lead]; rfl

/-- Settles O7: a transfer that is not predicted takes its core straight to its target; Bcc and LOOP take it along the predicted
path and keep the core of the way they really go. -/
theorem controlTransfersReachTheirTargets : Obligations.ControlTransfersReachTheirTargets := by
  intro s y t src cond disp _ c n dest loopTo go
  have hlen : ∀ j, t.len j = n + j := fun j => by cases t <;> rfl
  have hdest : ∀ len, c.target t len = dest len := fun len => by
    cases t with
    | rel x => exact c.target_rel x len
    | long a => rfl
  have hloop : c.target (.rel disp) ((BrTarget.rel disp).len 0) = loopTo := c.target_rel disp 3
  refine ⟨fun h => ?br, fun h => ?brl, fun h => ?jr, fun h => ?jrl, fun h => ?ret, fun hc h => ?always, fun hc h => ?bcc,
    fun h => ?loop⟩
  case br =>
    have ha : (BranchOp.br t).apply c true = go c (dest n) := by rw [BranchOp.apply_br, hlen, hdest]; rfl
    exact congrArg Host.Outcome.next (State.issueBranch_ready h rfl ha)
  case brl =>
    have ha : (BranchOp.brl t).apply c true = go (c.wr 15 (c.pc + BitVec.ofNat 32 n)) (dest n) := by
      rw [BranchOp.apply_brl, hlen, hdest]; rfl
    exact congrArg Host.Outcome.next (State.issueBranch_ready h rfl ha)
  case jr => exact congrArg Host.Outcome.next (State.issueBranch_ready h rfl (BranchOp.apply_jr c src))
  case jrl => exact congrArg Host.Outcome.next (State.issueBranch_ready h rfl (BranchOp.apply_jrl c src))
  case ret => exact congrArg Host.Outcome.next (State.issueBranch_ready h rfl (BranchOp.apply_ret c))
  case always =>
    subst hc
    have ha : (BranchOp.bcc 14 t).apply c true = go c (dest (n + 1)) := by rw [BranchOp.apply_bcc, hlen, hdest]; rfl
    exact congrArg Host.Outcome.next (State.issueBranch_ready h rfl ha)
  case bcc =>
    intro _ back path _
    have h14 : cond ≠ 14 := fun he => by simp [he] at hc
    have h15 : cond ≠ 15 := fun he => by simp [he] at hc
    have ha : ∀ b, (BranchOp.bcc cond t).apply c b = path b := fun b => by rw [BranchOp.apply_bcc, hlen, hdest]
    have hp : (BranchOp.bcc cond t).predicted c = back := by rw [BranchOp.predicted_bcc _ _ _ h14, hlen, hdest]
    have hi := State.issueBranch_predicted h (decide_eq_true h14) hp rfl ha
    exact congrArg Host.Outcome.next ((if_neg h15).trans hi)
  case loop =>
    intro _ _ back path _
    have ha : ∀ b, (BranchOp.loop (.rel disp)).apply c b = path b := fun b => by rw [BranchOp.apply_loop, hloop]; rfl
    have hp : (BranchOp.loop (.rel disp)).predicted c = back := by rw [BranchOp.predicted_loop, hloop]
    exact congrArg Host.Outcome.next (State.issueBranch_predicted h rfl hp rfl ha)

end Sys2Proof.Claims
end

section
/-! PROOFS of the family of chapter 5: the ALU operations (R161, R180, R181, R214), alone and as iterations of a repeat (R158,
R169 to R171). First what a ready leading core does with one, then the results and the flags in integers, then the core after an
operation and after one iteration, then the statement. -/

namespace Sys2Proof.Machine

/-- REP passes the check of its start when it has started already or has no more than 1,024 iterations (R170). -/
theorem Core.repCheck_eq_none {c : Core} {rep : Rep} (h : rep = .rep → c.ra = true ∨ c.ct.toNat ≤ 1024) :
    c.repCheck rep = none := by
  refine if_neg fun ⟨hrep, hra, hct⟩ => ?_
  cases h hrep with
  | inl hra' => exact Bool.false_ne_true (hra.symm.trans hra')
  | inr hct' => omega

section alu

variable {s : State} {y : YokeId} {op : AluOp} {wide : Bool} {rep : Rep} {d : Gpr} {a : AluArg}

/-- An ALU operation that is no repeat sees the core as it is and steps past itself (R161). -/
theorem CoreIns.run_alu_once (c : Core) (x : CoreIn) :
    (CoreIns.alu op wide .once d a).run c x = ((c.aluOn op wide d a).step (aluLen wide .once a), .none) := rfl

/-- A repeat is in no load shadow (R158) and performs one iteration while CT is not 0 (R169). -/
theorem CoreIns.run_alu_repeat (c : Core) (x : CoreIn) (hr : rep ≠ .once) :
    (CoreIns.alu op wide rep d a).run c x =
      (if c.ct = 0 then Core.endRepeat { c with shadow := none } (aluLen wide rep a)
        else (Core.aluOn { c with shadow := none } op wide d a).iterate rep (aluLen wide rep a), .none) := by
  have hs : (CoreIns.alu op wide rep d a).sees c = { c with shadow := none } := if_pos (by simpa [CoreIns.isRepeat] using hr)
  unfold CoreIns.run
  simp only [hs, hr, ne_eq, not_false_eq_true, true_and, CoreIns.len]
  split <;> rfl

/-- A legal ALU operation whose repeat may start is executed like any instruction of the core (R135, R152, R170). -/
theorem State.issueAlu_ready (hl : aluLegal wide rep d a = true) (h : s.Ready y (.alu op wide rep d a) 1)
    (hc : rep = .rep → (s.yoke y).lead.ra = true ∨ (s.yoke y).lead.ct.toNat ≤ 1024) :
    s.issueAlu y op wide rep d a = s.executed y (.alu op wide rep d a)
      ((CoreIns.alu op wide rep d a).run (s.yoke y).lead ⟨[], 0⟩).1 .none := by
  have hcheck : ((CoreIns.alu op wide rep d a).sees (s.yoke y).lead).repCheck rep = none := by
    apply Core.repCheck_eq_none
    unfold CoreIns.sees
    split <;> exact hc
  have hout : ((CoreIns.alu op wide rep d a).run (s.yoke y).lead ⟨[], 0⟩).2 = .none := by
    by_cases hr : rep = .once
    · subst hr; rfl
    · rw [CoreIns.run_alu_repeat _ _ hr]
  rw [State.issueAlu, if_pos hl, State.issueWhen_ready h _ hcheck, hout]

end alu

end Sys2Proof.Machine

namespace Sys2Proof.Claims

open Sys2Proof.Machine

section results

variable {w : Nat}

/-- The model's test of V is the one of Table 6.1. -/
theorem signedOverflow_eq_outOfRange (x : Int) : signedOverflow w x = outOfRange w x := by
  simp [signedOverflow, outOfRange, Bool.decide_or]

/-- The flags of a result, where Z and N are read off its bits. -/
theorem flags_eq_flagsOf (r : BitVec w) (c v : Option Bool) :
    (⟨some (r == 0), some r.msb, c, v⟩ : FlagUpd) = flagsOf r c v := by
  have hz : (r == 0) = decide (r.toNat = 0) := decide_eq_decide.mpr (by rw [BitVec.toNat_eq]; rfl)
  rw [hz, BitVec.msb_eq_getLsbD_last, flagsOf]

/-- The bitwise operations write Z and N alone (R180). -/
theorem flagsZN_eq_flagsOf (r : BitVec w) : flagsZN r = flagsOf r none none := flags_eq_flagsOf r none none

/-- Adding words modulo 2^w is adding their values and cutting the sum (Table 6.1). -/
theorem addFlags_eq_sumOf (a b : BitVec w) (c : Bool) : addFlags a b c = sumOf a b c.toNat := by
  have hr : a + b + BitVec.ofNat w c.toNat = BitVec.ofNat w (a.toNat + b.toNat + c.toNat) := by
    simp [BitVec.ofNat_add]
  simp only [addFlags, sumOf, hr, flags_eq_flagsOf, signedOverflow_eq_outOfRange, ge_iff_le]

/-- Subtracting words modulo 2^w is subtracting their values and cutting the difference (Table 6.1). -/
theorem subFlags_eq_differenceOf (a b : BitVec w) (c : Bool) : subFlags a b c = differenceOf a b c.toNat := by
  have hr : a - b - BitVec.ofNat w c.toNat = BitVec.ofInt w ((a.toNat : Int) - b.toNat - c.toNat) := by
    simp [Int.sub_eq_add_neg, BitVec.ofInt_add, BitVec.ofInt_neg, BitVec.sub_eq_add_neg]
  simp only [subFlags, differenceOf, hr, flags_eq_flagsOf, signedOverflow_eq_outOfRange]

/-- A left shift multiplies by a power of 2 and cuts the product (R181). -/
theorem shiftLeft_eq_ofNat (a : BitVec w) (n : Nat) : a <<< n = BitVec.ofNat w (a.toNat * 2 ^ n) :=
  BitVec.eq_of_toNat_eq (by simp [Nat.shiftLeft_eq])

/-- A logical right shift divides the value by a power of 2 (R181). -/
theorem ushiftRight_eq_ofNat (a : BitVec w) (n : Nat) : a >>> n = BitVec.ofNat w (a.toNat / 2 ^ n) := by
  rw [← Nat.shiftRight_eq_div_pow, ← BitVec.toNat_ushiftRight, BitVec.ofNat_toNat, BitVec.setWidth_eq]

/-- An arithmetic right shift divides the signed value by a power of 2, rounding down (R181). -/
theorem sshiftRight_eq_ofInt (a : BitVec w) (n : Nat) : a.sshiftRight n = BitVec.ofInt w (a.toInt / 2 ^ n) := by
  rw [BitVec.sshiftRight_eq, Int.shiftRight_eq_div_pow, Nat.cast_pow, Nat.cast_ofNat]

/-- SHL: the last bit moved out is bit w - n of D; a count of 0 keeps C (R181). -/
theorem shiftFlags_shl (a : BitVec w) (n : Nat) : shiftFlags .shl a n =
    (BitVec.ofNat w (a.toNat * 2 ^ n), flagsOf (BitVec.ofNat w (a.toNat * 2 ^ n)) (shiftedOut a n (w - n)) none) := by
  rw [← shiftLeft_eq_ofNat, ← flags_eq_flagsOf]; rfl

/-- SHR: the last bit moved out is bit n - 1 of D (R181). -/
theorem shiftFlags_shr (a : BitVec w) (n : Nat) : shiftFlags .shr a n =
    (BitVec.ofNat w (a.toNat / 2 ^ n), flagsOf (BitVec.ofNat w (a.toNat / 2 ^ n)) (shiftedOut a n (n - 1)) none) := by
  rw [← ushiftRight_eq_ofNat, ← flags_eq_flagsOf]; rfl

/-- SAR: the last bit moved out is bit n - 1 of D (R181). -/
theorem shiftFlags_sar (a : BitVec w) (n : Nat) : shiftFlags .sar a n =
    (BitVec.ofInt w (a.toInt / 2 ^ n), flagsOf (BitVec.ofInt w (a.toInt / 2 ^ n)) (shiftedOut a n (n - 1)) none) := by
  rw [← sshiftRight_eq_ofInt, ← flags_eq_flagsOf]; rfl

/-- Every ALU operation computes the result and the flags that Tables 4.10, 5.2 and 6.1 give in integers, at every width. -/
theorem aluEval_eq_aluResult (op : AluOp) (a b : BitVec w) (c : Bool) : aluEval op a b c = aluResult op a b c := by
  cases op with
  | add | adc => simp [aluEval, aluResult, addFlags_eq_sumOf]
  | sub | sbc | cmp => simp [aluEval, aluResult, subFlags_eq_differenceOf]
  | and | or | xor | andn | tst => simp [aluEval, aluResult, flagsZN_eq_flagsOf]
  | shl => simp [aluEval, aluResult, shiftFlags_shl]
  | shr => simp [aluEval, aluResult, shiftFlags_shr]
  | sar => simp [aluEval, aluResult, shiftFlags_sar]
  | mov => rfl

end results

/-- The fourteen commands of Table 4.10 issue their operation and do nothing else. -/
theorem exec_aluCmd (op : AluOp) (y : YokeId) (wide : Bool) (rep : Rep) (d : Gpr) (a : AluArg) (s : State) :
    exec (aluCmd op y wide rep d a) s = .next (s.issueAlu y op wide rep d a) := by
  cases op <;> rfl

/-- The core writes exactly the result and the flags of the tables, to a register or under WIDE to a pair (R152, R161). -/
theorem aluOn_eq_aluCore (c : Core) (op : AluOp) (wide : Bool) (d : Gpr) (a : AluArg) :
    c.aluOn op wide d a = aluCore c op wide d a := by
  unfold aluCore
  simp only [← aluEval_eq_aluResult]
  rfl

/-- The end of an iteration counts CT down, and PC moves on with the last one (R169, R171). -/
theorem iterate_eq_iterated (c : Core) {rep : Rep} (len : Nat) (hr : rep ≠ .once) : c.iterate rep len = iterated c rep len := by
  cases rep with
  | once => exact absurd rfl hr
  | rep | repi =>
    by_cases hct : c.ct - 1 = 0
    · simp only [Core.iterate, iterated, hct, if_true, ne_eq, not_true, false_and]; rfl
    · simp only [Core.iterate, iterated, hct, if_false, ne_eq, not_false_iff, true_and]; rfl

/-- Settles O1: a legal ALU operation is issued to its ready core, which it leaves with the result of the tables, stepped past
the instruction or iterated. -/
theorem aluOperationsAndTheirRepeatsWriteResults : Obligations.AluOperationsAndTheirRepeatsWriteResults := by
  refine ⟨fun s y op wide d a hl h => ?once, fun s y op wide rep d a hr hl h hc => ?iteration⟩
  case once => rw [exec_aluCmd, State.issueAlu_ready hl h (fun he => by cases he), CoreIns.run_alu_once, aluOn_eq_aluCore]
  case iteration =>
    rw [exec_aluCmd, State.issueAlu_ready hl h hc, CoreIns.run_alu_repeat _ _ hr, aluOn_eq_aluCore, iterate_eq_iterated _ _ hr]
    rfl

end Sys2Proof.Claims
end
